-- ==== Sys2Proof/Word.lean ====
section
/-! DEFINITION. The word types of the LN2 (00, R4: bit 0 is the least significant bit; little-endian). -/

namespace Sys2Proof

/-- A byte of memory or scratchpad. -/
abbrev Byte := BitVec 8
/-- A 32-bit register lane, an instruction word, a scratchpad address. -/
abbrev Word := BitVec 32
/-- A 64-bit uniform register, a register pair, a virtual address, a position. -/
abbrev DWord := BitVec 64
/-- The 128 bytes of a cache line (R98), byte 0 in bits [7:0]. -/
abbrev LineData := BitVec 1024

end Sys2Proof
end

