-- ==== Sys2Proof/Config.lean ====
section
/-! DEFINITION. What the spec leaves to the implementation or calls unpredictable: opaque constants without a body
(log 4, log 5, log 12), and the fixed figures of the package (01, 04). -/

namespace Sys2Proof.Config

/-- The free values (R9 "unpredictable value"; log 4), drawn by the counter `State.freeCtr`. -/
opaque freeValue : Nat → BitVec 64

/-- The transcendental results of R252 for inputs whose result the spec does not fix exactly (log 5).
`rcpUp` and `rsqUp` choose between the two neighbours of the exact value, which keeps the bound of 1 ulp. -/
opaque rcpUp : BitVec 32 → Bool
opaque rsqUp : BitVec 32 → Bool
opaque exp2 : BitVec 32 → BitVec 32
opaque log2 : BitVec 32 → BitVec 32
opaque sin : BitVec 32 → BitVec 32
opaque cos : BitVec 32 → BitVec 32
opaque tanh : BitVec 32 → BitVec 32

/-- Whether the engine freezes an interrupted k-step, and the image version of a die's engine (R297, R298). -/
opaque freezes : Nat → Bool
opaque imageVersion : Nat → Nat

/-- Whether a frame's contents compress, and into how many 2 KiB granules (R93, R94); by device frame and a free count. -/
opaque compressedGranules : Nat → Nat → Nat

/-- Named algorithms of which the spec gives no text or no parameters (log 12): CRC-64 and AES-GCM over a flit
(R405, R407), Ed448ph and SHAKE256 (R411 to R414). -/
opaque crc64 : List Byte → BitVec 64
opaque gcmTag : (port gen sealCtr : Nat) → List Byte → BitVec 128
opaque signatureOk : (kind imgid seqv : Nat) → List Byte → Bool
opaque shake256 : (bytes : Nat) → List Byte → List Byte
opaque deviceSign : List Byte → List Byte

/-- The identity certificate and the link identity end (R407, R411). -/
opaque certificate : List Byte
opaque linkEnd : Nat → Bool

/-- By port: whether the record enables it, whether its training succeeds, and the far end's port (R407, R410, R415). -/
opaque linkEnabled : Nat → Bool
opaque linkTrains : Nat → Bool
opaque farPort : Nat → Nat

/-- R411: the flash as the module is delivered, slot by slot: kind (1 firmware image, 2 configuration record), image number,
security version, payload, and whether the slot is the active one of its pair; and the bytes a slot can hold (log 13). -/
opaque flash : List (Nat × Nat × Nat × List (BitVec 8) × Bool)
opaque slotBytes : (kind imgid : Nat) → Nat

/-- R413: whether a host physical address is reachable from the device (log 13). -/
opaque hostReachable : Nat → Bool

/-- R411, R416: the record's power limit, in W. -/
opaque powerLimit : Nat

/-- R404: the words of the capability list. -/
opaque capabilities : List (BitVec 32)

/-- R402: the bus address of the peer window, which the host assigns (log 13). -/
opaque peerBase : Nat

/-- The physical core behind each enabled core (R12): which 18 of the 20 are enabled is the configuration record's. -/
opaque enabledMask : Nat → BitVec 20

/-- R100: the set of a slice that a line belongs to, and which of a set's lines leaves for another, by a free count. -/
opaque sliceSet : Nat → Nat
opaque victim : Nat → Nat

/-- R71: the sizes of the moraine zone and of the firn heap in GiB, which the configuration record sets. -/
opaque moraineGib : Nat
opaque firnGib : Nat

/-- R403: whether the host's link negotiates CXL.cache. -/
opaque cxlCache : Bool

/-- Whether MRBASE's address lies in host memory, and the vector of a memory request's interrupt (R83), of which the spec
gives neither (log 17). -/
opaque ringInHost : Nat → Bool
opaque mrVector : Nat

/-- Dies, cores and slices (R11 to R13). -/
def shaderDies : Nat := 8
def coresPerDie : Nat := 18
def cores : Nat := 144
def slicesPerDie : Nat := 32
/-- FE's number among the timer groups (R21, R346). -/
def feDie : Nat := 8
/-- Granules of a partition, of a warp at most, and of a cairn slot's reserve (R16, R17). -/
def partitionGranules : Nat := 256
def cairnGranules : Nat := 40
/-- Scratchpad bytes of a core (R196). -/
def scratchBytes : Nat := 1572864
/-- Limits: TLB entries (R15), monitors a slice (R146), routine cache entries (R138), copy operations an engine and a
token (R175), matrix operations an engine and a token (R271), XREADs a core and at FE (R189), keeper entries (R110). -/
def tlbEntries : Nat := 4096
/-- R15: outstanding memory requests per core. -/
def coreRequests : Nat := 2048
def monitorEntries : Nat := 256
/-- R100: sets of a slice, its ways, and the ways of a set that may hold rime copies; R110: degree entries it caches. -/
def sliceSets : Nat := 1024
def sliceWays : Nat := 16
def copyWays : Nat := 4
def degreeEntries : Nat := 256
def rtCacheEntries : Nat := 256
def copyOps : Nat := 64
def copyOpsPerToken : Nat := 16
def matrixOps : Nat := 16
def matrixOpsPerToken : Nat := 8
def xreadsPerCore : Nat := 256
def xreadsAtFe : Nat := 16384
def keeperEntries : Nat := 8192
def queueSlots : Nat := 64
def userQueues : Nat := 4096

end Sys2Proof.Config
end

