-- ==== Sys2Proof/Syntax.lean ====
section
/-! DEFINITION. The syntax: the operand forms of an instruction word (02, R35 to R45), the contents of the device's own
steps (95), and the one inductive `Instr` with a constructor for every row of spec/opcode_table.json. -/

namespace Sys2Proof

/-- Execution scope (R35, SCOPE). -/
inductive Scope where
  | lane | warp | set | block
  deriving DecidableEq, Repr

/-- PNEG, PRED and SCOPE of the first word (R35). -/
structure Guard where
  pneg : Bool
  pred : BitVec 3
  scope : Scope
  deriving DecidableEq, Repr

/-- Operand type (R43); value 15 is reserved and has no constructor. -/
inductive Ty where
  | u32 | s32 | u64 | s64 | f32 | f16 | bf16 | f16x2 | bf16x2 | u16 | s16 | u8 | s8 | b32 | fmt
  deriving DecidableEq, Repr

/-- Rounding mode (R44). -/
inductive Rnd where
  | rn | rz | rm | rp | ra
  deriving DecidableEq, Repr

/-- A source operand of a 96-bit form by its class (R39), or the literal (R42). -/
inductive Src where
  | vec (n : BitVec 9) (trap : Bool)
  | uni (n : BitVec 9)
  | special (code : BitVec 9)
  | imm (v : BitVec 9)
  | lit (v : DWord)
  deriving DecidableEq, Repr

/-- A destination of a 96-bit form by DCL (R38, R39). -/
inductive Dst where
  | vec (n : BitVec 9)
  | uni (n : BitVec 9)
  | pred (n : BitVec 9)
  deriving DecidableEq, Repr

/-- The operands of a three-word form, or of a one-word form with a literal (`short`, LEN = 10). -/
structure XForm where
  short : Bool
  dst : Dst
  a : Src
  b : Src
  c : Src
  sub : BitVec 6
  ty : Ty
  rnd : Rnd
  sat : Bool
  fmt : BitVec 3
  deriving DecidableEq, Repr

/-! ## Contents of the device's own steps -/

/-- Where a variable-latency result goes: `count` registers from `reg`, or a uniform register. -/
inductive WbDst where
  | vec (reg count : Nat)
  | uni (n : Nat)
  deriving DecidableEq, Repr

/-- What a write-back carries: a value, or the read it makes when it happens (a window read of LDW, a take of RPOP). -/
inductive WbSrc where
  | value (v : BitVec 128)
  | window (warp reg lane : Nat) (take : Bool)
  | ring (core qcw : Nat)
  deriving DecidableEq, Repr

/-- A V-class result on its way to its destination (R34). -/
structure WriteBack where
  id : Nat
  warp : Nat
  lane : Nat
  dst : WbDst
  src : WbSrc
  /-- The position of its instruction (R391), and its issue's number. -/
  insn : DWord
  batch : Nat
  deriving DecidableEq, Repr

/-- A read on its way to its home slice, or to FE for a host page (R80, R99, R103). -/
structure ReadReq where
  id : Nat
  warp : Nat
  lane : Nat
  core : Nat
  asid : Nat
  gen : Nat
  va : DWord
  pa : Nat
  host : Bool
  bytes : Nat
  ty : Ty
  ca : Bool
  dst : WbDst
  insn : DWord
  /-- The number of its issue, which its other lanes share (R211). -/
  batch : Nat
  /-- It reads what an engine may still be writing: its value is unpredictable (R177, R189, R285). -/
  raced : Bool
  deriving DecidableEq, Repr

/-- Memory scopes (R304) in the encoding of K[3:2] (R314). -/
inductive MemScope where
  | dev | blk | sys
  deriving DecidableEq, Repr

/-- A GWCT on its way back to the issuing warp (R311). -/
structure StoreAck where
  id : Nat
  warp : Nat
  lane : Nat
  gwct : Nat
  scope : MemScope
  isStore : Bool
  deriving DecidableEq, Repr

/-- An invocation of a line routine on its way to its slice (R142). -/
structure Invocation where
  id : Nat
  warp : Nat
  lane : Nat
  core : Nat
  asid : Nat
  gen : Nat
  version : Nat
  va : DWord
  pa : Nat
  rid : Nat
  n : Nat
  a0 : Word
  a1 : Word
  a2 : Word
  a3 : Word
  det : Bool
  ret : Option Nat
  scope : MemScope
  insn : DWord
  /-- The number of its issue, which its other lanes share (R124). -/
  batch : Nat
  deriving DecidableEq, Repr

/-- Who waits for a write's GWCT (R106, R123, R311, R189, R291). -/
inductive Waiter where
  | store (warp lane id : Nat)
  | copy (core id : Nat)
  | drain (core id : Nat)
  | xread (id : Nat)
  | invocation (v : Invocation) (ret : DWord)
  /-- R368: an MSI-X vector, raised once the GWCT has passed. -/
  | interrupt (vector : Nat)
  | none
  deriving DecidableEq, Repr

/-- A write on its way to its home slice (R106): `bytes` bytes of `data` from its low end. -/
structure WriteReq where
  waiter : Waiter
  core : Nat
  asid : Nat
  gen : Nat
  va : DWord
  pa : Nat
  host : Bool
  bytes : Nat
  data : BitVec 128
  /-- The number of its issue, which its other lanes share (R211). -/
  batch : Nat
  deriving DecidableEq, Repr

/-- What an invocation returns (R127, R142). -/
inductive RtResult where
  | ok (ret : DWord) (gwct : Nat)
  | fault (code abort : Nat)
  | stale
  deriving DecidableEq, Repr

structure RtReturn where
  inv : Invocation
  result : RtResult
  deriving DecidableEq, Repr

/-- A window write on its way to, or held at, its target lane (R203, R215). -/
structure WinWrite where
  id : Nat
  srcWarp : Nat
  srcLane : Nat
  warp : Nat
  reg : Nat
  lane : Nat
  data : Word
  /-- The position of its instruction (R391), and its issue's number (R215). -/
  insn : DWord
  batch : Nat
  deriving DecidableEq, Repr

/-- Comparators of WAITCMP (R152). -/
inductive Cmp where
  | eq | ne | ltu | geu | lts | ges
  deriving DecidableEq, Repr

/-- Key of a monitor entry (R146): `wide` is a 64-bit word. -/
structure MonKey where
  asid : Nat
  pa : Nat
  host : Bool
  wide : Bool
  cmp : Cmp
  value : DWord
  deriving DecidableEq, Repr

/-- A fault report (R393). -/
structure Report where
  cls : Nat
  cause : Nat
  aux0 : Nat
  aux1 : Nat
  step : Nat
  deferred : Bool
  tval : DWord
  deriving DecidableEq, Repr

/-- A memory request record (R83). -/
structure MemRequest where
  flags : Nat
  asid : Nat
  va : DWord
  len : DWord
  addr : DWord
  attr : Word
  seq : Nat
  signal : DWord
  slot : Option Nat
  deriving DecidableEq, Repr

/-- A Kwaden flit by its fields (R405); `good` bytes are carried whole in `payload`, `tag` and `crc`. -/
structure Flit where
  seq : Nat
  kgen : Bool
  enc : Bool
  type : Nat
  len : Nat
  payload : List Byte
  tag : BitVec 128
  crc : BitVec 64
  deriving DecidableEq, Repr

/-- The event records of R373: queue error, stale write, line loss. -/
structure EventRec where
  type : Nat
  qid : Nat
  count : Nat
  seq : Nat
  d0 : DWord
  d1 : DWord
  deriving DecidableEq, Repr

/-- Register window values installed by a calibration (R21). -/
structure Calibration where
  ofs : DWord
  rate : Word
  skew : BitVec 8
  deriving DecidableEq, Repr

/-- Where a soft error is found (R117). -/
inductive ErrorStage where
  | hbm | slice | mesh | link
  deriving DecidableEq, Repr

/-- The instructions and device steps of spec/opcode_table.json, one constructor a row, in the table's order.
One-word forms carry their fields; `X` forms carry the extension; the device's own steps carry their contents. -/
inductive Instr where
  /-- NOP (R337). -/
  | nop (g : Guard)
  /-- YIELD (R337). -/
  | yield (g : Guard)
  /-- BRA (R49). -/
  | bra (g : Guard) (o : BitVec 17)
  /-- BRA_LIT (R49). -/
  | braLit (g : Guard) (lit : DWord)
  /-- BRX (R50). -/
  | brx (g : Guard) (a : BitVec 6)
  /-- BRX_X (R333). -/
  | brxX (g : Guard) (x : XForm)
  /-- CALL (R334). -/
  | call (g : Guard) (o : BitVec 17)
  /-- CALL_LIT (R334). -/
  | callLit (g : Guard) (lit : DWord)
  /-- CALLX (R334). -/
  | callx (g : Guard) (a : BitVec 6)
  /-- CALLX_X (R334). -/
  | callxX (g : Guard) (x : XForm)
  /-- RET (R334). -/
  | ret (g : Guard)
  /-- EXIT (R327). -/
  | exit (g : Guard)
  /-- TRAP (R336). -/
  | trap (g : Guard) (c : BitVec 6)
  /-- BRK (R336). -/
  | brk (g : Guard) (c : BitVec 6)
  /-- TRAPRET (R336). -/
  | trapret (g : Guard) (k : BitVec 1)
  /-- BAR (R339). -/
  | bar (g : Guard)
  /-- BAR_NAMED (R339). -/
  | barNamed (g : Guard) (i : BitVec 4)
  /-- BAR_X (R338). -/
  | barX (g : Guard) (x : XForm)
  /-- SETDECL (R341). -/
  | setdecl (g : Guard) (x : XForm)
  /-- SETFREE (R341). -/
  | setfree (g : Guard) (x : XForm)
  /-- RDSR (R342). -/
  | rdsr (g : Guard) (a : BitVec 6) (d : BitVec 6)
  /-- RDSR_X (R342). -/
  | rdsrX (g : Guard) (x : XForm)
  /-- IDEMB (R343). -/
  | idemb (g : Guard)
  /-- IDEME (R343). -/
  | ideme (g : Guard)
  /-- PROG (R344). -/
  | prog (g : Guard) (v : BitVec 5)
  /-- PROG_X (R344). -/
  | progX (g : Guard) (x : XForm)
  /-- WAITF (R345). -/
  | waitf (g : Guard) (a : BitVec 6) (d : BitVec 6)
  /-- WAITF_X (R345). -/
  | waitfX (g : Guard) (x : XForm)
  /-- REGGIVE (R205). -/
  | reggive (g : Guard) (x : XForm)
  /-- REGCLAIM (R205). -/
  | regclaim (g : Guard) (x : XForm)
  /-- REGCLAIM_GRANT (R205). -/
  | regclaimGrant (wait : Nat)
  /-- IADD (R244). -/
  | iadd (g : Guard) (b : BitVec 5) (a : BitVec 6) (d : BitVec 6)
  /-- IADD_X (R244). -/
  | iaddX (g : Guard) (x : XForm)
  /-- ISUB (R244). -/
  | isub (g : Guard) (b : BitVec 5) (a : BitVec 6) (d : BitVec 6)
  /-- ISUB_X (R244). -/
  | isubX (g : Guard) (x : XForm)
  /-- IADD3 (R244). -/
  | iadd3 (g : Guard) (x : XForm)
  /-- IMUL (R244). -/
  | imul (g : Guard) (b : BitVec 5) (a : BitVec 6) (d : BitVec 6)
  /-- IMUL_X (R244). -/
  | imulX (g : Guard) (x : XForm)
  /-- IMULH (R244). -/
  | imulh (g : Guard) (b : BitVec 5) (a : BitVec 6) (d : BitVec 6)
  /-- IMULH_X (R244). -/
  | imulhX (g : Guard) (x : XForm)
  /-- IMAD (R244). -/
  | imad (g : Guard) (b : BitVec 5) (a : BitVec 6) (d : BitVec 6)
  /-- IMAD_X (R244). -/
  | imadX (g : Guard) (x : XForm)
  /-- IMADW (R244). -/
  | imadw (g : Guard) (x : XForm)
  /-- SHL (R244). -/
  | shl (g : Guard) (i : BitVec 5) (a : BitVec 6) (d : BitVec 6)
  /-- SHL_X (R244). -/
  | shlX (g : Guard) (x : XForm)
  /-- SHR (R244). -/
  | shr (g : Guard) (i : BitVec 5) (a : BitVec 6) (d : BitVec 6)
  /-- SHR_X (R244). -/
  | shrX (g : Guard) (x : XForm)
  /-- SAR (R244). -/
  | sar (g : Guard) (i : BitVec 5) (a : BitVec 6) (d : BitVec 6)
  /-- SAR_X (R244). -/
  | sarX (g : Guard) (x : XForm)
  /-- SHF (R246). -/
  | shf (g : Guard) (x : XForm)
  /-- AND (R244). -/
  | and (g : Guard) (b : BitVec 5) (a : BitVec 6) (d : BitVec 6)
  /-- AND_X (R244). -/
  | andX (g : Guard) (x : XForm)
  /-- OR (R244). -/
  | or (g : Guard) (b : BitVec 5) (a : BitVec 6) (d : BitVec 6)
  /-- OR_X (R244). -/
  | orX (g : Guard) (x : XForm)
  /-- XOR (R244). -/
  | xor (g : Guard) (b : BitVec 5) (a : BitVec 6) (d : BitVec 6)
  /-- XOR_X (R244). -/
  | xorX (g : Guard) (x : XForm)
  /-- BFN (R246). -/
  | bfn (g : Guard) (x : XForm)
  /-- POPC (R244). -/
  | popc (g : Guard) (a : BitVec 6) (d : BitVec 6)
  /-- POPC_X (R244). -/
  | popcX (g : Guard) (x : XForm)
  /-- CLZ (R244). -/
  | clz (g : Guard) (a : BitVec 6) (d : BitVec 6)
  /-- CLZ_X (R244). -/
  | clzX (g : Guard) (x : XForm)
  /-- BREV (R244). -/
  | brev (g : Guard) (a : BitVec 6) (d : BitVec 6)
  /-- BREV_X (R244). -/
  | brevX (g : Guard) (x : XForm)
  /-- BFX (R246). -/
  | bfx (g : Guard) (x : XForm)
  /-- BFI (R246). -/
  | bfi (g : Guard) (x : XForm)
  /-- BPACK (R246). -/
  | bpack (g : Guard) (x : XForm)
  /-- IMIN (R244). -/
  | imin (g : Guard) (b : BitVec 5) (a : BitVec 6) (d : BitVec 6)
  /-- IMIN_X (R244). -/
  | iminX (g : Guard) (x : XForm)
  /-- IMAX (R244). -/
  | imax (g : Guard) (b : BitVec 5) (a : BitVec 6) (d : BitVec 6)
  /-- IMAX_X (R244). -/
  | imaxX (g : Guard) (x : XForm)
  /-- IABS (R244). -/
  | iabs (g : Guard) (a : BitVec 6) (d : BitVec 6)
  /-- IABS_X (R245). -/
  | iabsX (g : Guard) (x : XForm)
  /-- ISEL (R247). -/
  | isel (g : Guard) (x : XForm)
  /-- ICMP (R247). -/
  | icmp (g : Guard) (b : BitVec 5) (a : BitVec 6) (d : BitVec 3)
  /-- ICMP_X (R247). -/
  | icmpX (g : Guard) (x : XForm)
  /-- IADDMIN (R244). -/
  | iaddmin (g : Guard) (x : XForm)
  /-- IADDMAX (R244). -/
  | iaddmax (g : Guard) (x : XForm)
  /-- LEA (R244). -/
  | lea (g : Guard) (x : XForm)
  /-- MOV (R244). -/
  | mov (g : Guard) (a : BitVec 6) (d : BitVec 6)
  /-- MOV_X (R244). -/
  | movX (g : Guard) (x : XForm)
  /-- MOVI (R244). -/
  | movi (g : Guard) (i : BitVec 5) (d : BitVec 6)
  /-- MOVI_X (R244). -/
  | moviX (g : Guard) (x : XForm)
  /-- MOVQ_PACK (R247). -/
  | movqPack (g : Guard) (d : BitVec 6)
  /-- MOVQ_UNPACK (R247). -/
  | movqUnpack (g : Guard) (a : BitVec 6)
  /-- MOVQ_X (R247). -/
  | movqX (g : Guard) (x : XForm)
  /-- QOP (R247). -/
  | qop (g : Guard) (x : XForm)
  /-- CVTI (R248). -/
  | cvti (g : Guard) (t : BitVec 5) (a : BitVec 6) (d : BitVec 6)
  /-- CVTI_X (R248). -/
  | cvtiX (g : Guard) (x : XForm)
  /-- FADD (R249). -/
  | fadd (g : Guard) (b : BitVec 5) (a : BitVec 6) (d : BitVec 6)
  /-- FADD_X (R249). -/
  | faddX (g : Guard) (x : XForm)
  /-- FMUL (R249). -/
  | fmul (g : Guard) (b : BitVec 5) (a : BitVec 6) (d : BitVec 6)
  /-- FMUL_X (R249). -/
  | fmulX (g : Guard) (x : XForm)
  /-- FFMA (R249). -/
  | ffma (g : Guard) (b : BitVec 5) (a : BitVec 6) (d : BitVec 6)
  /-- FFMA_X (R249). -/
  | ffmaX (g : Guard) (x : XForm)
  /-- FMIN (R251). -/
  | fmin (g : Guard) (b : BitVec 5) (a : BitVec 6) (d : BitVec 6)
  /-- FMIN_X (R251). -/
  | fminX (g : Guard) (x : XForm)
  /-- FMAX (R251). -/
  | fmax (g : Guard) (b : BitVec 5) (a : BitVec 6) (d : BitVec 6)
  /-- FMAX_X (R251). -/
  | fmaxX (g : Guard) (x : XForm)
  /-- FCMP (R251). -/
  | fcmp (g : Guard) (b : BitVec 5) (a : BitVec 6) (d : BitVec 3)
  /-- FCMP_X (R251). -/
  | fcmpX (g : Guard) (x : XForm)
  /-- FADDMIN (R250). -/
  | faddmin (g : Guard) (x : XForm)
  /-- FCLASS (R251). -/
  | fclass (g : Guard) (a : BitVec 6) (d : BitVec 6)
  /-- FCLASS_X (R251). -/
  | fclassX (g : Guard) (x : XForm)
  /-- FRND (R251). -/
  | frnd (g : Guard) (a : BitVec 6) (d : BitVec 6)
  /-- FRND_X (R251). -/
  | frndX (g : Guard) (x : XForm)
  /-- RCP (R252). -/
  | rcp (g : Guard) (a : BitVec 6) (d : BitVec 6)
  /-- RSQ (R252). -/
  | rsq (g : Guard) (a : BitVec 6) (d : BitVec 6)
  /-- SQRT (R252). -/
  | sqrt (g : Guard) (a : BitVec 6) (d : BitVec 6)
  /-- RCP_RSQ_SQRT_X (R252). -/
  | rcpRsqSqrtX (g : Guard) (x : XForm)
  /-- EXP2 (R252). -/
  | exp2 (g : Guard) (a : BitVec 6) (d : BitVec 6)
  /-- LOG2 (R252). -/
  | log2 (g : Guard) (a : BitVec 6) (d : BitVec 6)
  /-- EXP2_LOG2_X (R252). -/
  | exp2Log2X (g : Guard) (x : XForm)
  /-- SIN (R252). -/
  | sin (g : Guard) (a : BitVec 6) (d : BitVec 6)
  /-- COS (R252). -/
  | cos (g : Guard) (a : BitVec 6) (d : BitVec 6)
  /-- TANH (R252). -/
  | tanh (g : Guard) (a : BitVec 6) (d : BitVec 6)
  /-- SIN_COS_TANH_X (R252). -/
  | sinCosTanhX (g : Guard) (x : XForm)
  /-- HADD2 (R250). -/
  | hadd2 (g : Guard) (b : BitVec 5) (a : BitVec 6) (d : BitVec 6)
  /-- HADD2_X (R250). -/
  | hadd2X (g : Guard) (x : XForm)
  /-- HMUL2 (R250). -/
  | hmul2 (g : Guard) (b : BitVec 5) (a : BitVec 6) (d : BitVec 6)
  /-- HMUL2_X (R250). -/
  | hmul2X (g : Guard) (x : XForm)
  /-- HFMA2 (R250). -/
  | hfma2 (g : Guard) (b : BitVec 5) (a : BitVec 6) (d : BitVec 6)
  /-- HFMA2_X (R250). -/
  | hfma2X (g : Guard) (x : XForm)
  /-- DOT4 (R254). -/
  | dot4 (g : Guard) (b : BitVec 5) (a : BitVec 6) (d : BitVec 6)
  /-- DOT4_X (R254). -/
  | dot4X (g : Guard) (x : XForm)
  /-- CVTF (R255). -/
  | cvtf (g : Guard) (t : BitVec 5) (a : BitVec 6) (d : BitVec 6)
  /-- CVTF_X (R255). -/
  | cvtfX (g : Guard) (x : XForm)
  /-- CVTFI (R256). -/
  | cvtfi (g : Guard) (t : BitVec 5) (a : BitVec 6) (d : BitVec 6)
  /-- CVTFI_X (R256). -/
  | cvtfiX (g : Guard) (x : XForm)
  /-- CVTIF (R255). -/
  | cvtif (g : Guard) (t : BitVec 5) (a : BitVec 6) (d : BitVec 6)
  /-- CVTIF_X (R255). -/
  | cvtifX (g : Guard) (x : XForm)
  /-- QUANT (R258). -/
  | quant (g : Guard) (x : XForm)
  /-- DEQ (R258). -/
  | deq (g : Guard) (x : XForm)
  /-- BLKMAX (R259). -/
  | blkmax (g : Guard) (x : XForm)
  /-- SHFL (R263). -/
  | shfl (g : Guard) (b : BitVec 5) (a : BitVec 6) (d : BitVec 6)
  /-- SHFL_X (R263). -/
  | shflX (g : Guard) (x : XForm)
  /-- VOTE (R264). -/
  | vote (g : Guard) (a : BitVec 6) (d : BitVec 3)
  /-- VOTE_X (R264). -/
  | voteX (g : Guard) (x : XForm)
  /-- REDUX (R265). -/
  | redux (g : Guard) (a : BitVec 6) (d : BitVec 6)
  /-- REDUX_X (R265). -/
  | reduxX (g : Guard) (x : XForm)
  /-- MATCH (R266). -/
  | matchAny (g : Guard) (a : BitVec 6) (d : BitVec 6)
  /-- MATCH_X (R266). -/
  | matchX (g : Guard) (x : XForm)
  /-- SCAN (R267). -/
  | scan (g : Guard) (a : BitVec 6) (d : BitVec 6)
  /-- SCAN_X (R267). -/
  | scanX (g : Guard) (x : XForm)
  /-- LD (R210). -/
  | ld (g : Guard) (o : BitVec 5) (a : BitVec 6) (d : BitVec 6)
  /-- LD_X (R210). -/
  | ldX (g : Guard) (x : XForm)
  /-- ST (R210). -/
  | st (g : Guard) (o : BitVec 5) (a : BitVec 6) (d : BitVec 6)
  /-- ST_X (R210). -/
  | stX (g : Guard) (x : XForm)
  /-- LDS (R212). -/
  | lds (g : Guard) (o : BitVec 5) (a : BitVec 6) (d : BitVec 6)
  /-- LDS_X (R212). -/
  | ldsX (g : Guard) (x : XForm)
  /-- STS (R212). -/
  | sts (g : Guard) (o : BitVec 5) (a : BitVec 6) (d : BitVec 6)
  /-- STS_X (R212). -/
  | stsX (g : Guard) (x : XForm)
  /-- LDC (R213). -/
  | ldc (g : Guard) (o : BitVec 5) (a : BitVec 6) (d : BitVec 6)
  /-- LDC_X (R213). -/
  | ldcX (g : Guard) (x : XForm)
  /-- LDW (R215). -/
  | ldw (g : Guard) (k : BitVec 1) (a : BitVec 6) (d : BitVec 6)
  /-- LDW_X (R215). -/
  | ldwX (g : Guard) (x : XForm)
  /-- STW (R215). -/
  | stw (g : Guard) (b : BitVec 5) (a : BitVec 6)
  /-- STW_X (R215). -/
  | stwX (g : Guard) (x : XForm)
  /-- WINDOW_WRITE_ARRIVAL (R203). -/
  | windowWriteArrival (m : WinWrite)
  /-- STW_WAIT_LAND (R215). -/
  | stwWaitLand (m : WinWrite)
  /-- PREF (R217). -/
  | pref (g : Guard) (c : BitVec 1) (a : BitVec 6)
  /-- PREF_X (R217). -/
  | prefX (g : Guard) (x : XForm)
  /-- CINV (R218). -/
  | cinv (g : Guard) (c : BitVec 1) (a : BitVec 6)
  /-- CINV_X (R218). -/
  | cinvX (g : Guard) (x : XForm)
  /-- FENCE (R315). -/
  | fence (g : Guard) (k : BitVec 4)
  /-- FENCE_X (R314). -/
  | fenceX (g : Guard) (x : XForm)
  /-- SC_ORDER_GRANT (R315). -/
  | scOrderGrant (wait : Nat)
  /-- OPFENCE (R284). -/
  | opfence (g : Guard)
  /-- RDEG (R318). -/
  | rdeg (g : Guard) (x : XForm)
  /-- LATOM (R142). -/
  | latom (g : Guard) (i : BitVec 5) (a : BitVec 6) (d : BitVec 6)
  /-- LATOM_X (R142). -/
  | latomX (g : Guard) (x : XForm)
  /-- LATOMS (R142). -/
  | latoms (g : Guard) (x : XForm)
  /-- ROUTINE_INVOCATION (R126). -/
  | routineInvocation (v : Invocation)
  /-- ROUTINE_RETURN (R142). -/
  | routineReturn (r : RtReturn)
  /-- RTINST (R145). -/
  | rtinst (g : Guard) (x : XForm)
  /-- RTREM (R145). -/
  | rtrem (g : Guard) (x : XForm)
  /-- RTINST_EXECUTION (R139). -/
  | rtinstExecution (req : Nat)
  /-- WAITCMP (R153). -/
  | waitcmp (g : Guard) (b : BitVec 5) (a : BitVec 6) (d : BitVec 3)
  /-- WAITCMP_X (R153). -/
  | waitcmpX (g : Guard) (x : XForm)
  /-- MONITOR_WAKE (R147). -/
  | monitorWake (key : MonKey) (agent : Nat) (result : Bool)
  /-- MONITOR_POLL (R148). -/
  | monitorPoll (wait : Nat)
  /-- WAIT_TIMEOUT (R153). -/
  | waitTimeout (wait : Nat)
  /-- MONCAN (R154). -/
  | moncan (g : Guard) (a : BitVec 6)
  /-- MONCAN_X (R154). -/
  | moncanX (g : Guard) (x : XForm)
  /-- MONITOR_CANCEL (R154). -/
  | monitorCancel (wait : Nat) (asid : Nat) (pa : Nat) (block : Option Nat) (agent : Nat)
  /-- BLOCK_YIELD (R150). -/
  | blockYield (block : Nat)
  /-- YIELD_WAKE (R150). -/
  | yieldWake (block : Nat)
  /-- XCOPY (R170). -/
  | xcopy (g : Guard) (x : XForm)
  /-- XGATHER (R172). -/
  | xgather (g : Guard) (x : XForm)
  /-- XSCAT (R172). -/
  | xscat (g : Guard) (x : XForm)
  /-- XFILL (R173). -/
  | xfill (g : Guard) (x : XForm)
  /-- COPY_POST (R174). -/
  | copyPost (core : Nat) (op : Nat)
  /-- RING_RESERVE (R180). -/
  | ringReserve (core : Nat) (op : Nat)
  /-- XREAD (R189). -/
  | xread (g : Guard) (x : XForm)
  /-- XREAD_ENGINE_START (R190). -/
  | xreadEngineStart (x : Nat)
  /-- NVME_COMPLETION (R190). -/
  | nvmeCompletion (x : Nat) (cmd : Nat) (status : BitVec 16)
  /-- XREAD_TIMEOUT (R193). -/
  | xreadTimeout (x : Nat)
  /-- XREAD_COMPLETION_WORD (R189). -/
  | xreadCompletionWord (x : Nat)
  /-- PEER_WINDOW_WRITE (R402). -/
  | peerWindowWrite (offset : Nat) (data : List Byte)
  /-- REMOTE_READ_SERVE (R408). -/
  | remoteReadServe (port : Nat) (asid : Nat) (va : DWord) (len : Nat)
  /-- QCWSET (R179). -/
  | qcwset (g : Guard) (x : XForm)
  /-- RPUSH (R181). -/
  | rpush (g : Guard) (q : BitVec 5) (a : BitVec 6) (c : BitVec 3)
  /-- RPUSH_X (R181). -/
  | rpushX (g : Guard) (x : XForm)
  /-- RPOP (R182). -/
  | rpop (g : Guard) (q : BitVec 5) (d : BitVec 6)
  /-- RPOP_X (R182). -/
  | rpopX (g : Guard) (x : XForm)
  /-- BGIVE (R186). -/
  | bgive (g : Guard) (x : XForm)
  /-- BGIVE_FREE (R186). -/
  | bgiveFree (g : Guard) (x : XForm)
  /-- BTAKE (R186). -/
  | btake (g : Guard) (x : XForm)
  /-- BTAKE_NEW (R186). -/
  | btakeNew (g : Guard) (x : XForm)
  /-- FMTSET (R295). -/
  | fmtset (g : Guard) (x : XForm)
  /-- MMA (R280). -/
  | mma (g : Guard) (x : XForm)
  /-- MMAS (R281). -/
  | mmas (g : Guard) (x : XForm)
  /-- MATRIX_K_STEP (R280). -/
  | matrixKStep (core : Nat)
  /-- ACCZ (R289). -/
  | accz (g : Guard) (x : XForm)
  /-- ACCLD (R289). -/
  | accld (g : Guard) (x : XForm)
  /-- ACCST (R290). -/
  | accst (g : Guard) (x : XForm)
  /-- ACCST_ADD_LINE_UPDATE (R291). -/
  | accstAddLineUpdate (core : Nat) (op : Nat) (line : Nat)
  /-- MATRIX_OP_COMPLETE (R271). -/
  | matrixOpComplete (core : Nat) (op : Nat)
  /-- ACCK (R293). -/
  | acck (g : Guard) (x : XForm)
  /-- FETCHT_TILE (R367). -/
  | fetchtTile (g : Guard) (x : XForm)
  /-- FETCHT_TASK (R367). -/
  | fetchtTask (g : Guard) (x : XForm)
  /-- LEND_ACCEPT (R370). -/
  | lendAccept (lend : Nat)
  /-- LEND_EXPIRY (R370). -/
  | lendExpiry (lend : Nat)
  /-- TASK_END (R371). -/
  | taskEnd (warp : Nat)
  /-- ENQT (R372). -/
  | enqt (g : Guard) (x : XForm)
  /-- MIGRATE (R398). -/
  | migrate (g : Guard) (x : XForm)
  /-- CAIRN_GRANT (R398). -/
  | cairnGrant (wait : Nat)
  /-- CAIRN_TIMEOUT (R398). -/
  | cairnTimeout (wait : Nat)
  /-- CSRR (R347). -/
  | csrr (g : Guard) (a : BitVec 6) (d : BitVec 6)
  /-- CSRR_X (R347). -/
  | csrrX (g : Guard) (x : XForm)
  /-- CSRW (R347). -/
  | csrw (g : Guard) (b : BitVec 5) (a : BitVec 6)
  /-- CSRW_X (R347). -/
  | csrwX (g : Guard) (x : XForm)
  /-- TIME (R348). -/
  | time (g : Guard) (c : BitVec 1) (d : BitVec 6)
  /-- TIME_X (R348). -/
  | timeX (g : Guard) (x : XForm)
  /-- VCLASS_WRITE_BACK (R34). -/
  | vclassWriteBack (wb : WriteBack)
  /-- STORE_ACKNOWLEDGEMENT (R311). -/
  | storeAcknowledgement (ack : StoreAck)
  /-- RENDEZVOUS_COMPLETE (R324). -/
  | rendezvousComplete (warp : Nat) (lane : Nat)
  /-- NAMED_BARRIER_COMPLETE (R339). -/
  | namedBarrierComplete (block : Nat) (id : Nat)
  /-- STUCK_RENDEZVOUS (R328). -/
  | stuckRendezvous (warp : Nat) (lane : Nat)
  /-- FATAL_FAULT (R396). -/
  | fatalFault (grid : Nat) (report : Report) (pos : DWord)
  /-- STAMPED_REQUEST_RELEASE (R424). -/
  | stampedRequestRelease (grid : Nat)
  /-- SLICE_READ (R103). -/
  | sliceRead (r : ReadReq)
  /-- SLICE_WRITE (R106). -/
  | sliceWrite (r : WriteReq)
  /-- COLLAPSE_RECEIPT (R105). -/
  | collapseReceipt (die : Nat) (line : Nat)
  /-- COLLAPSE_ACK (R106). -/
  | collapseAck (die : Nat) (line : Nat)
  /-- LEASE_EXPIRY (R106). -/
  | leaseExpiry (line : Nat)
  /-- COPY_EXPIRY (R104). -/
  | copyExpiry (die : Nat) (line : Nat)
  /-- RECALL (R102). -/
  | recall (line : Nat) (byDie : Nat)
  /-- DEGREE_COUNT (R110). -/
  | degreeCount (asid : Nat) (region : Nat) (rr wr coll : Nat)
  /-- KEEPER_UPDATE (R111). -/
  | keeperUpdate
  /-- DGPIN (R112). -/
  | dgpin (value : DWord)
  /-- SOFT_ERROR (R117). -/
  | softError (stage : ErrorStage) (die : Nat) (line : Nat) (corrected : Bool)
  /-- LINE_LOSS (R118). -/
  | lineLoss (line : Nat) (cause : Nat)
  /-- DIE_RESET (R115). -/
  | dieReset (die : Nat)
  /-- DIE_LOSS (R116). -/
  | dieLoss (die : Nat)
  /-- MR_ACCEPT (R83). -/
  | mrAccept (tail : DWord)
  /-- ASCREATE (R84). -/
  | ascreate (r : MemRequest)
  /-- ASDESTROY (R82). -/
  | asdestroy (r : MemRequest)
  /-- MAP (R84). -/
  | mapPages (r : MemRequest)
  /-- UNMAP (R84). -/
  | unmap (r : MemRequest)
  /-- PROTECT (R84). -/
  | protect (r : MemRequest)
  /-- MIGIN (R96). -/
  | migin (r : MemRequest)
  /-- MIGOUT (R96). -/
  | migout (r : MemRequest)
  /-- SETCOLD (R84). -/
  | setcold (r : MemRequest)
  /-- SETPIN (R84). -/
  | setpin (r : MemRequest)
  /-- GENERATION_ACK (R81). -/
  | generationAck (asid : Nat) (agent : Nat)
  /-- MRBASE_WRITE (R92). -/
  | mrbaseWrite (ctl : Bool) (value : DWord)
  /-- SWEEPER_VISIT (R88). -/
  | sweeperVisit
  /-- COMPRESSION (R94). -/
  | compression (frame : Nat)
  /-- COMPRESSION_COMMIT (R94). -/
  | compressionCommit (frame : Nat) (granules : Nat)
  /-- EXPANSION (R95). -/
  | expansion (frame : Nat)
  /-- EVICTION (R96). -/
  | eviction (frame : Nat)
  /-- DIE_TIMER_CALIBRATION (R21). -/
  | dieTimerCalibration (die : Nat) (cal : Calibration)
  /-- QUEUE_CREATE (R353). -/
  | queueCreate (qid : Nat)
  /-- QUEUE_DESTROY (R353). -/
  | queueDestroy (qid : Nat)
  /-- QUEUE_RESUME (R353). -/
  | queueResume (qid : Nat)
  /-- QUEUE_HALT (R353). -/
  | queueHalt (qid : Nat)
  /-- TAIL_UPDATE (R355). -/
  | tailUpdate (qid : Nat) (value : DWord)
  /-- PACKET_ACCEPT (R355). -/
  | packetAccept (qid : Nat)
  /-- PACKET_START (R356). -/
  | packetStart (qid : Nat) (seq : Nat)
  /-- LAUNCH (R363). -/
  | launch (qid : Nat) (seq : Nat)
  /-- WAIT_SIGNALS (R358). -/
  | waitSignals (qid : Nat) (seq : Nat)
  /-- WAIT_SIGNALS_TIMEOUT (R374). -/
  | waitSignalsTimeout (qid : Nat) (seq : Nat)
  /-- SIGNAL (R358). -/
  | signal (qid : Nat) (seq : Nat)
  /-- ROUTINE_LOAD (R358). -/
  | routineLoad (qid : Nat) (seq : Nat)
  /-- CATALOGUE_UPDATE (R160). -/
  | catalogueUpdate (qid : Nat) (seq : Nat)
  /-- MAPPING_PASS (R360). -/
  | mappingPass
  /-- PLACEMENT (R364). -/
  | placement (grid : Nat)
  /-- GRID_COMPLETION (R368). -/
  | gridCompletion (grid : Nat)
  /-- EVENT_RECORD_WRITE (R373). -/
  | eventRecordWrite (e : EventRec)
  /-- EVENT_RING_SPACE (R373). -/
  | eventRingSpace (rd : DWord)
  /-- EVENT_RING_RESTART (R373). -/
  | eventRingRestart (ctl : Bool) (value : DWord)
  /-- ESTIMATOR_RUN (R378). -/
  | estimatorRun (grid : Nat)
  /-- DRAIN_RECHECK (R379). -/
  | drainRecheck (block : Nat)
  /-- FLUSH (R380). -/
  | flush (block : Nat)
  /-- SAVE (R381). -/
  | save (block : Nat)
  /-- RESTORE (R383). -/
  | restore (record : Nat)
  /-- NVCMD_ATTACH (R192). -/
  | nvcmdAttach (index : Nat)
  /-- NVCMD_DETACH (R192). -/
  | nvcmdDetach (index : Nat)
  /-- FLIT_RECEIVE (R406). -/
  | flitReceive (port : Nat) (f : Flit)
  /-- FLIT_ACK (R406). -/
  | flitAck (port : Nat) (seq : Nat)
  /-- LINK_ROLLOVER (R407). -/
  | linkRollover (port : Nat)
  /-- FORCED_ROLLOVER (R407). -/
  | forcedRollover (port : Nat)
  /-- PORT_DOWN (R410). -/
  | portDown (port : Nat)
  /-- PORT_UP (R410). -/
  | portUp (port : Nat)
  /-- ATTESTATION (R413). -/
  | attestation
  /-- FLASH_STAGE (R414). -/
  | flashStage
  /-- FLASH_ACTIVATE (R414). -/
  | flashActivate
  /-- FLASH_ABANDON (R414). -/
  | flashAbandon
  /-- COLD_RESET (R415). -/
  | coldReset
  /-- FUNCTION_LEVEL_RESET (R415). -/
  | functionLevelReset
  /-- GOVERNOR (R416). -/
  | governor (temp power : BitVec 16) (mhz : Nat) (cause : BitVec 3)
  /-- THERMAL_DIE_RESET (R416). -/
  | thermalDieReset (die : Nat)
  /-- REGISTER_WRITE (R7). -/
  | registerWrite (offset : Nat) (value : DWord)
  /-- FENCE_RELEASE_COMPLETION (R315). -/
  | fenceReleaseCompletion (wait : Nat)
  deriving DecidableEq, Repr

/-- The device's own steps as messages in flight and as choices of the outside world: the event rows of the table with the
same contents. They stand apart from `Instr` because compiled code can build at most 244 constructors of one type. -/
inductive Msg where
  /-- REGCLAIM_GRANT (R205). -/
  | regclaimGrant (wait : Nat)
  /-- WINDOW_WRITE_ARRIVAL (R203). -/
  | windowWriteArrival (m : WinWrite)
  /-- STW_WAIT_LAND (R215). -/
  | stwWaitLand (m : WinWrite)
  /-- SC_ORDER_GRANT (R315). -/
  | scOrderGrant (wait : Nat)
  /-- ROUTINE_INVOCATION (R126). -/
  | routineInvocation (v : Invocation)
  /-- ROUTINE_RETURN (R142). -/
  | routineReturn (r : RtReturn)
  /-- RTINST_EXECUTION (R139). -/
  | rtinstExecution (req : Nat)
  /-- MONITOR_WAKE (R147). -/
  | monitorWake (key : MonKey) (agent : Nat) (result : Bool)
  /-- MONITOR_POLL (R148). -/
  | monitorPoll (wait : Nat)
  /-- WAIT_TIMEOUT (R153). -/
  | waitTimeout (wait : Nat)
  /-- MONITOR_CANCEL (R154). -/
  | monitorCancel (wait : Nat) (asid : Nat) (pa : Nat) (block : Option Nat) (agent : Nat)
  /-- BLOCK_YIELD (R150). -/
  | blockYield (block : Nat)
  /-- YIELD_WAKE (R150). -/
  | yieldWake (block : Nat)
  /-- COPY_POST (R174). -/
  | copyPost (core : Nat) (op : Nat)
  /-- RING_RESERVE (R180). -/
  | ringReserve (core : Nat) (op : Nat)
  /-- XREAD_ENGINE_START (R190). -/
  | xreadEngineStart (x : Nat)
  /-- NVME_COMPLETION (R190). -/
  | nvmeCompletion (x : Nat) (cmd : Nat) (status : BitVec 16)
  /-- XREAD_TIMEOUT (R193). -/
  | xreadTimeout (x : Nat)
  /-- XREAD_COMPLETION_WORD (R189). -/
  | xreadCompletionWord (x : Nat)
  /-- PEER_WINDOW_WRITE (R402). -/
  | peerWindowWrite (offset : Nat) (data : List Byte)
  /-- REMOTE_READ_SERVE (R408). -/
  | remoteReadServe (port : Nat) (asid : Nat) (va : DWord) (len : Nat)
  /-- MATRIX_K_STEP (R280). -/
  | matrixKStep (core : Nat)
  /-- ACCST_ADD_LINE_UPDATE (R291). -/
  | accstAddLineUpdate (core : Nat) (op : Nat) (line : Nat)
  /-- MATRIX_OP_COMPLETE (R271). -/
  | matrixOpComplete (core : Nat) (op : Nat)
  /-- LEND_ACCEPT (R370). -/
  | lendAccept (lend : Nat)
  /-- LEND_EXPIRY (R370). -/
  | lendExpiry (lend : Nat)
  /-- TASK_END (R371). -/
  | taskEnd (warp : Nat)
  /-- CAIRN_GRANT (R398). -/
  | cairnGrant (wait : Nat)
  /-- CAIRN_TIMEOUT (R398). -/
  | cairnTimeout (wait : Nat)
  /-- VCLASS_WRITE_BACK (R34). -/
  | vclassWriteBack (wb : WriteBack)
  /-- STORE_ACKNOWLEDGEMENT (R311). -/
  | storeAcknowledgement (ack : StoreAck)
  /-- RENDEZVOUS_COMPLETE (R324). -/
  | rendezvousComplete (warp : Nat) (lane : Nat)
  /-- NAMED_BARRIER_COMPLETE (R339). -/
  | namedBarrierComplete (block : Nat) (id : Nat)
  /-- STUCK_RENDEZVOUS (R328). -/
  | stuckRendezvous (warp : Nat) (lane : Nat)
  /-- FATAL_FAULT (R396). -/
  | fatalFault (grid : Nat) (report : Report) (pos : DWord)
  /-- STAMPED_REQUEST_RELEASE (R424). -/
  | stampedRequestRelease (grid : Nat)
  /-- SLICE_READ (R103). -/
  | sliceRead (r : ReadReq)
  /-- SLICE_WRITE (R106). -/
  | sliceWrite (r : WriteReq)
  /-- COLLAPSE_RECEIPT (R105). -/
  | collapseReceipt (die : Nat) (line : Nat)
  /-- COLLAPSE_ACK (R106). -/
  | collapseAck (die : Nat) (line : Nat)
  /-- LEASE_EXPIRY (R106). -/
  | leaseExpiry (line : Nat)
  /-- COPY_EXPIRY (R104). -/
  | copyExpiry (die : Nat) (line : Nat)
  /-- RECALL (R102). -/
  | recall (line : Nat) (byDie : Nat)
  /-- DEGREE_COUNT (R110). -/
  | degreeCount (asid : Nat) (region : Nat) (rr wr coll : Nat)
  /-- KEEPER_UPDATE (R111). -/
  | keeperUpdate
  /-- DGPIN (R112). -/
  | dgpin (value : DWord)
  /-- SOFT_ERROR (R117). -/
  | softError (stage : ErrorStage) (die : Nat) (line : Nat) (corrected : Bool)
  /-- LINE_LOSS (R118). -/
  | lineLoss (line : Nat) (cause : Nat)
  /-- DIE_RESET (R115). -/
  | dieReset (die : Nat)
  /-- DIE_LOSS (R116). -/
  | dieLoss (die : Nat)
  /-- MR_ACCEPT (R83). -/
  | mrAccept (tail : DWord)
  /-- ASCREATE (R84). -/
  | ascreate (r : MemRequest)
  /-- ASDESTROY (R82). -/
  | asdestroy (r : MemRequest)
  /-- MAP (R84). -/
  | mapPages (r : MemRequest)
  /-- UNMAP (R84). -/
  | unmap (r : MemRequest)
  /-- PROTECT (R84). -/
  | protect (r : MemRequest)
  /-- MIGIN (R96). -/
  | migin (r : MemRequest)
  /-- MIGOUT (R96). -/
  | migout (r : MemRequest)
  /-- SETCOLD (R84). -/
  | setcold (r : MemRequest)
  /-- SETPIN (R84). -/
  | setpin (r : MemRequest)
  /-- GENERATION_ACK (R81). -/
  | generationAck (asid : Nat) (agent : Nat)
  /-- MRBASE_WRITE (R92). -/
  | mrbaseWrite (ctl : Bool) (value : DWord)
  /-- SWEEPER_VISIT (R88). -/
  | sweeperVisit
  /-- COMPRESSION (R94). -/
  | compression (frame : Nat)
  /-- COMPRESSION_COMMIT (R94). -/
  | compressionCommit (frame : Nat) (granules : Nat)
  /-- EXPANSION (R95). -/
  | expansion (frame : Nat)
  /-- EVICTION (R96). -/
  | eviction (frame : Nat)
  /-- DIE_TIMER_CALIBRATION (R21). -/
  | dieTimerCalibration (die : Nat) (cal : Calibration)
  /-- QUEUE_CREATE (R353). -/
  | queueCreate (qid : Nat)
  /-- QUEUE_DESTROY (R353). -/
  | queueDestroy (qid : Nat)
  /-- QUEUE_RESUME (R353). -/
  | queueResume (qid : Nat)
  /-- QUEUE_HALT (R353). -/
  | queueHalt (qid : Nat)
  /-- TAIL_UPDATE (R355). -/
  | tailUpdate (qid : Nat) (value : DWord)
  /-- PACKET_ACCEPT (R355). -/
  | packetAccept (qid : Nat)
  /-- PACKET_START (R356). -/
  | packetStart (qid : Nat) (seq : Nat)
  /-- LAUNCH (R363). -/
  | launch (qid : Nat) (seq : Nat)
  /-- WAIT_SIGNALS (R358). -/
  | waitSignals (qid : Nat) (seq : Nat)
  /-- WAIT_SIGNALS_TIMEOUT (R374). -/
  | waitSignalsTimeout (qid : Nat) (seq : Nat)
  /-- SIGNAL (R358). -/
  | signal (qid : Nat) (seq : Nat)
  /-- ROUTINE_LOAD (R358). -/
  | routineLoad (qid : Nat) (seq : Nat)
  /-- CATALOGUE_UPDATE (R160). -/
  | catalogueUpdate (qid : Nat) (seq : Nat)
  /-- MAPPING_PASS (R360). -/
  | mappingPass
  /-- PLACEMENT (R364). -/
  | placement (grid : Nat)
  /-- GRID_COMPLETION (R368). -/
  | gridCompletion (grid : Nat)
  /-- EVENT_RECORD_WRITE (R373). -/
  | eventRecordWrite (e : EventRec)
  /-- EVENT_RING_SPACE (R373). -/
  | eventRingSpace (rd : DWord)
  /-- EVENT_RING_RESTART (R373). -/
  | eventRingRestart (ctl : Bool) (value : DWord)
  /-- ESTIMATOR_RUN (R378). -/
  | estimatorRun (grid : Nat)
  /-- DRAIN_RECHECK (R379). -/
  | drainRecheck (block : Nat)
  /-- FLUSH (R380). -/
  | flush (block : Nat)
  /-- SAVE (R381). -/
  | save (block : Nat)
  /-- RESTORE (R383). -/
  | restore (record : Nat)
  /-- NVCMD_ATTACH (R192). -/
  | nvcmdAttach (index : Nat)
  /-- NVCMD_DETACH (R192). -/
  | nvcmdDetach (index : Nat)
  /-- FLIT_RECEIVE (R406). -/
  | flitReceive (port : Nat) (f : Flit)
  /-- FLIT_ACK (R406). -/
  | flitAck (port : Nat) (seq : Nat)
  /-- LINK_ROLLOVER (R407). -/
  | linkRollover (port : Nat)
  /-- FORCED_ROLLOVER (R407). -/
  | forcedRollover (port : Nat)
  /-- PORT_DOWN (R410). -/
  | portDown (port : Nat)
  /-- PORT_UP (R410). -/
  | portUp (port : Nat)
  /-- ATTESTATION (R413). -/
  | attestation
  /-- FLASH_STAGE (R414). -/
  | flashStage
  /-- FLASH_ACTIVATE (R414). -/
  | flashActivate
  /-- FLASH_ABANDON (R414). -/
  | flashAbandon
  /-- COLD_RESET (R415). -/
  | coldReset
  /-- FUNCTION_LEVEL_RESET (R415). -/
  | functionLevelReset
  /-- GOVERNOR (R416). -/
  | governor (temp power : BitVec 16) (mhz : Nat) (cause : BitVec 3)
  /-- THERMAL_DIE_RESET (R416). -/
  | thermalDieReset (die : Nat)
  /-- REGISTER_WRITE (R7). -/
  | registerWrite (offset : Nat) (value : DWord)
  /-- FENCE_RELEASE_COMPLETION (R315). -/
  | fenceReleaseCompletion (wait : Nat)
  deriving DecidableEq, Repr

end Sys2Proof
end

