-- ==== Sys2Proof/Machine/Float.lean ====
section
/-! DEFINITION. Number formats, exact values and the one rounding procedure (09, R219 to R238, R432). -/

namespace Sys2Proof.Machine

/-- The sticky flags NV, OF, UF, NX in bits 3 to 0 (R234). -/
abbrev FFlags := BitVec 4

def nvFlag : FFlags := 8
def ofFlag : FFlags := 4
def ufFlag : FFlags := 2
def nxFlag : FFlags := 1

/-- A flag where a condition holds. -/
def flagIf (c : Bool) (f : FFlags) : FFlags := if c then f else 0

/-- A number format: the fields of R221, with the wide formats of R219 in the same terms. -/
structure Fmt where
  wide : Bool
  exp : Nat
  man : Nat
  sgn : Bool
  bias : Int
  spec : Nat
  sat : Bool
  deriving DecidableEq, Repr

/-- R219. -/
def fp32 : Fmt := ⟨true, 8, 23, true, 127, 2, false⟩
def fp16 : Fmt := ⟨true, 5, 10, true, 15, 2, false⟩
def bf16 : Fmt := ⟨true, 8, 7, true, 127, 2, false⟩

/-- R221: the format of a description value. -/
def Fmt.ofWord (w : Word) : Fmt where
  wide := false
  exp := (w.extractLsb' 0 3).toNat
  man := (w.extractLsb' 4 4).toNat
  sgn := w.getLsbD 8
  bias := (w.extractLsb' 12 8).toInt
  spec := (w.extractLsb' 9 2).toNat
  sat := w.getLsbD 11

/-- R225: the descriptions of the predefined codes 1 to 6. -/
def predefined (code : Nat) : Option Word :=
  match code with
  | 1 => some 0x00007B34
  | 2 => some 0x0000FD25
  | 3 => some 0x00003923
  | 4 => some 0x00001912
  | 5 => some 0x00000970
  | 6 => some 0x00000930
  | _ => none

/-- R221: the width w = SGN + EXP + MAN. -/
def Fmt.width (f : Fmt) : Nat := (if f.sgn then 1 else 0) + f.exp + f.man

/-- R221: the container of a narrow format, in bits; a wide format is its own container. -/
def Fmt.container (f : Fmt) : Nat := if f.wide then f.width else if f.width ≤ 4 then 4 else 8

/-- Whether the format has a NaN (R223). -/
def Fmt.hasNan (f : Fmt) : Bool := f.spec == 1 || f.spec == 2

/-- The number of the largest finite magnitude, magnitudes being numbered 0, 1, 2, … upwards (R223, R224: the magnitude
part of a code is its number, so numbers go on above the last code as the grid does). -/
def Fmt.maxIdx (f : Fmt) : Nat :=
  match f.spec with
  | 0 => 2 ^ (f.exp + f.man) - 1
  | 1 => 2 ^ (f.exp + f.man) - 2
  | _ => (2 ^ f.exp - 1) * 2 ^ f.man - 1

/-- R224: the largest magnitude number of a negative value: one more for signed integer formats. -/
def Fmt.maxNegIdx (f : Fmt) : Nat := if f.exp = 0 ∧ f.sgn then 2 ^ f.man else f.maxIdx

/-- R222: the description is one FMTSET accepts. -/
def Fmt.valid (f : Fmt) : Bool :=
  decide (1 ≤ f.width ∧ f.width ≤ 8 ∧ f.spec ≠ 3)
    && (f.exp != 0 || (f.spec == 0 && f.sat))
    && (f.spec != 0 || f.sat)
    && (f.spec != 1 || decide (1 ≤ f.exp))
    && (f.spec != 2 || decide (2 ≤ f.exp ∧ 1 ≤ f.man))
    && decide (1 ≤ f.maxIdx)

/-- An exact value: a NaN, an infinity, or sign, magnitude `m * 2 ^ e` with `m = 0` for a zero. With `sticky` the
magnitude lies strictly between `m * 2 ^ e` and `(m + 1) * 2 ^ e`. -/
inductive FVal where
  | nan (signalling : Bool)
  | inf (neg : Bool)
  | fin (neg : Bool) (m : Nat) (e : Int) (sticky : Bool)
  deriving DecidableEq, Repr

def FVal.isNan : FVal → Bool
  | .nan _ => true
  | _ => false

def FVal.isSignalling : FVal → Bool
  | .nan s => s
  | _ => false

def FVal.isInf : FVal → Bool
  | .inf _ => true
  | _ => false

def FVal.isZero : FVal → Bool
  | .fin _ m _ st => m == 0 && !st
  | _ => false

def FVal.neg? : FVal → Bool
  | .nan _ => false
  | .inf n => n
  | .fin n _ _ _ => n

/-- The value with its sign changed; a NaN stays. -/
def FVal.negate : FVal → FVal
  | .nan s => .nan s
  | .inf n => .inf !n
  | .fin n m e st => .fin (!n) m e st

/-- The value scaled by a power of two. -/
def FVal.scale (k : Int) : FVal → FVal
  | .fin n m e st => .fin n m (e + k) st
  | v => v

/-- R223, R224: the magnitude of a number of the grid, as `m * 2 ^ e`. -/
def Fmt.ofIdx (f : Fmt) (i : Nat) : Nat × Int :=
  if f.exp = 0 then (i, -f.bias)
  else if i < 2 ^ f.man then (i, 1 - f.bias - f.man)
  else (2 ^ f.man + i % 2 ^ f.man, (i / 2 ^ f.man : Nat) - f.bias - f.man)

/-- R219, R223: the value of a code held in the low bits of `c`. -/
def Fmt.decode (f : Fmt) (c : Nat) : FVal :=
  let c := c % 2 ^ f.width
  if f.exp = 0 then
    if f.sgn ∧ c ≥ 2 ^ f.man then .fin true (2 ^ (f.man + 1) - c) (-f.bias) false
    else .fin false c (-f.bias) false
  else
    let neg := f.sgn && decide (c ≥ 2 ^ (f.exp + f.man))
    let i := c % 2 ^ (f.exp + f.man)
    let e := i / 2 ^ f.man
    let m := i % 2 ^ f.man
    if f.spec = 1 ∧ i = 2 ^ (f.exp + f.man) - 1 then .nan false
    else if f.spec = 2 ∧ e = 2 ^ f.exp - 1 then
      if m = 0 then .inf neg else .nan (f.wide && decide (m < 2 ^ (f.man - 1)))
    else
      let v := f.ofIdx i
      .fin neg v.1 v.2 false

/-- R223, R219: the canonical NaN's code. -/
def Fmt.nanCode (f : Fmt) : Nat :=
  if f.spec = 1 then 2 ^ (f.exp + f.man) - 1
  else (2 ^ f.exp - 1) * 2 ^ f.man + 2 ^ (f.man - 1)

/-- The code of a sign and a magnitude number (R219, R223). -/
def Fmt.code (f : Fmt) (neg : Bool) (i : Nat) : Nat :=
  if f.exp = 0 then (if neg ∧ i ≠ 0 then 2 ^ f.width - i else i)
  else if neg ∧ f.sgn then 2 ^ (f.exp + f.man) + i
  else i

/-- The infinity's code (SPEC = 2). -/
def Fmt.infCode (f : Fmt) (neg : Bool) : Nat := f.code neg ((2 ^ f.exp - 1) * 2 ^ f.man)

/-- The number of the largest grid magnitude not above `m * 2 ^ e`, and the remainder against half a grid step:
whether the value is on the grid, and whether the remainder is below, at or above a half (R224, R231). -/
def Fmt.floorIdx (f : Fmt) (m : Nat) (e : Int) (sticky : Bool) : Nat × Bool × Ordering :=
  if m = 0 then (0, !sticky, .lt)
  else
    let top : Int := Nat.log2 m + e
    let q : Int := if f.exp = 0 then -f.bias else max top (1 - f.bias) - f.man
    let sh := q - e
    let k := if sh ≤ 0 then m * 2 ^ (-sh).toNat else m / 2 ^ sh.toNat
    let rem := if sh ≤ 0 then 0 else m % 2 ^ sh.toNat
    let half := if sh ≤ 0 then 1 else 2 ^ (sh.toNat - 1)
    let idx : Nat :=
      if f.exp = 0 ∨ top < 1 - f.bias then k
      else (top + f.bias).toNat * 2 ^ f.man + (k - 2 ^ f.man)
    let exact := rem == 0 && !sticky
    let ord : Ordering :=
      if sh ≤ 0 then .lt
      else if rem < half then .lt
      else if rem = half ∧ !sticky then .eq
      else .gt
    (idx, exact, ord)

/-- R231: whether a magnitude above grid number `i` by a remainder rounds up to the next number. -/
def roundsUp (mode : Rnd) (neg : Bool) (i : Nat) (exact : Bool) (ord : Ordering) : Bool :=
  if exact then false
  else match mode with
    | .rz => false
    | .rm => neg
    | .rp => !neg
    | .rn => ord == .gt || (ord == .eq && i % 2 == 1)
    | .ra => ord == .gt || ord == .eq

/-- R224: a floating value below minnorm in magnitude. -/
def Fmt.subnormal (f : Fmt) (m : Nat) (e : Int) : Bool :=
  decide (f.exp ≠ 0) && (m == 0 || decide ((Nat.log2 m : Int) + e < 1 - f.bias))

/-- The rounding procedure of R232 (with R233 for unsigned narrow formats): the code and the flags. `sat` is the
instruction's SAT, read for wide formats. R233's table row for 61,439 in E5M2 is not followed where it differs from
R224 and R232 (DEDUCED, log 11). -/
def roundTo (f : Fmt) (mode : Rnd) (sat : Bool) (x : FVal) : Nat × FFlags :=
  match x with
  | .nan s =>
    if f.hasNan then (f.nanCode, flagIf s nvFlag)
    else (0, nvFlag)
  | .inf neg =>
    if !f.sgn && neg then (if f.sat then (0, nvFlag) else (f.nanCode, nvFlag))
    else
      let sat' := if f.wide then sat else f.sat
      if sat' then
        (f.code neg (if neg then f.maxNegIdx else f.maxIdx), ofFlag ||| nxFlag)
      else if f.spec = 2 then (f.infCode neg, 0)
      else (f.nanCode, ofFlag)
  | .fin neg m e sticky =>
    let (i, exact, ord) := f.floorIdx m e sticky
    if m = 0 ∧ !sticky then (f.code neg 0, 0)
    else if !f.sgn && neg then
      let i' := if roundsUp mode neg i exact ord then i + 1 else i
      if i' = 0 then (0, nxFlag)
      else if f.sat then (0, nvFlag) else (f.nanCode, nvFlag)
    else
      let topTie := mode == .rn && i == f.maxIdx && ord == .eq
      let i' := if topTie || roundsUp mode neg i exact ord then i + 1 else i
      let nx := !exact
      let uf := f.subnormal m e && nx
      let lim := if neg then f.maxNegIdx else f.maxIdx
      if i' ≤ lim then (f.code neg i', flagIf nx nxFlag ||| flagIf uf ufFlag)
      else
        let sat' := if f.wide then sat else f.sat
        let toward := mode == .rz || (mode == .rm && !neg) || (mode == .rp && neg)
        if toward || sat' then (f.code neg lim, ofFlag ||| nxFlag ||| flagIf uf ufFlag)
        else if f.spec = 2 then (f.infCode neg, ofFlag ||| flagIf nx nxFlag)
        else (f.nanCode, ofFlag ||| flagIf nx nxFlag)

/-- An exact product and its NV: `0 × ∞` and signalling inputs (R249, R432). -/
def FVal.mul (a b : FVal) : FVal × Bool :=
  match a, b with
  | .nan s, .nan t => (.nan false, s || t)
  | .nan s, _ => (.nan false, s)
  | _, .nan t => (.nan false, t)
  | .inf n, .inf n' => (.inf (n != n'), false)
  | .inf n, y => if y.isZero then (.nan false, true) else (.inf (n != y.neg?), false)
  | x, .inf n => if x.isZero then (.nan false, true) else (.inf (n != x.neg?), false)
  | .fin n m e _, .fin n' m' e' _ => (.fin (n != n') (m * m') (e + e') false, false)

/-- The signed integer of a finite value at exponent `e0`, not above its own. -/
def FVal.toIntAt (e0 : Int) : FVal → Int
  | .fin n m e _ => (if n then -1 else 1) * (m * 2 ^ (e - e0).toNat : Nat)
  | _ => 0

/-- The exponent of a finite value. -/
def FVal.expo : FVal → Int
  | .fin _ _ e _ => e
  | _ => 0

/-- The exact sum of terms (R237, R238), its zero's sign by R432, and its NV: a signalling term or `+∞` with `-∞`. -/
def sumTerms (mode : Rnd) (ts : List FVal) : FVal × Bool :=
  if ts.any FVal.isNan then (.nan false, ts.any FVal.isSignalling)
  else
    let pos := ts.any fun t => t.isInf && !t.neg?
    let neg := ts.any fun t => t.isInf && t.neg?
    if pos && neg then (.nan false, true)
    else if pos then (.inf false, false)
    else if neg then (.inf true, false)
    else
      let e0 := ts.foldl (fun e t => if t.isZero then e else min e t.expo) 4096
      let v := ts.foldl (fun acc t => if t.isZero then acc else acc + t.toIntAt e0) (0 : Int)
      if v = 0 then
        let allNeg := ts.all fun t => t.isZero && t.neg?
        let allPos := ts.all fun t => t.isZero && !t.neg?
        (.fin (if mode = .rm then !allPos else allNeg) 0 0 false, false)
      else (.fin (decide (v < 0)) v.natAbs e0 false, false)

/-- R220: a subnormal input read under the flush bit. -/
def flushIn (flush : Bool) (f : Fmt) (v : FVal) : FVal :=
  match v with
  | .fin n m e st => if flush && f.wide && f.subnormal m e then .fin n 0 0 false else .fin n m e st
  | v => v

/-- R220: a subnormal result under the flush bit: zero of the same sign, with UF and NX. -/
def flushOut (flush : Bool) (f : Fmt) (r : Nat × FFlags) : Nat × FFlags :=
  let i := r.1 % 2 ^ (f.exp + f.man)
  if flush && f.wide && decide (i ≠ 0 ∧ i < 2 ^ f.man) then (r.1 - i, r.2 ||| ufFlag ||| nxFlag) else r

/-- A vector unit's rounding: R232 with the flush bit of R220. -/
def roundV (flush : Bool) (f : Fmt) (mode : Rnd) (sat : Bool) (x : FVal) : Nat × FFlags :=
  flushOut flush f (roundTo f mode sat x)

/-- The exact comparison of two values that are not NaN. -/
def FVal.lt (a b : FVal) : Bool :=
  match a, b with
  | .inf n, .inf n' => n && !n'
  | .inf n, _ => n
  | _, .inf n => !n
  | x, y =>
    let e0 := min x.expo y.expo
    decide (x.toIntAt e0 < y.toIntAt e0)

/-- R220: a signalling input sets NV. -/
def snanFlag (vs : List FVal) : FFlags := flagIf (vs.any FVal.isSignalling) nvFlag

/-- R249: a sum of terms rounded once. `nv` is an NV already raised by the products. -/
def roundSum (flush : Bool) (f : Fmt) (mode : Rnd) (sat : Bool) (ts : List FVal) (nv : Bool) : Nat × FFlags :=
  let (v, n) := sumTerms mode ts
  let r := roundV flush f mode sat v
  (r.1, r.2 ||| flagIf (nv || n) nvFlag)

/-- R249: FADD. -/
def fAdd (flush : Bool) (f : Fmt) (mode : Rnd) (sat : Bool) (a b : Nat) : Nat × FFlags :=
  roundSum flush f mode sat [flushIn flush f (f.decode a), flushIn flush f (f.decode b)] false

/-- R249: FMUL. -/
def fMul (flush : Bool) (f : Fmt) (mode : Rnd) (sat : Bool) (a b : Nat) : Nat × FFlags :=
  let (p, nv) := (flushIn flush f (f.decode a)).mul (flushIn flush f (f.decode b))
  roundSum flush f mode sat [p] nv

/-- R249: FFMA. -/
def fFma (flush : Bool) (f : Fmt) (mode : Rnd) (sat : Bool) (a b c : Nat) : Nat × FFlags :=
  let (p, nv) := (flushIn flush f (f.decode a)).mul (flushIn flush f (f.decode b))
  roundSum flush f mode sat [p, flushIn flush f (f.decode c)] nv

/-- The code of an operand as FMIN, FMAX and FCMP read it: a flushed subnormal is a zero (R251). -/
def flushCode (flush : Bool) (f : Fmt) (c : Nat) : Nat :=
  let i := c % 2 ^ (f.exp + f.man)
  if flush && decide (i ≠ 0 ∧ i < 2 ^ f.man) then c - i else c

/-- R251: the order of FMIN and FMAX, -0 below +0. -/
def minLt (a b : FVal) : Bool :=
  if a.isZero && b.isZero then a.neg? && !b.neg? else a.lt b

/-- R251: FMIN (`max = false`) and FMAX. -/
def fMinMax (flush : Bool) (f : Fmt) (max : Bool) (a b : Nat) : Nat × FFlags :=
  let ca := flushCode flush f (a % 2 ^ f.width)
  let cb := flushCode flush f (b % 2 ^ f.width)
  let va := f.decode ca
  let vb := f.decode cb
  let fl := snanFlag [va, vb]
  match va.isNan, vb.isNan with
  | true, true => (f.nanCode, fl)
  | true, false => (cb, fl)
  | false, true => (ca, fl)
  | false, false => ((if minLt vb va == max then ca else cb), fl)

/-- R251: FCMP under condition SUB[2:0]. -/
def fCmp (flush : Bool) (f : Fmt) (cond : Nat) (a b : Nat) : Bool × FFlags :=
  let va := flushIn flush f (f.decode a)
  let vb := flushIn flush f (f.decode b)
  let un := va.isNan || vb.isNan
  let lt := !un && va.lt vb
  let gt := !un && vb.lt va
  let eq := !un && !lt && !gt
  let fl := flagIf (va.isSignalling || vb.isSignalling || (un && decide (2 ≤ cond ∧ cond ≤ 5))) nvFlag
  let r := match cond with
    | 0 => eq
    | 1 => !eq
    | 2 => lt
    | 3 => lt || eq
    | 4 => gt
    | 5 => gt || eq
    | 6 => !un
    | _ => un
  (r, fl)

/-- R251: FCLASS. -/
def fClass (f : Fmt) (a : Nat) : Nat :=
  match f.decode a with
  | .inf true => 1
  | .inf false => 2 ^ 7
  | .nan true => 2 ^ 8
  | .nan false => 2 ^ 9
  | .fin n m e _ =>
    if m = 0 then (if n then 2 ^ 3 else 2 ^ 4)
    else if f.subnormal m e then (if n then 2 ^ 2 else 2 ^ 5)
    else (if n then 2 ^ 1 else 2 ^ 6)

/-- A value rounded to an integer under a mode: its magnitude, and whether the rounding changed it. -/
def toIntegral (mode : Rnd) (neg : Bool) (m : Nat) (e : Int) : Nat × Bool :=
  if 0 ≤ e then (m * 2 ^ e.toNat, false)
  else
    let sh := (-e).toNat
    let k := m / 2 ^ sh
    let rem := m % 2 ^ sh
    let ord : Ordering := compare rem (2 ^ (sh - 1))
    (if roundsUp mode neg k (rem == 0) ord then k + 1 else k, rem != 0)

/-- R251: FRND. -/
def fRnd (flush : Bool) (f : Fmt) (mode : Rnd) (a : Nat) : Nat × FFlags :=
  match flushIn flush f (f.decode a) with
  | .nan s => (f.nanCode, flagIf s nvFlag)
  | .inf n => (f.infCode n, 0)
  | .fin n m e _ =>
    let (k, _) := toIntegral mode n m e
    ((roundTo f .rz false (.fin n k 0 false)).1, 0)

/-- R256: CVTFI into an integer type of `w` bits. -/
def fToInt (signed : Bool) (w : Nat) (mode : Rnd) (v : FVal) : Int × FFlags :=
  let hi : Int := if signed then 2 ^ (w - 1) - 1 else 2 ^ w - 1
  let lo : Int := if signed then -2 ^ (w - 1) else 0
  match v with
  | .nan _ => (0, nvFlag)
  | .inf n => (if n then lo else hi, nvFlag)
  | .fin n m e _ =>
    let (k, nx) := toIntegral mode n m e
    let i : Int := if n then -(k : Int) else k
    if i > hi then (hi, nvFlag)
    else if i < lo then (lo, nvFlag)
    else (i, flagIf nx nxFlag)

/-- An integer as an exact value. -/
def FVal.ofInt (i : Int) : FVal := .fin (decide (i < 0)) i.natAbs 0 false

/-! ## Transcendentals (R252, R253) -/

/-- The integer square root, bit by bit from bit `k`. -/
def isqrtFrom : Nat → Nat → Nat → Nat
  | 0, r, _ => r
  | k + 1, r, n => if (r + 2 ^ k) * (r + 2 ^ k) ≤ n then isqrtFrom k (r + 2 ^ k) n else isqrtFrom k r n

/-- The integer square root. -/
def isqrt (n : Nat) : Nat := isqrtFrom (Nat.log2 n / 2 + 1) 0 n

/-- 1/x exactly enough: quotient bits far below any grid, and the sticky remainder. -/
def exactRcp (m : Nat) (e : Int) : Nat × Int × Bool :=
  let n := 2 ^ (Nat.log2 m + 64)
  (n / m, -e - (Nat.log2 m + 64 : Nat), n % m != 0)

/-- √x exactly enough. -/
def exactSqrt (m : Nat) (e : Int) : Nat × Int × Bool :=
  let par := (e % 2).toNat
  let m' := m * 2 ^ (128 + par)
  let r := isqrt m'
  (r, (e - 128 - par) / 2, r * r != m')

/-- 1/√x exactly enough. -/
def exactRsq (m : Nat) (e : Int) : Nat × Int × Bool :=
  let par := (e % 2).toNat
  let d := m * 2 ^ par
  let n := 2 ^ (2 * ((Nat.log2 d + 1) / 2 + 64))
  let q := n / d
  let r := isqrt q
  (r, -((e - par) / 2) - ((Nat.log2 d + 1) / 2 + 64 : Nat), !(r * r == q && n % d == 0))

/-- Whether the integer value of a finite magnitude is odd or even; none where it is no integer. -/
def integerParity (m : Nat) (e : Int) : Option Bool :=
  if 0 ≤ e then some (decide (e = 0 ∧ m % 2 = 1))
  else if m % 2 ^ (-e).toNat = 0 then some (m / 2 ^ (-e).toNat % 2 == 1)
  else none

/-- The transcendental operations of opcodes 0x39, 0x3A and 0x3B. -/
inductive Trans where
  | rcp | rsq | sqrt | exp2 | log2 | sin | cos | tanh
  deriving DecidableEq, Repr

/-! ### The exact values that R252 bounds, far below its bounds, in units of 2^-128 -/

def fixOne : Nat := 2 ^ 128
/-- ln 2 and π. -/
def fixLn2 : Nat := 235865763225513294137944142764154484399
def fixPi : Nat := 1069028584064966747859680373161870783300

/-- The product and the quotient of two numbers. -/
def fixMul (a b : Nat) : Nat := a * b / fixOne
def fixDiv (a b : Nat) : Nat := a * fixOne / b

/-- A finite value, rounded down. -/
def fixOf (n : Bool) (m : Nat) (e : Int) : Int :=
  let v : Int := if 0 ≤ e + 128 then m * 2 ^ (e + 128).toNat else m / 2 ^ (-(e + 128)).toNat
  if n then -v else v

/-- The sum of `term`, and of what follows it in the series of exp: each term by `y` over its number. -/
def expSum (y : Nat) : Nat → Nat → Nat → Nat
  | 0, _, term => term
  | fuel + 1, k, term => term + expSum y fuel (k + 1) (fixMul term y / k)

/-- 2^f for f below 1: at least 1, and below 2. -/
def fixExp2 (f : Nat) : Nat := expSum (fixMul f fixLn2) 40 1 fixOne

/-- The sum of z^k / k over the odd k. -/
def atanhSum (z2 : Nat) : Nat → Nat → Nat → Nat
  | 0, _, _ => 0
  | fuel + 1, k, p => p / k + atanhSum z2 fuel (k + 2) (fixMul p z2)

/-- log2 of a number from 1 to 2. -/
def fixLog2 (x : Nat) : Nat :=
  let z := fixDiv (x - fixOne) (x + fixOne)
  fixDiv (2 * atanhSum (fixMul z z) 50 1 z) fixLn2

/-- The series of sin: y^k / k!, signs in turn. -/
def sinSum (y2 : Nat) : Nat → Nat → Nat → Int
  | 0, _, _ => 0
  | fuel + 1, k, term => (term : Int) - sinSum y2 fuel (k + 2) (fixMul term y2 / ((k + 1) * (k + 2)))

/-- sin(πx). -/
def fixSinPi (x : Int) : Int :=
  let t := (x % (2 * fixOne)).toNat
  let u := if fixOne ≤ t then t - fixOne else t
  let y := fixMul (if fixOne < 2 * u then fixOne - u else u) fixPi
  let s := sinSum (fixMul y y) 30 1 y
  if fixOne ≤ t then -s else s

/-- tanh x for x at least 0. -/
def fixTanh (x : Nat) : Nat :=
  let p := fixDiv (2 * x) fixLn2
  if 200 ≤ p / fixOne then fixOne
  else
    let ex := fixExp2 (p % fixOne) * 2 ^ (p / fixOne)
    fixDiv (ex - fixOne) (ex + fixOne)

/-- R252: the value that an instruction approximates, as sign, magnitude and exponent. -/
def transValue (t : Trans) (neg : Bool) (m : Nat) (e : Int) : Bool × Nat × Int :=
  let signed (v : Int) : Bool × Nat × Int := (decide (v < 0), v.natAbs, -128)
  match t with
  | .exp2 =>
    let x := fixOf neg m e
    let i := x / fixOne
    if i < -400 then (false, 1, -400) else (false, fixExp2 (x % fixOne).toNat, i - 128)
  | .log2 =>
    let k := Nat.log2 m
    signed ((e + k) * fixOne + fixLog2 (if k ≤ 128 then m * 2 ^ (128 - k) else m / 2 ^ (k - 128)))
  | .sin => signed (fixSinPi (fixOf neg m e))
  | .cos => signed (fixSinPi (fixOf neg m e + fixOne / 2))
  | .tanh =>
    let v : Int := fixTanh (if 400 ≤ Nat.log2 m + e then 400 * fixOne else (fixOf false m e).toNat)
    signed (if neg then -v else v)
  | _ => (false, 0, 0)

/-- R252: the bound on the error, as a power of two: two units of the last place of the value in f32, or the absolute one. -/
def transBound (t : Trans) (m : Nat) (e : Int) (v : Bool × Nat × Int) : Int :=
  let ulps : Int := max (-149) (Nat.log2 v.2.1 + v.2.2 - 23) + 1
  match t with
  | .log2 => if -1 ≤ Nat.log2 m + e ∧ Nat.log2 m + e < 1 then -22 else ulps
  | .sin | .cos => -22
  | .tanh => max ulps (-23)
  | _ => ulps

/-- The magnitude of a finite value and its sign, in units of a power of two that is not above its exponent. -/
def fixAt (j : Int) (v : Bool × Nat × Int) : Int :=
  let x : Int := v.2.1 * 2 ^ (v.2.2 - j).toNat
  if v.1 then -x else x

/-- R252: whether an f32 code lies within the bound of a value, less the error of the series. -/
def withinBound (c : Nat) (v : Bool × Nat × Int) (bound : Int) : Bool :=
  match fp32.decode c with
  | .fin n m e _ =>
    let j := min (min e v.2.2) (bound - 40)
    decide ((fixAt j (n, m, e) - fixAt j v).natAbs + 2 ^ (bound - 40 - j).toNat ≤ 2 ^ (bound - j).toNat)
  | _ => false

/-- R252: a result within the bound: the implementation's, which is open inside it (log 5), or else the nearest value. -/
def bounded (t : Trans) (open_ : BitVec 32) (neg : Bool) (m : Nat) (e : Int) : Nat :=
  let v := transValue t neg m e
  if withinBound open_.toNat v (transBound t m e v) then open_.toNat else (roundTo fp32 .rn false (.fin v.1 v.2.1 v.2.2 true)).1

/-- The f32 approximation of R252 between the exact cases: for RCP and RSQ one of the two neighbours of the exact value,
the choice an opaque constant; for the others any value within the bound, by an opaque constant (log 5). -/
def approx32 (t : Trans) (c : BitVec 32) (neg : Bool) (m : Nat) (e : Int) : Nat :=
  let near (v : Nat × Int × Bool) (up : Bool) : Nat :=
    let dn := (roundTo fp32 .rz false (.fin neg v.1 v.2.1 v.2.2)).1
    let rn := (roundTo fp32 .rn false (.fin neg v.1 v.2.1 v.2.2)).1
    if rn = fp32.infCode neg then rn
    else if up && v.2.2 then dn + 1 else dn
  match t with
  | .rcp => near (exactRcp m e) (Config.rcpUp c)
  | .rsq => near (exactRsq m e) (Config.rsqUp c)
  | .sqrt => 0
  | .exp2 => bounded t (Config.exp2 c) neg m e
  | .log2 => bounded t (Config.log2 c) neg m e
  | .sin => bounded t (Config.sin c) neg m e
  | .cos => bounded t (Config.cos c) neg m e
  | .tanh => bounded t (Config.tanh c) neg m e

/-- The exact result of R252 and R253 where the value is one the tables fix: value, and NV. -/
def transExact (t : Trans) (v : FVal) : Option (FVal × Bool) :=
  let zero (n : Bool) : FVal := .fin n 0 0 false
  let one (n : Bool) : FVal := .fin n 1 0 false
  let bad : Option (FVal × Bool) := some (.nan false, true)
  match v with
  | .nan s => some (.nan false, s)
  | .inf n =>
    match t with
    | .rcp => some (zero n, false)
    | .rsq | .sqrt | .log2 =>
      if n then bad else some (if t = .rsq then zero false else .inf false, false)
    | .exp2 => some (if n then zero false else .inf false, false)
    | .sin | .cos => bad
    | .tanh => some (one n, false)
  | .fin n m e _ =>
    if m = 0 then
      match t with
      | .rcp | .rsq => some (.inf n, false)
      | .sqrt | .sin | .tanh => some (zero n, false)
      | .exp2 | .cos => some (one false, false)
      | .log2 => some (.inf true, false)
    else
      let pow2 := m == 2 ^ Nat.log2 m
      let ex : Int := Nat.log2 m + e
      match t with
      | .rcp => if pow2 && decide (-149 ≤ -ex ∧ -ex ≤ 127) then some (.fin n 1 (-ex) false, false) else none
      | .rsq => if n then bad else if pow2 && ex % 2 == 0 then some (.fin false 1 (-(ex / 2)) false, false) else none
      | .sqrt => if n then bad else none
      | .exp2 =>
        match integerParity m e with
        | some _ =>
          if ex < 8 then
            let k : Int := if 0 ≤ e then m * 2 ^ e.toNat else (m / 2 ^ (-e).toNat : Nat)
            let k := if n then -k else k
            if -149 ≤ k ∧ k ≤ 127 then some (.fin false 1 k false, false) else none
          else none
        | none => none
      | .log2 => if n then bad else if pow2 then some (FVal.ofInt ex, false) else none
      | .sin =>
        match integerParity m e, integerParity m (e + 1) with
        | some _, _ => some (zero n, false)
        | none, some _ =>
          -- x = k + 0.5: twice x is odd, and bit 1 of |2x| says whether |k| is even
          let half := m / 2 ^ (-(e + 1)).toNat
          some (one ((half / 2 % 2 == 1) != n), false)
        | none, none => none
      | .cos =>
        match integerParity m e, integerParity m (e + 1) with
        | some odd, _ => some (one odd, false)
        | none, some _ => some (zero false, false)
        | none, none => none
      | .tanh => none

/-- R253: OF and UF of the exact mathematical value rounded to `f` with .rn, where the result is not exact. The bounds
are those at which 2^x, sin(πx) and tanh x cross the top and the smallest normal value of f32 and f16. -/
def transRange (t : Trans) (f : Fmt) (n : Bool) (m : Nat) (e : Int) : FFlags :=
  let fromExact (v : Nat × Int × Bool) : FFlags :=
    (roundTo f .rn false (.fin n v.1 v.2.1 v.2.2)).2 &&& (ofFlag ||| ufFlag)
  -- |x| against k * 2 ^ j
  let magGe (k : Nat) (j : Int) : Bool :=
    let e0 := min e j
    decide (m * 2 ^ (e - e0).toNat ≥ k * 2 ^ (j - e0).toNat)
  match t with
  | .rcp => fromExact (exactRcp m e)
  | .rsq => 0
  | .sqrt => fromExact (exactSqrt m e)
  | .exp2 =>
    if n then flagIf (magGe (if f.exp = 8 then 126 else 14) 0) ufFlag
    else flagIf (magGe (if f.exp = 8 then 128 else 16) 0) ofFlag
  | .log2 | .cos => 0
  | .sin => flagIf (if f.exp = 8 then !magGe 2670177 (-149) else !magGe 326 (-24)) ufFlag
  | .tanh => flagIf (if f.exp = 8 then !magGe 8388609 (-149) else !magGe 1025 (-24)) ufFlag

/-- R252, R253: a transcendental of an f32 or f16 operand. -/
def trans (flush : Bool) (t : Trans) (f : Fmt) (mode : Rnd) (a : Nat) : Nat × FFlags :=
  let v := flushIn flush f (f.decode a)
  match transExact t v with
  | some (r, nv) =>
    let (c, fl) := roundTo f .rn false r
    let nx := flagIf (fl &&& ofFlag ≠ 0) nxFlag
    flushOut flush f (c, (if r.isNan then 0 else fl ||| nx) ||| flagIf nv nvFlag)
  | none =>
    match v with
    | .fin n m e _ =>
      if t = .sqrt then
        let r := exactSqrt m e
        let x : FVal := .fin false r.1 r.2.1 r.2.2
        if f = fp32 then roundV flush f mode false x
        else
          let r32 := roundTo fp32 mode false x
          let (c, fl) := roundTo f .rn false (fp32.decode r32.1)
          flushOut flush f (c, r32.2 ||| fl)
      else
        let c32 := BitVec.ofNat 32 (roundTo fp32 .rz false v).1
        let big := t == .exp2 && !n && (transRange t fp32 n m e != 0)
        let r32 := if big then fp32.infCode false else approx32 t c32 n m e
        let c := if f = fp32 then r32 else (roundTo f .rn false (fp32.decode r32)).1
        flushOut flush f (c, nxFlag ||| transRange t f n m e)
    | _ => (f.nanCode, nvFlag)

/-! ## Blocks (R226 to R230) -/

/-- R230: the least power of two, as a scale byte, that brings the finite values within the format. -/
def scaleByte (f : Fmt) (xs : List FVal) : Nat :=
  let mags := xs.filterMap fun x => match x with
    | .fin _ m e _ => if m = 0 then none else some (m, e)
    | _ => none
  match mags with
  | [] => 127
  | (m0, e0) :: rest =>
    let le (a b : Nat × Int) : Bool :=
      let j := min a.2 b.2
      decide (a.1 * 2 ^ (a.2 - j).toNat ≤ b.1 * 2 ^ (b.2 - j).toNat)
    let amax := rest.foldl (fun a b => if le a b then b else a) (m0, e0)
    let top := f.ofIdx f.maxIdx
    -- k0 ≤ log2 (amax / maxf) + 1; the answer is one of three
    let k0 : Int := (Nat.log2 amax.1 + amax.2) - (Nat.log2 top.1 + top.2) - 1
    let fits (k : Int) : Bool := le amax (top.1, top.2 + k)
    let k := if fits k0 then k0 else if fits (k0 + 1) then k0 + 1 else k0 + 2
    (min 254 (max 0 (127 + k))).toNat

/-- Little-endian bytes of a number. -/
def leBytes : Nat → Nat → List Byte
  | 0, _ => []
  | n + 1, v => BitVec.ofNat 8 v :: leBytes n (v / 256)

/-- A number of little-endian bytes. -/
def ofLeBytes : List Byte → Nat
  | [] => 0
  | b :: rest => b.toNat + 256 * ofLeBytes rest

/-- R229: the payload bytes of element codes. -/
def packCodes (container : Nat) (codes : List Nat) : List Byte :=
  if container = 8 then codes.map (BitVec.ofNat 8 ·)
  else
    let rec go : List Nat → List Byte
      | a :: b :: rest => BitVec.ofNat 8 (a % 16 + 16 * (b % 16)) :: go rest
      | [a] => [BitVec.ofNat 8 (a % 16)]
      | [] => []
    go codes

/-- R229: the elements of a block: 62 or 124. -/
def elemsPerBlock (container : Nat) : Nat := if container = 4 then 124 else 62

/-- R230: the 64 bytes of a block formed from exact values, and the flags of its formation. -/
def formBlock (code : Nat) (f : Fmt) (mode : Rnd) (xs : List FVal) : List Byte × FFlags :=
  if xs.all fun x => x.isZero && !x.neg? then (List.replicate 64 0, 0)
  else if xs.any FVal.isNan && !f.hasNan then
    (BitVec.ofNat 8 code :: 0xFF :: List.replicate 62 0, nvFlag)
  else
    let q := scaleByte f xs
    let rs := xs.map fun x => roundTo f mode false (x.scale (127 - (q : Int)))
    let codes := rs.map (·.1)
    (BitVec.ofNat 8 code :: BitVec.ofNat 8 q :: packCodes f.container codes, rs.foldl (fun a r => a ||| r.2) 0)

end Sys2Proof.Machine
end

