-- ==== Sys2Proof/Decode.lean ====
section
/-! DEFINITION. The decoder and the encoder of instruction words (02, R35 to R47): total on any words, rejecting by
name what is no instruction's encoding. The rules that an instruction's own description puts on its fields are in
Machine/Forms.lean (R48). -/

namespace Sys2Proof

/-- Why words are no instruction (R36, R38, R39, R42, R43, R44, R47); each is the illegal-instruction fault of R47. -/
inductive Reject where
  /-- The text ends inside the instruction. -/
  | truncated
  /-- R47: an unassigned major opcode. -/
  | unassignedOpcode
  /-- R47: a form that the opcode's shape does not list. -/
  | formNotListed
  /-- R47: a reserved SUB value, or a field that must be zero is not. -/
  | mustBeZeroOrReservedSub
  | reservedSub
  /-- R38, R43, R44: a reserved value of DCL, TYPE or RND. -/
  | reservedField
  /-- R39, R41: a number that its class reserves. -/
  | reservedNumber
  /-- R39: a trap bit on a source that is not a vector register. -/
  | trapBit
  /-- R42: a literal form with no literal operand or more than one, or number 0x100 where there is no literal. -/
  | literalUse
  deriving DecidableEq, Repr

/-! ## The first word (R35) -/

/-- The fields of the first word, in R35's order. -/
structure First where
  b : BitVec 5
  a : BitVec 6
  d : BitVec 6
  opc : BitVec 7
  pneg : Bool
  pred : BitVec 3
  scope : BitVec 2
  len : BitVec 2
  deriving DecidableEq, Repr

/-- R35: the fields of a first word. -/
def First.ofWord (w : Word) : First where
  b := w.extractLsb' 27 5
  a := w.extractLsb' 21 6
  d := w.extractLsb' 15 6
  opc := w.extractLsb' 8 7
  pneg := w.getLsbD 7
  pred := w.extractLsb' 4 3
  scope := w.extractLsb' 2 2
  len := w.extractLsb' 0 2

/-- R35: the first word of its fields. -/
def First.toWord (f : First) : Word :=
  f.b ++ f.a ++ f.d ++ f.opc ++ BitVec.ofBool f.pneg ++ f.pred ++ f.scope ++ f.len

/-- R35: the SCOPE field. -/
def Scope.ofBits (s : BitVec 2) : Scope :=
  match s.toNat with
  | 0 => .lane
  | 1 => .warp
  | 2 => .set
  | _ => .block

/-- R35: the SCOPE field's encoding. -/
def Scope.toBits : Scope → BitVec 2
  | .lane => 0
  | .warp => 1
  | .set => 2
  | .block => 3

/-- PNEG, PRED and SCOPE of a first word. -/
def First.guard (f : First) : Guard := ⟨f.pneg, f.pred, Scope.ofBits f.scope⟩

/-! ## Operands of the 96-bit forms (R38 to R44) -/

/-- R43: the TYPE field; 15 is reserved. -/
def Ty.ofBits (t : BitVec 4) : Option Ty :=
  match t.toNat with
  | 0 => some .u32 | 1 => some .s32 | 2 => some .u64 | 3 => some .s64 | 4 => some .f32 | 5 => some .f16
  | 6 => some .bf16 | 7 => some .f16x2 | 8 => some .bf16x2 | 9 => some .u16 | 10 => some .s16 | 11 => some .u8
  | 12 => some .s8 | 13 => some .b32 | 14 => some .fmt | _ => none

/-- R43: the TYPE field's encoding. -/
def Ty.toBits : Ty → BitVec 4
  | .u32 => 0 | .s32 => 1 | .u64 => 2 | .s64 => 3 | .f32 => 4 | .f16 => 5 | .bf16 => 6 | .f16x2 => 7 | .bf16x2 => 8
  | .u16 => 9 | .s16 => 10 | .u8 => 11 | .s8 => 12 | .b32 => 13 | .fmt => 14

/-- R44: the RND field; 5 to 7 are reserved. -/
def Rnd.ofBits (r : BitVec 3) : Option Rnd :=
  match r.toNat with
  | 0 => some .rn | 1 => some .rz | 2 => some .rm | 3 => some .rp | 4 => some .ra | _ => none

/-- R44: the RND field's encoding. -/
def Rnd.toBits : Rnd → BitVec 3
  | .rn => 0 | .rz => 1 | .rm => 2 | .rp => 3 | .ra => 4

/-- The extension X by its fields (R38). -/
structure Ext where
  dcl : BitVec 2
  fmt : BitVec 3
  sat : Bool
  rnd : BitVec 3
  sub : BitVec 6
  ty : BitVec 4
  ctrp : Bool
  btrp : Bool
  atrp : Bool
  ccl : BitVec 2
  bcl : BitVec 2
  acl : BitVec 2
  c : BitVec 9
  b : BitVec 9
  a : BitVec 9
  d : BitVec 9
  deriving DecidableEq, Repr

/-- R38: the fields of X. -/
def Ext.ofBits (x : DWord) : Ext where
  dcl := x.extractLsb' 62 2
  fmt := x.extractLsb' 59 3
  sat := x.getLsbD 58
  rnd := x.extractLsb' 55 3
  sub := x.extractLsb' 49 6
  ty := x.extractLsb' 45 4
  ctrp := x.getLsbD 44
  btrp := x.getLsbD 43
  atrp := x.getLsbD 42
  ccl := x.extractLsb' 40 2
  bcl := x.extractLsb' 38 2
  acl := x.extractLsb' 36 2
  c := x.extractLsb' 27 9
  b := x.extractLsb' 18 9
  a := x.extractLsb' 9 9
  d := x.extractLsb' 0 9

/-- R38: X of its fields. -/
def Ext.toBits (e : Ext) : DWord :=
  e.dcl ++ e.fmt ++ BitVec.ofBool e.sat ++ e.rnd ++ e.sub ++ e.ty ++ BitVec.ofBool e.ctrp ++ BitVec.ofBool e.btrp
    ++ BitVec.ofBool e.atrp ++ e.ccl ++ e.bcl ++ e.acl ++ e.c ++ e.b ++ e.a ++ e.d

/-- R39, R41, R42: a source from its class, number and trap bit; `lit` is the literal of a form that has one. -/
def Src.ofFields (cls : BitVec 2) (n : BitVec 9) (trap : Bool) (lit : Option DWord) : Except Reject Src :=
  match cls.toNat with
  | 0 => if n.toNat < 320 then .ok (.vec n trap) else .error .reservedNumber
  | 1 => if trap then .error .trapBit else if n.toNat < 64 then .ok (.uni n) else .error .reservedNumber
  | 2 => if trap then .error .trapBit else if n.toNat < 0x13 then .ok (.special n) else .error .reservedNumber
  | _ =>
    if trap then .error .trapBit
    else if n = 0x100#9 then
      match lit with
      | some v => .ok (.lit v)
      | none => .error .literalUse
    else .ok (.imm n)

/-- R39, R42: the class of a source. -/
def Src.cls : Src → BitVec 2
  | .vec .. => 0
  | .uni _ => 1
  | .special _ => 2
  | .imm _ => 3
  | .lit _ => 3

/-- R39, R42: the number of a source; 0x100 names the literal. -/
def Src.num : Src → BitVec 9
  | .vec n _ => n
  | .uni n => n
  | .special n => n
  | .imm n => n
  | .lit _ => 0x100

/-- R38: the trap bit of a source. -/
def Src.trapBit : Src → Bool
  | .vec _ t => t
  | _ => false

/-- Whether a source is the literal. -/
def Src.isLit : Src → Bool
  | .lit _ => true
  | _ => false

/-- R39, R36: a destination from DCL and its number. -/
def Dst.ofFields (dcl : BitVec 2) (n : BitVec 9) : Except Reject Dst :=
  match dcl.toNat with
  | 0 => if n.toNat < 320 then .ok (.vec n) else .error .reservedNumber
  | 1 => if n.toNat < 32 then .ok (.uni n) else .error .reservedNumber
  | 2 => if n.toNat < 7 then .ok (.pred n) else .error .reservedNumber
  | _ => .error .reservedField

/-- R38: DCL of a destination. -/
def Dst.cls : Dst → BitVec 2
  | .vec _ => 0
  | .uni _ => 1
  | .pred _ => 2

/-- R38: the number of a destination. -/
def Dst.num : Dst → BitVec 9
  | .vec n => n
  | .uni n => n
  | .pred n => n

/-- R42: how many of the sources are the literal. -/
def XForm.literals (x : XForm) : Nat :=
  (if x.a.isLit then 1 else 0) + (if x.b.isLit then 1 else 0) + (if x.c.isLit then 1 else 0)

/-- R38 to R44: the operands of an extension. -/
def XForm.ofExt (e : Ext) (lit : Option DWord) : Except Reject XForm := do
  let dst ← Dst.ofFields e.dcl e.d
  let a ← Src.ofFields e.acl e.a e.atrp lit
  let b ← Src.ofFields e.bcl e.b e.btrp lit
  let c ← Src.ofFields e.ccl e.c e.ctrp lit
  match Ty.ofBits e.ty, Rnd.ofBits e.rnd with
  | some ty, some rnd =>
    let x : XForm := ⟨false, dst, a, b, c, e.sub, ty, rnd, e.sat, e.fmt⟩
    if x.literals = (if lit.isSome then 1 else 0) then .ok x else .error .literalUse
  | _, _ => .error .reservedField

/-- R38: the extension of the operands of a three-word form. -/
def XForm.toExt (x : XForm) : Ext :=
  ⟨x.dst.cls, x.fmt, x.sat, x.rnd.toBits, x.sub, x.ty.toBits, x.c.trapBit, x.b.trapBit, x.a.trapBit, x.c.cls, x.b.cls,
    x.a.cls, x.c.num, x.b.num, x.a.num, x.dst.num⟩

/-- The literal among the sources, if any. -/
def XForm.literal (x : XForm) : Option DWord :=
  match x.a, x.b, x.c with
  | .lit v, _, _ => some v
  | _, .lit v, _ => some v
  | _, _, .lit v => some v
  | _, _, _ => none

/-! ## Opcodes (R45, R46) -/

/-- Shape of an opcode (R45). -/
inductive Shape where
  | r2 | i2 | s2 | f3 | t3 | u1 | j | n | m | x
  deriving DecidableEq, Repr

/-- R46: the shape of each assigned major opcode; none of R47's unassigned ones. -/
def shapeOf (opc : BitVec 7) : Option Shape :=
  match opc.toNat with
  | 0x00 => some .n
  | 0x01 => some .j
  | 0x02 => some .m
  | 0x03 => some .j
  | 0x04 => some .m
  | 0x05 => some .n
  | 0x06 => some .n
  | 0x07 => some .n
  | 0x08 => some .n
  | 0x09 => some .m
  | 0x0A => some .x
  | 0x0B => some .m
  | 0x0C => some .n
  | 0x0D => some .m
  | 0x0E => some .m
  | 0x0F => some .x
  | 0x10 => some .r2
  | 0x11 => some .r2
  | 0x12 => some .t3
  | 0x13 => some .r2
  | 0x14 => some .r2
  | 0x15 => some .f3
  | 0x16 => some .t3
  | 0x17 => some .i2
  | 0x18 => some .i2
  | 0x19 => some .i2
  | 0x1A => some .t3
  | 0x1B => some .r2
  | 0x1C => some .r2
  | 0x1D => some .r2
  | 0x1E => some .t3
  | 0x1F => some .u1
  | 0x20 => some .t3
  | 0x21 => some .t3
  | 0x22 => some .t3
  | 0x23 => some .r2
  | 0x24 => some .r2
  | 0x25 => some .u1
  | 0x26 => some .t3
  | 0x27 => some .r2
  | 0x28 => some .t3
  | 0x29 => some .t3
  | 0x2A => some .u1
  | 0x2B => some .s2
  | 0x2C => some .u1
  | 0x2D => some .t3
  | 0x2E => some .u1
  | 0x30 => some .r2
  | 0x31 => some .r2
  | 0x32 => some .f3
  | 0x33 => some .r2
  | 0x34 => some .r2
  | 0x35 => some .r2
  | 0x36 => some .t3
  | 0x37 => some .u1
  | 0x38 => some .u1
  | 0x39 => some .u1
  | 0x3A => some .u1
  | 0x3B => some .u1
  | 0x3C => some .r2
  | 0x3D => some .r2
  | 0x3E => some .f3
  | 0x3F => some .f3
  | 0x40 => some .u1
  | 0x41 => some .u1
  | 0x42 => some .u1
  | 0x43 => some .x
  | 0x44 => some .x
  | 0x45 => some .x
  | 0x48 => some .m
  | 0x49 => some .m
  | 0x4A => some .m
  | 0x4B => some .m
  | 0x4C => some .m
  | 0x50 => some .m
  | 0x51 => some .m
  | 0x52 => some .m
  | 0x53 => some .m
  | 0x54 => some .m
  | 0x55 => some .m
  | 0x56 => some .m
  | 0x57 => some .m
  | 0x58 => some .m
  | 0x59 => some .n
  | 0x5A => some .x
  | 0x5B => some .m
  | 0x60 => some .m
  | 0x61 => some .m
  | 0x62 => some .x
  | 0x63 => some .x
  | 0x64 => some .m
  | 0x65 => some .m
  | 0x68 => some .x
  | 0x69 => some .x
  | 0x6A => some .x
  | 0x6B => some .x
  | 0x6C => some .x
  | 0x6D => some .m
  | 0x6E => some .m
  | 0x6F => some .x
  | 0x70 => some .x
  | 0x71 => some .x
  | 0x72 => some .x
  | 0x73 => some .x
  | 0x74 => some .x
  | 0x75 => some .x
  | 0x76 => some .x
  | 0x78 => some .x
  | 0x79 => some .x
  | 0x7A => some .x
  | 0x7C => some .m
  | 0x7D => some .m
  | 0x7E => some .u1
  | _ => none

/-- R45: the forms a shape lists, by LEN. -/
def Shape.allows (s : Shape) (len : BitVec 2) : Bool :=
  match s, len.toNat with
  | .r2, _ | .i2, _ | .s2, _ => true
  | .f3, l | .m, l => l != 2
  | .t3, l | .x, l => l == 1 || l == 3
  | .u1, l => l == 0 || l == 1
  | .j, l => l == 0 || l == 2
  | .n, l => l == 0

/-- R37: TYPE of the literal form LEN = 10 and of the one-word form, for the opcodes of shape R2, I2 and S2. -/
def defaultTy (opc : BitVec 7) : Ty :=
  if opc.toNat < 0x30 then .s32
  else if opc = 0x3C#7 ∨ opc = 0x3D#7 then .f16x2
  else .f32

/-- R36: whether a destination is a predicate in the forms of 0x27 ICMP and 0x35 FCMP. -/
def predDst (opc : BitVec 7) : Bool := opc = 0x27#7 || opc = 0x35#7

/-- R37: the operands of the form LEN = 10: D and A as in the one-word form, the literal for B. -/
def XForm.ofShort (opc : BitVec 7) (a d : BitVec 6) (v : DWord) : XForm where
  short := true
  dst := if predDst opc then .pred (d.setWidth 9) else .vec (d.setWidth 9)
  a := .vec (a.setWidth 9) false
  b := .lit v
  c := .vec 0 false
  sub := 0
  ty := defaultTy opc
  rnd := .rn
  sat := false
  fmt := 0

/-- The one-word forms (R45, R46): major opcode, then B, A and D. -/
def oneWord (g : Guard) (opc : BitVec 7) (b : BitVec 5) (a d : BitVec 6) : Except Reject Instr :=
  match opc.toNat with
  | 0x00 =>
    if b = 0#5 ∧ a = 0#6 ∧ d = 0#6 then .ok (.nop g) else
    if b = 1#5 ∧ a = 0#6 ∧ d = 0#6 then .ok (.yield g) else
    .error .mustBeZeroOrReservedSub
  | 0x01 =>
    .ok (.bra g (b ++ a ++ d))
  | 0x02 =>
    if b = 0#5 ∧ d = 0#6 then .ok (.brx g a) else .error .mustBeZeroOrReservedSub
  | 0x03 =>
    .ok (.call g (b ++ a ++ d))
  | 0x04 =>
    if b = 0#5 ∧ d = 0#6 then .ok (.callx g a) else .error .mustBeZeroOrReservedSub
  | 0x05 =>
    if b = 0#5 ∧ a = 0#6 ∧ d = 0#6 then .ok (.ret g) else .error .mustBeZeroOrReservedSub
  | 0x06 =>
    if b = 0#5 ∧ a = 0#6 ∧ d = 0#6 then .ok (.exit g) else .error .mustBeZeroOrReservedSub
  | 0x07 =>
    if b = 0#5 ∧ a = 0#6 then .ok (.trap g d) else
    if b = 1#5 ∧ a = 0#6 then .ok (.brk g d) else
    .error .mustBeZeroOrReservedSub
  | 0x08 =>
    if b = 0#5 ∧ a = 0#6 ∧ d.extractLsb' 1 5 = 0#5 then .ok (.trapret g (d.extractLsb' 0 1)) else .error .mustBeZeroOrReservedSub
  | 0x09 =>
    if b = 0#5 ∧ a = 0#6 ∧ d = 0#6 then .ok (.bar g) else
    if b.extractLsb' 4 1 = 1#1 ∧ a = 0#6 ∧ d = 0#6 then .ok (.barNamed g (b.extractLsb' 0 4)) else
    .error .mustBeZeroOrReservedSub
  | 0x0B =>
    if b = 0#5 then .ok (.rdsr g a d) else .error .mustBeZeroOrReservedSub
  | 0x0C =>
    if b = 0#5 ∧ a = 0#6 ∧ d = 0#6 then .ok (.idemb g) else
    if b = 1#5 ∧ a = 0#6 ∧ d = 0#6 then .ok (.ideme g) else
    .error .mustBeZeroOrReservedSub
  | 0x0D =>
    if a = 0#6 ∧ d = 0#6 then .ok (.prog g b) else .error .mustBeZeroOrReservedSub
  | 0x0E =>
    if b = 0#5 then .ok (.waitf g a d) else .error .mustBeZeroOrReservedSub
  | 0x10 =>
    .ok (.iadd g b a d)
  | 0x11 =>
    .ok (.isub g b a d)
  | 0x13 =>
    .ok (.imul g b a d)
  | 0x14 =>
    .ok (.imulh g b a d)
  | 0x15 =>
    .ok (.imad g b a d)
  | 0x17 =>
    .ok (.shl g b a d)
  | 0x18 =>
    .ok (.shr g b a d)
  | 0x19 =>
    .ok (.sar g b a d)
  | 0x1B =>
    .ok (.and g b a d)
  | 0x1C =>
    .ok (.or g b a d)
  | 0x1D =>
    .ok (.xor g b a d)
  | 0x1F =>
    if b = 0#5 then .ok (.popc g a d) else
    if b = 1#5 then .ok (.clz g a d) else
    if b = 2#5 then .ok (.brev g a d) else
    .error .mustBeZeroOrReservedSub
  | 0x23 =>
    .ok (.imin g b a d)
  | 0x24 =>
    .ok (.imax g b a d)
  | 0x25 =>
    if b = 0#5 then .ok (.iabs g a d) else .error .mustBeZeroOrReservedSub
  | 0x27 =>
    if d.extractLsb' 3 3 = 0#3 then .ok (.icmp g b a (d.extractLsb' 0 3)) else .error .mustBeZeroOrReservedSub
  | 0x2A =>
    if b = 0#5 then .ok (.mov g a d) else .error .mustBeZeroOrReservedSub
  | 0x2B =>
    if a = 0#6 then .ok (.movi g b d) else .error .mustBeZeroOrReservedSub
  | 0x2C =>
    if b = 0#5 ∧ a = 0#6 then .ok (.movqPack g d) else
    if b = 1#5 ∧ d = 0#6 then .ok (.movqUnpack g a) else
    .error .mustBeZeroOrReservedSub
  | 0x2E =>
    .ok (.cvti g b a d)
  | 0x30 =>
    .ok (.fadd g b a d)
  | 0x31 =>
    .ok (.fmul g b a d)
  | 0x32 =>
    .ok (.ffma g b a d)
  | 0x33 =>
    .ok (.fmin g b a d)
  | 0x34 =>
    .ok (.fmax g b a d)
  | 0x35 =>
    if d.extractLsb' 3 3 = 0#3 then .ok (.fcmp g b a (d.extractLsb' 0 3)) else .error .mustBeZeroOrReservedSub
  | 0x37 =>
    if b = 0#5 then .ok (.fclass g a d) else .error .mustBeZeroOrReservedSub
  | 0x38 =>
    if b = 0#5 then .ok (.frnd g a d) else .error .mustBeZeroOrReservedSub
  | 0x39 =>
    if b = 0#5 then .ok (.rcp g a d) else
    if b = 1#5 then .ok (.rsq g a d) else
    if b = 2#5 then .ok (.sqrt g a d) else
    .error .mustBeZeroOrReservedSub
  | 0x3A =>
    if b = 0#5 then .ok (.exp2 g a d) else
    if b = 1#5 then .ok (.log2 g a d) else
    .error .mustBeZeroOrReservedSub
  | 0x3B =>
    if b = 0#5 then .ok (.sin g a d) else
    if b = 1#5 then .ok (.cos g a d) else
    if b = 2#5 then .ok (.tanh g a d) else
    .error .mustBeZeroOrReservedSub
  | 0x3C =>
    .ok (.hadd2 g b a d)
  | 0x3D =>
    .ok (.hmul2 g b a d)
  | 0x3E =>
    .ok (.hfma2 g b a d)
  | 0x3F =>
    .ok (.dot4 g b a d)
  | 0x40 =>
    .ok (.cvtf g b a d)
  | 0x41 =>
    .ok (.cvtfi g b a d)
  | 0x42 =>
    .ok (.cvtif g b a d)
  | 0x48 =>
    .ok (.shfl g b a d)
  | 0x49 =>
    if b = 0#5 ∧ d.extractLsb' 3 3 = 0#3 then .ok (.vote g a (d.extractLsb' 0 3)) else .error .mustBeZeroOrReservedSub
  | 0x4A =>
    if b = 0#5 then .ok (.redux g a d) else .error .mustBeZeroOrReservedSub
  | 0x4B =>
    if b = 0#5 then .ok (.matchAny g a d) else .error .mustBeZeroOrReservedSub
  | 0x4C =>
    if b = 0#5 then .ok (.scan g a d) else .error .mustBeZeroOrReservedSub
  | 0x50 =>
    .ok (.ld g b a d)
  | 0x51 =>
    .ok (.st g b a d)
  | 0x52 =>
    .ok (.lds g b a d)
  | 0x53 =>
    .ok (.sts g b a d)
  | 0x54 =>
    .ok (.ldc g b a d)
  | 0x55 =>
    if b.extractLsb' 1 4 = 0#4 then .ok (.ldw g (b.extractLsb' 0 1) a d) else .error .mustBeZeroOrReservedSub
  | 0x56 =>
    if d = 0#6 then .ok (.stw g b a) else .error .mustBeZeroOrReservedSub
  | 0x57 =>
    if b.extractLsb' 1 4 = 0#4 ∧ d = 0#6 then .ok (.pref g (b.extractLsb' 0 1) a) else .error .mustBeZeroOrReservedSub
  | 0x58 =>
    if b.extractLsb' 4 1 = 0#1 ∧ a = 0#6 ∧ d = 0#6 then .ok (.fence g (b.extractLsb' 0 4)) else .error .mustBeZeroOrReservedSub
  | 0x59 =>
    if b = 0#5 ∧ a = 0#6 ∧ d = 0#6 then .ok (.opfence g) else .error .mustBeZeroOrReservedSub
  | 0x5B =>
    if b.extractLsb' 1 4 = 0#4 ∧ d = 0#6 then .ok (.cinv g (b.extractLsb' 0 1) a) else .error .mustBeZeroOrReservedSub
  | 0x60 =>
    .ok (.latom g b a d)
  | 0x64 =>
    if d.extractLsb' 3 3 = 0#3 then .ok (.waitcmp g b a (d.extractLsb' 0 3)) else .error .mustBeZeroOrReservedSub
  | 0x65 =>
    if b = 0#5 ∧ d = 0#6 then .ok (.moncan g a) else .error .mustBeZeroOrReservedSub
  | 0x6D =>
    if d.extractLsb' 3 3 = 0#3 then .ok (.rpush g b a (d.extractLsb' 0 3)) else .error .mustBeZeroOrReservedSub
  | 0x6E =>
    if a = 0#6 then .ok (.rpop g b d) else .error .mustBeZeroOrReservedSub
  | 0x7C =>
    if b = 0#5 then .ok (.csrr g a d) else .error .mustBeZeroOrReservedSub
  | 0x7D =>
    if d = 0#6 then .ok (.csrw g b a) else .error .mustBeZeroOrReservedSub
  | 0x7E =>
    if b.extractLsb' 1 4 = 0#4 ∧ a = 0#6 then .ok (.time g (b.extractLsb' 0 1) d) else .error .mustBeZeroOrReservedSub
  | _ => .error .formNotListed

/-- The three-word forms and the forms with a literal (R46): the constructor of an opcode and its SUB. -/
def threeWord (g : Guard) (opc : BitVec 7) (x : XForm) : Except Reject Instr :=
  match opc.toNat with
  | 0x02 => .ok (.brxX g x)
  | 0x04 => .ok (.callxX g x)
  | 0x09 => .ok (.barX g x)
  | 0x0A => if x.sub = 0#6 then .ok (.setdecl g x) else if x.sub = 1#6 then .ok (.setfree g x) else .error .reservedSub
  | 0x0B => .ok (.rdsrX g x)
  | 0x0D => .ok (.progX g x)
  | 0x0E => .ok (.waitfX g x)
  | 0x0F => if x.sub = 0#6 then .ok (.reggive g x) else if x.sub = 1#6 then .ok (.regclaim g x) else .error .reservedSub
  | 0x10 => .ok (.iaddX g x)
  | 0x11 => .ok (.isubX g x)
  | 0x12 => .ok (.iadd3 g x)
  | 0x13 => .ok (.imulX g x)
  | 0x14 => .ok (.imulhX g x)
  | 0x15 => .ok (.imadX g x)
  | 0x16 => .ok (.imadw g x)
  | 0x17 => .ok (.shlX g x)
  | 0x18 => .ok (.shrX g x)
  | 0x19 => .ok (.sarX g x)
  | 0x1A => .ok (.shf g x)
  | 0x1B => .ok (.andX g x)
  | 0x1C => .ok (.orX g x)
  | 0x1D => .ok (.xorX g x)
  | 0x1E => .ok (.bfn g x)
  | 0x1F => if x.sub = 0#6 then .ok (.popcX g x) else if x.sub = 1#6 then .ok (.clzX g x) else if x.sub = 2#6 then .ok (.brevX g x) else .error .reservedSub
  | 0x20 => .ok (.bfx g x)
  | 0x21 => .ok (.bfi g x)
  | 0x22 => .ok (.bpack g x)
  | 0x23 => .ok (.iminX g x)
  | 0x24 => .ok (.imaxX g x)
  | 0x25 => .ok (.iabsX g x)
  | 0x26 => .ok (.isel g x)
  | 0x27 => .ok (.icmpX g x)
  | 0x28 => if x.sub = 0#6 then .ok (.iaddmin g x) else if x.sub = 1#6 then .ok (.iaddmax g x) else .error .reservedSub
  | 0x29 => .ok (.lea g x)
  | 0x2A => .ok (.movX g x)
  | 0x2B => .ok (.moviX g x)
  | 0x2C => .ok (.movqX g x)
  | 0x2D => .ok (.qop g x)
  | 0x2E => .ok (.cvtiX g x)
  | 0x30 => .ok (.faddX g x)
  | 0x31 => .ok (.fmulX g x)
  | 0x32 => .ok (.ffmaX g x)
  | 0x33 => .ok (.fminX g x)
  | 0x34 => .ok (.fmaxX g x)
  | 0x35 => .ok (.fcmpX g x)
  | 0x36 => .ok (.faddmin g x)
  | 0x37 => .ok (.fclassX g x)
  | 0x38 => .ok (.frndX g x)
  | 0x39 => .ok (.rcpRsqSqrtX g x)
  | 0x3A => .ok (.exp2Log2X g x)
  | 0x3B => .ok (.sinCosTanhX g x)
  | 0x3C => .ok (.hadd2X g x)
  | 0x3D => .ok (.hmul2X g x)
  | 0x3E => .ok (.hfma2X g x)
  | 0x3F => .ok (.dot4X g x)
  | 0x40 => .ok (.cvtfX g x)
  | 0x41 => .ok (.cvtfiX g x)
  | 0x42 => .ok (.cvtifX g x)
  | 0x43 => .ok (.quant g x)
  | 0x44 => .ok (.deq g x)
  | 0x45 => .ok (.blkmax g x)
  | 0x48 => .ok (.shflX g x)
  | 0x49 => .ok (.voteX g x)
  | 0x4A => .ok (.reduxX g x)
  | 0x4B => .ok (.matchX g x)
  | 0x4C => .ok (.scanX g x)
  | 0x50 => .ok (.ldX g x)
  | 0x51 => .ok (.stX g x)
  | 0x52 => .ok (.ldsX g x)
  | 0x53 => .ok (.stsX g x)
  | 0x54 => .ok (.ldcX g x)
  | 0x55 => .ok (.ldwX g x)
  | 0x56 => .ok (.stwX g x)
  | 0x57 => .ok (.prefX g x)
  | 0x58 => .ok (.fenceX g x)
  | 0x5A => .ok (.rdeg g x)
  | 0x5B => .ok (.cinvX g x)
  | 0x60 => .ok (.latomX g x)
  | 0x61 => .ok (.latoms g x)
  | 0x62 => .ok (.rtinst g x)
  | 0x63 => .ok (.rtrem g x)
  | 0x64 => .ok (.waitcmpX g x)
  | 0x65 => .ok (.moncanX g x)
  | 0x68 => .ok (.xcopy g x)
  | 0x69 => if x.sub = 0#6 then .ok (.xgather g x) else if x.sub = 1#6 then .ok (.xscat g x) else .error .reservedSub
  | 0x6A => .ok (.xfill g x)
  | 0x6B => .ok (.xread g x)
  | 0x6C => .ok (.qcwset g x)
  | 0x6D => .ok (.rpushX g x)
  | 0x6E => .ok (.rpopX g x)
  | 0x6F => if x.sub = 0#6 then .ok (.bgive g x) else if x.sub = 1#6 then .ok (.btake g x) else if x.sub = 2#6 then .ok (.bgiveFree g x) else if x.sub = 3#6 then .ok (.btakeNew g x) else .error .reservedSub
  | 0x70 => .ok (.fmtset g x)
  | 0x71 => .ok (.mma g x)
  | 0x72 => .ok (.mmas g x)
  | 0x73 => .ok (.accz g x)
  | 0x74 => .ok (.accld g x)
  | 0x75 => .ok (.accst g x)
  | 0x76 => .ok (.acck g x)
  | 0x78 => if x.sub = 0#6 then .ok (.fetchtTile g x) else if x.sub = 1#6 then .ok (.fetchtTask g x) else .error .reservedSub
  | 0x79 => .ok (.enqt g x)
  | 0x7A => .ok (.migrate g x)
  | 0x7C => .ok (.csrrX g x)
  | 0x7D => .ok (.csrwX g x)
  | 0x7E => .ok (.timeX g x)
  | _ => .error .formNotListed

/-- R35, R38, R42: the instruction at the head of a list of words, and the words after it. -/
def decodeWords : List Word → Except Reject (Instr × List Word)
  | [] => .error .truncated
  | w :: rest =>
    let f := First.ofWord w
    match shapeOf f.opc with
    | none => .error .unassignedOpcode
    | some sh =>
      if !sh.allows f.len then .error .formNotListed
      else
        match f.len.toNat, rest with
        | 0, _ => do
          let i ← oneWord f.guard f.opc f.b f.a f.d
          pure (i, rest)
        | 1, x0 :: x1 :: rest' =>
          if f.b ≠ 0 ∨ f.a ≠ 0 ∨ f.d ≠ 0 then .error .mustBeZeroOrReservedSub
          else do
            let x ← XForm.ofExt (Ext.ofBits (x1 ++ x0)) none
            let i ← threeWord f.guard f.opc x
            pure (i, rest')
        | 2, l0 :: l1 :: rest' =>
          if sh = .j then
            if f.b ≠ 0 ∨ f.a ≠ 0 ∨ f.d ≠ 0 then .error .mustBeZeroOrReservedSub
            else if f.opc = 0x01#7 then .ok (.braLit f.guard (l1 ++ l0), rest')
            else .ok (.callLit f.guard (l1 ++ l0), rest')
          else if f.b ≠ 0 ∨ (sh = .s2 ∧ f.a ≠ 0) ∨ (predDst f.opc ∧ f.d.toNat ≥ 7) then
            .error .mustBeZeroOrReservedSub
          else do
            let i ← threeWord f.guard f.opc (XForm.ofShort f.opc f.a f.d (l1 ++ l0))
            pure (i, rest')
        | 3, x0 :: x1 :: l0 :: l1 :: rest' =>
          if f.b ≠ 0 ∨ f.a ≠ 0 ∨ f.d ≠ 0 then .error .mustBeZeroOrReservedSub
          else do
            let x ← XForm.ofExt (Ext.ofBits (x1 ++ x0)) (some (l1 ++ l0))
            let i ← threeWord f.guard f.opc x
            pure (i, rest')
        | _, _ => .error .truncated

/-- R35: how many words LEN says an instruction has. -/
def wordsOfLen (len : BitVec 2) : Nat :=
  match len.toNat with
  | 0 => 1
  | 3 => 5
  | _ => 3

/-- R4: the words of a list of bytes, little-endian; bytes that do not fill a word are left out. -/
def wordsOfBytes : List Byte → List Word
  | b0 :: b1 :: b2 :: b3 :: rest => (b3 ++ b2 ++ b1 ++ b0) :: wordsOfBytes rest
  | _ => []

/-- R4: the bytes of a list of words, little-endian. -/
def bytesOfWords : List Word → List Byte
  | [] => []
  | w :: rest =>
    w.extractLsb' 0 8 :: w.extractLsb' 8 8 :: w.extractLsb' 16 8 :: w.extractLsb' 24 8 :: bytesOfWords rest

/-- The decoder on bytes: the instruction at their head, and how many bytes it occupies. -/
def decodeBytes (bs : List Byte) : Except Reject (Instr × Nat) :=
  match decodeWords (wordsOfBytes bs) with
  | .ok (i, rest) => .ok (i, 4 * ((wordsOfBytes bs).length - rest.length))
  | .error e => .error e

/-! ## The encoder -/

/-- The word of a one-word form. -/
def one (g : Guard) (opc : BitVec 7) (b : BitVec 5) (a d : BitVec 6) : List Word :=
  [First.toWord ⟨b, a, d, opc, g.pneg, g.pred, g.scope.toBits, 0⟩]

/-- The words of a literal, low word first (R35). -/
def litWords (v : DWord) : List Word := [v.extractLsb' 0 32, v.extractLsb' 32 32]

/-- The words of a form with an extension or of a short literal form. -/
def xWords (opc : BitVec 7) (g : Guard) (x : XForm) : List Word :=
  if x.short then
    First.toWord ⟨0, x.a.num.setWidth 6, x.dst.num.setWidth 6, opc, g.pneg, g.pred, g.scope.toBits, 2⟩ ::
      litWords (x.literal.getD 0)
  else
    First.toWord ⟨0, 0, 0, opc, g.pneg, g.pred, g.scope.toBits, if x.literal.isSome then 3 else 1⟩ ::
      (litWords x.toExt.toBits ++
        match x.literal with
        | some v => litWords v
        | none => [])

/-- The words of BRA and CALL with a literal offset (R49). -/
def litOffsetWords (opc : BitVec 7) (g : Guard) (v : DWord) : List Word :=
  First.toWord ⟨0, 0, 0, opc, g.pneg, g.pred, g.scope.toBits, 2⟩ :: litWords v

/-- The words of an instruction; none for the device's own steps, which have no words. -/
def encode? : Instr → Option (List Word)
  | .braLit g v => some (litOffsetWords 0x01#7 g v)
  | .callLit g v => some (litOffsetWords 0x03#7 g v)
  | .nop g => some (one g 0x00#7 0#5 0#6 0#6)
  | .yield g => some (one g 0x00#7 1#5 0#6 0#6)
  | .bra g o => some (one g 0x01#7 (o.extractLsb' 12 5) (o.extractLsb' 6 6) (o.extractLsb' 0 6))
  | .brx g a => some (one g 0x02#7 0#5 a 0#6)
  | .call g o => some (one g 0x03#7 (o.extractLsb' 12 5) (o.extractLsb' 6 6) (o.extractLsb' 0 6))
  | .callx g a => some (one g 0x04#7 0#5 a 0#6)
  | .ret g => some (one g 0x05#7 0#5 0#6 0#6)
  | .exit g => some (one g 0x06#7 0#5 0#6 0#6)
  | .trap g c => some (one g 0x07#7 0#5 0#6 c)
  | .brk g c => some (one g 0x07#7 1#5 0#6 c)
  | .trapret g k => some (one g 0x08#7 0#5 0#6 (0#5 ++ k))
  | .bar g => some (one g 0x09#7 0#5 0#6 0#6)
  | .barNamed g i => some (one g 0x09#7 (1#1 ++ i) 0#6 0#6)
  | .rdsr g a d => some (one g 0x0B#7 0#5 a d)
  | .idemb g => some (one g 0x0C#7 0#5 0#6 0#6)
  | .ideme g => some (one g 0x0C#7 1#5 0#6 0#6)
  | .prog g v => some (one g 0x0D#7 v 0#6 0#6)
  | .waitf g a d => some (one g 0x0E#7 0#5 a d)
  | .iadd g b a d => some (one g 0x10#7 b a d)
  | .isub g b a d => some (one g 0x11#7 b a d)
  | .imul g b a d => some (one g 0x13#7 b a d)
  | .imulh g b a d => some (one g 0x14#7 b a d)
  | .imad g b a d => some (one g 0x15#7 b a d)
  | .shl g i a d => some (one g 0x17#7 i a d)
  | .shr g i a d => some (one g 0x18#7 i a d)
  | .sar g i a d => some (one g 0x19#7 i a d)
  | .and g b a d => some (one g 0x1B#7 b a d)
  | .or g b a d => some (one g 0x1C#7 b a d)
  | .xor g b a d => some (one g 0x1D#7 b a d)
  | .popc g a d => some (one g 0x1F#7 0#5 a d)
  | .clz g a d => some (one g 0x1F#7 1#5 a d)
  | .brev g a d => some (one g 0x1F#7 2#5 a d)
  | .imin g b a d => some (one g 0x23#7 b a d)
  | .imax g b a d => some (one g 0x24#7 b a d)
  | .iabs g a d => some (one g 0x25#7 0#5 a d)
  | .icmp g b a d => some (one g 0x27#7 b a (0#3 ++ d))
  | .mov g a d => some (one g 0x2A#7 0#5 a d)
  | .movi g i d => some (one g 0x2B#7 i 0#6 d)
  | .movqPack g d => some (one g 0x2C#7 0#5 0#6 d)
  | .movqUnpack g a => some (one g 0x2C#7 1#5 a 0#6)
  | .cvti g t a d => some (one g 0x2E#7 t a d)
  | .fadd g b a d => some (one g 0x30#7 b a d)
  | .fmul g b a d => some (one g 0x31#7 b a d)
  | .ffma g b a d => some (one g 0x32#7 b a d)
  | .fmin g b a d => some (one g 0x33#7 b a d)
  | .fmax g b a d => some (one g 0x34#7 b a d)
  | .fcmp g b a d => some (one g 0x35#7 b a (0#3 ++ d))
  | .fclass g a d => some (one g 0x37#7 0#5 a d)
  | .frnd g a d => some (one g 0x38#7 0#5 a d)
  | .rcp g a d => some (one g 0x39#7 0#5 a d)
  | .rsq g a d => some (one g 0x39#7 1#5 a d)
  | .sqrt g a d => some (one g 0x39#7 2#5 a d)
  | .exp2 g a d => some (one g 0x3A#7 0#5 a d)
  | .log2 g a d => some (one g 0x3A#7 1#5 a d)
  | .sin g a d => some (one g 0x3B#7 0#5 a d)
  | .cos g a d => some (one g 0x3B#7 1#5 a d)
  | .tanh g a d => some (one g 0x3B#7 2#5 a d)
  | .hadd2 g b a d => some (one g 0x3C#7 b a d)
  | .hmul2 g b a d => some (one g 0x3D#7 b a d)
  | .hfma2 g b a d => some (one g 0x3E#7 b a d)
  | .dot4 g b a d => some (one g 0x3F#7 b a d)
  | .cvtf g t a d => some (one g 0x40#7 t a d)
  | .cvtfi g t a d => some (one g 0x41#7 t a d)
  | .cvtif g t a d => some (one g 0x42#7 t a d)
  | .shfl g b a d => some (one g 0x48#7 b a d)
  | .vote g a d => some (one g 0x49#7 0#5 a (0#3 ++ d))
  | .redux g a d => some (one g 0x4A#7 0#5 a d)
  | .matchAny g a d => some (one g 0x4B#7 0#5 a d)
  | .scan g a d => some (one g 0x4C#7 0#5 a d)
  | .ld g o a d => some (one g 0x50#7 o a d)
  | .st g o a d => some (one g 0x51#7 o a d)
  | .lds g o a d => some (one g 0x52#7 o a d)
  | .sts g o a d => some (one g 0x53#7 o a d)
  | .ldc g o a d => some (one g 0x54#7 o a d)
  | .ldw g k a d => some (one g 0x55#7 (0#4 ++ k) a d)
  | .stw g b a => some (one g 0x56#7 b a 0#6)
  | .pref g c a => some (one g 0x57#7 (0#4 ++ c) a 0#6)
  | .cinv g c a => some (one g 0x5B#7 (0#4 ++ c) a 0#6)
  | .fence g k => some (one g 0x58#7 (0#1 ++ k) 0#6 0#6)
  | .opfence g => some (one g 0x59#7 0#5 0#6 0#6)
  | .latom g i a d => some (one g 0x60#7 i a d)
  | .waitcmp g b a d => some (one g 0x64#7 b a (0#3 ++ d))
  | .moncan g a => some (one g 0x65#7 0#5 a 0#6)
  | .rpush g q a c => some (one g 0x6D#7 q a (0#3 ++ c))
  | .rpop g q d => some (one g 0x6E#7 q 0#6 d)
  | .csrr g a d => some (one g 0x7C#7 0#5 a d)
  | .csrw g b a => some (one g 0x7D#7 b a 0#6)
  | .time g c d => some (one g 0x7E#7 (0#4 ++ c) 0#6 d)
  | .brxX g x => some (xWords 0x02#7 g x)
  | .callxX g x => some (xWords 0x04#7 g x)
  | .barX g x => some (xWords 0x09#7 g x)
  | .setdecl g x => some (xWords 0x0A#7 g x)
  | .setfree g x => some (xWords 0x0A#7 g x)
  | .rdsrX g x => some (xWords 0x0B#7 g x)
  | .progX g x => some (xWords 0x0D#7 g x)
  | .waitfX g x => some (xWords 0x0E#7 g x)
  | .reggive g x => some (xWords 0x0F#7 g x)
  | .regclaim g x => some (xWords 0x0F#7 g x)
  | .iaddX g x => some (xWords 0x10#7 g x)
  | .isubX g x => some (xWords 0x11#7 g x)
  | .iadd3 g x => some (xWords 0x12#7 g x)
  | .imulX g x => some (xWords 0x13#7 g x)
  | .imulhX g x => some (xWords 0x14#7 g x)
  | .imadX g x => some (xWords 0x15#7 g x)
  | .imadw g x => some (xWords 0x16#7 g x)
  | .shlX g x => some (xWords 0x17#7 g x)
  | .shrX g x => some (xWords 0x18#7 g x)
  | .sarX g x => some (xWords 0x19#7 g x)
  | .shf g x => some (xWords 0x1A#7 g x)
  | .andX g x => some (xWords 0x1B#7 g x)
  | .orX g x => some (xWords 0x1C#7 g x)
  | .xorX g x => some (xWords 0x1D#7 g x)
  | .bfn g x => some (xWords 0x1E#7 g x)
  | .popcX g x => some (xWords 0x1F#7 g x)
  | .clzX g x => some (xWords 0x1F#7 g x)
  | .brevX g x => some (xWords 0x1F#7 g x)
  | .bfx g x => some (xWords 0x20#7 g x)
  | .bfi g x => some (xWords 0x21#7 g x)
  | .bpack g x => some (xWords 0x22#7 g x)
  | .iminX g x => some (xWords 0x23#7 g x)
  | .imaxX g x => some (xWords 0x24#7 g x)
  | .iabsX g x => some (xWords 0x25#7 g x)
  | .isel g x => some (xWords 0x26#7 g x)
  | .icmpX g x => some (xWords 0x27#7 g x)
  | .iaddmin g x => some (xWords 0x28#7 g x)
  | .iaddmax g x => some (xWords 0x28#7 g x)
  | .lea g x => some (xWords 0x29#7 g x)
  | .movX g x => some (xWords 0x2A#7 g x)
  | .moviX g x => some (xWords 0x2B#7 g x)
  | .movqX g x => some (xWords 0x2C#7 g x)
  | .qop g x => some (xWords 0x2D#7 g x)
  | .cvtiX g x => some (xWords 0x2E#7 g x)
  | .faddX g x => some (xWords 0x30#7 g x)
  | .fmulX g x => some (xWords 0x31#7 g x)
  | .ffmaX g x => some (xWords 0x32#7 g x)
  | .fminX g x => some (xWords 0x33#7 g x)
  | .fmaxX g x => some (xWords 0x34#7 g x)
  | .fcmpX g x => some (xWords 0x35#7 g x)
  | .faddmin g x => some (xWords 0x36#7 g x)
  | .fclassX g x => some (xWords 0x37#7 g x)
  | .frndX g x => some (xWords 0x38#7 g x)
  | .rcpRsqSqrtX g x => some (xWords 0x39#7 g x)
  | .exp2Log2X g x => some (xWords 0x3A#7 g x)
  | .sinCosTanhX g x => some (xWords 0x3B#7 g x)
  | .hadd2X g x => some (xWords 0x3C#7 g x)
  | .hmul2X g x => some (xWords 0x3D#7 g x)
  | .hfma2X g x => some (xWords 0x3E#7 g x)
  | .dot4X g x => some (xWords 0x3F#7 g x)
  | .cvtfX g x => some (xWords 0x40#7 g x)
  | .cvtfiX g x => some (xWords 0x41#7 g x)
  | .cvtifX g x => some (xWords 0x42#7 g x)
  | .quant g x => some (xWords 0x43#7 g x)
  | .deq g x => some (xWords 0x44#7 g x)
  | .blkmax g x => some (xWords 0x45#7 g x)
  | .shflX g x => some (xWords 0x48#7 g x)
  | .voteX g x => some (xWords 0x49#7 g x)
  | .reduxX g x => some (xWords 0x4A#7 g x)
  | .matchX g x => some (xWords 0x4B#7 g x)
  | .scanX g x => some (xWords 0x4C#7 g x)
  | .ldX g x => some (xWords 0x50#7 g x)
  | .stX g x => some (xWords 0x51#7 g x)
  | .ldsX g x => some (xWords 0x52#7 g x)
  | .stsX g x => some (xWords 0x53#7 g x)
  | .ldcX g x => some (xWords 0x54#7 g x)
  | .ldwX g x => some (xWords 0x55#7 g x)
  | .stwX g x => some (xWords 0x56#7 g x)
  | .prefX g x => some (xWords 0x57#7 g x)
  | .fenceX g x => some (xWords 0x58#7 g x)
  | .rdeg g x => some (xWords 0x5A#7 g x)
  | .cinvX g x => some (xWords 0x5B#7 g x)
  | .latomX g x => some (xWords 0x60#7 g x)
  | .latoms g x => some (xWords 0x61#7 g x)
  | .rtinst g x => some (xWords 0x62#7 g x)
  | .rtrem g x => some (xWords 0x63#7 g x)
  | .waitcmpX g x => some (xWords 0x64#7 g x)
  | .moncanX g x => some (xWords 0x65#7 g x)
  | .xcopy g x => some (xWords 0x68#7 g x)
  | .xgather g x => some (xWords 0x69#7 g x)
  | .xscat g x => some (xWords 0x69#7 g x)
  | .xfill g x => some (xWords 0x6A#7 g x)
  | .xread g x => some (xWords 0x6B#7 g x)
  | .qcwset g x => some (xWords 0x6C#7 g x)
  | .rpushX g x => some (xWords 0x6D#7 g x)
  | .rpopX g x => some (xWords 0x6E#7 g x)
  | .bgive g x => some (xWords 0x6F#7 g x)
  | .btake g x => some (xWords 0x6F#7 g x)
  | .bgiveFree g x => some (xWords 0x6F#7 g x)
  | .btakeNew g x => some (xWords 0x6F#7 g x)
  | .fmtset g x => some (xWords 0x70#7 g x)
  | .mma g x => some (xWords 0x71#7 g x)
  | .mmas g x => some (xWords 0x72#7 g x)
  | .accz g x => some (xWords 0x73#7 g x)
  | .accld g x => some (xWords 0x74#7 g x)
  | .accst g x => some (xWords 0x75#7 g x)
  | .acck g x => some (xWords 0x76#7 g x)
  | .fetchtTile g x => some (xWords 0x78#7 g x)
  | .fetchtTask g x => some (xWords 0x78#7 g x)
  | .enqt g x => some (xWords 0x79#7 g x)
  | .migrate g x => some (xWords 0x7A#7 g x)
  | .csrrX g x => some (xWords 0x7C#7 g x)
  | .csrwX g x => some (xWords 0x7D#7 g x)
  | .timeX g x => some (xWords 0x7E#7 g x)
  | .regclaimGrant _ => none
  | .windowWriteArrival _ => none
  | .stwWaitLand _ => none
  | .scOrderGrant _ => none
  | .routineInvocation _ => none
  | .routineReturn _ => none
  | .rtinstExecution _ => none
  | .monitorWake _ _ _ => none
  | .monitorPoll _ => none
  | .waitTimeout _ => none
  | .monitorCancel _ _ _ _ _ => none
  | .blockYield _ => none
  | .yieldWake _ => none
  | .copyPost _ _ => none
  | .ringReserve _ _ => none
  | .xreadEngineStart _ => none
  | .nvmeCompletion _ _ _ => none
  | .xreadTimeout _ => none
  | .xreadCompletionWord _ => none
  | .peerWindowWrite _ _ => none
  | .remoteReadServe _ _ _ _ => none
  | .matrixKStep _ => none
  | .accstAddLineUpdate _ _ _ => none
  | .matrixOpComplete _ _ => none
  | .lendAccept _ => none
  | .lendExpiry _ => none
  | .taskEnd _ => none
  | .cairnGrant _ => none
  | .cairnTimeout _ => none
  | .vclassWriteBack _ => none
  | .storeAcknowledgement _ => none
  | .rendezvousComplete _ _ => none
  | .namedBarrierComplete _ _ => none
  | .stuckRendezvous _ _ => none
  | .fatalFault _ _ _ => none
  | .stampedRequestRelease _ => none
  | .sliceRead _ => none
  | .sliceWrite _ => none
  | .collapseReceipt _ _ => none
  | .collapseAck _ _ => none
  | .leaseExpiry _ => none
  | .copyExpiry _ _ => none
  | .recall _ _ => none
  | .degreeCount _ _ _ _ _ => none
  | .keeperUpdate => none
  | .dgpin _ => none
  | .softError _ _ _ _ => none
  | .lineLoss _ _ => none
  | .dieReset _ => none
  | .dieLoss _ => none
  | .mrAccept _ => none
  | .ascreate _ => none
  | .asdestroy _ => none
  | .mapPages _ => none
  | .unmap _ => none
  | .protect _ => none
  | .migin _ => none
  | .migout _ => none
  | .setcold _ => none
  | .setpin _ => none
  | .generationAck _ _ => none
  | .mrbaseWrite _ _ => none
  | .sweeperVisit => none
  | .compression _ => none
  | .compressionCommit _ _ => none
  | .expansion _ => none
  | .eviction _ => none
  | .dieTimerCalibration _ _ => none
  | .queueCreate _ => none
  | .queueDestroy _ => none
  | .queueResume _ => none
  | .queueHalt _ => none
  | .tailUpdate _ _ => none
  | .packetAccept _ => none
  | .packetStart _ _ => none
  | .launch _ _ => none
  | .waitSignals _ _ => none
  | .waitSignalsTimeout _ _ => none
  | .signal _ _ => none
  | .routineLoad _ _ => none
  | .catalogueUpdate _ _ => none
  | .mappingPass => none
  | .placement _ => none
  | .gridCompletion _ => none
  | .eventRecordWrite _ => none
  | .eventRingSpace _ => none
  | .eventRingRestart _ _ => none
  | .estimatorRun _ => none
  | .drainRecheck _ => none
  | .flush _ => none
  | .save _ => none
  | .restore _ => none
  | .nvcmdAttach _ => none
  | .nvcmdDetach _ => none
  | .flitReceive _ _ => none
  | .flitAck _ _ => none
  | .linkRollover _ => none
  | .forcedRollover _ => none
  | .portDown _ => none
  | .portUp _ => none
  | .attestation => none
  | .flashStage => none
  | .flashActivate => none
  | .flashAbandon => none
  | .coldReset => none
  | .functionLevelReset => none
  | .governor _ _ _ _ => none
  | .thermalDieReset _ => none
  | .registerWrite _ _ => none
  | .fenceReleaseCompletion _ => none

/-- The words of an instruction (R35, R38, R42). -/
def encode (i : Instr) : List Word := (encode? i).getD []

/-- The guard of an instruction that has words. -/
def Instr.guard? : Instr → Option Guard
  | .nop g => some g
  | .yield g => some g
  | .bra g _ => some g
  | .brx g _ => some g
  | .call g _ => some g
  | .callx g _ => some g
  | .ret g => some g
  | .exit g => some g
  | .trap g _ => some g
  | .brk g _ => some g
  | .trapret g _ => some g
  | .bar g => some g
  | .barNamed g _ => some g
  | .rdsr g _ _ => some g
  | .idemb g => some g
  | .ideme g => some g
  | .prog g _ => some g
  | .waitf g _ _ => some g
  | .iadd g _ _ _ => some g
  | .isub g _ _ _ => some g
  | .imul g _ _ _ => some g
  | .imulh g _ _ _ => some g
  | .imad g _ _ _ => some g
  | .shl g _ _ _ => some g
  | .shr g _ _ _ => some g
  | .sar g _ _ _ => some g
  | .and g _ _ _ => some g
  | .or g _ _ _ => some g
  | .xor g _ _ _ => some g
  | .popc g _ _ => some g
  | .clz g _ _ => some g
  | .brev g _ _ => some g
  | .imin g _ _ _ => some g
  | .imax g _ _ _ => some g
  | .iabs g _ _ => some g
  | .icmp g _ _ _ => some g
  | .mov g _ _ => some g
  | .movi g _ _ => some g
  | .movqPack g _ => some g
  | .movqUnpack g _ => some g
  | .cvti g _ _ _ => some g
  | .fadd g _ _ _ => some g
  | .fmul g _ _ _ => some g
  | .ffma g _ _ _ => some g
  | .fmin g _ _ _ => some g
  | .fmax g _ _ _ => some g
  | .fcmp g _ _ _ => some g
  | .fclass g _ _ => some g
  | .frnd g _ _ => some g
  | .rcp g _ _ => some g
  | .rsq g _ _ => some g
  | .sqrt g _ _ => some g
  | .exp2 g _ _ => some g
  | .log2 g _ _ => some g
  | .sin g _ _ => some g
  | .cos g _ _ => some g
  | .tanh g _ _ => some g
  | .hadd2 g _ _ _ => some g
  | .hmul2 g _ _ _ => some g
  | .hfma2 g _ _ _ => some g
  | .dot4 g _ _ _ => some g
  | .cvtf g _ _ _ => some g
  | .cvtfi g _ _ _ => some g
  | .cvtif g _ _ _ => some g
  | .shfl g _ _ _ => some g
  | .vote g _ _ => some g
  | .redux g _ _ => some g
  | .matchAny g _ _ => some g
  | .scan g _ _ => some g
  | .ld g _ _ _ => some g
  | .st g _ _ _ => some g
  | .lds g _ _ _ => some g
  | .sts g _ _ _ => some g
  | .ldc g _ _ _ => some g
  | .ldw g _ _ _ => some g
  | .stw g _ _ => some g
  | .pref g _ _ => some g
  | .cinv g _ _ => some g
  | .fence g _ => some g
  | .opfence g => some g
  | .latom g _ _ _ => some g
  | .waitcmp g _ _ _ => some g
  | .moncan g _ => some g
  | .rpush g _ _ _ => some g
  | .rpop g _ _ => some g
  | .csrr g _ _ => some g
  | .csrw g _ _ => some g
  | .time g _ _ => some g
  | .braLit g _ => some g
  | .brxX g _ => some g
  | .callLit g _ => some g
  | .callxX g _ => some g
  | .barX g _ => some g
  | .setdecl g _ => some g
  | .setfree g _ => some g
  | .rdsrX g _ => some g
  | .progX g _ => some g
  | .waitfX g _ => some g
  | .reggive g _ => some g
  | .regclaim g _ => some g
  | .iaddX g _ => some g
  | .isubX g _ => some g
  | .iadd3 g _ => some g
  | .imulX g _ => some g
  | .imulhX g _ => some g
  | .imadX g _ => some g
  | .imadw g _ => some g
  | .shlX g _ => some g
  | .shrX g _ => some g
  | .sarX g _ => some g
  | .shf g _ => some g
  | .andX g _ => some g
  | .orX g _ => some g
  | .xorX g _ => some g
  | .bfn g _ => some g
  | .popcX g _ => some g
  | .clzX g _ => some g
  | .brevX g _ => some g
  | .bfx g _ => some g
  | .bfi g _ => some g
  | .bpack g _ => some g
  | .iminX g _ => some g
  | .imaxX g _ => some g
  | .iabsX g _ => some g
  | .isel g _ => some g
  | .icmpX g _ => some g
  | .iaddmin g _ => some g
  | .iaddmax g _ => some g
  | .lea g _ => some g
  | .movX g _ => some g
  | .moviX g _ => some g
  | .movqX g _ => some g
  | .qop g _ => some g
  | .cvtiX g _ => some g
  | .faddX g _ => some g
  | .fmulX g _ => some g
  | .ffmaX g _ => some g
  | .fminX g _ => some g
  | .fmaxX g _ => some g
  | .fcmpX g _ => some g
  | .faddmin g _ => some g
  | .fclassX g _ => some g
  | .frndX g _ => some g
  | .rcpRsqSqrtX g _ => some g
  | .exp2Log2X g _ => some g
  | .sinCosTanhX g _ => some g
  | .hadd2X g _ => some g
  | .hmul2X g _ => some g
  | .hfma2X g _ => some g
  | .dot4X g _ => some g
  | .cvtfX g _ => some g
  | .cvtfiX g _ => some g
  | .cvtifX g _ => some g
  | .quant g _ => some g
  | .deq g _ => some g
  | .blkmax g _ => some g
  | .shflX g _ => some g
  | .voteX g _ => some g
  | .reduxX g _ => some g
  | .matchX g _ => some g
  | .scanX g _ => some g
  | .ldX g _ => some g
  | .stX g _ => some g
  | .ldsX g _ => some g
  | .stsX g _ => some g
  | .ldcX g _ => some g
  | .ldwX g _ => some g
  | .stwX g _ => some g
  | .prefX g _ => some g
  | .cinvX g _ => some g
  | .fenceX g _ => some g
  | .rdeg g _ => some g
  | .latomX g _ => some g
  | .latoms g _ => some g
  | .rtinst g _ => some g
  | .rtrem g _ => some g
  | .waitcmpX g _ => some g
  | .moncanX g _ => some g
  | .xcopy g _ => some g
  | .xgather g _ => some g
  | .xscat g _ => some g
  | .xfill g _ => some g
  | .xread g _ => some g
  | .qcwset g _ => some g
  | .rpushX g _ => some g
  | .rpopX g _ => some g
  | .bgive g _ => some g
  | .bgiveFree g _ => some g
  | .btake g _ => some g
  | .btakeNew g _ => some g
  | .fmtset g _ => some g
  | .mma g _ => some g
  | .mmas g _ => some g
  | .accz g _ => some g
  | .accld g _ => some g
  | .accst g _ => some g
  | .acck g _ => some g
  | .fetchtTile g _ => some g
  | .fetchtTask g _ => some g
  | .enqt g _ => some g
  | .migrate g _ => some g
  | .csrrX g _ => some g
  | .csrwX g _ => some g
  | .timeX g _ => some g
  | .regclaimGrant _ => none
  | .windowWriteArrival _ => none
  | .stwWaitLand _ => none
  | .scOrderGrant _ => none
  | .routineInvocation _ => none
  | .routineReturn _ => none
  | .rtinstExecution _ => none
  | .monitorWake _ _ _ => none
  | .monitorPoll _ => none
  | .waitTimeout _ => none
  | .monitorCancel _ _ _ _ _ => none
  | .blockYield _ => none
  | .yieldWake _ => none
  | .copyPost _ _ => none
  | .ringReserve _ _ => none
  | .xreadEngineStart _ => none
  | .nvmeCompletion _ _ _ => none
  | .xreadTimeout _ => none
  | .xreadCompletionWord _ => none
  | .peerWindowWrite _ _ => none
  | .remoteReadServe _ _ _ _ => none
  | .matrixKStep _ => none
  | .accstAddLineUpdate _ _ _ => none
  | .matrixOpComplete _ _ => none
  | .lendAccept _ => none
  | .lendExpiry _ => none
  | .taskEnd _ => none
  | .cairnGrant _ => none
  | .cairnTimeout _ => none
  | .vclassWriteBack _ => none
  | .storeAcknowledgement _ => none
  | .rendezvousComplete _ _ => none
  | .namedBarrierComplete _ _ => none
  | .stuckRendezvous _ _ => none
  | .fatalFault _ _ _ => none
  | .stampedRequestRelease _ => none
  | .sliceRead _ => none
  | .sliceWrite _ => none
  | .collapseReceipt _ _ => none
  | .collapseAck _ _ => none
  | .leaseExpiry _ => none
  | .copyExpiry _ _ => none
  | .recall _ _ => none
  | .degreeCount _ _ _ _ _ => none
  | .keeperUpdate => none
  | .dgpin _ => none
  | .softError _ _ _ _ => none
  | .lineLoss _ _ => none
  | .dieReset _ => none
  | .dieLoss _ => none
  | .mrAccept _ => none
  | .ascreate _ => none
  | .asdestroy _ => none
  | .mapPages _ => none
  | .unmap _ => none
  | .protect _ => none
  | .migin _ => none
  | .migout _ => none
  | .setcold _ => none
  | .setpin _ => none
  | .generationAck _ _ => none
  | .mrbaseWrite _ _ => none
  | .sweeperVisit => none
  | .compression _ => none
  | .compressionCommit _ _ => none
  | .expansion _ => none
  | .eviction _ => none
  | .dieTimerCalibration _ _ => none
  | .queueCreate _ => none
  | .queueDestroy _ => none
  | .queueResume _ => none
  | .queueHalt _ => none
  | .tailUpdate _ _ => none
  | .packetAccept _ => none
  | .packetStart _ _ => none
  | .launch _ _ => none
  | .waitSignals _ _ => none
  | .waitSignalsTimeout _ _ => none
  | .signal _ _ => none
  | .routineLoad _ _ => none
  | .catalogueUpdate _ _ => none
  | .mappingPass => none
  | .placement _ => none
  | .gridCompletion _ => none
  | .eventRecordWrite _ => none
  | .eventRingSpace _ => none
  | .eventRingRestart _ _ => none
  | .estimatorRun _ => none
  | .drainRecheck _ => none
  | .flush _ => none
  | .save _ => none
  | .restore _ => none
  | .nvcmdAttach _ => none
  | .nvcmdDetach _ => none
  | .flitReceive _ _ => none
  | .flitAck _ _ => none
  | .linkRollover _ => none
  | .forcedRollover _ => none
  | .portDown _ => none
  | .portUp _ => none
  | .attestation => none
  | .flashStage => none
  | .flashActivate => none
  | .flashAbandon => none
  | .coldReset => none
  | .functionLevelReset => none
  | .governor _ _ _ _ => none
  | .thermalDieReset _ => none
  | .registerWrite _ _ => none
  | .fenceReleaseCompletion _ => none

/-- The opcode and operands of the instructions that have an extension or a short literal form. -/
def Instr.xform? : Instr → Option (BitVec 7 × XForm)
  | .brxX _ x => some (0x02#7, x)
  | .callxX _ x => some (0x04#7, x)
  | .barX _ x => some (0x09#7, x)
  | .setdecl _ x => some (0x0A#7, x)
  | .setfree _ x => some (0x0A#7, x)
  | .rdsrX _ x => some (0x0B#7, x)
  | .progX _ x => some (0x0D#7, x)
  | .waitfX _ x => some (0x0E#7, x)
  | .reggive _ x => some (0x0F#7, x)
  | .regclaim _ x => some (0x0F#7, x)
  | .iaddX _ x => some (0x10#7, x)
  | .isubX _ x => some (0x11#7, x)
  | .iadd3 _ x => some (0x12#7, x)
  | .imulX _ x => some (0x13#7, x)
  | .imulhX _ x => some (0x14#7, x)
  | .imadX _ x => some (0x15#7, x)
  | .imadw _ x => some (0x16#7, x)
  | .shlX _ x => some (0x17#7, x)
  | .shrX _ x => some (0x18#7, x)
  | .sarX _ x => some (0x19#7, x)
  | .shf _ x => some (0x1A#7, x)
  | .andX _ x => some (0x1B#7, x)
  | .orX _ x => some (0x1C#7, x)
  | .xorX _ x => some (0x1D#7, x)
  | .bfn _ x => some (0x1E#7, x)
  | .popcX _ x => some (0x1F#7, x)
  | .clzX _ x => some (0x1F#7, x)
  | .brevX _ x => some (0x1F#7, x)
  | .bfx _ x => some (0x20#7, x)
  | .bfi _ x => some (0x21#7, x)
  | .bpack _ x => some (0x22#7, x)
  | .iminX _ x => some (0x23#7, x)
  | .imaxX _ x => some (0x24#7, x)
  | .iabsX _ x => some (0x25#7, x)
  | .isel _ x => some (0x26#7, x)
  | .icmpX _ x => some (0x27#7, x)
  | .iaddmin _ x => some (0x28#7, x)
  | .iaddmax _ x => some (0x28#7, x)
  | .lea _ x => some (0x29#7, x)
  | .movX _ x => some (0x2A#7, x)
  | .moviX _ x => some (0x2B#7, x)
  | .movqX _ x => some (0x2C#7, x)
  | .qop _ x => some (0x2D#7, x)
  | .cvtiX _ x => some (0x2E#7, x)
  | .faddX _ x => some (0x30#7, x)
  | .fmulX _ x => some (0x31#7, x)
  | .ffmaX _ x => some (0x32#7, x)
  | .fminX _ x => some (0x33#7, x)
  | .fmaxX _ x => some (0x34#7, x)
  | .fcmpX _ x => some (0x35#7, x)
  | .faddmin _ x => some (0x36#7, x)
  | .fclassX _ x => some (0x37#7, x)
  | .frndX _ x => some (0x38#7, x)
  | .rcpRsqSqrtX _ x => some (0x39#7, x)
  | .exp2Log2X _ x => some (0x3A#7, x)
  | .sinCosTanhX _ x => some (0x3B#7, x)
  | .hadd2X _ x => some (0x3C#7, x)
  | .hmul2X _ x => some (0x3D#7, x)
  | .hfma2X _ x => some (0x3E#7, x)
  | .dot4X _ x => some (0x3F#7, x)
  | .cvtfX _ x => some (0x40#7, x)
  | .cvtfiX _ x => some (0x41#7, x)
  | .cvtifX _ x => some (0x42#7, x)
  | .quant _ x => some (0x43#7, x)
  | .deq _ x => some (0x44#7, x)
  | .blkmax _ x => some (0x45#7, x)
  | .shflX _ x => some (0x48#7, x)
  | .voteX _ x => some (0x49#7, x)
  | .reduxX _ x => some (0x4A#7, x)
  | .matchX _ x => some (0x4B#7, x)
  | .scanX _ x => some (0x4C#7, x)
  | .ldX _ x => some (0x50#7, x)
  | .stX _ x => some (0x51#7, x)
  | .ldsX _ x => some (0x52#7, x)
  | .stsX _ x => some (0x53#7, x)
  | .ldcX _ x => some (0x54#7, x)
  | .ldwX _ x => some (0x55#7, x)
  | .stwX _ x => some (0x56#7, x)
  | .prefX _ x => some (0x57#7, x)
  | .fenceX _ x => some (0x58#7, x)
  | .rdeg _ x => some (0x5A#7, x)
  | .cinvX _ x => some (0x5B#7, x)
  | .latomX _ x => some (0x60#7, x)
  | .latoms _ x => some (0x61#7, x)
  | .rtinst _ x => some (0x62#7, x)
  | .rtrem _ x => some (0x63#7, x)
  | .waitcmpX _ x => some (0x64#7, x)
  | .moncanX _ x => some (0x65#7, x)
  | .xcopy _ x => some (0x68#7, x)
  | .xgather _ x => some (0x69#7, x)
  | .xscat _ x => some (0x69#7, x)
  | .xfill _ x => some (0x6A#7, x)
  | .xread _ x => some (0x6B#7, x)
  | .qcwset _ x => some (0x6C#7, x)
  | .rpushX _ x => some (0x6D#7, x)
  | .rpopX _ x => some (0x6E#7, x)
  | .bgive _ x => some (0x6F#7, x)
  | .btake _ x => some (0x6F#7, x)
  | .bgiveFree _ x => some (0x6F#7, x)
  | .btakeNew _ x => some (0x6F#7, x)
  | .fmtset _ x => some (0x70#7, x)
  | .mma _ x => some (0x71#7, x)
  | .mmas _ x => some (0x72#7, x)
  | .accz _ x => some (0x73#7, x)
  | .accld _ x => some (0x74#7, x)
  | .accst _ x => some (0x75#7, x)
  | .acck _ x => some (0x76#7, x)
  | .fetchtTile _ x => some (0x78#7, x)
  | .fetchtTask _ x => some (0x78#7, x)
  | .enqt _ x => some (0x79#7, x)
  | .migrate _ x => some (0x7A#7, x)
  | .csrrX _ x => some (0x7C#7, x)
  | .csrwX _ x => some (0x7D#7, x)
  | .timeX _ x => some (0x7E#7, x)
  | .nop _ => none
  | .yield _ => none
  | .bra _ _ => none
  | .brx _ _ => none
  | .call _ _ => none
  | .callx _ _ => none
  | .ret _ => none
  | .exit _ => none
  | .trap _ _ => none
  | .brk _ _ => none
  | .trapret _ _ => none
  | .bar _ => none
  | .barNamed _ _ => none
  | .rdsr _ _ _ => none
  | .idemb _ => none
  | .ideme _ => none
  | .prog _ _ => none
  | .waitf _ _ _ => none
  | .iadd _ _ _ _ => none
  | .isub _ _ _ _ => none
  | .imul _ _ _ _ => none
  | .imulh _ _ _ _ => none
  | .imad _ _ _ _ => none
  | .shl _ _ _ _ => none
  | .shr _ _ _ _ => none
  | .sar _ _ _ _ => none
  | .and _ _ _ _ => none
  | .or _ _ _ _ => none
  | .xor _ _ _ _ => none
  | .popc _ _ _ => none
  | .clz _ _ _ => none
  | .brev _ _ _ => none
  | .imin _ _ _ _ => none
  | .imax _ _ _ _ => none
  | .iabs _ _ _ => none
  | .icmp _ _ _ _ => none
  | .mov _ _ _ => none
  | .movi _ _ _ => none
  | .movqPack _ _ => none
  | .movqUnpack _ _ => none
  | .cvti _ _ _ _ => none
  | .fadd _ _ _ _ => none
  | .fmul _ _ _ _ => none
  | .ffma _ _ _ _ => none
  | .fmin _ _ _ _ => none
  | .fmax _ _ _ _ => none
  | .fcmp _ _ _ _ => none
  | .fclass _ _ _ => none
  | .frnd _ _ _ => none
  | .rcp _ _ _ => none
  | .rsq _ _ _ => none
  | .sqrt _ _ _ => none
  | .exp2 _ _ _ => none
  | .log2 _ _ _ => none
  | .sin _ _ _ => none
  | .cos _ _ _ => none
  | .tanh _ _ _ => none
  | .hadd2 _ _ _ _ => none
  | .hmul2 _ _ _ _ => none
  | .hfma2 _ _ _ _ => none
  | .dot4 _ _ _ _ => none
  | .cvtf _ _ _ _ => none
  | .cvtfi _ _ _ _ => none
  | .cvtif _ _ _ _ => none
  | .shfl _ _ _ _ => none
  | .vote _ _ _ => none
  | .redux _ _ _ => none
  | .matchAny _ _ _ => none
  | .scan _ _ _ => none
  | .ld _ _ _ _ => none
  | .st _ _ _ _ => none
  | .lds _ _ _ _ => none
  | .sts _ _ _ _ => none
  | .ldc _ _ _ _ => none
  | .ldw _ _ _ _ => none
  | .stw _ _ _ => none
  | .pref _ _ _ => none
  | .cinv _ _ _ => none
  | .fence _ _ => none
  | .opfence _ => none
  | .latom _ _ _ _ => none
  | .waitcmp _ _ _ _ => none
  | .moncan _ _ => none
  | .rpush _ _ _ _ => none
  | .rpop _ _ _ => none
  | .csrr _ _ _ => none
  | .csrw _ _ _ => none
  | .time _ _ _ => none
  | .braLit _ _ => none
  | .callLit _ _ => none
  | .regclaimGrant _ => none
  | .windowWriteArrival _ => none
  | .stwWaitLand _ => none
  | .scOrderGrant _ => none
  | .routineInvocation _ => none
  | .routineReturn _ => none
  | .rtinstExecution _ => none
  | .monitorWake _ _ _ => none
  | .monitorPoll _ => none
  | .waitTimeout _ => none
  | .monitorCancel _ _ _ _ _ => none
  | .blockYield _ => none
  | .yieldWake _ => none
  | .copyPost _ _ => none
  | .ringReserve _ _ => none
  | .xreadEngineStart _ => none
  | .nvmeCompletion _ _ _ => none
  | .xreadTimeout _ => none
  | .xreadCompletionWord _ => none
  | .peerWindowWrite _ _ => none
  | .remoteReadServe _ _ _ _ => none
  | .matrixKStep _ => none
  | .accstAddLineUpdate _ _ _ => none
  | .matrixOpComplete _ _ => none
  | .lendAccept _ => none
  | .lendExpiry _ => none
  | .taskEnd _ => none
  | .cairnGrant _ => none
  | .cairnTimeout _ => none
  | .vclassWriteBack _ => none
  | .storeAcknowledgement _ => none
  | .rendezvousComplete _ _ => none
  | .namedBarrierComplete _ _ => none
  | .stuckRendezvous _ _ => none
  | .fatalFault _ _ _ => none
  | .stampedRequestRelease _ => none
  | .sliceRead _ => none
  | .sliceWrite _ => none
  | .collapseReceipt _ _ => none
  | .collapseAck _ _ => none
  | .leaseExpiry _ => none
  | .copyExpiry _ _ => none
  | .recall _ _ => none
  | .degreeCount _ _ _ _ _ => none
  | .keeperUpdate => none
  | .dgpin _ => none
  | .softError _ _ _ _ => none
  | .lineLoss _ _ => none
  | .dieReset _ => none
  | .dieLoss _ => none
  | .mrAccept _ => none
  | .ascreate _ => none
  | .asdestroy _ => none
  | .mapPages _ => none
  | .unmap _ => none
  | .protect _ => none
  | .migin _ => none
  | .migout _ => none
  | .setcold _ => none
  | .setpin _ => none
  | .generationAck _ _ => none
  | .mrbaseWrite _ _ => none
  | .sweeperVisit => none
  | .compression _ => none
  | .compressionCommit _ _ => none
  | .expansion _ => none
  | .eviction _ => none
  | .dieTimerCalibration _ _ => none
  | .queueCreate _ => none
  | .queueDestroy _ => none
  | .queueResume _ => none
  | .queueHalt _ => none
  | .tailUpdate _ _ => none
  | .packetAccept _ => none
  | .packetStart _ _ => none
  | .launch _ _ => none
  | .waitSignals _ _ => none
  | .waitSignalsTimeout _ _ => none
  | .signal _ _ => none
  | .routineLoad _ _ => none
  | .catalogueUpdate _ _ => none
  | .mappingPass => none
  | .placement _ => none
  | .gridCompletion _ => none
  | .eventRecordWrite _ => none
  | .eventRingSpace _ => none
  | .eventRingRestart _ _ => none
  | .estimatorRun _ => none
  | .drainRecheck _ => none
  | .flush _ => none
  | .save _ => none
  | .restore _ => none
  | .nvcmdAttach _ => none
  | .nvcmdDetach _ => none
  | .flitReceive _ _ => none
  | .flitAck _ _ => none
  | .linkRollover _ => none
  | .forcedRollover _ => none
  | .portDown _ => none
  | .portUp _ => none
  | .attestation => none
  | .flashStage => none
  | .flashActivate => none
  | .flashAbandon => none
  | .coldReset => none
  | .functionLevelReset => none
  | .governor _ _ _ _ => none
  | .thermalDieReset _ => none
  | .registerWrite _ _ => none
  | .fenceReleaseCompletion _ => none

/-- The instruction of a word numbered as the opcode table numbers its bits: `nbits` bits of `w`, first word lowest,
words of zeros after them. -/
def decodeTableWord (nbits w : Nat) : Option Instr :=
  let v := w % 2 ^ nbits
  match decodeWords [BitVec.ofNat 32 v, BitVec.ofNat 32 (v / 2 ^ 32), BitVec.ofNat 32 (v / 2 ^ 64),
      BitVec.ofNat 32 (v / 2 ^ 96), BitVec.ofNat 32 (v / 2 ^ 128)] with
  | .ok (i, _) => some i
  | .error _ => none

end Sys2Proof
end

