-- ==== Sys2Proof/Machine/Forms.lean ====
section
/-! DEFINITION. The forms of instructions: every one-word form as the 96-bit form it stands for (R37), and for every
opcode the field rules of its description: scopes, types, SUB, RND, SAT, FMT, and the class and width of each operand
(R36, R39, R40, R42, R43, R44, R46, R47, R243 and the tables of 06 to 15). -/

namespace Sys2Proof

/-- An unused source and an unused destination (R39): class 00, number 0, trap bit 0. -/
def noSrc : Src := .vec 0 false
def noDst : Dst := .vec 0

/-- A vector register of a one-word field. -/
def vreg {w : Nat} (n : BitVec w) : Src := .vec (n.setWidth 9) false
/-- A destination of a one-word field. -/
def reg {w : Nat} (n : BitVec w) : Dst := .vec (n.setWidth 9)
/-- A predicate destination of a one-word field. -/
def predr {w : Nat} (n : BitVec w) : Dst := .pred (n.setWidth 9)
/-- An unsigned immediate of a one-word field. -/
def num {w : Nat} (n : BitVec w) : Src := .imm (n.setWidth 9)
/-- R207: an offset in words of 4 bytes. -/
def words (o : BitVec 5) : Src := .imm (o.setWidth 9 * 4)
/-- R181: the QCW at SA 16 × q. -/
def slots (q : BitVec 5) : Src := .lit (q.setWidth 64 * 16)

/-- An instruction that has words, by its major opcode and the operands of its 96-bit form (R37). -/
structure Form where
  opc : Nat
  g : Guard
  x : XForm
  deriving DecidableEq, Repr

/-- R37: the form of an instruction; none for the device's own steps. The target offsets of BRA and CALL are no
operands. -/
def Instr.form? : Instr → Option Form
  | .nop g => some ⟨0x00, g, ⟨false, noDst, noSrc, noSrc, noSrc, 0, .u32, .rn, false, 0⟩⟩
  | .yield g => some ⟨0x00, g, ⟨false, noDst, noSrc, noSrc, noSrc, 1, .u32, .rn, false, 0⟩⟩
  | .bra g _ => some ⟨0x01, g, ⟨false, noDst, noSrc, noSrc, noSrc, 0, .u32, .rn, false, 0⟩⟩
  | .braLit g _ => some ⟨0x01, g, ⟨false, noDst, noSrc, noSrc, noSrc, 0, .u32, .rn, false, 0⟩⟩
  | .brx g a => some ⟨0x02, g, ⟨false, noDst, (vreg a), noSrc, noSrc, 0, .u32, .rn, false, 0⟩⟩
  | .call g _ => some ⟨0x03, g, ⟨false, noDst, noSrc, noSrc, noSrc, 0, .u32, .rn, false, 0⟩⟩
  | .callLit g _ => some ⟨0x03, g, ⟨false, noDst, noSrc, noSrc, noSrc, 0, .u32, .rn, false, 0⟩⟩
  | .callx g a => some ⟨0x04, g, ⟨false, noDst, (vreg a), noSrc, noSrc, 0, .u32, .rn, false, 0⟩⟩
  | .ret g => some ⟨0x05, g, ⟨false, noDst, noSrc, noSrc, noSrc, 0, .u32, .rn, false, 0⟩⟩
  | .exit g => some ⟨0x06, g, ⟨false, noDst, noSrc, noSrc, noSrc, 0, .u32, .rn, false, 0⟩⟩
  | .trap g c => some ⟨0x07, g, ⟨false, noDst, (num c), noSrc, noSrc, 0, .u32, .rn, false, 0⟩⟩
  | .brk g c => some ⟨0x07, g, ⟨false, noDst, (num c), noSrc, noSrc, 1, .u32, .rn, false, 0⟩⟩
  | .trapret g k => some ⟨0x08, g, ⟨false, noDst, (num k), noSrc, noSrc, 0, .u32, .rn, false, 0⟩⟩
  | .bar g => some ⟨0x09, g, ⟨false, noDst, noSrc, noSrc, noSrc, 0, .u32, .rn, false, 0⟩⟩
  | .barNamed g i => some ⟨0x09, g, ⟨false, noDst, (num i), (.imm 0), noSrc, 1, .u32, .rn, false, 0⟩⟩
  | .rdsr g a d => some ⟨0x0B, g, ⟨false, (reg d), (.special (a.setWidth 9)), noSrc, noSrc, 0, .u32, .rn, false, 0⟩⟩
  | .idemb g => some ⟨0x0C, g, ⟨false, noDst, noSrc, noSrc, noSrc, 0, .u32, .rn, false, 0⟩⟩
  | .ideme g => some ⟨0x0C, g, ⟨false, noDst, noSrc, noSrc, noSrc, 1, .u32, .rn, false, 0⟩⟩
  | .prog g v => some ⟨0x0D, g, ⟨false, noDst, (num v), noSrc, noSrc, 0, .u32, .rn, false, 0⟩⟩
  | .waitf g a d => some ⟨0x0E, g, ⟨false, noDst, (.lit ((a ++ d).setWidth 64)), noSrc, noSrc, 0, .u32, .rn, false, 0⟩⟩
  | .iadd g b a d => some ⟨0x10, g, ⟨false, (reg d), (vreg a), (vreg b), noSrc, 0, .s32, .rn, false, 0⟩⟩
  | .isub g b a d => some ⟨0x11, g, ⟨false, (reg d), (vreg a), (vreg b), noSrc, 0, .s32, .rn, false, 0⟩⟩
  | .imul g b a d => some ⟨0x13, g, ⟨false, (reg d), (vreg a), (vreg b), noSrc, 0, .s32, .rn, false, 0⟩⟩
  | .imulh g b a d => some ⟨0x14, g, ⟨false, (reg d), (vreg a), (vreg b), noSrc, 0, .s32, .rn, false, 0⟩⟩
  | .imad g b a d => some ⟨0x15, g, ⟨false, (reg d), (vreg a), (vreg b), (vreg d), 0, .s32, .rn, false, 0⟩⟩
  | .shl g i a d => some ⟨0x17, g, ⟨false, (reg d), (vreg a), (num i), noSrc, 0, .s32, .rn, false, 0⟩⟩
  | .shr g i a d => some ⟨0x18, g, ⟨false, (reg d), (vreg a), (num i), noSrc, 0, .s32, .rn, false, 0⟩⟩
  | .sar g i a d => some ⟨0x19, g, ⟨false, (reg d), (vreg a), (num i), noSrc, 0, .s32, .rn, false, 0⟩⟩
  | .and g b a d => some ⟨0x1B, g, ⟨false, (reg d), (vreg a), (vreg b), noSrc, 0, .s32, .rn, false, 0⟩⟩
  | .or g b a d => some ⟨0x1C, g, ⟨false, (reg d), (vreg a), (vreg b), noSrc, 0, .s32, .rn, false, 0⟩⟩
  | .xor g b a d => some ⟨0x1D, g, ⟨false, (reg d), (vreg a), (vreg b), noSrc, 0, .s32, .rn, false, 0⟩⟩
  | .popc g a d => some ⟨0x1F, g, ⟨false, (reg d), (vreg a), noSrc, noSrc, 0, .s32, .rn, false, 0⟩⟩
  | .clz g a d => some ⟨0x1F, g, ⟨false, (reg d), (vreg a), noSrc, noSrc, 1, .s32, .rn, false, 0⟩⟩
  | .brev g a d => some ⟨0x1F, g, ⟨false, (reg d), (vreg a), noSrc, noSrc, 2, .s32, .rn, false, 0⟩⟩
  | .imin g b a d => some ⟨0x23, g, ⟨false, (reg d), (vreg a), (vreg b), noSrc, 0, .s32, .rn, false, 0⟩⟩
  | .imax g b a d => some ⟨0x24, g, ⟨false, (reg d), (vreg a), (vreg b), noSrc, 0, .s32, .rn, false, 0⟩⟩
  | .iabs g a d => some ⟨0x25, g, ⟨false, (reg d), (vreg a), noSrc, noSrc, 0, .s32, .rn, false, 0⟩⟩
  | .icmp g b a d => some ⟨0x27, g, ⟨false, (predr d), (vreg a), (vreg b), noSrc, 0, .s32, .rn, false, 0⟩⟩
  | .mov g a d => some ⟨0x2A, g, ⟨false, (reg d), (vreg a), noSrc, noSrc, 0, .s32, .rn, false, 0⟩⟩
  | .movi g i d => some ⟨0x2B, g, ⟨false, (reg d), noSrc, (.imm (i.signExtend 9)), noSrc, 0, .s32, .rn, false, 0⟩⟩
  | .movqPack g d => some ⟨0x2C, g, ⟨false, (reg d), noSrc, noSrc, noSrc, 0, .b32, .rn, false, 0⟩⟩
  | .movqUnpack g a => some ⟨0x2C, g, ⟨false, noDst, (vreg a), noSrc, noSrc, 1, .b32, .rn, false, 0⟩⟩
  | .cvti g t a d => some ⟨0x2E, g, ⟨false, (reg d), (vreg a), noSrc, noSrc, (t.setWidth 6), .s32, .rn, false, 0⟩⟩
  | .fadd g b a d => some ⟨0x30, g, ⟨false, (reg d), (vreg a), (vreg b), noSrc, 0, .f32, .rn, false, 0⟩⟩
  | .fmul g b a d => some ⟨0x31, g, ⟨false, (reg d), (vreg a), (vreg b), noSrc, 0, .f32, .rn, false, 0⟩⟩
  | .ffma g b a d => some ⟨0x32, g, ⟨false, (reg d), (vreg a), (vreg b), (vreg d), 0, .f32, .rn, false, 0⟩⟩
  | .fmin g b a d => some ⟨0x33, g, ⟨false, (reg d), (vreg a), (vreg b), noSrc, 0, .f32, .rn, false, 0⟩⟩
  | .fmax g b a d => some ⟨0x34, g, ⟨false, (reg d), (vreg a), (vreg b), noSrc, 0, .f32, .rn, false, 0⟩⟩
  | .fcmp g b a d => some ⟨0x35, g, ⟨false, (predr d), (vreg a), (vreg b), noSrc, 0, .f32, .rn, false, 0⟩⟩
  | .fclass g a d => some ⟨0x37, g, ⟨false, (reg d), (vreg a), noSrc, noSrc, 0, .f32, .rn, false, 0⟩⟩
  | .frnd g a d => some ⟨0x38, g, ⟨false, (reg d), (vreg a), noSrc, noSrc, 0, .f32, .rn, false, 0⟩⟩
  | .rcp g a d => some ⟨0x39, g, ⟨false, (reg d), (vreg a), noSrc, noSrc, 0, .f32, .rn, false, 0⟩⟩
  | .rsq g a d => some ⟨0x39, g, ⟨false, (reg d), (vreg a), noSrc, noSrc, 1, .f32, .rn, false, 0⟩⟩
  | .sqrt g a d => some ⟨0x39, g, ⟨false, (reg d), (vreg a), noSrc, noSrc, 2, .f32, .rn, false, 0⟩⟩
  | .exp2 g a d => some ⟨0x3A, g, ⟨false, (reg d), (vreg a), noSrc, noSrc, 0, .f32, .rn, false, 0⟩⟩
  | .log2 g a d => some ⟨0x3A, g, ⟨false, (reg d), (vreg a), noSrc, noSrc, 1, .f32, .rn, false, 0⟩⟩
  | .sin g a d => some ⟨0x3B, g, ⟨false, (reg d), (vreg a), noSrc, noSrc, 0, .f32, .rn, false, 0⟩⟩
  | .cos g a d => some ⟨0x3B, g, ⟨false, (reg d), (vreg a), noSrc, noSrc, 1, .f32, .rn, false, 0⟩⟩
  | .tanh g a d => some ⟨0x3B, g, ⟨false, (reg d), (vreg a), noSrc, noSrc, 2, .f32, .rn, false, 0⟩⟩
  | .hadd2 g b a d => some ⟨0x3C, g, ⟨false, (reg d), (vreg a), (vreg b), noSrc, 0, .f16x2, .rn, false, 0⟩⟩
  | .hmul2 g b a d => some ⟨0x3D, g, ⟨false, (reg d), (vreg a), (vreg b), noSrc, 0, .f16x2, .rn, false, 0⟩⟩
  | .hfma2 g b a d => some ⟨0x3E, g, ⟨false, (reg d), (vreg a), (vreg b), (vreg d), 0, .f16x2, .rn, false, 0⟩⟩
  | .dot4 g b a d => some ⟨0x3F, g, ⟨false, (reg d), (vreg a), (vreg b), (vreg d), 0, .s8, .rn, false, 0⟩⟩
  | .cvtf g t a d => some ⟨0x40, g, ⟨false, (reg d), (vreg a), noSrc, noSrc, (t.setWidth 6), .f32, .rn, false, 0⟩⟩
  | .cvtfi g t a d => some ⟨0x41, g, ⟨false, (reg d), (vreg a), noSrc, noSrc, (t.setWidth 6), .f32, .rn, false, 0⟩⟩
  | .cvtif g t a d => some ⟨0x42, g, ⟨false, (reg d), (vreg a), noSrc, noSrc, (t.setWidth 6), .f32, .rn, false, 0⟩⟩
  | .shfl g b a d => some ⟨0x48, g, ⟨false, (reg d), (vreg a), (vreg b), noSrc, 0, .b32, .rn, false, 0⟩⟩
  | .vote g a d => some ⟨0x49, g, ⟨false, (predr d), (vreg a), noSrc, noSrc, 0, .b32, .rn, false, 0⟩⟩
  | .redux g a d => some ⟨0x4A, g, ⟨false, (reg d), (vreg a), noSrc, noSrc, 0, .s32, .rn, false, 0⟩⟩
  | .matchAny g a d => some ⟨0x4B, g, ⟨false, (reg d), (vreg a), noSrc, noSrc, 0, .b32, .rn, false, 0⟩⟩
  | .scan g a d => some ⟨0x4C, g, ⟨false, (reg d), (vreg a), noSrc, noSrc, 0, .s32, .rn, false, 0⟩⟩
  | .ld g o a d => some ⟨0x50, g, ⟨false, (reg d), (vreg a), (words o), noSrc, 0, .b32, .rn, false, 0⟩⟩
  | .st g o a d => some ⟨0x51, g, ⟨false, noDst, (vreg a), (words o), (vreg d), 0, .b32, .rn, false, 0⟩⟩
  | .lds g o a d => some ⟨0x52, g, ⟨false, (reg d), (vreg a), (words o), noSrc, 0, .b32, .rn, false, 0⟩⟩
  | .sts g o a d => some ⟨0x53, g, ⟨false, noDst, (vreg a), (words o), (vreg d), 0, .b32, .rn, false, 0⟩⟩
  | .ldc g o a d => some ⟨0x54, g, ⟨false, (reg d), (vreg a), (words o), noSrc, 0, .b32, .rn, false, 0⟩⟩
  | .ldw g k a d => some ⟨0x55, g, ⟨false, (reg d), (vreg a), noSrc, noSrc, ((k ++ 0#4).setWidth 6), .u32, .rn, false, 0⟩⟩
  | .stw g b a => some ⟨0x56, g, ⟨false, noDst, (vreg a), (vreg b), noSrc, 0, .u32, .rn, false, 0⟩⟩
  | .pref g c a => some ⟨0x57, g, ⟨false, noDst, (vreg a), (.imm 0), noSrc, (c.setWidth 6), .u32, .rn, false, 0⟩⟩
  | .cinv g c a => some ⟨0x5B, g, ⟨false, noDst, (vreg a), noSrc, noSrc, (c.setWidth 6), .u32, .rn, false, 0⟩⟩
  | .fence g k => some ⟨0x58, g, ⟨false, noDst, noSrc, noSrc, noSrc, (k.setWidth 6), .u32, .rn, false, 0⟩⟩
  | .opfence g => some ⟨0x59, g, ⟨false, noDst, noSrc, noSrc, noSrc, 0, .u32, .rn, false, 0⟩⟩
  | .latom g i a d => some ⟨0x60, g, ⟨false, (reg d), (vreg a), (vreg d), (num i), 2, .u32, .rn, false, 0⟩⟩
  | .waitcmp g b a d => some ⟨0x64, g, ⟨false, (predr d), (vreg a), (vreg b), (num (0#1)), 0, .u32, .rn, false, 0⟩⟩
  -- R152: the one-word form is of lane scope only; of another it gets a SUB that no form has
  | .moncan g a => some ⟨0x65, g, ⟨false, noDst, (vreg a), noSrc, noSrc, if g.scope = .lane then 0 else 2, .u32, .rn, false, 0⟩⟩
  | .rpush g q a c => some ⟨0x6D, g, ⟨false, noDst, (vreg a), (slots q), noSrc, (c.setWidth 6), .u32, .rn, false, 0⟩⟩
  | .rpop g q d => some ⟨0x6E, g, ⟨false, (reg d), noSrc, (slots q), noSrc, 0, .u32, .rn, false, 0⟩⟩
  | .csrr g a d => some ⟨0x7C, g, ⟨false, (reg d), (num a), noSrc, noSrc, 0, .u64, .rn, false, 0⟩⟩
  | .csrw g b a => some ⟨0x7D, g, ⟨false, noDst, (num a), (vreg b), noSrc, 0, .u32, .rn, false, 0⟩⟩
  | .time g c d => some ⟨0x7E, g, ⟨false, (reg d), noSrc, noSrc, noSrc, (c.setWidth 6), .u64, .rn, false, 0⟩⟩
  | .brxX g x => some ⟨0x02, g, x⟩
  | .callxX g x => some ⟨0x04, g, x⟩
  | .barX g x => some ⟨0x09, g, x⟩
  | .setdecl g x => some ⟨0x0A, g, x⟩
  | .setfree g x => some ⟨0x0A, g, x⟩
  | .rdsrX g x => some ⟨0x0B, g, x⟩
  | .progX g x => some ⟨0x0D, g, x⟩
  | .waitfX g x => some ⟨0x0E, g, x⟩
  | .reggive g x => some ⟨0x0F, g, x⟩
  | .regclaim g x => some ⟨0x0F, g, x⟩
  | .iaddX g x => some ⟨0x10, g, x⟩
  | .isubX g x => some ⟨0x11, g, x⟩
  | .iadd3 g x => some ⟨0x12, g, x⟩
  | .imulX g x => some ⟨0x13, g, x⟩
  | .imulhX g x => some ⟨0x14, g, x⟩
  | .imadX g x => some ⟨0x15, g, x⟩
  | .imadw g x => some ⟨0x16, g, x⟩
  | .shlX g x => some ⟨0x17, g, x⟩
  | .shrX g x => some ⟨0x18, g, x⟩
  | .sarX g x => some ⟨0x19, g, x⟩
  | .shf g x => some ⟨0x1A, g, x⟩
  | .andX g x => some ⟨0x1B, g, x⟩
  | .orX g x => some ⟨0x1C, g, x⟩
  | .xorX g x => some ⟨0x1D, g, x⟩
  | .bfn g x => some ⟨0x1E, g, x⟩
  | .popcX g x => some ⟨0x1F, g, x⟩
  | .clzX g x => some ⟨0x1F, g, x⟩
  | .brevX g x => some ⟨0x1F, g, x⟩
  | .bfx g x => some ⟨0x20, g, x⟩
  | .bfi g x => some ⟨0x21, g, x⟩
  | .bpack g x => some ⟨0x22, g, x⟩
  | .iminX g x => some ⟨0x23, g, x⟩
  | .imaxX g x => some ⟨0x24, g, x⟩
  | .iabsX g x => some ⟨0x25, g, x⟩
  | .isel g x => some ⟨0x26, g, x⟩
  | .icmpX g x => some ⟨0x27, g, x⟩
  | .iaddmin g x => some ⟨0x28, g, x⟩
  | .iaddmax g x => some ⟨0x28, g, x⟩
  | .lea g x => some ⟨0x29, g, x⟩
  | .movX g x => some ⟨0x2A, g, x⟩
  | .moviX g x => some ⟨0x2B, g, x⟩
  | .movqX g x => some ⟨0x2C, g, x⟩
  | .qop g x => some ⟨0x2D, g, x⟩
  | .cvtiX g x => some ⟨0x2E, g, x⟩
  | .faddX g x => some ⟨0x30, g, x⟩
  | .fmulX g x => some ⟨0x31, g, x⟩
  | .ffmaX g x => some ⟨0x32, g, x⟩
  | .fminX g x => some ⟨0x33, g, x⟩
  | .fmaxX g x => some ⟨0x34, g, x⟩
  | .fcmpX g x => some ⟨0x35, g, x⟩
  | .faddmin g x => some ⟨0x36, g, x⟩
  | .fclassX g x => some ⟨0x37, g, x⟩
  | .frndX g x => some ⟨0x38, g, x⟩
  | .rcpRsqSqrtX g x => some ⟨0x39, g, x⟩
  | .exp2Log2X g x => some ⟨0x3A, g, x⟩
  | .sinCosTanhX g x => some ⟨0x3B, g, x⟩
  | .hadd2X g x => some ⟨0x3C, g, x⟩
  | .hmul2X g x => some ⟨0x3D, g, x⟩
  | .hfma2X g x => some ⟨0x3E, g, x⟩
  | .dot4X g x => some ⟨0x3F, g, x⟩
  | .cvtfX g x => some ⟨0x40, g, x⟩
  | .cvtfiX g x => some ⟨0x41, g, x⟩
  | .cvtifX g x => some ⟨0x42, g, x⟩
  | .quant g x => some ⟨0x43, g, x⟩
  | .deq g x => some ⟨0x44, g, x⟩
  | .blkmax g x => some ⟨0x45, g, x⟩
  | .shflX g x => some ⟨0x48, g, x⟩
  | .voteX g x => some ⟨0x49, g, x⟩
  | .reduxX g x => some ⟨0x4A, g, x⟩
  | .matchX g x => some ⟨0x4B, g, x⟩
  | .scanX g x => some ⟨0x4C, g, x⟩
  | .ldX g x => some ⟨0x50, g, x⟩
  | .stX g x => some ⟨0x51, g, x⟩
  | .ldsX g x => some ⟨0x52, g, x⟩
  | .stsX g x => some ⟨0x53, g, x⟩
  | .ldcX g x => some ⟨0x54, g, x⟩
  | .ldwX g x => some ⟨0x55, g, x⟩
  | .stwX g x => some ⟨0x56, g, x⟩
  | .prefX g x => some ⟨0x57, g, x⟩
  | .fenceX g x => some ⟨0x58, g, x⟩
  | .rdeg g x => some ⟨0x5A, g, x⟩
  | .cinvX g x => some ⟨0x5B, g, x⟩
  | .latomX g x => some ⟨0x60, g, x⟩
  | .latoms g x => some ⟨0x61, g, x⟩
  | .rtinst g x => some ⟨0x62, g, x⟩
  | .rtrem g x => some ⟨0x63, g, x⟩
  | .waitcmpX g x => some ⟨0x64, g, x⟩
  | .moncanX g x => some ⟨0x65, g, x⟩
  | .xcopy g x => some ⟨0x68, g, x⟩
  | .xgather g x => some ⟨0x69, g, x⟩
  | .xscat g x => some ⟨0x69, g, x⟩
  | .xfill g x => some ⟨0x6A, g, x⟩
  | .xread g x => some ⟨0x6B, g, x⟩
  | .qcwset g x => some ⟨0x6C, g, x⟩
  | .rpushX g x => some ⟨0x6D, g, x⟩
  | .rpopX g x => some ⟨0x6E, g, x⟩
  | .bgive g x => some ⟨0x6F, g, x⟩
  | .btake g x => some ⟨0x6F, g, x⟩
  | .bgiveFree g x => some ⟨0x6F, g, x⟩
  | .btakeNew g x => some ⟨0x6F, g, x⟩
  | .fmtset g x => some ⟨0x70, g, x⟩
  | .mma g x => some ⟨0x71, g, x⟩
  | .mmas g x => some ⟨0x72, g, x⟩
  | .accz g x => some ⟨0x73, g, x⟩
  | .accld g x => some ⟨0x74, g, x⟩
  | .accst g x => some ⟨0x75, g, x⟩
  | .acck g x => some ⟨0x76, g, x⟩
  | .fetchtTile g x => some ⟨0x78, g, x⟩
  | .fetchtTask g x => some ⟨0x78, g, x⟩
  | .enqt g x => some ⟨0x79, g, x⟩
  | .migrate g x => some ⟨0x7A, g, x⟩
  | .csrrX g x => some ⟨0x7C, g, x⟩
  | .csrwX g x => some ⟨0x7D, g, x⟩
  | .timeX g x => some ⟨0x7E, g, x⟩
  | .regclaimGrant _ => none
  | .windowWriteArrival _ => none
  | .stwWaitLand _ => none
  | .scOrderGrant _ => none
  | .routineInvocation _ => none
  | .routineReturn _ => none
  | .rtinstExecution _ => none
  | .monitorWake _ _ _ => none
  | .monitorPoll _ => none
  | .waitTimeout _ => none
  | .monitorCancel _ _ _ _ _ => none
  | .blockYield _ => none
  | .yieldWake _ => none
  | .copyPost _ _ => none
  | .ringReserve _ _ => none
  | .xreadEngineStart _ => none
  | .nvmeCompletion _ _ _ => none
  | .xreadTimeout _ => none
  | .xreadCompletionWord _ => none
  | .peerWindowWrite _ _ => none
  | .remoteReadServe _ _ _ _ => none
  | .matrixKStep _ => none
  | .accstAddLineUpdate _ _ _ => none
  | .matrixOpComplete _ _ => none
  | .lendAccept _ => none
  | .lendExpiry _ => none
  | .taskEnd _ => none
  | .cairnGrant _ => none
  | .cairnTimeout _ => none
  | .vclassWriteBack _ => none
  | .storeAcknowledgement _ => none
  | .rendezvousComplete _ _ => none
  | .namedBarrierComplete _ _ => none
  | .stuckRendezvous _ _ => none
  | .fatalFault _ _ _ => none
  | .stampedRequestRelease _ => none
  | .sliceRead _ => none
  | .sliceWrite _ => none
  | .collapseReceipt _ _ => none
  | .collapseAck _ _ => none
  | .leaseExpiry _ => none
  | .copyExpiry _ _ => none
  | .recall _ _ => none
  | .degreeCount _ _ _ _ _ => none
  | .keeperUpdate => none
  | .dgpin _ => none
  | .softError _ _ _ _ => none
  | .lineLoss _ _ => none
  | .dieReset _ => none
  | .dieLoss _ => none
  | .mrAccept _ => none
  | .ascreate _ => none
  | .asdestroy _ => none
  | .mapPages _ => none
  | .unmap _ => none
  | .protect _ => none
  | .migin _ => none
  | .migout _ => none
  | .setcold _ => none
  | .setpin _ => none
  | .generationAck _ _ => none
  | .mrbaseWrite _ _ => none
  | .sweeperVisit => none
  | .compression _ => none
  | .compressionCommit _ _ => none
  | .expansion _ => none
  | .eviction _ => none
  | .dieTimerCalibration _ _ => none
  | .queueCreate _ => none
  | .queueDestroy _ => none
  | .queueResume _ => none
  | .queueHalt _ => none
  | .tailUpdate _ _ => none
  | .packetAccept _ => none
  | .packetStart _ _ => none
  | .launch _ _ => none
  | .waitSignals _ _ => none
  | .waitSignalsTimeout _ _ => none
  | .signal _ _ => none
  | .routineLoad _ _ => none
  | .catalogueUpdate _ _ => none
  | .mappingPass => none
  | .placement _ => none
  | .gridCompletion _ => none
  | .eventRecordWrite _ => none
  | .eventRingSpace _ => none
  | .eventRingRestart _ _ => none
  | .estimatorRun _ => none
  | .drainRecheck _ => none
  | .flush _ => none
  | .save _ => none
  | .restore _ => none
  | .nvcmdAttach _ => none
  | .nvcmdDetach _ => none
  | .flitReceive _ _ => none
  | .flitAck _ _ => none
  | .linkRollover _ => none
  | .forcedRollover _ => none
  | .portDown _ => none
  | .portUp _ => none
  | .attestation => none
  | .flashStage => none
  | .flashActivate => none
  | .flashAbandon => none
  | .coldReset => none
  | .functionLevelReset => none
  | .governor _ _ _ _ => none
  | .thermalDieReset _ => none
  | .registerWrite _ _ => none
  | .fenceReleaseCompletion _ => none

/-- The form of an instruction that has words. -/
def Instr.form (i : Instr) : Form :=
  i.form?.getD ⟨0, ⟨false, 7, .lane⟩, ⟨false, noDst, noSrc, noSrc, noSrc, 0, .u32, .rn, false, 0⟩⟩

/-- What a source may be: its classes, its width in bits (0: unused), the registers it takes when it is a vector
register, their alignment, and the range of an immediate or literal where the description gives one. -/
structure SUse where
  vec : Bool
  uni : Bool
  spec : Bool
  imm : Bool
  lit : Bool
  w : Nat
  regs : Nat
  align : Nat
  range : Option (Int × Int)
  deriving DecidableEq, Repr

/-- What a destination may be: absent, its classes, and its registers and their alignment. -/
structure DUse where
  absent : Bool
  vec : Bool
  uni : Bool
  pred : Bool
  regs : Nat
  align : Nat
  deriving DecidableEq, Repr

/-- The field rules of one instruction. `elem` marks an element-wise instruction (R241). -/
structure OpRule where
  scopes : List Scope
  types : List Ty
  sub : Bool
  rnd : Bool
  sat : Bool
  fmt : Bool
  d : DUse
  a : SUse
  b : SUse
  c : SUse
  elem : Bool
  extra : Bool
  deriving DecidableEq, Repr

namespace Use

/-- Unused (R39). -/
def no : SUse := ⟨false, false, false, false, false, 0, 0, 1, .none⟩
/-- Any class, `w` bits wide. -/
def any (w : Nat) : SUse := ⟨true, true, true, true, true, w, if w = 64 then 2 else 1, if w = 64 then 2 else 1, .none⟩
/-- Class 00 or 01. -/
def vecUni (w : Nat) : SUse := { any w with spec := false, imm := false, lit := false }
/-- Class 01 only. -/
def uni (w : Nat) : SUse := { vecUni w with vec := false }
/-- Class 00 only. -/
def vec (w : Nat) : SUse := { vecUni w with uni := false }
/-- Class 11 within bounds. -/
def imm (lo hi : Int) : SUse := ⟨false, false, false, true, false, 32, 1, 1, some (lo, hi)⟩
/-- Class 11 within bounds, class 01 half. -/
def immUni (lo hi : Int) : SUse := { imm lo hi with uni := true }
/-- Class 11 or the literal within bounds, class 01 half. -/
def immUniLit (lo hi : Int) : SUse := { imm lo hi with uni := true, lit := true }
/-- Classes 00, 01, 11 and the literal. -/
def data (w : Nat) : SUse := { any w with spec := false }
/-- Classes 01, 11 and the literal. -/
def dataUni (w : Nat) : SUse := { data w with vec := false }
/-- Class 00 at lane scope, or class 01; 64 bits. -/
def addr (lane : Bool) : SUse := { vecUni 64 with vec := lane }

/-- No destination. -/
def noD : DUse := ⟨true, false, false, false, 0, 1⟩
/-- A vector destination of `w` bits. -/
def vecD (w : Nat) : DUse := ⟨false, true, false, false, if w = 64 then 2 else 1, if w = 64 then 2 else 1⟩
/-- A vector or uniform destination of `w` bits. -/
def regD (w : Nat) : DUse := { vecD w with uni := true }
/-- A uniform destination. -/
def uniD : DUse := ⟨false, false, true, false, 0, 1⟩
/-- A predicate destination. -/
def predD : DUse := ⟨false, false, false, true, 0, 1⟩
/-- A predicate, vector or uniform destination (R240). -/
def cmpD : DUse := { regD 32 with pred := true }

end Use

/-- R244: the width of an integer type's values. -/
def Ty.bits : Ty → Nat
  | .u64 | .s64 => 64
  | .u16 | .s16 | .f16 | .bf16 => 16
  | .u8 | .s8 => 8
  | _ => 32

/-- Whether a type is a signed integer type. -/
def Ty.signed : Ty → Bool
  | .s32 | .s64 | .s16 | .s8 => true
  | _ => false

/-- R244: W of an integer instruction, 64 for types 2 and 3. -/
def Ty.intW (t : Ty) : Nat := if t = .u64 ∨ t = .s64 then 64 else 32

/-- R43: the type of a SUB value that names the other side of a conversion (R248, R255). -/
def tyOfSub (s : BitVec 6) : Option Ty := if s.toNat < 16 then Ty.ofBits (s.setWidth 4) else none

def int4 : List Ty := [.u32, .s32, .u64, .s64]
def int5 : List Ty := [.u32, .s32, .u64, .s64, .b32]
def cvtInts : List Ty := [.u32, .s32, .u64, .s64, .u16, .s16, .u8, .s8]
def floats : List Ty := [.f32, .f16, .bf16]
def cvtFloats : List Ty := [.f32, .f16, .bf16, .fmt]
/-- R208: types 0-6 and 9-13. -/
def memTypes : List Ty := [.u32, .s32, .u64, .s64, .f32, .f16, .bf16, .u16, .s16, .u8, .s8, .b32]
/-- R166: types other than 7, 8 and 15. -/
def copyTypes : List Ty := memTypes ++ [.fmt]

/-- R346: the CSR numbers. -/
def csrExists (n : Nat) : Bool :=
  decide (n ≤ 5) || decide (8 ≤ n ∧ n ≤ 0xB)
    || (decide (0x100 ≤ n ∧ n < 0x148) && decide (n % 8 < 5))
    || (decide (0x200 ≤ n ∧ n < 0x240)) || (decide (0x240 ≤ n ∧ n < 0x280))
    || decide (0x280 ≤ n ∧ n ≤ 0x282)

/-- The value of an immediate or literal number operand. -/
def Src.number : Src → Option Int
  | .imm v => some v.toInt
  | .lit v => some v.toNat
  | _ => none

/-- R41: the width of a special register. -/
def special64 (code : Nat) : Bool := code == 0x0F || code == 0x10 || code == 0x11

/-- R332: the special registers that differ between the threads of a warp. -/
def perThread (code : Nat) : Bool := code == 0 || code == 1 || code == 0x11 || code == 0x12

/-- The registers of one lane's access (R208): 2 for 64-bit types and .v2, 4 for .v4. -/
def accessRegs (x : XForm) : Nat :=
  match (x.sub.extractLsb' 0 2).toNat with
  | 1 => 2
  | 2 => 4
  | _ => if x.ty = .u64 ∨ x.ty = .s64 then 2 else 1

/-- R209: the bytes of one lane's access. -/
def accessBytes (x : XForm) : Nat :=
  match (x.sub.extractLsb' 0 2).toNat with
  | 1 => 8
  | 2 => 16
  | _ => x.ty.bits / 8

/-- R46: the scopes of each opcode. -/
def scopesOf (opc : Nat) : List Scope :=
  match opc with
  | 0x00 => [.lane, .warp, .set, .block]
  | 0x01 => [.lane, .warp]
  | 0x02 => [.lane, .warp]
  | 0x03 => [.lane]
  | 0x04 => [.lane]
  | 0x05 => [.lane]
  | 0x06 => [.lane]
  | 0x07 => [.lane, .warp]
  | 0x08 => [.lane]
  | 0x09 => [.warp, .set, .block]
  | 0x0A => [.warp]
  | 0x0B => [.lane, .warp]
  | 0x0C => [.warp]
  | 0x0D => [.warp, .set, .block]
  | 0x0E => [.lane, .warp]
  | 0x0F => [.warp]
  | 0x10 => [.lane, .warp, .set, .block]
  | 0x11 => [.lane, .warp, .set, .block]
  | 0x12 => [.lane, .warp, .set, .block]
  | 0x13 => [.lane, .warp, .set, .block]
  | 0x14 => [.lane, .warp, .set, .block]
  | 0x15 => [.lane, .warp, .set, .block]
  | 0x16 => [.lane, .warp, .set, .block]
  | 0x17 => [.lane, .warp, .set, .block]
  | 0x18 => [.lane, .warp, .set, .block]
  | 0x19 => [.lane, .warp, .set, .block]
  | 0x1A => [.lane, .warp, .set, .block]
  | 0x1B => [.lane, .warp, .set, .block]
  | 0x1C => [.lane, .warp, .set, .block]
  | 0x1D => [.lane, .warp, .set, .block]
  | 0x1E => [.lane, .warp, .set, .block]
  | 0x1F => [.lane, .warp, .set, .block]
  | 0x20 => [.lane, .warp, .set, .block]
  | 0x21 => [.lane, .warp, .set, .block]
  | 0x22 => [.lane, .warp, .set, .block]
  | 0x23 => [.lane, .warp, .set, .block]
  | 0x24 => [.lane, .warp, .set, .block]
  | 0x25 => [.lane, .warp, .set, .block]
  | 0x26 => [.lane, .warp, .set, .block]
  | 0x27 => [.lane, .warp, .set, .block]
  | 0x28 => [.lane, .warp, .set, .block]
  | 0x29 => [.lane, .warp, .set, .block]
  | 0x2A => [.lane, .warp, .set, .block]
  | 0x2B => [.lane, .warp, .set, .block]
  | 0x2C => [.lane, .warp, .set, .block]
  | 0x2D => [.lane, .warp, .set, .block]
  | 0x2E => [.lane, .warp, .set, .block]
  | 0x30 => [.lane, .warp, .set, .block]
  | 0x31 => [.lane, .warp, .set, .block]
  | 0x32 => [.lane, .warp, .set, .block]
  | 0x33 => [.lane, .warp, .set, .block]
  | 0x34 => [.lane, .warp, .set, .block]
  | 0x35 => [.lane, .warp, .set, .block]
  | 0x36 => [.lane, .warp, .set, .block]
  | 0x37 => [.lane, .warp, .set, .block]
  | 0x38 => [.lane, .warp, .set, .block]
  | 0x39 => [.lane, .warp, .set, .block]
  | 0x3A => [.lane, .warp, .set, .block]
  | 0x3B => [.lane, .warp, .set, .block]
  | 0x3C => [.lane, .warp, .set, .block]
  | 0x3D => [.lane, .warp, .set, .block]
  | 0x3E => [.lane, .warp, .set, .block]
  | 0x3F => [.lane, .warp, .set, .block]
  | 0x40 => [.lane, .warp, .set, .block]
  | 0x41 => [.lane, .warp, .set, .block]
  | 0x42 => [.lane, .warp, .set, .block]
  | 0x43 => [.lane, .warp, .set, .block]
  | 0x44 => [.lane, .warp, .set, .block]
  | 0x45 => [.warp]
  | 0x48 => [.warp, .set, .block]
  | 0x49 => [.warp, .set, .block]
  | 0x4A => [.warp, .set, .block]
  | 0x4B => [.warp, .set, .block]
  | 0x4C => [.warp, .set, .block]
  | 0x50 => [.lane, .warp]
  | 0x51 => [.lane]
  | 0x52 => [.lane]
  | 0x53 => [.lane]
  | 0x54 => [.lane, .warp]
  | 0x55 => [.lane]
  | 0x56 => [.lane]
  | 0x57 => [.lane]
  | 0x58 => [.lane, .warp, .set, .block]
  | 0x59 => [.warp, .set]
  | 0x5A => [.warp]
  | 0x5B => [.lane]
  | 0x60 => [.lane]
  | 0x61 => [.lane]
  | 0x62 => [.warp]
  | 0x63 => [.warp]
  | 0x64 => [.lane, .warp, .block]
  | 0x65 => [.lane, .warp]
  | 0x68 => [.warp]
  | 0x69 => [.warp]
  | 0x6A => [.warp]
  | 0x6B => [.warp]
  | 0x6C => [.warp]
  | 0x6D => [.warp]
  | 0x6E => [.warp]
  | 0x6F => [.warp]
  | 0x70 => [.warp, .set, .block]
  | 0x71 => [.set]
  | 0x72 => [.set]
  | 0x73 => [.set]
  | 0x74 => [.set]
  | 0x75 => [.set]
  | 0x76 => [.warp, .set]
  | 0x78 => [.warp, .block]
  | 0x79 => [.lane, .warp]
  | 0x7A => [.warp]
  | 0x7C => [.lane, .warp]
  | 0x7D => [.lane, .warp]
  | 0x7E => [.lane, .warp]
  | _ => []

open Use in
/-- The field rules of the forms (R46 and the encoding tables of the descriptions). -/
def opRule (opc : Nat) (g : Guard) (x : XForm) : OpRule :=
  let sub := x.sub.toNat
  let w := x.ty.intW
  let lane := g.scope == .lane
  let sc := scopesOf opc
  let base : OpRule := ⟨sc, [.u32], sub == 0, false, false, false, noD, no, no, no, false, true⟩
  -- R244: an integer row
  let int (types : List Ty) (sat : Bool) (d a b c : SUse) (dw : Nat) : OpRule :=
    ⟨sc, types, sub == 0, false, sat, false, regD dw, a, b, c, true, d == no⟩
  let float (types : List Ty) (rnd sat : Bool) (a b c : SUse) : OpRule :=
    ⟨sc, types, sub == 0, rnd, sat, false, regD 32, a, b, c, true, true⟩
  let fw := any x.ty.bits
  match opc with
  | 0x00 => { base with sub := sub ≤ 1 }
  | 0x02 => { base with a := addr lane }
  | 0x04 => { base with a := addr true }
  | 0x07 => { base with sub := sub ≤ 1, a := imm 0 63 }
  | 0x08 => { base with a := imm 0 1 }
  | 0x09 =>
    if sub = 1 then { base with sub := true, scopes := [.block], a := imm 0 15, b := immUniLit 0 512 }
    else base
  | 0x0A => if sub = 0 then { base with a := uni 64 } else { base with sub := sub == 1 }
  | 0x0B =>
    match x.a with
    | .special n =>
      { base with
        d := regD (if special64 n.toNat then 64 else 32)
        a := { any 64 with vec := false, uni := false, imm := false, lit := false }
        extra := n.toNat < 0x13 && !(x.dst.cls == 1 && perThread n.toNat) }
    | _ => { base with extra := false }
  | 0x0C => { base with sub := sub ≤ 1 }
  | 0x0D => { base with sub := sub ≤ 1, a := immUniLit 0 65536 }
  | 0x0E => { base with a := immUniLit 0 4095 }
  | 0x0F =>
    { base with
      sub := sub ≤ 1, a := immUniLit 8 320
      extra := match x.a.number with
        | some n => n % 8 == 0
        | .none => true }
  | 0x10 | 0x11 | 0x13 => int int4 true no (any w) (any w) no w
  | 0x12 | 0x15 => int int4 true no (any w) (any w) (any w) w
  | 0x14 => int int4 false no (any w) (any w) no w
  | 0x16 => int [.u32, .s32] false no (any 32) (any 32) (any 64) 64
  | 0x17 | 0x18 => int int5 false no (any w) (any 32) no w
  | 0x19 => int [.s32, .s64] false no (any w) (any 32) no w
  | 0x1A => { int [.u32, .s32, .b32] false no (any 32) (any 32) (any 32) 32 with sub := sub ≤ 3 }
  | 0x1B | 0x1C | 0x1D => int int5 false no (any w) (any w) no w
  | 0x1E => { int [.u64, .s64, .b32] false no (any w) (any w) (any w) w with sub := sub ≤ 9 }
  | 0x1F => { int int5 false no (any w) no no (if sub = 2 then w else 32) with sub := sub ≤ 2 }
  | 0x20 => int int4 false no (any w) (any 32) no w
  | 0x21 => int int5 false no (any w) (any w) (any 32) w
  | 0x22 =>
    { int [.b32] false no (any 32) (if sub ≤ 3 then any 32 else no)
        (if sub = 5 then { vecUni 32 with imm := true, range := some (0, 3) } else no) 32 with sub := sub ≤ 5 }
  | 0x23 | 0x24 => int int4 false no (any w) (any w) no w
  | 0x25 => int [.s32, .s64] true no (any w) no no w
  | 0x26 => { int int5 false no (any w) (any w) no w with sub := sub ≤ 15 }
  | 0x27 => { int int4 false no (any w) (any w) no 32 with sub := sub ≤ 5, d := cmpD }
  | 0x28 => { int int4 true no (any w) (any w) (any w) w with sub := sub ≤ 1 }
  | 0x29 => int [.u64, .s64] false no (any 64) (any 32) (any 32) 64
  | 0x2A => int int5 false no (any w) no no w
  | 0x2B => int int4 false no no ({ any w with vec := false, uni := false, spec := false }) no w
  | 0x2C =>
    if sub = 0 then { int [.b32] false no no no no 32 with d := vecD 32 }
    else { int [.b32] false no (any 32) no no 32 with sub := sub == 1, d := noD }
  | 0x2D =>
    -- R247: the operands are predicate numbers 0-15 of class 00, no registers
    let q (s : Src) : Bool := match s with
      | .vec n t => decide (n.toNat ≤ 15) && !t
      | _ => false
    { base with
      types := [.b32], sub := sub ≤ 6, d := predD
      extra := q x.a && q x.b && q x.c && (decide (3 ≤ sub) || x.c == noSrc) }
  | 0x2E =>
    match tyOfSub x.sub with
    | some s =>
      { int cvtInts true no (any s.bits) no no x.ty.intW with sub := true, extra := cvtInts.contains s }
    | .none => { base with extra := false }
  | 0x30 | 0x31 => float floats true true fw fw no
  | 0x32 | 0x36 => float floats true true fw fw fw
  | 0x33 | 0x34 => float floats false false fw fw no
  | 0x35 => { float floats false false fw fw no with sub := sub ≤ 7, d := cmpD }
  | 0x37 => float floats false false fw no no
  | 0x38 => float floats true false fw no no
  | 0x39 => { float [.f32, .f16] (sub == 2) false fw no no with sub := sub ≤ 2 }
  | 0x3A => { float [.f32, .f16] false false fw no no with sub := sub ≤ 1 }
  | 0x3B => { float [.f32, .f16] false false fw no no with sub := sub ≤ 2 }
  | 0x3C | 0x3D => float [.f16x2, .bf16x2] true true (any 32) (any 32) no
  | 0x3E => float [.f16x2, .bf16x2] true true (any 32) (any 32) (any 32)
  | 0x3F =>
    { float [.u8, .s8, .fmt] (x.ty == .fmt) true (any 32) (any 32) (any 32) with
      sub := sub == 0 || (sub == 1 && x.ty != .fmt), fmt := x.ty == .fmt }
  | 0x40 =>
    match tyOfSub x.sub with
    | some s =>
      { float cvtFloats true (x.ty != .fmt) (any (if s = .fmt then 32 else s.bits)) no no with
        sub := true, fmt := x.ty == .fmt || s == .fmt, extra := cvtFloats.contains s && !(x.ty == .fmt && s == .fmt) }
    | .none => { base with extra := false }
  | 0x41 =>
    match tyOfSub x.sub with
    | some s =>
      { float cvtFloats true false (any (if x.ty = .fmt then 32 else x.ty.bits)) no no with
        sub := true, fmt := x.ty == .fmt, d := regD s.intW, extra := cvtInts.contains s }
    | .none => { base with extra := false }
  | 0x42 =>
    match tyOfSub x.sub with
    | some s =>
      { float cvtFloats true (x.ty != .fmt) (any s.bits) no no with
        sub := true, fmt := x.ty == .fmt, extra := cvtInts.contains s }
    | .none => { base with extra := false }
  | 0x43 | 0x44 =>
    { float [.fmt] true (opc == 0x44) (any 32) (any 32) no with sub := sub ≤ 6, fmt := sub == 0 }
  | 0x45 =>
    { float [.fmt] false false (any 32) no no with sub := sub ≤ 6, fmt := sub == 0, elem := false }
  | 0x48 =>
    let m := x.sub.getLsbD 5
    { base with
      types := [.b32, .u64], sub := sub % 32 ≤ 3, d := regD w, a := any w, b := any 32
      c := if m then data 32 else no, extra := !m || g.scope == .warp }
  | 0x49 =>
    let m := x.sub.getLsbD 5
    let ballot := sub % 32 == 3
    { base with
      types := [.b32, .u64], sub := sub % 32 ≤ 3, d := if ballot then regD 32 else cmpD, a := any w
      c := if m then data 32 else no, extra := !(m || ballot) || g.scope == .warp }
  | 0x4A =>
    let m := x.sub.getLsbD 5
    let op := sub % 32
    { base with
      types := .f32 :: int5, sub := op ≤ 5, rnd := x.ty == .f32 && op == 0, d := regD w, a := any w
      c := if m then data 32 else no
      extra := (!m || g.scope == .warp) && (x.ty != .f32 || op ≤ 2) && (x.ty != .b32 || 3 ≤ op) }
  | 0x4B =>
    let m := x.sub.getLsbD 5
    { base with
      types := [.b32, .u64], sub := sub % 32 ≤ 1, d := if sub % 2 = 1 then regD 32 else vecD 32, a := any w
      c := if m then data 32 else no, extra := g.scope == .warp }
  | 0x4C =>
    let m := x.sub.getLsbD 5
    let op := sub % 8
    { base with
      types := .f32 :: int5, sub := op ≤ 5 && sub % 32 < 16, rnd := x.ty == .f32 && op == 0, d := vecD w, a := any w
      c := if m then data 32 else no
      extra := (!m || g.scope == .warp) && (x.ty != .f32 || op ≤ 2) && (x.ty != .b32 || 3 ≤ op) }
  | 0x50 =>
    let v := sub % 4
    { base with
      types := memTypes, sub := v ≤ 2 && sub / 4 ≤ 1
      d := if lane then ⟨false, true, false, false, accessRegs x, accessRegs x⟩ else uniD
      a := addr lane, b := if lane then data 32 else dataUni 32
      extra := v == 0 || (x.ty == .b32 && lane) }
  | 0x51 =>
    let v := sub % 4
    { base with
      types := memTypes, sub := v ≤ 2 && sub / 4 == 0, a := addr true, b := data 32
      c := ⟨true, v == 0 && accessRegs x == 1, false, v == 0 && accessRegs x == 1, false, 32, accessRegs x, accessRegs x, .none⟩
      extra := v == 0 || x.ty == .b32 }
  | 0x52 =>
    let v := sub % 4
    { base with
      types := memTypes, sub := v ≤ 2 && sub / 4 == 0
      d := ⟨false, true, false, false, accessRegs x, accessRegs x⟩, a := vecUni 32, b := data 32
      extra := v == 0 || x.ty == .b32 }
  | 0x53 =>
    let v := sub % 4
    { base with
      types := memTypes, sub := v ≤ 2 && sub / 4 == 0, a := vecUni 32, b := data 32
      c := ⟨true, v == 0 && accessRegs x == 1, false, v == 0 && accessRegs x == 1, false, 32, accessRegs x, accessRegs x, .none⟩
      extra := v == 0 || x.ty == .b32 }
  | 0x54 =>
    let v := sub % 4
    { base with
      types := memTypes, sub := v ≤ 2 && sub / 4 == 0
      d := if lane then ⟨false, true, false, false, accessRegs x, accessRegs x⟩ else uniD
      a := { data 32 with lit := false, vec := lane }, b := if lane then data 32 else dataUni 32
      extra := v == 0 || (x.ty == .b32 && lane) }
  | 0x55 => { base with sub := sub == 0 || sub == 16, d := vecD 32, a := vecUni 32 }
  | 0x56 => { base with sub := sub == 0 || sub == 16, a := vecUni 32, b := data 32 }
  | 0x57 => { base with sub := sub ≤ 1, a := addr true, b := data 32 }
  | 0x58 => { base with sub := sub < 12 }
  | 0x5A =>
    { base with
      sub := sub ≤ 2, d := if sub = 0 then uniD else { uniD with absent := true }, a := uni 64
      b := if sub = 1 then immUniLit 0 7 else no }
  | 0x5B => { base with sub := sub ≤ 1, a := if sub = 1 then no else addr true }
  | 0x60 | 0x61 =>
    let n := sub % 8
    { base with
      sub := n ≤ 4 && sub / 8 ≤ 2, d := if opc = 0x60 then vecD 64 else noD, a := vecUni 64
      b := if n = 0 then no else
        ⟨true, n ≤ 2, false, n == 1, n ≤ 2, 64, n, 1, .none⟩
      c := { vecUni 32 with imm := true, range := some (0, 63) } }
  | 0x62 => { base with d := uniD, a := uni 64, b := immUni 16 63 }
  | 0x63 => { base with d := uniD, b := immUni 16 63 }
  | 0x64 =>
    { base with
      types := [.u32, .u64], sub := sub ≤ 5, d := predD, a := addr lane
      b := { data w with vec := lane }
      c := { data 32 with vec := lane, range := some (0, 4294967295) }
      extra := match x.c with | .uni n => decide (n.toNat < 32) | _ => true }
  | 0x65 => { base with sub := sub ≤ 1, a := addr true }
  | 0x68 | 0x69 | 0x6A =>
    let k := sub % 2
    let im := sub / 2 % 4
    let planes := im == 1
    { base with
      types := if opc = 0x6A ∧ k = 1 then [.u32] else copyTypes
      sub := im ≤ 1 || (im == 2 && k == 0 && opc != 0x6A)
      rnd := opc != 0x6A, sat := opc != 0x6A, fmt := opc != 0x6A || k == 1 || x.ty == .fmt
      a := uni 64, b := uni 64
      c := if opc = 0x68 then no else if opc = 0x69 then vec 32
        else dataUni (if k = 1 then (if x.c.cls = 1 then 32 else 64) else x.ty.bits)
      extra := (!planes || x.ty == .fmt) && !(opc == 0x6A && k == 1 && im != 0)
        && (match x.b with | .uni n => n.toNat % 4 == 0 | _ => false) }
  | 0x6B =>
    { base with
      a := uni 64, b := uni 64, c := uni 64
      extra := match x.a with | .uni n => n.toNat % 2 == 0 | _ => false }
  | 0x6C => { base with a := uni 64, b := uni 64 }
  | 0x6D => { base with sub := sub ≤ 7, a := ⟨true, false, false, false, false, 32, sub + 1, 1, .none⟩, b := dataUni 32 }
  | 0x6E =>
    if sub = 0 then { base with d := regD 32, b := dataUni 32 } else { base with sub := sub == 1, b := dataUni 32 }
  | 0x6F =>
    match sub with
    | 0 => { base with a := uni 32, b := immUni (-255) 255 }
    | 1 => { base with sub := true, d := uniD, a := uni 32 }
    | 2 => { base with sub := true, a := uni 32 }
    | _ => { base with sub := sub == 3, d := uniD, a := uni 64 }
  | 0x70 => { base with sub := sub ≤ 7, d := { uniD with absent := true }, a := { dataUni 32 with regs := 1 } }
  | 0x71 | 0x72 =>
    { base with
      types := [.f16, .bf16, .fmt], sub := sub < 32 || x.ty == .fmt, a := uni 64, b := uni 32
      c := { immUniLit 1 8191 with range := some (1, 4294967295) } }
  | 0x73 => { base with sub := sub < 4, c := imm 0 7 }
  | 0x74 | 0x75 =>
    let memf := x.sub.getLsbD 2
    let addf := x.sub.getLsbD 3
    let planes := x.sub.getLsbD 4
    let st := opc == 0x75
    { base with
      types := if st then [.f32, .f16, .bf16, .fmt] else [.f32, .f16, .bf16]
      sub := if st then sub < 32 else sub < 8
      rnd := st, sat := st && x.ty != .fmt, fmt := x.ty == .fmt
      a := uni (if memf then 64 else 32), b := { dataUni 32 with range := some (0, 4294967295) }, c := imm 0 7
      extra := !(addf && x.ty == .fmt) && !(planes && memf) && !(planes && x.ty != .fmt) }
  | 0x76 => { base with d := regD 32, c := imm 0 7 }
  | 0x78 =>
    { base with
      sub := sub ≤ 1, d := uniD
      extra := x.dst.num.toNat % 2 == 0 && !(sub == 1 && g.scope == .block) }
  | 0x79 =>
    { base with
      sub := sub ≤ 1, a := addr lane
      b := if sub = 1 then { immUni 0 143 with vec := lane } else no }
  | 0x7A => { base with d := predD, a := uni 64 }
  | 0x7C =>
    { base with
      types := [.u32, .u64], d := regD w, a := { imm 0 1023 with lit := true }
      extra := match x.a.number with
        | some n => csrExists n.toNat && !(x.dst.cls == 1 && decide (n < 5))
        | .none => false }
  | 0x7D =>
    { base with
      types := [.u32, .u64], a := imm 0 255, b := { data w with vec := lane }
      extra := match x.a.number with
        | some n => n == 0 || n == 4
        | .none => false }
  | 0x7E => { base with types := [.u64], sub := sub ≤ 1, d := regD 64 }
  | _ => base

/-- R39, R40, R42: a source against its rule. -/
def SUse.ok (u : SUse) (s : Src) : Bool :=
  if u.w = 0 then s == noSrc
  else
    let inRange (v : Int) : Bool := match u.range with
      | some (lo, hi) => decide (lo ≤ v ∧ v ≤ hi)
      | .none => true
    match s with
    | .vec n _ => u.vec && decide (n.toNat % u.align = 0 ∧ n.toNat + u.regs ≤ 320)
    | .uni n => u.uni && (u.w != 64 || decide (n.toNat < 32))
    | .special _ => u.spec
    | .imm v => u.imm && inRange v.toInt
    | .lit v => u.lit && decide (v.toNat < 2 ^ u.w) && inRange v.toNat

/-- R36, R39, R40: a destination against its rule. -/
def DUse.ok (u : DUse) (lane : Bool) (d : Dst) : Bool :=
  (u.absent && d == noDst) ||
    match d with
    | .vec n => u.vec && decide (n.toNat % u.align = 0 ∧ n.toNat + u.regs ≤ 320)
    | .uni _ => u.uni && !lane
    | .pred n => u.pred && decide (n.toNat < 7)

/-- A source that R241 forbids beside a uniform destination. -/
def Src.threadSpecific : Src → Bool
  | .vec n t => !(Src.vec n t == noSrc)
  | .special c => perThread c.toNat
  | _ => false

/-- The form obeys every field rule that depends on the instruction's words alone (R48). -/
def Form.ok (f : Form) : Bool :=
  let r := opRule f.opc f.g f.x
  !(f.g.pred == 7 && f.g.pneg)
    && r.scopes.contains f.g.scope
    && r.types.contains f.x.ty
    && r.sub
    && (r.rnd || f.x.rnd == .rn)
    && (r.sat || !f.x.sat)
    && (r.fmt || f.x.fmt == 0)
    && r.d.ok (f.g.scope == .lane) f.x.dst
    && (f.opc == 0x2D || (r.a.ok f.x.a && r.b.ok f.x.b && r.c.ok f.x.c))
    && !(r.elem && f.x.dst.cls == 1
      && ((r.a.w != 0 && (match f.x.a with | .vec .. => true | s => s.threadSpecific))
        || (r.b.w != 0 && (match f.x.b with | .vec .. => true | s => s.threadSpecific))
        || (r.c.w != 0 && (match f.x.c with | .vec .. => true | s => s.threadSpecific))))
    && r.extra

/-- A vector register operand: which operand it is (0 A, 1 B, 2 C, 3 D), its first register, how many, its trap bit. -/
structure RegUse where
  opnd : Nat
  reg : Nat
  count : Nat
  trap : Bool
  deriving DecidableEq, Repr

/-- The vector registers a form reads. -/
def Form.reads (f : Form) : List RegUse :=
  let r := opRule f.opc f.g f.x
  let one (k : Nat) (u : SUse) (s : Src) : List RegUse :=
    match s with
    | .vec n t => if u.w = 0 ∨ u.regs = 0 then [] else [⟨k, n.toNat, u.regs, t⟩]
    | _ => []
  one 0 r.a f.x.a ++ one 1 r.b f.x.b ++ one 2 r.c f.x.c

/-- The vector registers a form writes. -/
def Form.writes (f : Form) : List RegUse :=
  let r := opRule f.opc f.g f.x
  match f.x.dst with
  | .vec n => if r.d.regs = 0 ∨ !r.d.vec then [] else [⟨3, n.toNat, r.d.regs, false⟩]
  | _ => []

/-- R40: every vector register a form names lies within an allocation of `alloc` registers. -/
def Form.fits (f : Form) (alloc : Nat) : Bool :=
  (f.reads ++ f.writes).all fun u => decide (u.reg + u.count ≤ alloc)

end Sys2Proof
end

