-- ==== Sys2Proof/Machine/Sparse.lean ====
section
/-! DEFINITION. The two containers of the state, both plain lists: a map with a value for unlisted keys, kept in one
canonical form, and a table of entities by number. -/

namespace Sys2Proof.Machine

/-- A map from numbers, listing in rising order the keys whose value differs from a default. -/
abbrev SMap (α : Type) := List (Nat × α)

/-- The value of a key; `d` where it is not listed. -/
def SMap.get {α : Type} (d : α) : SMap α → Nat → α
  | [], _ => d
  | (k', v) :: rest, k => if k = k' then v else SMap.get d rest k

/-- The map with one key changed, in canonical form: the default value removes the entry. -/
def SMap.set {α : Type} [DecidableEq α] (d : α) : SMap α → Nat → α → SMap α
  | [], k, v => if v = d then [] else [(k, v)]
  | (k', v') :: rest, k, v =>
    if k < k' then (if v = d then (k', v') :: rest else (k, v) :: (k', v') :: rest)
    else if k = k' then (if v = d then rest else (k, v) :: rest)
    else (k', v') :: SMap.set d rest k v

/-- Every key of the map is above `n`, and the keys rise. -/
def SMap.above {α : Type} (n : Nat) : SMap α → Bool
  | [] => true
  | (k, _) :: rest => decide (n < k) && SMap.above k rest

/-- The canonical form: keys strictly rising, no entry equal to the default. -/
def SMap.wf {α : Type} [DecidableEq α] (d : α) (m : SMap α) : Bool :=
  (match m with
    | [] => true
    | (k, _) :: rest => SMap.above k rest)
  && m.all fun e => decide (e.2 ≠ d)

/-- A table of entities by number. -/
abbrev Tab (α : Type) := List (Nat × α)

/-- The entity of a number. -/
def Tab.find {α : Type} : Tab α → Nat → Option α
  | [], _ => none
  | (k', v) :: rest, k => if k = k' then some v else Tab.find rest k

/-- The table with the entity of a number replaced by its image; unchanged where there is none. -/
def Tab.upd {α : Type} : Tab α → Nat → (α → α) → Tab α
  | [], _, _ => []
  | (k', v) :: rest, k, f => if k = k' then (k', f v) :: rest else (k', v) :: Tab.upd rest k f

/-- The table with the entity of a number set; a new number goes to its place in rising order. -/
def Tab.put {α : Type} : Tab α → Nat → α → Tab α
  | [], k, v => [(k, v)]
  | (k', v') :: rest, k, v =>
    if k < k' then (k, v) :: (k', v') :: rest
    else if k = k' then (k, v) :: rest
    else (k', v') :: Tab.put rest k v

/-- The table without a number. -/
def Tab.del {α : Type} (t : Tab α) (k : Nat) : Tab α := t.filter fun e => e.1 != k

/-- A memory: bytes listed by address; an unlisted address reads as 0 (log 3). -/
abbrev Memory := List Host.Cell

/-- The byte at an address. -/
def Memory.byte (m : Memory) (a : Nat) : Byte := SMap.get 0 m a

/-- The memory with one byte changed, in canonical form. -/
def Memory.set (m : Memory) (a : Nat) (b : Byte) : Memory := SMap.set 0 m a b

/-- The canonical form of a memory: addresses strictly rising, no entry equal to 0. -/
def Memory.wf (m : Memory) : Bool := SMap.wf 0 m

/-- `n` bytes from an address. -/
def Memory.bytes (m : Memory) (a n : Nat) : List Byte := (List.range n).map fun i => Memory.byte m (a + i)

/-- Bytes written from an address on. -/
def Memory.write : Memory → Nat → List Byte → Memory
  | m, _, [] => m
  | m, a, b :: rest => Memory.write (Memory.set m a b) (a + 1) rest

/-- The memory with `n` bytes from an address on reading 0. -/
def Memory.clear (m : Memory) (a n : Nat) : Memory := m.filter fun c => decide (c.1 < a) || decide (a + n ≤ c.1)

end Sys2Proof.Machine
end

