-- ==== Sys2Proof/Machine/State.lean ====
section
/-! DEFINITION. The state of the package as plain data (INVENTORY.md, State), the reasons a step can stop, and the
state after reset. -/

namespace Sys2Proof.Machine

/-! ## Reasons to stop -/

/-- Why the machine stops at a step of which the spec gives no continuation. -/
inductive Fault where
  /-- SAFE (log 16): raised by the passing of a clock at which FE reads a memory request ring (R83) that MRBASE puts in device
  memory beyond PA[39:0], which R70 says is all there is. -/
  | noSuchPhysicalAddress
  deriving DecidableEq, Repr

/-- Why a step is refused. -/
inductive Refusal where
  /-- SAFE: an instruction without a meaning, by its mnemonic; raised by arms of `exec` only. -/
  | notModelled (mnemonic : String)
  deriving DecidableEq, Repr

/-! ## Threads and warps (13, R319; 08, R200) -/

/-- A thread by its warp and lane. -/
structure TRef where
  warp : Nat
  lane : Nat
  deriving DecidableEq, Repr

/-- Arrival at a scoped instruction (R324): its order, the predicate
read then (R325), the scope, the mask of a masked form (R261) and the id of a named barrier (R339). -/
structure Arrival where
  order : Nat
  pred : Bool
  scope : Scope
  mask : Option Word
  named : Option Nat
  deriving DecidableEq, Repr

/-- One lane of a warp (R319, R346, R387). -/
structure Thread where
  /-- R28. -/
  pos : DWord
  /-- R334. -/
  sp : DWord
  /-- R234: NV, OF, UF, NX. -/
  fflags : BitVec 4
  exited : Bool
  inHandler : Bool
  /-- R346, R393. -/
  tcause : DWord
  tpos : DWord
  tval : DWord
  tscr : DWord
  /-- R30: the clock of the thread's previous issue, and whether the next distance counts as met from it on (R28). -/
  lastIssue : Nat
  distMet : Bool
  /-- R321: the incomplete class Q instruction that holds the thread, by its number in `State.waits`. -/
  wait : Option Nat
  /-- R324. -/
  arrival : Option Arrival
  /-- R387: remaining timeout of an abandoned WAITCMP. -/
  waitRem : DWord
  /-- R28, R183: the thread's last issue found its instruction not ready. -/
  unready : Bool
  /-- R394: a fatal fault of this thread is on its way to FE. -/
  dead : Bool
  /-- R9: it has taken a fault, and instructions that it issued before may not have completed. -/
  entering : Bool
  /-- R29, R337: the picker prefers other groups over its next issue. -/
  yielded : Bool
  /-- R323: lane-scope issues of its partition since it has been ready. -/
  passed : Nat
  deriving DecidableEq, Repr

/-- A destination of a fixed-latency write (R33). -/
inductive RegKey where
  | vec (reg lane : Nat)
  | uni (n : Nat)
  | pred (lane q : Nat)
  deriving DecidableEq, Repr

/-- A fixed-latency write that has not landed (R33). -/
structure PendWrite where
  land : Nat
  key : RegKey
  value : DWord
  deriving DecidableEq, Repr

/-- A fault deferred to the instruction that waits on a flag (R174, R283), with the lanes that have raised it (R395) and
the set's members where it is set-wide (R330). -/
structure Deferred where
  flag : Nat
  report : Report
  taken : List Nat
  members : List Nat
  deriving DecidableEq, Repr

/-- A store or invocation of a warp whose GWCT has not returned (R311, R312): its number, its lane, the place of its bytes
and the scope it counts at. -/
structure PendStore where
  id : Nat
  lane : Nat
  host : Bool
  pa : Nat
  bytes : Nat
  scope : MemScope
  /-- R81: the generation it was issued under. -/
  gen : Nat
  /-- An invocation, which no load of another thread waits for; and whether the home has applied the store. -/
  inv : Bool
  applied : Bool
  deriving DecidableEq, Repr

/-- A task record being run (R369, R371): its 64 bytes. -/
structure TaskRec where
  bytes : List Byte
  deque : Nat
  deriving DecidableEq, Repr

structure Warp where
  grid : Nat
  block : Nat
  /-- R332: %warp and %role. -/
  index : Nat
  role : Word
  asid : Nat
  /-- Where the warp issues: package core, partition, and slot 0-11 or 12 for the cairn slot (R17, R322). -/
  core : Nat
  part : Nat
  slot : Nat
  /-- R399: the origin core, partition and slot of a migrated warp. -/
  origin : Option (Nat × Nat × Nat)
  /-- Registers held (R205). -/
  alloc : Nat
  /-- Vector registers, at 32 * register + lane (R200). -/
  regs : SMap Word
  /-- Lanes of registers that are empty, at 32 * register + lane (R34). -/
  empty : SMap Bool
  /-- w0-w31 (R202). -/
  uregs : SMap DWord
  /-- q0-q6, at 8 * lane + q. -/
  preds : SMap Bool
  /-- Fixed-latency writes in landing order (R33). -/
  pend : List PendWrite
  /-- cf0-cf11 (R31), and the operations outstanding under each. -/
  cf : BitVec 12
  tokens : SMap Nat
  /-- R174, R292: GWCTs posted under a flag that has not set. -/
  tokGw : SMap DWord
  deferred : List Deferred
  /-- R340. -/
  setReg : DWord
  /-- R343. -/
  idem : Bool
  idemPos : DWord
  icount : DWord
  /-- R311. -/
  gwBlk : DWord
  gwDev : DWord
  gwSys : DWord
  obs : DWord
  stores : List PendStore
  /-- R210, R34: V-class results on their way, at 32 * register + lane, and those of invocations without a return. -/
  inFlight : Nat
  /-- R322. -/
  lp : Nat
  /-- R388. -/
  winMap : BitVec 320
  /-- R332, R365: %coord, and the number of the coordinate held. -/
  coord : Word × Word × Word
  heldCoord : Option Nat
  task : Option TaskRec
  /-- R330: threads whose return ends the suspension; none when the warp is not suspended. -/
  suspended : Option (List TRef)
  /-- R327. -/
  freed : Bool
  threads : List Thread
  deriving DecidableEq, Repr

/-! ## Waiting instructions (R32) -/

/-- What a class Q instruction in progress waits for. -/
inductive WaitKind where
  /-- WAITCMP (R148, R153): the key, whether it is polled, the deadline in common time, the destination predicate and
  the time of the next poll. -/
  | cmp (key : MonKey) (polled : Bool) (deadline : Option Nat) (dst : Nat) (nextPoll : Nat)
  /-- MONCAN (R154): the acknowledgements still to come. -/
  | moncan (left : Nat)
  /-- FENCE (R315): its kind and scope K; its part: 0 the release, 1 while it waits for its position in S, 2 the acquire; and the
  common time t that the release waits for, once every write has returned. -/
  | fence (k part : Nat) (t : Option Nat)
  /-- REGCLAIM (R205): the register count. -/
  | regclaim (n : Nat)
  /-- SETDECL (R341): the list. -/
  | setdecl (list : DWord)
  /-- SETFREE (R341). -/
  | setfree
  /-- FETCHT.task (R367): the destination register. -/
  | fetchTask (dst : Nat)
  /-- RTINST or RTREM (R145): the request, and the destination register or predicate. -/
  | routineReq (req : Nat) (dst : Dst)
  /-- LATOM or LATOMS of a user routine (R143), and invocations in deterministic mode. -/
  | invocation (id : Nat)
  /-- MIGRATE (R398): the predicate, the address, the die, and the deadline of a cairn request. -/
  | migrate (dst : Nat) (va : DWord) (die : Nat) (deadline : Option Nat)
  /-- A V-class result into a uniform register (R32). -/
  | uniform (id : Nat)
  /-- A stamped request not yet released (R375, R424); for a WAITCMP between evaluations its key and destination. -/
  | stamped (watch : Option (MonKey × Nat))
  deriving DecidableEq, Repr

/-- A class Q instruction in progress: its warp, the threads it holds (in this warp or the whole instance), its position
and the position after it. -/
structure WaitRec where
  kind : WaitKind
  warp : Nat
  members : List TRef
  pos : DWord
  next : DWord
  order : Nat
  deriving DecidableEq, Repr

/-! ## Blocks and grids (13, 14) -/

/-- A scratchpad write that an engine may meet (R177, R284, R285): its place and bytes, its number, the warps that issued it and
their core; the token that none of them has waited on; whether a release and which acquires have followed it; and the warps whose
OPFENCE has covered it. -/
structure Race where
  place : Nat
  ofs : Nat
  bytes : Nat
  id : Nat
  warps : List Nat
  core : Nat
  token : Option Nat
  released : Bool
  acquired : List Nat
  fenced : List Nat
  deriving DecidableEq, Repr

/-- A placed block (R319): what it holds while it is resident. -/
structure Block where
  grid : Nat
  /-- R332: %block. -/
  index : Nat
  die : Nat
  /-- Package cores by place index (R365), and warps per core. -/
  places : List Nat
  wpc : Nat
  warps : List Nat
  /-- R196: the base of the block's allocation on each of its cores, and its bytes. -/
  scratchBase : List Nat
  scratch : Nat
  /-- R196: scratchpad bytes, at place * 2^21 + offset. -/
  bytes : SMap Byte
  /-- R198: touched lines, at place * 2^14 + line. -/
  touched : SMap Bool
  /-- R221: differences from 0x0000_7B34. -/
  fmts : SMap Word
  /-- R205: granules, at place * 8 + partition. -/
  pools : SMap Nat
  /-- R344. -/
  prog : Nat
  /-- R365: the number of the coordinate the block holds. -/
  heldCoord : Option Nat
  /-- R339: arrivals at named barriers: id, warp. -/
  arrivals : List (Nat × Nat)
  /-- R377 to R379: run clocks, decision mark, drain deadline; R378: yielded. -/
  run : Nat
  placedAt : Nat
  mark : Option Nat
  drain : Option Nat
  yielded : Bool
  /-- R380, R381: its warps are stopping: 0 for a flush, 1 for a save, 2 for a yield. -/
  stopping : Option Nat
  /-- R157: since when every thread has waited; R150. -/
  idleSince : Option Nat
  /-- R178: the 16-byte units, at place * 2^21 + offset, that QCWSET has set and only ring operations have changed since. -/
  qcws : SMap Bool
  /-- R284, R285: scratchpad writes, the latest of each range. -/
  races : List Race
  deriving DecidableEq, Repr

/-- A kernel descriptor with its placed addresses (R67, R66). -/
structure Kernel where
  entry : DWord
  traph : Option DWord
  regs : Nat
  roles : List (Nat × Nat × Word)
  scratch : Nat
  stack : Nat
  flush : Bool
  constBase : DWord
  constSize : Nat
  liveness : List (DWord × Word × BitVec 8 × BitVec 320)
  idems : List (DWord × DWord)
  deriving DecidableEq, Repr

/-- State of a grid (R363 to R368). -/
inductive GridState where
  | waitingLeases | waitingPlacement | running | ending
  deriving DecidableEq, Repr

/-- A lend of a task (R370): the victim's core and which of its deques, the thief's core and waiting FETCHT, the expiry, and
the copy of the record. -/
structure Lend where
  victim : Nat
  data : Bool
  thief : Nat
  grid : Nat
  wait : Nat
  expiry : Nat
  record : List Byte
  deriving DecidableEq, Repr

/-- A grid (R357, R368). -/
structure Grid where
  asid : Nat
  queue : Nat
  seq : Nat
  kernel : Kernel
  /-- R357: the packet's fields. -/
  packet : List Byte
  state : GridState
  blocks : Nat
  wpb : Nat
  cpb : Nat
  /-- Blocks to be placed, in order, and the number of those that have exited. -/
  toPlace : List Nat
  doneBlocks : Nat
  prio : Nat
  det : Bool
  /-- R365: the dispenser: the next coordinate, those handed back, those held. -/
  nextCoord : Nat
  handedBack : List Nat
  held : List Nat
  /-- R369 to R371. -/
  tasksPushed : Nat
  tasksRunning : Nat
  /-- R368, R194: XREADs outstanding. -/
  xreads : Nat
  fault : Option (Report × DWord)
  /-- R86: leases held: address and length of each range, and the stack range (R334). -/
  leases : List (DWord × Nat)
  stkva : DWord
  /-- R377: when its LAUNCH was accepted; R363: when its leases were taken. -/
  accepted : Nat
  waitingSince : Nat
  /-- R378: the cores kept for the blocks it waits to place, block by block. -/
  reserve : List (List Nat)
  /-- R309: the latest GWCT and observation bound of the warps whose blocks have gone. -/
  gw : DWord
  deriving DecidableEq, Repr

/-! ## Cores (01 R15, 04 R77, 07, 11) -/

/-- A TLB entry (R77). -/
structure TlbEntry where
  asid : Nat
  vpage : Nat
  log2 : Nat
  gen : Nat
  tgt : Nat
  pa : Nat
  r : Bool
  w : Bool
  x : Bool
  deriving DecidableEq, Repr

/-- An L1 line: address space, generation, target space and line number of its key, and its bytes (R210). -/
structure L1Line where
  asid : Nat
  gen : Nat
  host : Bool
  line : Nat
  data : LineData
  deriving DecidableEq, Repr

/-- A copy-engine or ring operation (R170, R175, R179, R180), with its operands as read at issue. -/
structure CopyOp where
  id : Nat
  warp : Nat
  block : Nat
  asid : Nat
  gen : Nat
  /-- The token 0-7; none for RPUSH and QCWSET. -/
  token : Option Nat
  pos : DWord
  /-- XCOPY 0, XGATHER 1, XSCAT 2, XFILL 3, RPUSH 4, QCWSET 5. -/
  kind : Nat
  /-- SUB[0], and the image layout: .planes and .ring. -/
  store : Bool
  planes : Bool
  ring : Bool
  ty : Ty
  rnd : Rnd
  sat : Bool
  fmt : Nat
  /-- R295: fmt0-fmt7 at issue. -/
  fmts : List Word
  /-- R159: the resolved catalogue entry; empty where none is named. -/
  entry : List Byte
  /-- R167, R172: origins and extents of the tile, and the participating lanes' O1. -/
  origin : List Int
  shape : List Nat
  lanes : List Int
  /-- R173: the fill value; R179: QCWSET's operand. -/
  value : DWord
  /-- Place index and offset of the image, or of the queue control word. -/
  place : Nat
  ofs : Nat
  /-- R180: the slot reserved. -/
  slot : Option Nat
  started : Bool
  /-- A ring operation whose slot is complete (R180). -/
  done : Bool
  /-- R391: operand values as read at issue. -/
  opnd : List DWord
  /-- Writes whose GWCT is not yet known, and the largest GWCT (R174). -/
  outstanding : Nat
  gwct : DWord
  fault : Option Report
  deriving DecidableEq, Repr

/-- A matrix operation in the array or the drain queue (R271, R272), with its operands as read at issue. -/
structure MatrixOp where
  id : Nat
  members : List Nat
  block : Nat
  asid : Nat
  gen : Nat
  /-- The flag cf8-cf11. -/
  token : Nat
  pos : DWord
  /-- MMA 0, MMAS 1, ACCZ 2, ACCLD 3, ACCST 4. -/
  kind : Nat
  mem : Bool
  add : Bool
  planes : Bool
  /-- SUB[5] of MMA: the 4-bit container. -/
  c4 : Bool
  ty : Ty
  fmt : Nat
  fmts : List Word
  rnd : Rnd
  sat : Bool
  tile : Nat
  /-- SA or VA of A or of the rows; SA of the metadata; SA of B; the stride; the steps. -/
  a : DWord
  sm : Nat
  b : Nat
  stride : Nat
  kDone : Nat
  kTot : Nat
  started : Bool
  /-- R391: operand values as read at issue. -/
  opnd : List DWord
  /-- Lines of an adding drain still to update (R291). -/
  linesLeft : List Nat
  outstanding : Nat
  gwct : DWord
  fault : Option Report
  /-- R285: its operands were not in place when it issued: what it accumulates is unpredictable. -/
  raced : Bool
  deriving DecidableEq, Repr

/-- A catalogue entry that a copy engine holds (R160). -/
structure CatEntry where
  asid : Nat
  gen : Nat
  slot : Nat
  bytes : List Byte
  deriving DecidableEq, Repr

/-- The status word of an accumulator tile but for BUSY, which the operations in the queues give (R270). -/
structure TileStatus where
  flt : Bool
  flags : BitVec 4
  kTot : Nat
  kDone : Nat
  deriving DecidableEq, Repr

/-- A buffer table entry (R184). -/
structure Buffer where
  /-- 0 FREE, 1 HELD, 2 OFFERED. -/
  state : Nat
  block : Nat
  warp : Nat
  gen : BitVec 23
  offset : Nat
  length : Nat
  deriving DecidableEq, Repr

structure Core where
  tlb : List TlbEntry
  l1 : List L1Line
  /-- R322: rotation pointers by partition. -/
  rp : SMap Nat
  /-- R15, R322: by partition, one more than the clock of its latest issue. -/
  issued : SMap Nat
  /-- R269: the block that holds the accumulator file. -/
  accClaim : Option Nat
  /-- R269: elements of acc0-acc7, at tile * 2^14 + row * 2^7 + column. -/
  acc : SMap Word
  tiles : Tab TileStatus
  /-- R270: tiles written since the claim. -/
  written : SMap Bool
  arrayQ : List MatrixOp
  drainQ : List MatrixOp
  copies : List CopyOp
  /-- R160. -/
  catalogue : List CatEntry
  buffers : Tab Buffer
  deriving DecidableEq, Repr

/-! ## Memory system (04, 05, 06) -/

/-- A frame table entry (R79). -/
structure Frame where
  mgen : Nat
  owner : Nat
  state : Nat
  accessed : Bool
  pin : Bool
  large : Bool
  noComp : Bool
  lease : Nat
  mlen : Nat
  mgran : Nat
  sfn : Nat
  /-- Firmware's record of the page the frame holds (R88, R96). -/
  va : Nat
  deriving DecidableEq, Repr

/-- An address-space descriptor (R73), with the generation that agents hold (R72, R81). -/
structure Asid where
  root : Nat
  gen : Nat
  /-- 0 free, 1 live, 2 destroying, 3 retired. -/
  st : Nat
  cold : Nat
  rtab : DWord
  tcat : DWord
  tcatn : Nat
  eptab : DWord
  eptn : Nat
  hbase : DWord
  vbase : DWord
  vlen : DWord
  deriving DecidableEq, Repr

/-- A generation bump not yet acknowledged by every agent (R81): the receivers that have not installed the generation, those
that have not acknowledged it, the frames to release after it, and the requests that complete with it. -/
structure Bump where
  asid : Nat
  gen : Nat
  installs : List Nat
  waiting : List Nat
  frames : List Nat
  reqs : List Nat
  deriving DecidableEq, Repr

/-- An accepted memory request or device move that has not completed (R83, R96, R97): its request code, the pages a move
claims, whether it has lost a race, whether it waits for its bump, whether the device made it, and the status of an
earlier move in the same direction that it shares. -/
structure MemOp where
  req : MemRequest
  /-- R83: where its record stands: in host memory or not, and the address. -/
  record : Option (Bool × Nat)
  op : Nat
  pages : List Nat
  retry : Bool
  waitsBump : Bool
  fromDevice : Bool
  twin : Option Nat
  /-- R96: the pages on their way out. -/
  outs : List Nat
  deriving DecidableEq, Repr

/-- Home state of a line (R101). -/
inductive HomeState where
  | clean | dirty | owned
  deriving DecidableEq, Repr

/-- A home line (R101, R121). -/
structure HomeLine where
  state : HomeState
  data : LineData
  /-- R104: the latest expiry granted. -/
  emax : Nat
  hold : BitVec 8
  /-- Expiries of the leases granted, by die. -/
  grants : Tab Nat
  cpend : Bool
  waiters : List (Waiter × Nat)
  /-- R124: the invocation that holds the line until it has run. -/
  heldFor : Option Nat
  /-- R102, R120: the die the line is lent to, with its copy's bytes and dirty bit, and the predictor. -/
  ownerDie : Option Nat
  ownerData : LineData
  ownerDirty : Bool
  mode : Nat
  run : Nat
  rdie : Nat
  tpp : Option Nat
  deriving DecidableEq, Repr

/-- A rime copy (R103, R104). -/
structure RimeCopy where
  die : Nat
  line : Nat
  data : LineData
  expiry : Nat
  deriving DecidableEq, Repr

/-- A keeper's entry (R110). -/
structure Keeper where
  die : Nat
  asid : Nat
  region : Nat
  deg : Nat
  pin : Bool
  rr : Nat
  wr : Nat
  coll : Nat
  last : Nat
  deriving DecidableEq, Repr

/-- A degree entry of a slice's cache (R110); none while the keeper has not answered. -/
structure DegreeEntry where
  slice : Nat
  asid : Nat
  region : Nat
  deg : Option Nat
  deriving DecidableEq, Repr

/-- What an update of FE's makes of the bytes that it finds (R358, R362, R371). -/
inductive FeFun where
  /-- A value in their place. -/
  | put (v : Nat)
  /-- R362: a completion signal decremented by a value, with ERR where a grid ended by a fault. -/
  | signal (v : Nat) (err : Bool)
  /-- R371: a successor counter decremented. -/
  | dec
  deriving DecidableEq, Repr

/-- An update of FE's that has not been made (R433, R80): one that waits for its line, or the write that follows an uncached
read of host memory. -/
inductive Owed where
  | update (asid gen : Nat) (va : DWord) (bytes : Nat) (f : FeFun) (waiter : Waiter)
  | hostWrite (cells : List Host.Cell) (waiter : Waiter)
  | interrupt (vector gwct : Nat)
  deriving DecidableEq, Repr

/-- A routine cache entry of a slice (R138). -/
structure RtEntry where
  slice : Nat
  asid : Nat
  gen : Nat
  rid : Nat
  version : Nat
  image : List Byte
  deriving DecidableEq, Repr

/-- An RTINST or RTREM request (R139). -/
structure RtReq where
  id : Nat
  seq : Nat
  install : Bool
  asid : Nat
  gen : Nat
  rid : Nat
  image : DWord
  wait : Nat
  deriving DecidableEq, Repr

/-- A monitor entry (R146): agents are package cores, 144 for FE. -/
structure Monitor where
  slice : Nat
  key : MonKey
  agents : List Nat
  /-- The waits that it counts, by their number in `State.waits` or in a saved block; none for a watch of FE's own (R355). -/
  waiters : List (Option Nat)
  deriving DecidableEq, Repr

/-- Counters of a die in R113's and R156's order. -/
structure DieCounters where
  slice : SMap DWord
  routine : SMap DWord
  deriving DecidableEq, Repr

/-- The state of a die (R20 to R22, R115, R116). -/
structure Die where
  cnt : DWord
  ofs : DWord
  rate : Word
  gen : DWord
  skew : BitVec 8
  shadow : Option Calibration
  resetting : Bool
  lost : Bool
  counters : DieCounters
  deriving DecidableEq, Repr

/-- Registers of the memory block (R91), of the slices (R114, R157) and of the sweeper. -/
structure MemRegs where
  swEn : Bool
  swRate : Nat
  swHand : Nat
  swHigh : Nat
  swLow : Nat
  swFree : Nat
  swQ : List Nat
  sweeping : Bool
  mrBase : DWord
  mrLog2n : Nat
  mrRead : DWord
  mrTail : DWord
  frz : Bool
  nocp : Bool
  lease : Nat
  dgpin : DWord
  dgSts : Nat
  poll : Nat
  yldt : Nat
  far : Bool
  ppwin : Nat
  /-- R71: the moraine zone in 2 KiB granules. -/
  moraine : Nat
  deriving DecidableEq, Repr

/-! ## Front end (14, 15, 07) -/

/-- A packet accepted by a queue (R355, R356). -/
structure Packet where
  index : DWord
  seq : Nat
  bytes : List Byte
  accepted : Nat
  started : Bool
  done : Bool
  grid : Option Nat
  deadline : Option Nat
  deriving DecidableEq, Repr

/-- A queue error held for the event ring (R373, R374). -/
structure QueueError where
  seq : Nat
  index : DWord
  err : Nat
  detail : DWord
  deriving DecidableEq, Repr

/-- A user queue (R350 to R360, R374). -/
structure Queue where
  ring : DWord
  ctrl : DWord
  stat : DWord
  asid : Nat
  log2n : Nat
  prio : Nat
  msix : Nat
  tail : DWord
  rdidx : DWord
  /-- 0 running, 1 halted, 2 halted by an error. -/
  state : Nat
  error : Option QueueError
  held : List QueueError
  packets : List Packet
  mapped : Option Nat
  mappedAt : Nat
  pendingSince : Nat
  idleSince : Nat
  deriving DecidableEq, Repr

/-- Event ring (R352, R373). -/
structure EventRing where
  base : DWord
  host : Bool
  msix : Nat
  log2n : Nat
  ovf : DWord
  drop : DWord
  wr : DWord
  rd : DWord
  losses : List EventRec
  stale : List EventRec
  deriving DecidableEq, Repr

/-- An attached controller (R191, R192): its 64 descriptor bytes, and the submission entries written so far. -/
structure Attachment where
  desc : List Byte
  tail : Nat
  deriving DecidableEq, Repr

/-- An NVMe command of an XREAD (R190), with the time it was issued. -/
structure NvCommand where
  cid : Nat
  offset : Nat
  bytes : Nat
  start : Nat
  done : Bool
  deriving DecidableEq, Repr

/-- An external read in progress (R188 to R193): its operands, and what its engine has found and done. -/
structure Xread where
  id : Nat
  warp : Nat
  grid : Nat
  core : Nat
  asid : Nat
  gen : Nat
  ep : Nat
  len : Nat
  cw : DWord
  ofs : DWord
  dst : DWord
  /-- KIND of its endpoint once checked (1 NVMe, 2 LN2), its TARGET, and the time at which its instruction issued. -/
  kind : Nat
  target : Nat
  start : Nat
  /-- R193: STATUS, DETAIL and BYTES. -/
  status : Nat
  detail : Nat
  bytes : Nat
  cmds : List NvCommand
  outstanding : Nat
  gwct : DWord
  /-- R190: the entry of its endpoint as it was checked; none before. -/
  entry : List Byte
  deriving DecidableEq, Repr

/-- The accumulator file of a saved block's place (R390), with the image of an interrupted step where the engine froze. -/
structure SavedAcc where
  place : Nat
  acc : SMap Word
  tiles : Tab TileStatus
  written : SMap Bool
  image : Option (List Byte)
  deriving DecidableEq, Repr

/-- A block waiting for restore, with its firn record (R381 to R392). -/
structure Saved where
  grid : Nat
  block : Nat
  /-- The block and its warps as saved: number and contents. -/
  blk : Block
  warps : List (Nat × Warp)
  /-- R389, R390: buffers and accumulator contents by place. -/
  buffers : List (Nat × Nat × Buffer)
  accs : List SavedAcc
  /-- R183, R297, by place: ring pushes without a slot, and accepted matrix operations in order. -/
  copies : List (Nat × CopyOp)
  ops : List (Nat × MatrixOp)
  /-- R382: RPOP takes and LDWs that wait; STW.wait writes held. -/
  loads : List WriteBack
  /-- Window writes not yet landed; whether each is an STW.wait. -/
  held : List (WinWrite × Bool)
  /-- R385: RP of partitions 0 to 7 of a deterministic grid's core. -/
  rps : List Nat
  /-- R150: saved by a yield. -/
  byYield : Bool
  waits : List (Nat × WaitRec)
  /-- R150: waits that have completed meanwhile, with their results. -/
  woken : List (Nat × Bool)
  /-- R384, R391, R392: the record's frames and bytes in the context heap. -/
  heapBase : Nat
  bytes : Nat
  seq : Nat
  savedAt : Nat
  firn : List Byte
  deriving DecidableEq, Repr

/-- A placed code object (R358): its range, and each section's kind, address and bytes. -/
structure Module where
  asid : Nat
  base : Nat
  length : Nat
  sects : List (Nat × Nat × Nat)
  deriving DecidableEq, Repr

structure FrontEnd where
  nextSeq : Nat
  queues : Tab Queue
  kick : List Nat
  qcmdOp : Nat
  qcmdQid : Nat
  qstsCode : Nat
  qstsSt : Nat
  qdesc : SMap DWord
  ev : EventRing
  msixRaised : List Nat
  nvcmdOp : Nat
  nvcmdIdx : Nat
  nvstsCode : Nat
  nvstsSt : Nat
  nvdesc : SMap DWord
  attached : Tab Attachment
  xreads : List Xread
  lends : Tab Lend
  /-- R402: the peer window's assigned pages: page, XREAD, 4 KiB stretch of its destination. -/
  peers : List (Nat × Nat × Nat)
  saved : Tab Saved
  heap : List (Nat × Nat)
  peEn : Bool
  peResv : Nat
  peFlushLim : Nat
  peHeapSize : Nat
  peHeapUsed : Nat
  peDrain : DWord
  peFlush : DWord
  peSave : DWord
  peRest : DWord
  peMigr : DWord
  peMigF : DWord
  modules : List Module
  /-- R315: positions in S granted by each order point: 0 .dev, 1 .sys, 2 + block for .blk. -/
  scOrder : SMap Nat
  /-- R433, R80: updates of FE's that have not been made, oldest first. -/
  owed : List Owed
  deriving DecidableEq, Repr

/-! ## Links and housekeeping (16) -/

/-- A Kwaden port (R405 to R410). -/
structure Port where
  st : Nat
  replay : Nat
  keygen : Nat
  /-- R410: 0 idle, 1 rolling, 2 busy-refused. -/
  roll : Nat
  rport : Nat
  seqSend : Nat
  seqExpect : Nat
  buffer : List Flit
  /-- R406: failures in a row of the flit awaited, and replays in a row of the oldest flit sent. -/
  replays : Nat
  resent : Nat
  /-- R190: remote reads whose data this port awaits, oldest first: the XREAD and the bytes still to come (log 21). -/
  reads : List (Nat × Nat)
  sealSend : Nat
  sealRecv : Nat
  recvGen : Nat
  deriving DecidableEq, Repr

/-- A flash slot (R414). -/
structure FlashSlot where
  /-- 1 firmware image, 2 configuration record. -/
  kind : Nat
  image : Nat
  version : Nat
  payload : List Byte
  active : Bool
  staged : Bool
  deriving DecidableEq, Repr

structure Housekeeping where
  /-- R403: whether CXL.cache has been negotiated. -/
  cxl : Bool
  stage : Nat
  recov : Bool
  ready : Bool
  temp : BitVec 16
  power : BitVec 16
  mhz : Nat
  cause : BitVec 3
  lkOp : Nat
  lkPort : Nat
  atCode : Nat
  atSt : Nat
  atBuf : DWord
  flOp : Nat
  flCode : Nat
  flSt : Nat
  flLen : Nat
  flBuf : DWord
  kwexp : SMap DWord
  ports : Tab Port
  slots : List FlashSlot
  deriving DecidableEq, Repr

/-! ## Scheduling (log 1) -/

/-- Which agent moves next: the message `n` of those in flight, the picker of a core and partition, a step of the
outside world with its contents, a write by the host to its memory, or the passing of one clock (log 1). -/
inductive Choice where
  | deliver (n : Nat)
  | pick (core part : Nat)
  | act (m : Msg)
  | hostWrite (pa : Nat) (bytes : List Byte)
  | clock
  deriving DecidableEq, Repr

/-- The issue being executed (R322, R324): the position and the group; then what fetching gives: the position after it,
the header address of the next clause, and the first word. `released` marks a stamped request released (R375). -/
structure Issue where
  pos : DWord
  group : List TRef
  next : DWord
  nextClause : DWord
  word0 : Word
  yld : Bool
  released : Bool
  /-- MODEL: its number, which its messages carry (log 1). -/
  num : Nat
  deriving DecidableEq, Repr

/-! ## The machine -/

/-- The state of the package: what the spec gives it (INVENTORY.md), and beside it the model's own scheduling fields
`agenda`, `turn`, `freeCtr`, `nextId` and `Issue.num` (log 1, log 4). -/
structure State where
  /-- MODEL: which agents move next; empty for the default order (log 1). -/
  agenda : List Choice
  /-- Steps sent and not yet delivered: messages in flight. -/
  net : List Msg
  issue : Option Issue
  turn : Nat
  /-- MODEL: free values drawn so far (log 4). -/
  freeCtr : Nat
  nextId : Nat
  /-- Arithmetic clocks since reset, and the part of a tick owed, in 1 / MHZ ticks (R6, R416). -/
  clock : Nat
  tickAcc : Nat
  dies : Tab Die
  /-- Device physical space (R70) and host physical memory (R76), canonical. -/
  hbm : Memory
  hostMem : Memory
  frames : Tab Frame
  asids : Tab Asid
  bumps : List Bump
  /-- Firmware's next page-table address in its pinned frames (R75). -/
  tableNext : Nat
  mem : MemRegs
  mreqs : Tab MemOp
  lines : Tab HomeLine
  copies : List RimeCopy
  /-- R118: lines of which an uncorrectable error has been found and not yet handled. -/
  badLines : List Nat
  /-- R108: the lines that a request has reached in this clock, with its place in the order. -/
  reached : List (Nat × Nat)
  keepers : List Keeper
  degCache : List DegreeEntry
  rtCache : List RtEntry
  rtReqs : List RtReq
  /-- R138: the routine table version that every core holds, by ASID. -/
  rtVers : SMap Nat
  monitors : List Monitor
  cores : Tab Core
  warps : Tab Warp
  blocks : Tab Block
  grids : Tab Grid
  waits : Tab WaitRec
  /-- Window writes held at their target (R215), oldest first. -/
  heldWrites : List WinWrite
  fe : FrontEnd
  hk : Housekeeping
  deriving DecidableEq, Repr

/-! ## Reset -/

/-- R22: a die timer's group at reset. -/
def Die.reset : Die where
  cnt := 0
  ofs := 0
  rate := 0
  gen := 0
  skew := 8
  shadow := none
  resetting := false
  lost := false
  counters := ⟨[], []⟩

/-- R91, R114, R157: the reset column; SWFREE.FREE by log 6. -/
def MemRegs.reset : MemRegs where
  swEn := true
  swRate := 256
  swHand := 0
  swHigh := 32768
  swLow := 16384
  swFree := 11517952
  swQ := []
  sweeping := false
  mrBase := 0
  mrLog2n := 0
  mrRead := 0
  mrTail := 0
  frz := false
  nocp := false
  lease := 2000
  dgpin := 0
  dgSts := 0
  poll := 2000
  yldt := 2000
  far := false
  ppwin := 1000
  moraine := 25165824

/-- R352: the event ring at reset: disabled. -/
def EventRing.reset : EventRing where
  base := 0
  host := false
  msix := 0
  log2n := 0
  ovf := 0
  drop := 0
  wr := 0
  rd := 0
  losses := []
  stale := []

/-- R352, R361, R401: the front end at reset; PEHEAP.SIZE by log 6. -/
def FrontEnd.reset : FrontEnd where
  nextSeq := 1
  queues := []
  kick := []
  qcmdOp := 0
  qcmdQid := 0
  qstsCode := 0
  qstsSt := 0
  qdesc := []
  ev := EventRing.reset
  msixRaised := []
  nvcmdOp := 0
  nvcmdIdx := 0
  nvstsCode := 0
  nvstsSt := 0
  nvdesc := []
  attached := []
  xreads := []
  lends := []
  peers := []
  saved := []
  heap := []
  peEn := true
  peResv := 2000
  peFlushLim := 16000
  peHeapSize := 16384
  peHeapUsed := 0
  peDrain := 0
  peFlush := 0
  peSave := 0
  peRest := 0
  peMigr := 0
  peMigF := 0
  modules := []
  scOrder := []
  owed := []

/-- R410: a port at reset: down. -/
def Port.reset : Port where
  st := 0
  replay := 0
  keygen := 0
  roll := 0
  rport := 0
  seqSend := 0
  seqExpect := 0
  buffer := []
  replays := 0
  resent := 0
  reads := []
  sealSend := 0
  sealRecv := 0
  recvGen := 0

/-- R410: the housekeeping block at reset; the flash contents by log 13. -/
def Housekeeping.reset : Housekeeping where
  cxl := false
  stage := 0
  recov := false
  ready := false
  temp := 0
  power := 0
  mhz := 1050
  cause := 0
  lkOp := 0
  lkPort := 0
  atCode := 0
  atSt := 0
  atBuf := 0
  flOp := 0
  flCode := 0
  flSt := 0
  flLen := 0
  flBuf := 0
  kwexp := []
  ports := (List.range 12).map fun p => (p, Port.reset)
  slots := Config.flash.map fun e => ⟨e.1, e.2.1, e.2.2.1, e.2.2.2.1, e.2.2.2.2, false⟩

/-- The package right after power-on: every field at the reset value the spec states, else at the value INVENTORY.md
names; the bring-up of R415 is under way. -/
def State.reset : State where
  agenda := []
  net := [.coldReset]
  issue := none
  turn := 0
  freeCtr := 0
  nextId := 0
  clock := 0
  tickAcc := 0
  dies := (List.range 9).map fun d => (d, Die.reset)
  hbm := []
  hostMem := []
  frames := []
  asids := []
  bumps := []
  tableNext := 0
  mem := MemRegs.reset
  mreqs := []
  lines := []
  copies := []
  badLines := []
  reached := []
  keepers := []
  degCache := []
  rtCache := []
  rtReqs := []
  rtVers := []
  monitors := []
  cores := []
  warps := []
  blocks := []
  grids := []
  waits := []
  heldWrites := []
  fe := FrontEnd.reset
  hk := Housekeeping.reset

end Sys2Proof.Machine
end

