-- ==== Sys2Proof/Machine/Operands.lean ====
section
/-! DEFINITION. Access to threads, warps and registers: sources as an instruction reads them, destinations as it writes
them (R33, R34, R39, R41, R200 to R203, R239, R240, R332). -/

namespace Sys2Proof.Machine

/-! ## Entities -/

/-- A warp that holds nothing, read where a number names no warp. -/
def Warp.none : Warp where
  grid := 0
  block := 0
  index := 0
  role := 0
  asid := 0
  core := 0
  part := 0
  slot := 0
  origin := Option.none
  alloc := 0
  regs := []
  empty := []
  uregs := []
  preds := []
  pend := []
  cf := 0xFFF
  tokens := []
  tokGw := []
  deferred := []
  setReg := 0
  idem := false
  idemPos := 0
  icount := 0
  gwBlk := 0
  gwDev := 0
  gwSys := 0
  obs := 0
  stores := []
  inFlight := 0
  lp := 0
  winMap := 0
  coord := (0, 0, 0)
  heldCoord := Option.none
  task := Option.none
  suspended := Option.none
  freed := true
  threads := []

/-- A thread at a position with everything else as at warp creation (R200, R234, R346). -/
def Thread.start (pos sp : DWord) : Thread where
  pos := pos
  sp := sp
  fflags := 0
  exited := false
  inHandler := false
  tcause := 0
  tpos := 0
  tval := 0
  tscr := 0
  lastIssue := 0
  distMet := true
  wait := Option.none
  arrival := Option.none
  waitRem := 0
  unready := false
  dead := false
  entering := false
  yielded := false
  passed := 0

/-- Read where a lane names no thread: exited. -/
def Thread.none : Thread := { Thread.start 0 0 with exited := true }

/-- The warp of a number. -/
def State.warp (s : State) (w : Nat) : Warp := (Tab.find s.warps w).getD Warp.none

/-- The state with one warp changed. -/
def State.setWarp (s : State) (w : Nat) (f : Warp → Warp) : State := { s with warps := Tab.upd s.warps w f }

/-- The thread of a lane. -/
def Warp.thread (w : Warp) (lane : Nat) : Thread := w.threads.getD lane Thread.none

/-- The warp with one thread changed. -/
def Warp.setThread (w : Warp) (lane : Nat) (f : Thread → Thread) : Warp :=
  { w with threads := w.threads.modify lane f }

/-- The thread of a reference. -/
def State.thread (s : State) (t : TRef) : Thread := (s.warp t.warp).thread t.lane

/-- The state with one thread changed. -/
def State.setThread (s : State) (t : TRef) (f : Thread → Thread) : State :=
  s.setWarp t.warp fun w => w.setThread t.lane f

/-- A block that holds nothing. -/
def Block.none : Block where
  grid := 0
  index := 0
  die := 0
  places := []
  wpc := 1
  warps := []
  scratchBase := []
  scratch := 0
  bytes := []
  touched := []
  fmts := []
  pools := []
  prog := 0
  heldCoord := Option.none
  arrivals := []
  run := 0
  placedAt := 0
  mark := Option.none
  drain := Option.none
  yielded := false
  stopping := Option.none
  idleSince := Option.none
  qcws := []
  races := []

/-- The block of a number. -/
def State.block (s : State) (b : Nat) : Block := (Tab.find s.blocks b).getD Block.none

def State.setBlock (s : State) (b : Nat) (f : Block → Block) : State := { s with blocks := Tab.upd s.blocks b f }

/-- A kernel that holds nothing. -/
def Kernel.none : Kernel where
  entry := 0
  traph := Option.none
  regs := 8
  roles := []
  scratch := 0
  stack := 0
  flush := false
  constBase := 0
  constSize := 0
  liveness := []
  idems := []

/-- A grid that holds nothing. -/
def Grid.none : Grid where
  asid := 0
  queue := 0
  seq := 0
  kernel := Kernel.none
  packet := []
  state := .ending
  blocks := 0
  wpb := 1
  cpb := 1
  toPlace := []
  doneBlocks := 0
  prio := 0
  det := false
  nextCoord := 0
  handedBack := []
  held := []
  tasksPushed := 0
  tasksRunning := 0
  xreads := 0
  fault := Option.none
  leases := []
  stkva := 0
  accepted := 0
  waitingSince := 0
  reserve := []
  gw := 0

/-- The grid of a number. -/
def State.grid (s : State) (g : Nat) : Grid := (Tab.find s.grids g).getD Grid.none

def State.setGrid (s : State) (g : Nat) (f : Grid → Grid) : State := { s with grids := Tab.upd s.grids g f }

/-- A core at reset (R115). -/
def Core.reset : Core where
  tlb := []
  l1 := []
  rp := []
  issued := []
  accClaim := Option.none
  acc := []
  tiles := []
  written := []
  arrayQ := []
  drainQ := []
  copies := []
  catalogue := []
  buffers := []

/-- The core of a package core number. -/
def State.core (s : State) (c : Nat) : Core := (Tab.find s.cores c).getD Core.reset

def State.setCore (s : State) (c : Nat) (f : Core → Core) : State :=
  { s with cores := Tab.put s.cores c (f (s.core c)) }

/-- The die timer group of a die; FE is 8 (R21). -/
def State.die (s : State) (d : Nat) : Die := (Tab.find s.dies d).getD Die.reset

def State.setDie (s : State) (d : Nat) (f : Die → Die) : State := { s with dies := Tab.upd s.dies d f }

/-- R12: the die of a package core. -/
def dieOfCore (c : Nat) : Nat := c / Config.coresPerDie

/-- A message sent. -/
def State.send (s : State) (m : Msg) : State := { s with net := s.net ++ [m] }

/-- A message sent, unless it is already on its way. -/
def State.sendOnce (s : State) (m : Msg) : State := if s.net.contains m then s else s.send m

/-- The model's own next number. -/
def State.fresh (s : State) : State := { s with nextId := s.nextId + 1 }

/-- The next free value (log 4). -/
def State.free (s : State) : DWord × State := (Config.freeValue s.freeCtr, { s with freeCtr := s.freeCtr + 1 })

/-! ## Time (R20 to R23) -/

/-- R23: a reading of a die converted to common time. -/
def Die.common (d : Die) (t : DWord) : DWord :=
  t + d.ofs + BitVec.ofInt 64 ((t.toNat : Int) * d.rate.toInt / 2 ^ 40)

/-- R23: the smallest reading of the die whose common time is not below `t`: the smallest `x` with
x + OFS + floor(x * RATE / 2^40) at least `t`. -/
def Die.reading (d : Die) (t : DWord) : DWord :=
  let u : Int := (t.toNat : Int) - d.ofs.toInt
  let den : Int := 2 ^ 40 + d.rate.toInt
  BitVec.ofInt 64 (max 0 ((u * 2 ^ 40 + den - 1) / den))

/-- Common time now, as the die converts it (R23, R348). -/
def State.common (s : State) (die : Nat) : DWord := (s.die die).common (s.die die).cnt

/-- Common time itself: FE's counter (R21). -/
def State.now (s : State) : Nat := (s.die Config.feDie).cnt.toNat

/-! ## Reading (R33, R34, R39, R41, R332) -/

/-- The value of a vector register in a lane. -/
def Warp.vreg (w : Warp) (lane n : Nat) : Word := SMap.get 0 w.regs (32 * n + lane)

/-- R34: whether the register is empty in the lane. -/
def Warp.isEmpty (w : Warp) (lane n : Nat) : Bool := SMap.get false w.empty (32 * n + lane)

/-- A register and its successor as 64 bits, low word in the first (R239). -/
def Warp.vpair (w : Warp) (lane n : Nat) : DWord := w.vreg lane (n + 1) ++ w.vreg lane n

/-- The value of a uniform register (R202). -/
def Warp.ureg (w : Warp) (n : Nat) : DWord := SMap.get 0 w.uregs n

/-- The value of a predicate; q7 is true (R35). -/
def Warp.pred (w : Warp) (lane q : Nat) : Bool := q == 7 || SMap.get false w.preds (8 * lane + q)

/-- R340: the members of the set register, in set-register order; none without a set. -/
def setMembers (r : DWord) : List Nat :=
  (List.range (r.extractLsb' 54 3).toNat).map fun i => (r.extractLsb' (9 * i) 9).toNat

/-- R332: %wslot. -/
def Warp.wslot (w : Warp) : Nat := if w.slot = 12 then 96 + 2 * (w.part / 4) else 12 * w.part + w.slot

/-- R332, R375: the special register of a code, as the thread of a lane reads it. -/
def State.special (s : State) (t : TRef) (code : Nat) : DWord :=
  let w := s.warp t.warp
  let th := w.thread t.lane
  let b := s.block w.block
  let g := s.grid w.grid
  let ofNat (n : Nat) : DWord := BitVec.ofNat 64 n
  let members := setMembers w.setReg
  match code with
  | 0x00 => ofNat (32 * w.index + t.lane)
  | 0x01 => ofNat t.lane
  | 0x02 => ofNat w.index
  | 0x03 => ofNat w.wslot
  | 0x04 => if members.isEmpty then 0xFFFFFFFF else ofNat (members.idxOf w.index)
  | 0x05 => ofNat members.length
  | 0x06 => w.role.setWidth 64
  | 0x07 => ofNat b.index
  | 0x08 => (BitVec.ofNat 32 g.seq).setWidth 64
  | 0x09 => ofNat w.core
  | 0x0A => ofNat (dieOfCore w.core)
  | 0x0B => w.coord.1.setWidth 64
  | 0x0C => w.coord.2.1.setWidth 64
  | 0x0D => w.coord.2.2.setWidth 64
  | 0x0E => ofNat b.prog
  | 0x0F => if g.det then 4 * w.icount else s.common (dieOfCore w.core)
  | 0x10 => w.icount
  | 0x11 => th.sp
  | _ => th.fflags.setWidth 64

/-- A source as an operand of `w` bits reads it (R39, R42, R239): 64 bits, zero-extended from 32 where the operand is
narrower than 64. -/
def State.readSrc (s : State) (t : TRef) (w : Nat) (src : Src) : DWord :=
  let wp := s.warp t.warp
  match src with
  | .vec n _ => if w = 64 then wp.vpair t.lane n.toNat else (wp.vreg t.lane n.toNat).setWidth 64
  | .uni n =>
    let v := wp.ureg (n.toNat % 32)
    if w = 64 then v
    else if n.toNat < 32 then (v.extractLsb' 0 32).setWidth 64 else (v.extractLsb' 32 32).setWidth 64
  | .special c => if w = 64 then s.special t c.toNat else ((s.special t c.toNat).setWidth 32).setWidth 64
  | .imm v => if w = 64 then v.signExtend 64 else (v.signExtend 32).setWidth 64
  | .lit v => if w = 64 then v else (v.setWidth 32).setWidth 64

/-- The three sources of an instruction. -/
structure Operands where
  a : DWord
  b : DWord
  c : DWord
  deriving DecidableEq, Repr

/-- The sources of a form as a thread reads them. -/
def State.operands (s : State) (t : TRef) (f : Form) : Operands :=
  let r := opRule f.opc f.g f.x
  let rd (u : SUse) (src : Src) : DWord := if u.w = 0 then 0 else s.readSrc t u.w src
  ⟨rd r.a f.x.a, rd r.b f.x.b, rd r.c f.x.c⟩

/-- The predicate of a guard in a thread: at a scoped instruction the one read at arrival (R325). -/
def State.guardHolds (s : State) (t : TRef) (g : Guard) : Bool :=
  match (s.thread t).arrival, g.scope with
  | _, .lane => (s.warp t.warp).pred t.lane g.pred.toNat != g.pneg
  | some a, _ => a.pred
  | Option.none, _ => (s.warp t.warp).pred t.lane g.pred.toNat != g.pneg

/-! ## Writing (R33, R34, R240) -/

/-- The warp with a fixed-latency write added in landing order (R33). -/
def Warp.addPend (w : Warp) (p : PendWrite) : Warp :=
  let rec go : List PendWrite → List PendWrite
    | [] => [p]
    | q :: rest => if p.land < q.land then p :: q :: rest else q :: go rest
  { w with pend := go w.pend }

/-- A value put into a register (R33). -/
def Warp.setReg' (w : Warp) (k : RegKey) (v : DWord) : Warp :=
  match k with
  | .vec r l => { w with regs := SMap.set 0 w.regs (32 * r + l) (v.setWidth 32) }
  | .uni n => { w with uregs := SMap.set 0 w.uregs n v }
  | .pred l q => { w with preds := SMap.set false w.preds (8 * l + q) (v != 0) }

/-- R33: the writes whose clock has come land, in landing order. -/
def Warp.land (w : Warp) (clock : Nat) : Warp :=
  let w' := (w.pend.filter fun p => decide (p.land ≤ clock)).foldl (fun w p => w.setReg' p.key p.value) w
  { w' with pend := w.pend.filter fun p => decide (clock < p.land) }

/-- The writes of one result (R240): `regs` registers from a vector destination, a uniform register, or a predicate. -/
def dstWrites (d : Dst) (lane regs : Nat) (v : DWord) : List (RegKey × DWord) :=
  match d with
  | .vec n =>
    if regs = 2 then
      [(.vec n.toNat lane, (v.setWidth 32).setWidth 64), (.vec (n.toNat + 1) lane, (v.extractLsb' 32 32).setWidth 64)]
    else [(.vec n.toNat lane, (v.setWidth 32).setWidth 64)]
  | .uni n => [(.uni (n.toNat % 32), v)]
  | .pred n => [(.pred lane n.toNat, if v = 0 then 0 else 1)]

/-- A result written at a fixed latency (R33). -/
def State.writeFixed (s : State) (warp lat : Nat) (ws : List (RegKey × DWord)) : State :=
  s.setWarp warp fun w => ws.foldl (fun w k => w.addPend ⟨s.clock + lat, k.1, k.2⟩) w

/-- A value put into a register at once; a fixed-latency write still to land lands at its own clock (R33). -/
def Warp.putNow (w : Warp) (k : RegKey) (v : DWord) : Warp := w.setReg' k v

/-- A result visible at once (class Q, R32, and write-backs). -/
def State.writeNow (s : State) (warp : Nat) (ws : List (RegKey × DWord)) : State :=
  s.setWarp warp fun w => ws.foldl (fun w k => w.putNow k.1 k.2) w

/-- Whether a pending store or invocation shares a byte with `n` bytes at a place. -/
def PendStore.meets (p : PendStore) (host : Bool) (pa n : Nat) : Bool :=
  p.host == host && decide (p.pa < pa + n) && decide (pa < p.pa + p.bytes)

/-- The clock at which the last fixed-latency write that a lane reads has landed (R28, R61). -/
def Warp.lastLand (w : Warp) (lane : Nat) : Nat :=
  w.pend.foldl (fun m p => match p.key with
    | .vec _ l => if l = lane then max m p.land else m
    | .pred l _ => if l = lane then max m p.land else m
    | .uni _ => max m p.land) 0

/-- R34: registers of a lane marked empty or full. -/
def Warp.markEmpty (w : Warp) (lane reg count : Nat) (e : Bool) : Warp :=
  (List.range count).foldl (fun w i => { w with empty := SMap.set false w.empty (32 * (reg + i) + lane) e }) w

/-- R235: flags set in a thread's %fflags. -/
def State.setFlags (s : State) (t : TRef) (fl : FFlags) : State :=
  if fl = 0 then s else s.setThread t fun th => { th with fflags := th.fflags ||| fl }

end Sys2Proof.Machine
end

