-- ==== Sys2Proof/Machine/Ops.lean ====
section
/-! DEFINITION. The shared operations of issue: taking a fault and returning from one (R395, R330, R336), the checks
before an effect (R34, R48, R326), and the issue of an instruction at lane scope, for each member or once
(R321 to R331), with class Q waits (R32) and stamped requests (R375). -/

namespace Sys2Proof.Machine

/-- R311: two common times joined: the later. -/
def later (a : DWord) (t : Nat) : DWord := if a.toNat < t then BitVec.ofNat 64 t else a

/-! ## Faults (15, R393 to R396) -/

/-- R394: the class codes. -/
def clsIllegal : Nat := 1
def clsBranch : Nat := 2
def clsEmpty : Nat := 3
def clsMisaligned : Nat := 4
def clsLease : Nat := 5
def clsStaleGen : Nat := 6
def clsHandle : Nat := 7
def clsOwnership : Nat := 8
def clsWindow : Nat := 9
def clsRoutine : Nat := 10
def clsScope : Nat := 11
def clsMember : Nat := 12
def clsFormat : Nat := 13
def clsTrap : Nat := 14
def clsBrk : Nat := 15

/-- A report of a class, a cause and TVAL. -/
def report (cls cause : Nat) (tval : DWord) : Report := ⟨cls, cause, 0, 0, 0, false, tval⟩

/-- R394: classes that end the grid. -/
def reportFatal (r : Report) : Bool := r.cls == 5 || r.cls == 6 || r.cls == 11 || r.cls == 12

/-- R393: TCAUSE of a report. -/
def reportTcause (r : Report) : DWord :=
  BitVec.ofNat 64 (r.cls % 256 + 2 ^ 8 * (r.cause % 256) + 2 ^ 16 * (r.aux0 % 256) + 2 ^ 24 * (r.aux1 % 256)
    + 2 ^ 32 * (r.step % 8192) + (if r.deferred then 2 ^ 45 else 0))

/-- R396: a fault that ends the grid: the warp that raises it issues nothing more, so that no lane of the failing
instruction acts later, and the report goes to FE, which stops the rest of the grid. -/
def State.fatal (s : State) (warp : Nat) (r : Report) (pos : DWord) : State :=
  (s.setWarp warp fun w => { w with threads := w.threads.map fun th => { th with dead := true } }).send
    (.fatalFault (s.warp warp).grid r pos)

/-- R394, R395, R396: a thread takes a fault. A class with a handler enters it, and issues there once
what the thread has issued has landed and completed (R9, R28, R61); otherwise the report goes to FE. -/
def State.raise (s : State) (t : TRef) (r : Report) : State :=
  let th := s.thread t
  let w := s.warp t.warp
  let filled (th : Thread) : Thread :=
    { th with tcause := reportTcause r, tpos := th.pos, tval := r.tval, arrival := none, wait := none, unready := false }
  match (s.grid w.grid).kernel.traph with
  | some h =>
    if reportFatal r || th.inHandler then
      (s.setThread t filled).fatal t.warp r th.pos
    else
      s.setThread t fun th =>
        { filled th with
          inHandler := true, pos := h, distMet := true, entering := true
          lastIssue := max (th.lastIssue + 1) (max s.clock (w.lastLand t.lane)) }
  | none => (s.setThread t filled).fatal t.warp r th.pos

/-- The warps of a block by their index. -/
def State.warpOfIndex (s : State) (block index : Nat) : Option Nat :=
  (s.block block).warps.find? fun w => (s.warp w).index == index

/-- The member warps of a warp's set (R326), or the warp alone. -/
def State.setOf (s : State) (w : Nat) : List Nat :=
  match setMembers (s.warp w).setReg with
  | [] => [w]
  | ms => ms.filterMap fun i => s.warpOfIndex (s.warp w).block i

/-- R330: every member warp of a set is suspended until the threads that took the fault return or exit. -/
def State.suspend (s : State) (members : List Nat) (ts : List TRef) : State :=
  members.foldl (fun s m => s.setWarp m fun w =>
    { w with suspended := some ((w.suspended.getD []) ++ ts) }) s

/-- R330: a thread has returned from its handler or exited. -/
def State.unsuspend (s : State) (t : TRef) : State :=
  { s with warps := s.warps.map fun (k, w) =>
      match w.suspended with
      | some ts =>
        let ts' := ts.filter (· ≠ t)
        (k, { w with suspended := if ts'.isEmpty then none else some ts' })
      | none => (k, w) }

/-- A fault raised in several threads; at set scope the set is suspended (R330). -/
def State.raiseAll (s : State) (ts : List TRef) (r : Report) (setWide : Bool) : State :=
  let s' := ts.foldl (fun s t => s.raise t r) s
  if setWide && !reportFatal r then
    match ts with
    | [] => s'
    | t :: _ => if (setMembers (s.warp t.warp).setReg).isEmpty then s' else s'.suspend (s.setOf t.warp) ts
  else s'

/-- R336: TRAPRET: the position it resumes at. -/
def State.trapReturn (s : State) (t : TRef) (pos : DWord) : State :=
  (s.setThread t fun th => { th with inHandler := false, pos := pos, distMet := true, arrival := none,
                                     lastIssue := s.clock + 1 }).unsuspend t

/-! ## Moving on -/

/-- The issue in progress; with none, an empty group. -/
def State.cur (s : State) : Issue := s.issue.getD ⟨0, [], 0, 0, 0, false, false, 0⟩

/-- A thread after it has issued an instruction (R28, R29, R30). -/
def Thread.issued (th : Thread) (clock : Nat) (yld : Bool) : Thread :=
  { th with
    lastIssue := clock, distMet := false, arrival := Option.none, unready := false, entering := false
    yielded := yld || th.yielded, passed := 0 }

/-- The thread moves to a position after its issue (R28, R30). -/
def State.moveTo (s : State) (t : TRef) (pos : DWord) : State :=
  s.setThread t fun th => { th.issued s.clock s.cur.yld with pos := pos, wait := none }

/-- R64, R343: the opcodes that clear the idempotent bit. -/
def clearsIdem (opc : Nat) : Bool := [0x60, 0x61, 0x62, 0x63, 0x6B, 0x79, 0x78, 0x6D, 0x6E, 0x6F, 0x56, 0x7A, 0x7D, 0x0D].contains opc

/-- The end of an issue: %icount of every warp that took part (R332, log 10), the idempotent bit (R343), and no issue in
progress. -/
def State.finish (s : State) (opc : Nat) (took : List TRef) : State :=
  let ws := (took.map TRef.warp).dedup
  let s' := ws.foldl (fun s w => s.setWarp w fun wp =>
    { wp with
      icount := wp.icount + 1
      idem := wp.idem && !clearsIdem opc }) s
  { s' with issue := none }

/-- The threads of a class Q instruction put to wait (R32): they issue nothing until it completes. -/
def State.park (s : State) (kind : WaitKind) (warp : Nat) (members : List TRef) : State :=
  let id := s.nextId
  let rec_ : WaitRec := ⟨kind, warp, members, s.cur.pos, s.cur.next, id⟩
  let s' := { s.fresh with waits := Tab.put s.waits id rec_ }
  members.foldl (fun s t => s.setThread t fun th => { th.issued s.clock s.cur.yld with wait := some id }) s'

/-- A waiting instruction taken from the table, its threads free again at their position. -/
def State.unpark (s : State) (id : Nat) : State :=
  match Tab.find s.waits id with
  | none => s
  | some r =>
    r.members.foldl (fun s t => s.setThread t fun th => if th.wait = some id then { th with wait := none } else th)
      { s with waits := Tab.del s.waits id }

/-- The completion of a class Q instruction: every thread it still holds moves to the position after it. -/
def State.completeWait (s : State) (id : Nat) : State :=
  match Tab.find s.waits id with
  | none => s
  | some r =>
    r.members.foldl (fun s t => s.setThread t fun th =>
        if th.wait = some id then { th with wait := none, pos := r.next, distMet := false, waitRem := 0 } else th)
      { s with waits := Tab.del s.waits id }

/-! ## Scratchpad writes that engines may meet (R284, R285) -/

/-- The scratchpad writes of a block changed. -/
def State.mapRaces (s : State) (block : Nat) (f : Race → Race) : State :=
  s.setBlock block fun b => { b with races := b.races.map f }

/-- The blocks of some warps. -/
def State.blocksOf (s : State) (ws : List Nat) : List Nat := (ws.map fun w => (s.warp w).block).dedup

/-- R177, R285: warps have waited on the flags of a mask: the writes under them are no longer the engines'. -/
def State.waited (s : State) (ws : List Nat) (mask : Nat) : State :=
  if mask = 0 then s
  else (s.blocksOf ws).foldl (fun s b => s.mapRaces b fun r => match r.token with
    | some k => if mask.testBit k && r.warps.any ws.contains then { r with token := none } else r
    | none => r) s

/-! ## Effects -/

/-- What an instruction does in a thread, or once for its members: it completes; it completes at another position; it
has issued and holds its threads (a record in `waits`); it is not ready, and has begun nothing or has had a line asked for that
it waits for; it raises a fault. -/
inductive Eff where
  | done (s : State)
  | jump (s : State) (pos : DWord)
  | held (s : State)
  | stay (s : State)
  | retry
  | wait (s : State)
  | fault (r : Report)

/-- R48: the encoding checks in a warp. -/
def State.legal (s : State) (t : TRef) (f : Form) : Bool := f.ok && f.fits (s.warp t.warp).alloc

/-- R34, R38: the operand of an empty-register trap, if any: an empty source whose trap bit is set. -/
def State.emptyTrap (s : State) (t : TRef) (f : Form) : Option (Nat × Nat) :=
  let w := s.warp t.warp
  (f.reads.filter RegUse.trap).findSome? fun u =>
    ((List.range u.count).find? fun i => w.isEmpty t.lane (u.reg + i)).map fun i => (u.opnd, u.reg + i)

/-- R34: whether no register the form reads without a trap bit is empty in the lane. -/
def State.sourcesFull (s : State) (t : TRef) (f : Form) : Bool :=
  let w := s.warp t.warp
  (f.reads.filter fun u => !u.trap).all fun u => (List.range u.count).all fun i => !w.isEmpty t.lane (u.reg + i)

/-- R34: whether no register the form reads (without a trap bit) or writes is empty in the lane. -/
def State.full (s : State) (t : TRef) (f : Form) : Bool :=
  let w := s.warp t.warp
  ((f.reads.filter fun u => !u.trap) ++ f.writes).all fun u =>
    (List.range u.count).all fun i => !w.isEmpty t.lane (u.reg + i)

/-- The illegal-instruction fault at the issue in progress. -/
def State.illegal (s : State) : Report := report clsIllegal 0 (s.cur.word0.setWidth 64)

/-- R15: the memory requests that the warps of a core have outstanding: results on their way, and stores and invocations
whose GWCT has not returned. -/
def State.memRequests (s : State) (core : Nat) : Nat :=
  (s.warps.map fun e => if e.2.core = core then e.2.inFlight + e.2.stores.length else 0).sum

/-- The opcodes that send a request to memory for a register or a GWCT. -/
def sendsRequest (opc : Nat) : Bool := [0x50, 0x51, 0x54, 0x60, 0x61, 0x03, 0x04].contains opc

/-- The checks before an effect, in R48's order: none where it may be made. An instruction that sends a request waits while its
core has as many outstanding as it can hold (R15). -/
def State.gate (s : State) (t : TRef) (f : Form) : Option Eff :=
  if !s.legal t f then some (.fault s.illegal)
  else
    match s.emptyTrap t f with
    | some (k, n) => some (.fault ⟨clsEmpty, 0, k, 0, 0, false, BitVec.ofNat 64 n⟩)
    | none =>
      if !s.full t f then some .retry
      else if f.g.scope == .set && (setMembers (s.warp t.warp).setReg).isEmpty then
        some (.fault (report clsScope 2 0))
      else if sendsRequest f.opc && decide (Config.coreRequests ≤ s.memRequests (s.warp t.warp).core) then some .retry
      else none

/-! ## Stamped requests (R375) -/

/-- R375: whether the form is a stamped request of a deterministic grid. -/
def formStamped (f : Form) : Bool :=
  [0x60, 0x61, 0x78, 0x79, 0x64, 0x55, 0x56, 0x6F, 0x6C, 0x6D, 0x6E, 0x0F].contains f.opc
    || ((f.opc == 0x68 || f.opc == 0x69) && (f.x.sub.extractLsb' 1 2) == 2)

/-- R375, R424: threads of one instance stand at a stamped request, blocked before its issue until it is released; what
they read at arrival is kept. -/
def State.stampOne (s : State) (w : Nat) (ts : List TRef) : State :=
  (ts.foldl (fun s' t => s'.setThread t fun th => { th with arrival := (s.thread t).arrival })
    (s.park (.stamped none) w ts)).send (.stampedRequestRelease (s.warp w).grid)

/-- R375, R424: the group stands at a stamped request: together where the instruction acts once, else warp by warp; after a
failed evaluation, which counts as an issue, it stands there again. -/
def State.stamp (s : State) (whole : Bool) (ts : List TRef) : State :=
  let s' := match whole, ts with
    | true, t :: _ => s.stampOne t.warp ts
    | _, _ => (ts.map TRef.warp).dedup.foldl (fun s w => s.stampOne w (ts.filter fun t => t.warp = w)) s
  { s' with issue := none }

/-- Whether an issue must first be released. -/
def State.mustStamp (s : State) (f : Form) : Bool :=
  match s.cur.group with
  | [] => false
  | t :: _ => (s.grid (s.warp t.warp).grid).det && formStamped f && !s.cur.released

/-! ## The issue of an instruction -/

/-- An effect taken into account for one thread: the state, and the threads that took part. -/
def State.applyEff (s : State) (t : TRef) (setWide : Bool) (took : List TRef) : Eff → State × List TRef
  | .done s' => (s'.moveTo t s.cur.next, t :: took)
  | .jump s' p => (s'.moveTo t p, t :: took)
  | .held s' => (s', t :: took)
  | .stay s' => (s', t :: took)
  | .retry => (s.setThread t fun th => { th with unready := true }, took)
  | .wait s' => (s'.setThread t fun th => { th with unready := true }, took)
  | .fault r => (s.raiseAll [t] r setWide, took)

/-- R322, R331: an instruction acting in each thread of the group on its own, in ascending order. A thread whose
predicate is false moves on without an effect; a thread that faults leaves the others alone (DEDUCED, log 15). -/
def State.eachThread (s : State) (i : Instr) (eff : TRef → Operands → State → Eff) : State :=
  let f := i.form
  let one (acc : State × List TRef) (t : TRef) : State × List TRef :=
    let s' := acc.1
    if !s'.legal t f then (s'.raiseAll [t] s'.illegal (f.g.scope == .set), acc.2)
    else if !s'.guardHolds t f.g then (s'.moveTo t s.cur.next, t :: acc.2)
    else
      match s'.gate t f with
      | some e => s'.applyEff t (f.g.scope == .set) acc.2 e
      | none => s'.applyEff t (f.g.scope == .set) acc.2 (eff t (s'.operands t f) s')
  if s.mustStamp f then s.stamp false s.cur.group
  else
    let r := s.cur.group.foldl one (s, [])
    let again := s.cur.group.filter fun t => (r.1.thread t).unready && !r.2.contains t
    if s.cur.released then (r.1.stamp false again).finish f.opc (r.2 ++ again) else r.1.finish f.opc r.2

/-- The first of some failing threads with the lowest lane (R78, R142). -/
def lowestFailing : List (TRef × Report) → Option (TRef × Report)
  | [] => none
  | e :: rest =>
    match lowestFailing rest with
    | some m => if m.1.lane < e.1.lane then some m else some e
    | none => some e

/-- R78, R210, R142, R372: an instruction whose checks come before any lane acts: the lowest failing lane faults and none
acts; the other lanes issue again. -/
def State.eachChecked (s : State) (i : Instr) (chk : TRef → Operands → State → Except Report State)
    (eff : TRef → Operands → State → Eff) : State :=
  let f := i.form
  if s.mustStamp f then s.stamp false s.cur.group
  else
    let active := s.cur.group.filter fun t => s.legal t f && s.guardHolds t f.g && (s.gate t f).isNone
    let one (acc : State × List (TRef × Report)) (t : TRef) : State × List (TRef × Report) :=
      match chk t (s.operands t f) acc.1 with
      | .ok s' => (s', acc.2)
      | .error r => (acc.1, acc.2 ++ [(t, r)])
    let r := active.foldl one (s, [])
    match lowestFailing r.2 with
    | none => r.1.eachThread i eff
    | some e => (r.1.raiseAll [e.1] e.2 (f.g.scope == .set)).finish f.opc []

/-- R325: the warp whose uniform operands a once-acting instruction reads: the issuing warp, member 0 of the set, or the
lowest-indexed warp of the block that has not been freed. -/
def State.leader (s : State) (sc : Scope) (t : TRef) : Nat :=
  match sc with
  | .set => (s.setOf t.warp).headD t.warp
  | .block =>
    let ws := (s.block (s.warp t.warp).block).warps.filter fun w => !(s.warp w).freed
    ws.foldl (fun a w => if (s.warp w).index < (s.warp a).index then w else a) (ws.headD t.warp)
  | _ => t.warp

/-- A once-acting instruction that is not ready is put off: a released request stands again (R375). -/
def State.putOff (s : State) (opc : Nat) (ts : List TRef) : State :=
  if s.cur.released then (s.stamp true ts).finish opc ts
  else (ts.foldl (fun s t => s.setThread t fun th => { th with unready := true }) s).finish opc []

/-- R325: an instruction acting once for its members: all predicates true, it acts; all false, the members move on;
differing, the membership-mismatch fault with cause 2 in every member. -/
def State.onceFor (s : State) (i : Instr) (eff : TRef → Operands → State → Eff) : State :=
  let f := i.form
  let ts := s.cur.group
  let setWide := f.g.scope == .set
  match ts with
  | [] => s.finish f.opc []
  | t0 :: _ =>
    let bad := ts.filter fun t => !s.legal t f
    if !bad.isEmpty then (bad.foldl (fun s' t => s'.raiseAll [t] s.illegal setWide) s).finish f.opc []
    else if s.mustStamp f then s.stamp true ts
    else if ts.all fun t => s.guardHolds t f.g then
      let ld : TRef := ⟨s.leader f.g.scope t0, t0.lane⟩
      let gates := ts.filterMap fun t => (s.gate t f).map fun e => (t, e)
      let stops := gates.filterMap fun e => match e.2 with
        | .fault r => some (e.1, r)
        | _ => none
      if !stops.isEmpty then (stops.foldl (fun s e => s.raiseAll [e.1] e.2 setWide) s).finish f.opc []
      else match (if gates.isEmpty then eff ld (s.operands ld f) s else .retry) with
      | .done s' => (ts.foldl (fun s'' t => s''.moveTo t s.cur.next) s').finish f.opc ts
      | .jump s' p => (ts.foldl (fun s'' t => s''.moveTo t p) s').finish f.opc ts
      | .held s' => s'.finish f.opc ts
      | .stay s' => s'.finish f.opc ts
      | .retry => s.putOff f.opc ts
      | .wait s' => s'.putOff f.opc ts
      | .fault r => (s.raiseAll ts r setWide).finish f.opc []
    else if ts.any fun t => s.guardHolds t f.g then
      (s.raiseAll ts (report clsMember 2 0) setWide).finish f.opc []
    else (ts.foldl (fun s'' t => s''.moveTo t s.cur.next) s).finish f.opc ts

/-- An instruction that acts per thread at lane scope and once at wider scopes. -/
def State.laneOrOnce (s : State) (i : Instr) (eff : TRef → Operands → State → Eff) : State :=
  if i.form.g.scope = .lane then s.eachThread i eff else s.onceFor i eff

/-- R325: an instruction that acts once for its members though it writes each member's own registers: nothing is performed
where their predicates differ. -/
def State.onceEach (s : State) (i : Instr) (eff : TRef → Operands → State → Eff) : State :=
  let f := i.form
  let ts := s.cur.group
  let agree := (ts.all fun t => s.guardHolds t f.g) || ts.all fun t => !s.guardHolds t f.g
  if f.g.scope = .lane || agree || (ts.any fun t => !s.legal t f) then s.eachThread i eff
  else (s.raiseAll ts (report clsMember 2 0) (f.g.scope == .set)).finish f.opc []

/-- The member warps of the group, in ascending order of first appearance. -/
def State.groupWarps (s : State) : List Nat := (s.cur.group.map TRef.warp).dedup

/-- The warps of a scope instance, as a warp sees it (R326). -/
def State.instanceWarps (s : State) (sc : Scope) (w : Nat) : List Nat :=
  match sc with
  | .set => s.setOf w
  | .block => (s.block (s.warp w).block).warps.filter fun v => !(s.warp v).freed
  | _ => [w]

/-- The member warps of the instance that issues, those whose threads have all exited among them (R40, R327). -/
def State.memberWarps (s : State) (sc : Scope) : List Nat :=
  match s.cur.group with
  | [] => []
  | t :: _ => s.instanceWarps sc t.warp

end Sys2Proof.Machine
end

