-- ==== Sys2Proof/Machine/Integer.lean ====
section
/-! DEFINITION. Integer and address instructions, opcodes 0x10 to 0x2E (10, R239 to R248). -/

namespace Sys2Proof.Machine

/-- The result of an element-wise operation: its value in the low bits, whether its type is signed (R240), and the
flags; or a fault at the instruction. -/
inductive AluOut where
  | ok (v : DWord) (signed : Bool) (fl : FFlags)
  | fault (r : Report)

/-- An element-wise operation: of the form, the operands, and the thread that reads them. -/
abbrev AluOp := Form → Operands → TRef → State → AluOut

/-- R240: a result as a uniform register holds it. -/
def widen (wide signed : Bool) (v : DWord) : DWord :=
  if wide then v else if signed then (v.setWidth 32).signExtend 64 else (v.setWidth 32).setWidth 64

/-- The writes of a result in a thread (R240). -/
def aluWrites (f : Form) (lane : Nat) (v : DWord) (signed : Bool) : List (RegKey × DWord) :=
  match f.x.dst with
  | .uni n => [(.uni (n.toNat % 32), widen ((opRule f.opc f.g f.x).d.regs == 2) signed v)]
  | d => dstWrites d lane (opRule f.opc f.g f.x).d.regs v

/-- The threads of the group whose warp's computation of a uniform result faults (R258), with the report. -/
def aluFails (f : Form) (op : AluOp) (s : State) : List (TRef × Report) :=
  s.cur.group.filterMap fun t => match op f (s.operands ⟨t.warp, 0⟩ f) ⟨t.warp, 0⟩ s with
    | .ok .. => none
    | .fault r => some (t, r)

/-- R40, R241: a warp's uniform result, computed from its own operands, with the flags of its members. -/
def aluWarp (f : Form) (lat : Nat) (op : AluOp) (s s' : State) (w : Nat) : State :=
  match op f (s.operands ⟨w, 0⟩ f) ⟨w, 0⟩ s with
  | .ok v sg fl =>
    (s.cur.group.filter fun t => t.warp = w).foldl (fun s t => s.setFlags t fl) (s'.writeFixed w lat (aluWrites f 0 v sg))
  | .fault _ => s'

/-- R40, R241: with a uniform destination each member warp writes its own register. A warp whose computation faults writes
nothing, and only its members take the fault (R331). -/
def aluUniform (f : Form) (lat : Nat) (op : AluOp) (s : State) : Eff :=
  let s1 := (s.memberWarps f.g.scope).foldl (aluWarp f lat op s) s
  let others := s.cur.group.filter fun u => !(aluFails f op s).any fun e => e.1 == u
  match aluFails f op s, others with
  | [], _ => .done s1
  | e :: _, [] => .fault e.2
  | es, us =>
    .stay (es.foldl (fun s e => s.raiseAll [e.1] e.2 (f.g.scope == .set)) (us.foldl (fun s u => s.moveTo u s.cur.next) s1))

/-- R240: the effect of an element-wise instruction in a thread. -/
def aluEach (f : Form) (lat : Nat) (op : AluOp) (t : TRef) (o : Operands) (s : State) : Eff :=
  match op f o t s with
  | .ok v sg fl => .done ((s.writeFixed t.warp lat (aluWrites f t.lane v sg)).setFlags t fl)
  | .fault r => .fault r

/-- R325: RDSR and TIME act once at warp scope, though they write each member's own registers. -/
def readsOnce (opc : Nat) : Bool := opc == 0x0B || opc == 0x7E

/-- R241, R325: an element-wise instruction: in each thread, or with a uniform destination once. -/
def State.alu (s : State) (i : Instr) (lat : Nat) (op : AluOp) : State :=
  let f := i.form
  match f.x.dst with
  | .uni _ => s.onceFor i fun _ _ s => aluUniform f lat op s
  | _ => if readsOnce f.opc then s.onceEach i (aluEach f lat op) else s.eachThread i (aluEach f lat op)

/-- R32: the fixed latencies. -/
def latF4 : Nat := 4
def latM6 : Nat := 6
def latX8 : Nat := 8
def latT16 : Nat := 16

/-! ## Values -/

/-- The low `w` bits (32 or 64) of an integer, zero-extended. -/
def wrapInt (w : Nat) (v : Int) : DWord := if w = 64 then BitVec.ofInt 64 v else (BitVec.ofInt 32 v).setWidth 64

/-- An operand as the integer its type gives (R244). -/
def intVal (t : Ty) (v : DWord) : Int :=
  match t with
  | .s64 => v.toInt
  | .u64 => v.toNat
  | .s32 => (v.setWidth 32).toInt
  | .s16 => (v.setWidth 16).toInt
  | .s8 => (v.setWidth 8).toInt
  | .u16 => (v.setWidth 16).toNat
  | .u8 => (v.setWidth 8).toNat
  | _ => (v.setWidth 32).toNat

/-- The range of an integer type. -/
def intMax (t : Ty) : Int := if t.signed then 2 ^ (t.bits - 1) - 1 else 2 ^ t.bits - 1
def intMin (t : Ty) : Int := if t.signed then -2 ^ (t.bits - 1) else 0

/-- R244, R245: an exact result reduced modulo 2^W, or clamped with OF under .sat. -/
def intResult (f : Form) (v : Int) : AluOut :=
  let t := f.x.ty
  if f.x.sat then
    let c := max (intMin t) (min (intMax t) v)
    .ok (wrapInt t.intW c) t.signed (flagIf (c ≠ v) ofFlag)
  else .ok (wrapInt t.intW v) t.signed 0

/-- An operation on the operands as integers. -/
def intOp (g : Int → Int → Int → Int) : AluOp := fun f o _ _ =>
  intResult f (g (intVal f.x.ty o.a) (intVal f.x.ty o.b) (intVal f.x.ty o.c))

/-- A bitwise operation of the width of TYPE. -/
def bitOp (g : DWord → DWord → DWord → DWord) : AluOp := fun f o _ _ =>
  let v := g o.a o.b o.c
  .ok (if f.x.ty.intW = 64 then v else (v.setWidth 32).setWidth 64) f.x.ty.signed 0

/-- R244: IMULH: bits [2W-1:W] of the exact product. -/
def imulhOp : AluOp := fun f o _ _ =>
  .ok (wrapInt f.x.ty.intW (intVal f.x.ty o.a * intVal f.x.ty o.b / 2 ^ f.x.ty.intW)) f.x.ty.signed 0

/-- R244: IMADW: ext(A) × ext(B) + C mod 2^64. -/
def imadwOp : AluOp := fun f o _ _ =>
  .ok (BitVec.ofInt 64 (intVal f.x.ty o.a * intVal f.x.ty o.b + o.c.toNat)) f.x.ty.signed 0

/-- R244: the shifts; a count of W or more leaves zeros, or sign bits for SAR. -/
def shlOp : AluOp := fun f o _ _ =>
  let n := (o.b.setWidth 32).toNat
  .ok (if n ≥ f.x.ty.intW then 0 else wrapInt f.x.ty.intW (o.a.toNat * 2 ^ n)) f.x.ty.signed 0
def shrOp : AluOp := fun f o _ _ =>
  let n := (o.b.setWidth 32).toNat
  .ok (if n ≥ f.x.ty.intW then 0 else BitVec.ofNat 64 (o.a.toNat / 2 ^ n)) f.x.ty.signed 0
def sarOp : AluOp := fun f o _ _ =>
  let n := min (o.b.setWidth 32).toNat f.x.ty.intW
  .ok (wrapInt f.x.ty.intW (intVal f.x.ty o.a / 2 ^ n)) f.x.ty.signed 0

/-- R246: SHF. -/
def shfOp : AluOp := fun f o _ _ =>
  let n := if f.x.sub.getLsbD 1 then min (o.c.setWidth 32).toNat 32 else (o.c.extractLsb' 0 5).toNat
  let ab := (o.b.setWidth 32).toNat * 2 ^ 32 + (o.a.setWidth 32).toNat
  let d := if f.x.sub.getLsbD 0 then ab / 2 ^ n else ab * 2 ^ n / 2 ^ 32
  .ok ((BitVec.ofNat 32 d).setWidth 64) f.x.ty.signed 0

/-- R246: BFN. -/
def bfn (fn : Nat) (a b c : DWord) : DWord :=
  match fn with
  | 0 => (a &&& b) ||| c
  | 1 => (a &&& b) ^^^ c
  | 2 => (a ||| b) &&& c
  | 3 => a ^^^ b ^^^ c
  | 4 => ~~~(a ^^^ b ^^^ c)
  | 5 => a &&& b &&& c
  | 6 => a ||| b ||| c
  | 7 => (a &&& b) ||| (a &&& c) ||| (b &&& c)
  | 8 => (c &&& a) ||| (~~~c &&& b)
  | _ => a &&& ~~~(b ||| c)

/-- The bits of a value, lowest first. -/
def bitsOf (w n : Nat) : List Bool := (List.range w).map fun i => n.testBit i

/-- The number of bits, lowest first. -/
def ofBits : List Bool → Nat
  | [] => 0
  | b :: rest => (if b then 1 else 0) + 2 * ofBits rest

/-- R244: POPC, CLZ and BREV of `w` bits. -/
def popCount (w n : Nat) : Nat := ((bitsOf w n).filter id).length
def clzCount (w n : Nat) : Nat := if n % 2 ^ w = 0 then w else w - 1 - Nat.log2 (n % 2 ^ w)
def bitRev (w n : Nat) : Nat := ofBits (bitsOf w n).reverse

/-- An operation of A alone, by the width of TYPE. -/
def unaryOp (g : Nat → Nat → Nat) : AluOp := fun f o _ _ =>
  .ok (BitVec.ofNat 64 (g f.x.ty.intW o.a.toNat)) f.x.ty.signed 0

/-- R246: BFX. -/
def bfxOp : AluOp := fun f o _ _ =>
  let w := f.x.ty.intW
  let pos := (o.b.extractLsb' 0 8).toNat
  let len := (o.b.extractLsb' 8 8).toNat
  if len = 0 ∨ pos ≥ w then .ok 0 f.x.ty.signed 0
  else
    let l := min len (w - pos)
    let v := o.a.toNat / 2 ^ pos % 2 ^ l
    let d : Int := if f.x.ty.signed ∧ v ≥ 2 ^ (l - 1) then (v : Int) - 2 ^ l else v
    .ok (wrapInt w d) f.x.ty.signed 0

/-- R246: BFI. -/
def bfiOp : AluOp := fun f o _ _ =>
  let w := f.x.ty.intW
  let pos := (o.c.extractLsb' 0 8).toNat
  let len := (o.c.extractLsb' 8 8).toNat
  let a := o.a.toNat
  if len = 0 ∨ pos ≥ w then .ok o.a f.x.ty.signed 0
  else
    let l := min len (w - pos)
    let old := a / 2 ^ pos % 2 ^ l
    .ok (BitVec.ofNat 64 (a - old * 2 ^ pos + o.b.toNat % 2 ^ l * 2 ^ pos)) f.x.ty.signed 0

/-- R246: BPACK by its mode. -/
def bpack (mode : Nat) (a b c : DWord) : DWord :=
  let x (v : DWord) (i : Nat) : Byte := v.extractLsb' (8 * i) 8
  let d (p q r t : Byte) : DWord := (t ++ r ++ q ++ p : BitVec 32).setWidth 64
  match mode with
  | 0 => d (x a 0) (x b 0) (x a 1) (x b 1)
  | 1 => d (x a 2) (x b 2) (x a 3) (x b 3)
  | 2 => d (x a 0) (x a 2) (x b 0) (x b 2)
  | 3 => d (x a 1) (x a 3) (x b 1) (x b 3)
  | 4 => d (x a 3) (x a 2) (x a 1) (x a 0)
  | _ =>
    let k := (c.extractLsb' 0 2).toNat
    d (x a k) (x a k) (x a k) (x a k)

/-- R247: the conditions of ICMP. -/
def icmpHolds (cond : Nat) (a b : Int) : Bool :=
  match cond with
  | 0 => decide (a = b)
  | 1 => decide (a ≠ b)
  | 2 => decide (a < b)
  | 3 => decide (a ≤ b)
  | 4 => decide (a > b)
  | _ => decide (a ≥ b)

def icmpOp : AluOp := fun f o _ _ =>
  .ok (if icmpHolds (f.x.sub.toNat % 8) (intVal f.x.ty o.a) (intVal f.x.ty o.b) then 1 else 0) false 0

/-- R244, R245: the sum under .sat, then the comparison. -/
def addMinMax (max : Bool) : AluOp := fun f o _ _ =>
  match intResult f (intVal f.x.ty o.a + intVal f.x.ty o.b) with
  | .ok v sg fl =>
    let x := intVal f.x.ty v
    let c := intVal f.x.ty o.c
    .ok (wrapInt f.x.ty.intW (if max then (if x < c then c else x) else (if c < x then c else x))) sg fl
  | e => e

/-- R244: LEA. -/
def leaOp : AluOp := fun f o _ _ =>
  let b : Int := if f.x.ty.signed then (o.b.setWidth 32).toInt else (o.b.setWidth 32).toNat
  .ok (BitVec.ofInt 64 (o.a.toNat + b * 2 ^ (o.c.extractLsb' 0 5).toNat)) f.x.ty.signed 0

/-- R247: the select predicate of ISEL in a thread. -/
def iselPred (f : Form) (t : TRef) (s : State) : Bool :=
  (s.warp t.warp).pred t.lane (f.x.sub.toNat % 8) != f.x.sub.getLsbD 3

def iselOp : AluOp := fun f o t s => .ok (if iselPred f t s then o.a else o.b) f.x.ty.signed 0

/-- R247: ISEL with a uniform destination: the select predicates of the members must agree. -/
def iselUniform (i : Instr) (s : State) : State :=
  let f := i.form
  s.onceFor i fun _ _ s =>
    let ps := s.cur.group.map fun t => iselPred f t s
    if ps.all id || ps.all not then
      aluUniform f latF4 (fun f o _ _ => .ok (if ps.all id then o.a else o.b) f.x.ty.signed 0) s
    else .fault (report clsMember 2 0)

/-- R247: MOVQ.pack. -/
def movqPackOp : AluOp := fun _ _ t s =>
  let w := s.warp t.warp
  .ok (BitVec.ofNat 64 (ofBits ((List.range 8).map fun q => w.pred t.lane q))) false 0

/-- R247: MOVQ.unpack: q0 to q6 from A[6:0]. -/
def movqUnpackEff (t : TRef) (o : Operands) (s : State) : Eff :=
  .done (s.writeFixed t.warp latF4 ((List.range 7).map fun q => (RegKey.pred t.lane q, if o.a.getLsbD q then 1 else 0)))

/-- R247: the predicate a QOP field names. -/
def qopRead (src : Src) (t : TRef) (s : State) : Bool :=
  (s.warp t.warp).pred t.lane (src.num.toNat % 8) != src.num.getLsbD 3

def qopOp : AluOp := fun f _ t s =>
  let a := qopRead f.x.a t s
  let b := qopRead f.x.b t s
  let c := qopRead f.x.c t s
  let r := match f.x.sub.toNat with
    | 0 => a && b
    | 1 => a || b
    | 2 => a != b
    | 3 => if a then b else c
    | 4 => a && b && c
    | 5 => a || b || c
    | _ => (a && b) || (a && c) || (b && c)
  .ok (if r then 1 else 0) false 0

/-- R240, R248: an integer of a type as its register holds it: 8 and 16 bits extended by the type's signedness. -/
def extended (t : Ty) (v : Int) : DWord :=
  let m : Int := v % 2 ^ t.bits
  let x : Int := if t.signed ∧ m ≥ 2 ^ (t.bits - 1) then m - 2 ^ t.bits else m
  wrapInt t.intW x

/-- R248: CVTI. -/
def cvtiOp : AluOp := fun f o _ _ =>
  let src := (tyOfSub f.x.sub).getD .s32
  let t := f.x.ty
  let v := intVal src o.a
  if f.x.sat then
    let c := max (intMin t) (min (intMax t) v)
    .ok (extended t c) t.signed (flagIf (c ≠ v) ofFlag)
  else .ok (extended t v) t.signed 0

/-! ## Meanings -/

/-- IADD (R244), one word. -/
def execIadd (g : Guard) (b : BitVec 5) (a : BitVec 6) (d : BitVec 6) (s : State) : Host.Outcome State Fault Refusal :=
  .next (s.alu (Instr.iadd g b a d) latF4 (intOp fun a b _ => a + b))

/-- IADD (R244). -/
def execIaddX (g : Guard) (x : XForm) (s : State) : Host.Outcome State Fault Refusal :=
  .next (s.alu (Instr.iaddX g x) latF4 (intOp fun a b _ => a + b))

/-- ISUB (R244), one word. -/
def execIsub (g : Guard) (b : BitVec 5) (a : BitVec 6) (d : BitVec 6) (s : State) : Host.Outcome State Fault Refusal :=
  .next (s.alu (Instr.isub g b a d) latF4 (intOp fun a b _ => a - b))

/-- ISUB (R244). -/
def execIsubX (g : Guard) (x : XForm) (s : State) : Host.Outcome State Fault Refusal :=
  .next (s.alu (Instr.isubX g x) latF4 (intOp fun a b _ => a - b))

/-- IADD3 (R244). -/
def execIadd3 (g : Guard) (x : XForm) (s : State) : Host.Outcome State Fault Refusal :=
  .next (s.alu (Instr.iadd3 g x) latF4 (intOp fun a b c => a + b + c))

/-- IMUL (R244), one word. -/
def execImul (g : Guard) (b : BitVec 5) (a : BitVec 6) (d : BitVec 6) (s : State) : Host.Outcome State Fault Refusal :=
  .next (s.alu (Instr.imul g b a d) latF4 (intOp fun a b _ => a * b))

/-- IMUL (R244). -/
def execImulX (g : Guard) (x : XForm) (s : State) : Host.Outcome State Fault Refusal :=
  .next (s.alu (Instr.imulX g x) latF4 (intOp fun a b _ => a * b))

/-- IMULH (R244), one word. -/
def execImulh (g : Guard) (b : BitVec 5) (a : BitVec 6) (d : BitVec 6) (s : State) : Host.Outcome State Fault Refusal :=
  .next (s.alu (Instr.imulh g b a d) latM6 imulhOp)

/-- IMULH (R244). -/
def execImulhX (g : Guard) (x : XForm) (s : State) : Host.Outcome State Fault Refusal :=
  .next (s.alu (Instr.imulhX g x) latM6 imulhOp)

/-- IMAD (R244), one word. -/
def execImad (g : Guard) (b : BitVec 5) (a : BitVec 6) (d : BitVec 6) (s : State) : Host.Outcome State Fault Refusal :=
  .next (s.alu (Instr.imad g b a d) latF4 (intOp fun a b c => a * b + c))

/-- IMAD (R244). -/
def execImadX (g : Guard) (x : XForm) (s : State) : Host.Outcome State Fault Refusal :=
  .next (s.alu (Instr.imadX g x) latF4 (intOp fun a b c => a * b + c))

/-- IMADW (R244). -/
def execImadw (g : Guard) (x : XForm) (s : State) : Host.Outcome State Fault Refusal :=
  .next (s.alu (Instr.imadw g x) latM6 imadwOp)

/-- SHL (R244), one word. -/
def execShl (g : Guard) (i : BitVec 5) (a : BitVec 6) (d : BitVec 6) (s : State) : Host.Outcome State Fault Refusal :=
  .next (s.alu (Instr.shl g i a d) latF4 shlOp)

/-- SHL (R244). -/
def execShlX (g : Guard) (x : XForm) (s : State) : Host.Outcome State Fault Refusal :=
  .next (s.alu (Instr.shlX g x) latF4 shlOp)

/-- SHR (R244), one word. -/
def execShr (g : Guard) (i : BitVec 5) (a : BitVec 6) (d : BitVec 6) (s : State) : Host.Outcome State Fault Refusal :=
  .next (s.alu (Instr.shr g i a d) latF4 shrOp)

/-- SHR (R244). -/
def execShrX (g : Guard) (x : XForm) (s : State) : Host.Outcome State Fault Refusal :=
  .next (s.alu (Instr.shrX g x) latF4 shrOp)

/-- SAR (R244), one word. -/
def execSar (g : Guard) (i : BitVec 5) (a : BitVec 6) (d : BitVec 6) (s : State) : Host.Outcome State Fault Refusal :=
  .next (s.alu (Instr.sar g i a d) latF4 sarOp)

/-- SAR (R244). -/
def execSarX (g : Guard) (x : XForm) (s : State) : Host.Outcome State Fault Refusal :=
  .next (s.alu (Instr.sarX g x) latF4 sarOp)

/-- SHF (R246). -/
def execShf (g : Guard) (x : XForm) (s : State) : Host.Outcome State Fault Refusal :=
  .next (s.alu (Instr.shf g x) latF4 shfOp)

/-- AND (R244), one word. -/
def execAnd (g : Guard) (b : BitVec 5) (a : BitVec 6) (d : BitVec 6) (s : State) : Host.Outcome State Fault Refusal :=
  .next (s.alu (Instr.and g b a d) latF4 (bitOp fun a b _ => a &&& b))

/-- AND (R244). -/
def execAndX (g : Guard) (x : XForm) (s : State) : Host.Outcome State Fault Refusal :=
  .next (s.alu (Instr.andX g x) latF4 (bitOp fun a b _ => a &&& b))

/-- OR (R244), one word. -/
def execOr (g : Guard) (b : BitVec 5) (a : BitVec 6) (d : BitVec 6) (s : State) : Host.Outcome State Fault Refusal :=
  .next (s.alu (Instr.or g b a d) latF4 (bitOp fun a b _ => a ||| b))

/-- OR (R244). -/
def execOrX (g : Guard) (x : XForm) (s : State) : Host.Outcome State Fault Refusal :=
  .next (s.alu (Instr.orX g x) latF4 (bitOp fun a b _ => a ||| b))

/-- XOR (R244), one word. -/
def execXor (g : Guard) (b : BitVec 5) (a : BitVec 6) (d : BitVec 6) (s : State) : Host.Outcome State Fault Refusal :=
  .next (s.alu (Instr.xor g b a d) latF4 (bitOp fun a b _ => a ^^^ b))

/-- XOR (R244). -/
def execXorX (g : Guard) (x : XForm) (s : State) : Host.Outcome State Fault Refusal :=
  .next (s.alu (Instr.xorX g x) latF4 (bitOp fun a b _ => a ^^^ b))

/-- BFN (R246). -/
def execBfn (g : Guard) (x : XForm) (s : State) : Host.Outcome State Fault Refusal :=
  .next (s.alu (Instr.bfn g x) latF4 (fun f o t s => bitOp (bfn f.x.sub.toNat) f o t s))

/-- POPC (R244), one word. -/
def execPopc (g : Guard) (a : BitVec 6) (d : BitVec 6) (s : State) : Host.Outcome State Fault Refusal :=
  .next (s.alu (Instr.popc g a d) latF4 (unaryOp popCount))

/-- POPC (R244). -/
def execPopcX (g : Guard) (x : XForm) (s : State) : Host.Outcome State Fault Refusal :=
  .next (s.alu (Instr.popcX g x) latF4 (unaryOp popCount))

/-- CLZ (R244), one word. -/
def execClz (g : Guard) (a : BitVec 6) (d : BitVec 6) (s : State) : Host.Outcome State Fault Refusal :=
  .next (s.alu (Instr.clz g a d) latF4 (unaryOp clzCount))

/-- CLZ (R244). -/
def execClzX (g : Guard) (x : XForm) (s : State) : Host.Outcome State Fault Refusal :=
  .next (s.alu (Instr.clzX g x) latF4 (unaryOp clzCount))

/-- BREV (R244), one word. -/
def execBrev (g : Guard) (a : BitVec 6) (d : BitVec 6) (s : State) : Host.Outcome State Fault Refusal :=
  .next (s.alu (Instr.brev g a d) latF4 (unaryOp bitRev))

/-- BREV (R244). -/
def execBrevX (g : Guard) (x : XForm) (s : State) : Host.Outcome State Fault Refusal :=
  .next (s.alu (Instr.brevX g x) latF4 (unaryOp bitRev))

/-- BFX (R246). -/
def execBfx (g : Guard) (x : XForm) (s : State) : Host.Outcome State Fault Refusal :=
  .next (s.alu (Instr.bfx g x) latF4 bfxOp)

/-- BFI (R246). -/
def execBfi (g : Guard) (x : XForm) (s : State) : Host.Outcome State Fault Refusal :=
  .next (s.alu (Instr.bfi g x) latF4 bfiOp)

/-- BPACK (R246). -/
def execBpack (g : Guard) (x : XForm) (s : State) : Host.Outcome State Fault Refusal :=
  .next (s.alu (Instr.bpack g x) latF4 (fun f o t s => bitOp (bpack f.x.sub.toNat) f o t s))

/-- IMIN (R244), one word. -/
def execImin (g : Guard) (b : BitVec 5) (a : BitVec 6) (d : BitVec 6) (s : State) : Host.Outcome State Fault Refusal :=
  .next (s.alu (Instr.imin g b a d) latF4 (intOp fun a b _ => if b < a then b else a))

/-- IMIN (R244). -/
def execIminX (g : Guard) (x : XForm) (s : State) : Host.Outcome State Fault Refusal :=
  .next (s.alu (Instr.iminX g x) latF4 (intOp fun a b _ => if b < a then b else a))

/-- IMAX (R244), one word. -/
def execImax (g : Guard) (b : BitVec 5) (a : BitVec 6) (d : BitVec 6) (s : State) : Host.Outcome State Fault Refusal :=
  .next (s.alu (Instr.imax g b a d) latF4 (intOp fun a b _ => if a < b then b else a))

/-- IMAX (R244). -/
def execImaxX (g : Guard) (x : XForm) (s : State) : Host.Outcome State Fault Refusal :=
  .next (s.alu (Instr.imaxX g x) latF4 (intOp fun a b _ => if a < b then b else a))

/-- IABS (R244, R245), one word. -/
def execIabs (g : Guard) (a : BitVec 6) (d : BitVec 6) (s : State) : Host.Outcome State Fault Refusal :=
  .next (s.alu (Instr.iabs g a d) latF4 (intOp fun a _ _ => if a < 0 then -a else a))

/-- IABS (R244, R245). -/
def execIabsX (g : Guard) (x : XForm) (s : State) : Host.Outcome State Fault Refusal :=
  .next (s.alu (Instr.iabsX g x) latF4 (intOp fun a _ _ => if a < 0 then -a else a))

/-- ICMP (R247), one word. -/
def execIcmp (g : Guard) (b : BitVec 5) (a : BitVec 6) (d : BitVec 3) (s : State) : Host.Outcome State Fault Refusal :=
  .next (s.alu (Instr.icmp g b a d) latF4 icmpOp)

/-- ICMP (R247). -/
def execIcmpX (g : Guard) (x : XForm) (s : State) : Host.Outcome State Fault Refusal :=
  .next (s.alu (Instr.icmpX g x) latF4 icmpOp)

/-- IADDMIN (R244). -/
def execIaddmin (g : Guard) (x : XForm) (s : State) : Host.Outcome State Fault Refusal :=
  .next (s.alu (Instr.iaddmin g x) latF4 (addMinMax false))

/-- IADDMAX (R244). -/
def execIaddmax (g : Guard) (x : XForm) (s : State) : Host.Outcome State Fault Refusal :=
  .next (s.alu (Instr.iaddmax g x) latF4 (addMinMax true))

/-- LEA (R244). -/
def execLea (g : Guard) (x : XForm) (s : State) : Host.Outcome State Fault Refusal :=
  .next (s.alu (Instr.lea g x) latF4 leaOp)

/-- MOV (R244), one word. -/
def execMov (g : Guard) (a : BitVec 6) (d : BitVec 6) (s : State) : Host.Outcome State Fault Refusal :=
  .next (s.alu (Instr.mov g a d) latF4 (bitOp fun a _ _ => a))

/-- MOV (R244). -/
def execMovX (g : Guard) (x : XForm) (s : State) : Host.Outcome State Fault Refusal :=
  .next (s.alu (Instr.movX g x) latF4 (bitOp fun a _ _ => a))

/-- MOVI (R244), one word. -/
def execMovi (g : Guard) (i : BitVec 5) (d : BitVec 6) (s : State) : Host.Outcome State Fault Refusal :=
  .next (s.alu (Instr.movi g i d) latF4 (bitOp fun _ b _ => b))

/-- MOVI (R244). -/
def execMoviX (g : Guard) (x : XForm) (s : State) : Host.Outcome State Fault Refusal :=
  .next (s.alu (Instr.moviX g x) latF4 (bitOp fun _ b _ => b))

/-- QOP (R247). -/
def execQop (g : Guard) (x : XForm) (s : State) : Host.Outcome State Fault Refusal :=
  .next (s.alu (Instr.qop g x) latF4 qopOp)

/-- CVTI (R248), one word. -/
def execCvti (g : Guard) (t : BitVec 5) (a : BitVec 6) (d : BitVec 6) (s : State) : Host.Outcome State Fault Refusal :=
  .next (s.alu (Instr.cvti g t a d) latM6 cvtiOp)

/-- CVTI (R248). -/
def execCvtiX (g : Guard) (x : XForm) (s : State) : Host.Outcome State Fault Refusal :=
  .next (s.alu (Instr.cvtiX g x) latM6 cvtiOp)

/-- ISEL (R247). -/
def execIsel (g : Guard) (x : XForm) (s : State) : Host.Outcome State Fault Refusal :=
  .next (if x.dst.cls = 1 then iselUniform (Instr.isel g x) s else s.alu (Instr.isel g x) latF4 iselOp)

/-- MOVQ.pack, one word (R247). -/
def execMovqPack (g : Guard) (d : BitVec 6) (s : State) : Host.Outcome State Fault Refusal :=
  .next (s.alu (Instr.movqPack g d) latF4 movqPackOp)

/-- MOVQ.unpack, one word (R247). -/
def execMovqUnpack (g : Guard) (a : BitVec 6) (s : State) : Host.Outcome State Fault Refusal :=
  .next (s.eachThread (Instr.movqUnpack g a) movqUnpackEff)

/-- MOVQ (R247). -/
def execMovqX (g : Guard) (x : XForm) (s : State) : Host.Outcome State Fault Refusal :=
  .next (if x.sub = 0 then s.alu (Instr.movqX g x) latF4 movqPackOp else s.eachThread (Instr.movqX g x) movqUnpackEff)

end Sys2Proof.Machine
end

