-- ==== Sys2Proof/Machine/FloatOps.lean ====
section
/-! DEFINITION. Float, conversion and quantisation instructions, opcodes 0x30 to 0x45 (10, R249 to R259; 09). -/

namespace Sys2Proof.Machine

/-- The wide format of a float type (R219). -/
def fmtOfTy (t : Ty) : Fmt :=
  match t with
  | .f16 | .f16x2 => fp16
  | .bf16 | .bf16x2 => bf16
  | _ => fp32

/-- R221: a format register of a block. -/
def Block.fmtReg (b : Block) (n : Nat) : Word := SMap.get 0x00007B34 b.fmts n

/-- The format register an instruction's FMT names, in the block of the thread's warp. -/
def State.fmtOf (s : State) (t : TRef) (f : Form) : Fmt :=
  Fmt.ofWord ((s.block (s.warp t.warp).block).fmtReg f.x.fmt.toNat)

/-- R67, R220: the subnormal flush bit of the thread's kernel. -/
def State.flush (s : State) (t : TRef) : Bool := (s.grid (s.warp t.warp).grid).kernel.flush

/-- A result of a rounding. -/
def floatOut (r : Nat × FFlags) : AluOut := .ok (BitVec.ofNat 64 r.1) false r.2

/-- An operand's low bits as a code of `f`. -/
def codeOf (f : Fmt) (v : DWord) : Nat := v.toNat % 2 ^ f.width

/-- R249: an arithmetic operation of the type, with the flush bit, rounding mode and saturation of the form. -/
def floatOp (g : Bool → Fmt → Rnd → Bool → Nat → Nat → Nat → Nat × FFlags) : AluOp := fun f o t s =>
  let fm := fmtOfTy f.x.ty
  floatOut (g (s.flush t) fm f.x.rnd f.x.sat (codeOf fm o.a) (codeOf fm o.b) (codeOf fm o.c))

/-- R250: an operation on the two elements of a packed type, its flags ORed. -/
def packedOp (g : Bool → Fmt → Rnd → Bool → Nat → Nat → Nat → Nat × FFlags) : AluOp := fun f o t s =>
  let fm := fmtOfTy f.x.ty
  let at_ (v : DWord) (k : Nat) : Nat := (v.extractLsb' (16 * k) 16).toNat
  let r (k : Nat) := g (s.flush t) fm f.x.rnd f.x.sat (at_ o.a k) (at_ o.b k) (at_ o.c k)
  .ok (BitVec.ofNat 64 ((r 0).1 + 2 ^ 16 * (r 1).1)) false ((r 0).2 ||| (r 1).2)

/-- R251: FCMP. -/
def fcmpOp : AluOp := fun f o t s =>
  let fm := fmtOfTy f.x.ty
  let r := fCmp (s.flush t) fm f.x.sub.toNat (codeOf fm o.a) (codeOf fm o.b)
  .ok (if r.1 then 1 else 0) false r.2

/-- R250: FADDMIN: FMIN(round(A + B), C). -/
def faddminOp : AluOp := floatOp fun fl f m sat a b c =>
  let r := fAdd fl f m sat a b
  let q := fMinMax fl f false r.1 c
  (q.1, r.2 ||| q.2)

/-- R252: a transcendental. -/
def transOp (t : Trans) : AluOp := floatOp fun fl f m _ a _ _ => trans fl t f m a

/-- The transcendentals of an opcode by SUB. -/
def rcpFamily (sub : Nat) : Trans := match sub with
  | 0 => .rcp
  | 1 => .rsq
  | _ => .sqrt
def expFamily (sub : Nat) : Trans := if sub = 0 then .exp2 else .log2
def sinFamily (sub : Nat) : Trans := match sub with
  | 0 => .sin
  | 1 => .cos
  | _ => .tanh

/-- R254: DOT4 over 8-bit integers. -/
def dotInt (f : Form) (o : Operands) : AluOut :=
  let sb := f.x.ty.signed != (f.x.sub == 1)
  let el (v : DWord) (sg : Bool) (k : Nat) : Int :=
    let x : Byte := v.extractLsb' (8 * k) 8
    if sg then x.toInt else x.toNat
  let sum := (List.range 4).foldl (fun acc k => acc + el o.a f.x.ty.signed k * el o.b sb k) ((o.c.setWidth 32).toInt)
  if f.x.sat then
    let c := max (-2 ^ 31) (min (2 ^ 31 - 1) sum)
    .ok (wrapInt 32 c) true (flagIf (c ≠ sum) ofFlag)
  else .ok (wrapInt 32 sum) true 0

/-- R254: DOT4 over codes of a narrow format, scale 1: summed exactly with C and rounded once. -/
def dotNarrow (f : Form) (o : Operands) (t : TRef) (s : State) : AluOut :=
  let fm := s.fmtOf t f
  let cw := fm.container
  let n := 32 / cw
  let code (v : DWord) (k : Nat) : Nat := (v.setWidth 32).toNat / 2 ^ (cw * k) % 2 ^ cw
  let ps := (List.range n).map fun k => (fm.decode (code o.a k)).mul (fm.decode (code o.b k))
  let c := flushIn (s.flush t) fp32 (fp32.decode (codeOf fp32 o.c))
  let nan := ps.any fun p => p.1.isNan
  floatOut (roundSum (s.flush t) fp32 f.x.rnd f.x.sat (ps.map (·.1) ++ [c]) (nan || ps.any (·.2)))

def dot4Op : AluOp := fun f o t s => if f.x.ty = .fmt then dotNarrow f o t s else dotInt f o

/-- The format of a conversion's float side: a wide type, or the format register (R255). -/
def sideFmt (ty : Ty) (f : Form) (t : TRef) (s : State) : Fmt := if ty = .fmt then s.fmtOf t f else fmtOfTy ty

/-- R255: CVTF. -/
def cvtfOp : AluOp := fun f o t s =>
  let sf := sideFmt ((tyOfSub f.x.sub).getD .f32) f t s
  let df := sideFmt f.x.ty f t s
  floatOut (roundV (s.flush t) df f.x.rnd f.x.sat (flushIn (s.flush t) sf (sf.decode (codeOf sf o.a))))

/-- R255, R256: CVTFI. -/
def cvtfiOp : AluOp := fun f o t s =>
  let sf := sideFmt f.x.ty f t s
  let ty := (tyOfSub f.x.sub).getD .s32
  let r := fToInt ty.signed ty.bits f.x.rnd (flushIn (s.flush t) sf (sf.decode (codeOf sf o.a)))
  .ok (extended ty r.1) ty.signed r.2

/-- R255: CVTIF. -/
def cvtifOp : AluOp := fun f o t s =>
  let df := sideFmt f.x.ty f t s
  let ty := (tyOfSub f.x.sub).getD .s32
  floatOut (roundV (s.flush t) df f.x.rnd f.x.sat (FVal.ofInt (intVal ty o.a)))

/-- R257: the format QUANT, DEQ and BLKMAX name: fmtFMT, or a predefined code. -/
def quantFmt (f : Form) (t : TRef) (s : State) : Fmt :=
  match predefined f.x.sub.toNat with
  | some w => Fmt.ofWord w
  | none => s.fmtOf t f

/-- R258: QUANT. -/
def quantOp : AluOp := fun f o t s =>
  let fm := quantFmt f t s
  let q := (o.b.extractLsb' 0 8).toNat
  if q = 0xFF then
    if fm.hasNan then .ok (BitVec.ofNat 64 fm.nanCode) false 0
    else .fault (report clsFormat 3 0)
  else
    let x := flushIn (s.flush t) fp32 (fp32.decode (codeOf fp32 o.a))
    floatOut (roundTo fm f.x.rnd false (x.scale (127 - (q : Int))))

/-- R258: DEQ. -/
def deqOp : AluOp := fun f o t s =>
  let fm := quantFmt f t s
  let q := (o.b.extractLsb' 0 8).toNat
  if q = 0xFF then
    if fm.hasNan then .ok 0x7FC00000 false 0
    else .fault (report clsFormat 3 0)
  else
    match fm.decode (codeOf fm o.a) with
    | .nan _ => .ok 0x7FC00000 false 0
    | .inf n => .ok (BitVec.ofNat 64 (fp32.infCode n)) false 0
    | v => floatOut (roundV (s.flush t) fp32 f.x.rnd f.x.sat (v.scale ((q : Int) - 127)))

/-- R259, R220: the summary word over the participating lanes' values, as the flush bit reads them. -/
def blkmaxWord (flush : Bool) (fm : Fmt) (xs : List Nat) : Nat :=
  let vs := xs.map fun x => flushIn flush fp32 (fp32.decode x)
  let finite := vs.filter fun v => !v.isNan && !v.isInf
  let nz := vs.any fun v => !v.isZero || v.neg?
  let nan := vs.any FVal.isNan
  let q := if finite.all FVal.isZero then 0 else scaleByte fm finite
  q + (if nan then 256 else 0) + (if nz then 512 else 0)

/-- R259: BLKMAX: one word over the participating lanes, to each of them or to wD. -/
def blkmax (i : Instr) (s : State) : State :=
  let f := i.form
  let word (s : State) : DWord :=
    let ts := s.cur.group.filter fun t => s.guardHolds t f.g
    match ts with
    | [] => 0
    | t :: _ => BitVec.ofNat 64 (blkmaxWord (s.flush t) (quantFmt f t s) (ts.map fun t => codeOf fp32 (s.operands t f).a))
  let v := word s
  match f.x.dst with
  | .uni n => s.onceFor i fun ld _ s => .done (s.writeFixed ld.warp latX8 [(.uni (n.toNat % 32), v)])
  | d => s.eachThread i fun t _ s => .done (s.writeFixed t.warp latX8 (dstWrites d t.lane 1 v))

/-! ## Meanings -/

/-- FADD (R249), one word. -/
def execFadd (g : Guard) (b : BitVec 5) (a : BitVec 6) (d : BitVec 6) (s : State) : Host.Outcome State Fault Refusal :=
  .next (s.alu (Instr.fadd g b a d) latF4 (floatOp fun fl f m sat a b _ => fAdd fl f m sat a b))

/-- FADD (R249). -/
def execFaddX (g : Guard) (x : XForm) (s : State) : Host.Outcome State Fault Refusal :=
  .next (s.alu (Instr.faddX g x) latF4 (floatOp fun fl f m sat a b _ => fAdd fl f m sat a b))

/-- FMUL (R249), one word. -/
def execFmul (g : Guard) (b : BitVec 5) (a : BitVec 6) (d : BitVec 6) (s : State) : Host.Outcome State Fault Refusal :=
  .next (s.alu (Instr.fmul g b a d) latF4 (floatOp fun fl f m sat a b _ => fMul fl f m sat a b))

/-- FMUL (R249). -/
def execFmulX (g : Guard) (x : XForm) (s : State) : Host.Outcome State Fault Refusal :=
  .next (s.alu (Instr.fmulX g x) latF4 (floatOp fun fl f m sat a b _ => fMul fl f m sat a b))

/-- FFMA (R249), one word. -/
def execFfma (g : Guard) (b : BitVec 5) (a : BitVec 6) (d : BitVec 6) (s : State) : Host.Outcome State Fault Refusal :=
  .next (s.alu (Instr.ffma g b a d) latF4 (floatOp fFma))

/-- FFMA (R249). -/
def execFfmaX (g : Guard) (x : XForm) (s : State) : Host.Outcome State Fault Refusal :=
  .next (s.alu (Instr.ffmaX g x) latF4 (floatOp fFma))

/-- FMIN (R251), one word. -/
def execFmin (g : Guard) (b : BitVec 5) (a : BitVec 6) (d : BitVec 6) (s : State) : Host.Outcome State Fault Refusal :=
  .next (s.alu (Instr.fmin g b a d) latF4 (floatOp fun fl f _ _ a b _ => fMinMax fl f false a b))

/-- FMIN (R251). -/
def execFminX (g : Guard) (x : XForm) (s : State) : Host.Outcome State Fault Refusal :=
  .next (s.alu (Instr.fminX g x) latF4 (floatOp fun fl f _ _ a b _ => fMinMax fl f false a b))

/-- FMAX (R251), one word. -/
def execFmax (g : Guard) (b : BitVec 5) (a : BitVec 6) (d : BitVec 6) (s : State) : Host.Outcome State Fault Refusal :=
  .next (s.alu (Instr.fmax g b a d) latF4 (floatOp fun fl f _ _ a b _ => fMinMax fl f true a b))

/-- FMAX (R251). -/
def execFmaxX (g : Guard) (x : XForm) (s : State) : Host.Outcome State Fault Refusal :=
  .next (s.alu (Instr.fmaxX g x) latF4 (floatOp fun fl f _ _ a b _ => fMinMax fl f true a b))

/-- FCMP (R251), one word. -/
def execFcmp (g : Guard) (b : BitVec 5) (a : BitVec 6) (d : BitVec 3) (s : State) : Host.Outcome State Fault Refusal :=
  .next (s.alu (Instr.fcmp g b a d) latF4 fcmpOp)

/-- FCMP (R251). -/
def execFcmpX (g : Guard) (x : XForm) (s : State) : Host.Outcome State Fault Refusal :=
  .next (s.alu (Instr.fcmpX g x) latF4 fcmpOp)

/-- FADDMIN (R250). -/
def execFaddmin (g : Guard) (x : XForm) (s : State) : Host.Outcome State Fault Refusal :=
  .next (s.alu (Instr.faddmin g x) latF4 faddminOp)

/-- FCLASS (R251), one word. -/
def execFclass (g : Guard) (a : BitVec 6) (d : BitVec 6) (s : State) : Host.Outcome State Fault Refusal :=
  .next (s.alu (Instr.fclass g a d) latF4 (floatOp fun _ f _ _ a _ _ => (fClass f a, 0)))

/-- FCLASS (R251). -/
def execFclassX (g : Guard) (x : XForm) (s : State) : Host.Outcome State Fault Refusal :=
  .next (s.alu (Instr.fclassX g x) latF4 (floatOp fun _ f _ _ a _ _ => (fClass f a, 0)))

/-- FRND (R251), one word. -/
def execFrnd (g : Guard) (a : BitVec 6) (d : BitVec 6) (s : State) : Host.Outcome State Fault Refusal :=
  .next (s.alu (Instr.frnd g a d) latF4 (floatOp fun fl f m _ a _ _ => fRnd fl f m a))

/-- FRND (R251). -/
def execFrndX (g : Guard) (x : XForm) (s : State) : Host.Outcome State Fault Refusal :=
  .next (s.alu (Instr.frndX g x) latF4 (floatOp fun fl f m _ a _ _ => fRnd fl f m a))

/-- RCP (R252, R253), one word. -/
def execRcp (g : Guard) (a : BitVec 6) (d : BitVec 6) (s : State) : Host.Outcome State Fault Refusal :=
  .next (s.alu (Instr.rcp g a d) latT16 (transOp .rcp))

/-- RSQ (R252, R253), one word. -/
def execRsq (g : Guard) (a : BitVec 6) (d : BitVec 6) (s : State) : Host.Outcome State Fault Refusal :=
  .next (s.alu (Instr.rsq g a d) latT16 (transOp .rsq))

/-- SQRT (R252, R253), one word. -/
def execSqrt (g : Guard) (a : BitVec 6) (d : BitVec 6) (s : State) : Host.Outcome State Fault Refusal :=
  .next (s.alu (Instr.sqrt g a d) latT16 (transOp .sqrt))

/-- RCP, RSQ and SQRT (R252, R253). -/
def execRcpRsqSqrtX (g : Guard) (x : XForm) (s : State) : Host.Outcome State Fault Refusal :=
  .next (s.alu (Instr.rcpRsqSqrtX g x) latT16 (transOp (rcpFamily x.sub.toNat)))

/-- EXP2 (R252, R253), one word. -/
def execExp2 (g : Guard) (a : BitVec 6) (d : BitVec 6) (s : State) : Host.Outcome State Fault Refusal :=
  .next (s.alu (Instr.exp2 g a d) latT16 (transOp .exp2))

/-- LOG2 (R252, R253), one word. -/
def execLog2 (g : Guard) (a : BitVec 6) (d : BitVec 6) (s : State) : Host.Outcome State Fault Refusal :=
  .next (s.alu (Instr.log2 g a d) latT16 (transOp .log2))

/-- EXP2 and LOG2 (R252, R253). -/
def execExp2Log2X (g : Guard) (x : XForm) (s : State) : Host.Outcome State Fault Refusal :=
  .next (s.alu (Instr.exp2Log2X g x) latT16 (transOp (expFamily x.sub.toNat)))

/-- SIN (R252, R253), one word. -/
def execSin (g : Guard) (a : BitVec 6) (d : BitVec 6) (s : State) : Host.Outcome State Fault Refusal :=
  .next (s.alu (Instr.sin g a d) latT16 (transOp .sin))

/-- COS (R252, R253), one word. -/
def execCos (g : Guard) (a : BitVec 6) (d : BitVec 6) (s : State) : Host.Outcome State Fault Refusal :=
  .next (s.alu (Instr.cos g a d) latT16 (transOp .cos))

/-- TANH (R252, R253), one word. -/
def execTanh (g : Guard) (a : BitVec 6) (d : BitVec 6) (s : State) : Host.Outcome State Fault Refusal :=
  .next (s.alu (Instr.tanh g a d) latT16 (transOp .tanh))

/-- SIN, COS and TANH (R252, R253). -/
def execSinCosTanhX (g : Guard) (x : XForm) (s : State) : Host.Outcome State Fault Refusal :=
  .next (s.alu (Instr.sinCosTanhX g x) latT16 (transOp (sinFamily x.sub.toNat)))

/-- HADD2 (R250), one word. -/
def execHadd2 (g : Guard) (b : BitVec 5) (a : BitVec 6) (d : BitVec 6) (s : State) : Host.Outcome State Fault Refusal :=
  .next (s.alu (Instr.hadd2 g b a d) latF4 (packedOp fun fl f m sat a b _ => fAdd fl f m sat a b))

/-- HADD2 (R250). -/
def execHadd2X (g : Guard) (x : XForm) (s : State) : Host.Outcome State Fault Refusal :=
  .next (s.alu (Instr.hadd2X g x) latF4 (packedOp fun fl f m sat a b _ => fAdd fl f m sat a b))

/-- HMUL2 (R250), one word. -/
def execHmul2 (g : Guard) (b : BitVec 5) (a : BitVec 6) (d : BitVec 6) (s : State) : Host.Outcome State Fault Refusal :=
  .next (s.alu (Instr.hmul2 g b a d) latF4 (packedOp fun fl f m sat a b _ => fMul fl f m sat a b))

/-- HMUL2 (R250). -/
def execHmul2X (g : Guard) (x : XForm) (s : State) : Host.Outcome State Fault Refusal :=
  .next (s.alu (Instr.hmul2X g x) latF4 (packedOp fun fl f m sat a b _ => fMul fl f m sat a b))

/-- HFMA2 (R250), one word. -/
def execHfma2 (g : Guard) (b : BitVec 5) (a : BitVec 6) (d : BitVec 6) (s : State) : Host.Outcome State Fault Refusal :=
  .next (s.alu (Instr.hfma2 g b a d) latF4 (packedOp fFma))

/-- HFMA2 (R250). -/
def execHfma2X (g : Guard) (x : XForm) (s : State) : Host.Outcome State Fault Refusal :=
  .next (s.alu (Instr.hfma2X g x) latF4 (packedOp fFma))

/-- DOT4 (R254), one word. -/
def execDot4 (g : Guard) (b : BitVec 5) (a : BitVec 6) (d : BitVec 6) (s : State) : Host.Outcome State Fault Refusal :=
  .next (s.alu (Instr.dot4 g b a d) latM6 dot4Op)

/-- DOT4 (R254). -/
def execDot4X (g : Guard) (x : XForm) (s : State) : Host.Outcome State Fault Refusal :=
  .next (s.alu (Instr.dot4X g x) latM6 dot4Op)

/-- CVTF (R255), one word. -/
def execCvtf (g : Guard) (t : BitVec 5) (a : BitVec 6) (d : BitVec 6) (s : State) : Host.Outcome State Fault Refusal :=
  .next (s.alu (Instr.cvtf g t a d) latM6 cvtfOp)

/-- CVTF (R255). -/
def execCvtfX (g : Guard) (x : XForm) (s : State) : Host.Outcome State Fault Refusal :=
  .next (s.alu (Instr.cvtfX g x) latM6 cvtfOp)

/-- CVTFI (R255, R256), one word. -/
def execCvtfi (g : Guard) (t : BitVec 5) (a : BitVec 6) (d : BitVec 6) (s : State) : Host.Outcome State Fault Refusal :=
  .next (s.alu (Instr.cvtfi g t a d) latM6 cvtfiOp)

/-- CVTFI (R255, R256). -/
def execCvtfiX (g : Guard) (x : XForm) (s : State) : Host.Outcome State Fault Refusal :=
  .next (s.alu (Instr.cvtfiX g x) latM6 cvtfiOp)

/-- CVTIF (R255), one word. -/
def execCvtif (g : Guard) (t : BitVec 5) (a : BitVec 6) (d : BitVec 6) (s : State) : Host.Outcome State Fault Refusal :=
  .next (s.alu (Instr.cvtif g t a d) latM6 cvtifOp)

/-- CVTIF (R255). -/
def execCvtifX (g : Guard) (x : XForm) (s : State) : Host.Outcome State Fault Refusal :=
  .next (s.alu (Instr.cvtifX g x) latM6 cvtifOp)

/-- QUANT (R258). -/
def execQuant (g : Guard) (x : XForm) (s : State) : Host.Outcome State Fault Refusal :=
  .next (s.alu (Instr.quant g x) latM6 quantOp)

/-- DEQ (R258). -/
def execDeq (g : Guard) (x : XForm) (s : State) : Host.Outcome State Fault Refusal :=
  .next (s.alu (Instr.deq g x) latM6 deqOp)

/-- BLKMAX (R259). -/
def execBlkmax (g : Guard) (x : XForm) (s : State) : Host.Outcome State Fault Refusal :=
  .next (Sys2Proof.Machine.blkmax (Instr.blkmax g x) s)

end Sys2Proof.Machine
end

