-- ==== Sys2Proof/Machine/Lane.lean ====
section
/-! DEFINITION. Lane instructions, opcodes 0x48 to 0x4C (10, R260 to R267). -/

namespace Sys2Proof.Machine

/-- A participating position of a lane instruction (R260): its number, its thread, its operands. -/
structure Place where
  pos : Nat
  t : TRef
  o : Operands
  deriving DecidableEq, Repr

/-- R201, R260: the position of a thread in a scope. -/
def State.position (s : State) (sc : Scope) (t : TRef) : Nat :=
  let w := s.warp t.warp
  match sc with
  | .set => 32 * (setMembers w.setReg).idxOf w.index + t.lane
  | .block => 32 * w.index + t.lane
  | _ => t.lane

/-- R260: how many positions a scope has. -/
def State.positions (s : State) (sc : Scope) (t : TRef) : Nat :=
  let w := s.warp t.warp
  match sc with
  | .set => 32 * (setMembers w.setReg).length
  | .block => 32 * (s.block w.block).warps.length
  | _ => 32

/-- A place inserted in ascending position. -/
def insertPlace (p : Place) : List Place → List Place
  | [] => [p]
  | q :: rest => if p.pos ≤ q.pos then p :: q :: rest else q :: insertPlace p rest

/-- R260: the participating positions in ascending order. -/
def State.places (s : State) (f : Form) : List Place :=
  ((s.cur.group.filter fun t => s.guardHolds t f.g).map fun t => (⟨s.position f.g.scope t, t, s.operands t f⟩ : Place)).foldr
    insertPlace []

/-- A result for a thread. -/
structure LaneRes where
  t : TRef
  v : DWord
  fl : FFlags
  deriving DecidableEq, Repr

/-- R260, R325: a lane instruction issues once; each participating thread receives its result, or with a uniform
destination each member warp that of its lowest participating position; a member warp without one takes the instance's (R40),
but for SHFL (R263). -/
def State.laneOp (s : State) (i : Instr) (op : Form → List Place → State → List LaneRes) : State :=
  let f := i.form
  let res := op f (s.places f) s
  match f.x.dst with
  | .uni n => s.onceFor i fun _ _ s =>
    .done ((s.memberWarps f.g.scope).foldl
      (fun s' w =>
        match (res.find? fun r => r.t.warp = w).orElse fun _ => if f.opc = 0x48 then none else res.head? with
        | some r =>
          let v := widen ((opRule f.opc f.g f.x).d.regs == 2) f.x.ty.signed r.v
          let s'' := s'.writeFixed w latX8 [(.uni (n.toNat % 32), v)]
          (res.filter fun q => q.t.warp = w).foldl (fun s q => s.setFlags q.t q.fl) s''
        | none => s') s)
  | _ => s.eachThread i fun t _ s' =>
    match res.find? fun r => r.t = t with
    | some r => .done ((s'.writeFixed t.warp latX8 (aluWrites f t.lane r.v f.x.ty.signed)).setFlags t r.fl)
    | none => .done s'

/-- R263: the source position of a mode. -/
def shflSource (mode pos b : Nat) : Int :=
  match mode with
  | 0 => b
  | 1 => (pos : Int) - b
  | 2 => (pos : Int) + b
  | _ => (Nat.xor pos b : Nat)

/-- R263: SHFL: the value at the source position, or the thread's own. -/
def shflOne (f : Form) (n : Nat) (ps : List Place) (p : Place) : LaneRes :=
  let src := shflSource (f.x.sub.toNat % 4) p.pos (p.o.b.setWidth 32).toNat
  match ps.find? fun q => decide ((q.pos : Int) = src ∧ q.pos < n) with
  | some q => ⟨p.t, q.o.a, 0⟩
  | none => ⟨p.t, p.o.a, 0⟩

def shflRes (f : Form) (ps : List Place) (s : State) : List LaneRes :=
  match ps with
  | [] => []
  | p0 :: _ => ps.map (shflOne f (s.positions f.g.scope p0.t) ps)

/-- R264: VOTE. -/
def voteRes (f : Form) (ps : List Place) (_ : State) : List LaneRes :=
  let w := f.x.ty.intW
  let a (p : Place) : Nat := p.o.a.toNat % 2 ^ w
  let r : DWord := match f.x.sub.toNat % 4 with
    | 0 => if ps.all fun p => a p ≠ 0 then 1 else 0
    | 1 => if ps.any fun p => a p ≠ 0 then 1 else 0
    | 2 => if ps.all fun p => ps.all fun q => a p = a q then 1 else 0
    | _ => BitVec.ofNat 64 (ps.foldl (fun acc p => if a p ≠ 0 then acc + 2 ^ p.t.lane else acc) 0)
  ps.map fun p => ⟨p.t, r, 0⟩

/-- R265, R267: one combination of two values under an operation of REDUX and SCAN, and its flags. -/
def combine (f : Form) (flush : Bool) (op : Nat) (x y : DWord) : DWord × FFlags :=
  if f.x.ty = .f32 then
    let r := match op with
      | 0 => fAdd flush fp32 f.x.rnd false (codeOf fp32 x) (codeOf fp32 y)
      | 1 => fMinMax flush fp32 false (codeOf fp32 x) (codeOf fp32 y)
      | _ => fMinMax flush fp32 true (codeOf fp32 x) (codeOf fp32 y)
    (BitVec.ofNat 64 r.1, r.2)
  else
    let a := intVal f.x.ty x
    let b := intVal f.x.ty y
    let v : DWord := match op with
      | 0 => wrapInt f.x.ty.intW (a + b)
      | 1 => if b < a then y else x
      | 2 => if a < b then y else x
      | 3 => x &&& y
      | 4 => x ||| y
      | _ => x ^^^ y
    (v, 0)

/-- R220: a term of REDUX or SCAN as it is read: of an f32 the flushed value, and of a NaN the canonical one. -/
def readTerm (f : Form) (flush : Bool) (x : DWord) : DWord × FFlags :=
  if f.x.ty = .f32 then
    match flushIn flush fp32 (fp32.decode (codeOf fp32 x)) with
    | .nan s => (BitVec.ofNat 64 fp32.nanCode, flagIf s nvFlag)
    | .fin n 0 _ _ => (BitVec.ofNat 64 (fp32.code n 0), 0)
    | _ => (x, 0)
  else (x, 0)

/-- R238: one level of the tree: the value at p, a multiple of 2^(t+1), combined with the value at p + 2^t. -/
def treeLevel (g : DWord → DWord → DWord × FFlags) : List (Option DWord) → List (Option DWord) × FFlags
  | x :: y :: rest =>
    let r := treeLevel g rest
    match x, y with
    | some a, some b => let c := g a b; (some c.1 :: r.1, c.2 ||| r.2)
    | some a, none => (some a :: r.1, r.2)
    | none, b => (b :: r.1, r.2)
  | [x] => ([x], 0)
  | [] => ([], 0)

/-- R238: the tree over a list, by as many levels as `n`. -/
def treeSum (g : DWord → DWord → DWord × FFlags) : Nat → List (Option DWord) → Option DWord × FFlags
  | 0, xs => (xs.head?.join, 0)
  | n + 1, xs =>
    let r := treeLevel g xs
    let q := treeSum g n r.1
    (q.1, r.2 ||| q.2)

/-- R265: REDUX: the tree of R238 for an f32 .add; every other operation does not depend on the order of its terms,
up to a NaN's and a zero's sign, which the tree also fixes (DEDUCED, log 15). -/
def reduxRes (f : Form) (ps : List Place) (s : State) : List LaneRes :=
  match ps with
  | [] => []
  | p0 :: _ =>
    let n : Nat := s.positions f.g.scope p0.t
    let term (p : Place) : DWord × FFlags := readTerm f (s.flush p0.t) p.o.a
    let xs := (List.range n).map fun k => (ps.find? fun p => p.pos = k).map fun p => (term p).1
    let fl := ps.foldl (fun (fl : FFlags) p => fl ||| (term p).2) 0
    let r := treeSum (combine f (s.flush p0.t) (f.x.sub.toNat % 8)) (Nat.log2 n + 1) xs
    let v := if f.x.ty.intW = 64 then r.1.getD 0 else ((r.1.getD 0).setWidth 32).setWidth 64
    ps.map fun p => ⟨p.t, v, r.2 ||| fl⟩

/-- R266: MATCH. -/
def matchRes (f : Form) (ps : List Place) (_ : State) : List LaneRes :=
  let w := f.x.ty.intW
  let a (p : Place) : Nat := p.o.a.toNat % 2 ^ w
  let mask (qs : List Place) : DWord := BitVec.ofNat 64 (qs.foldl (fun acc q => acc + 2 ^ q.t.lane) 0)
  if f.x.sub.getLsbD 0 then
    let r := if ps.all fun p => ps.all fun q => a p = a q then mask ps else 0
    ps.map fun p => ⟨p.t, r, 0⟩
  else ps.map fun p => ⟨p.t, mask (ps.filter fun q => a q = a p), 0⟩

/-- R267: the identity of a scan's operation. -/
def scanIdentity (f : Form) : DWord :=
  let op := f.x.sub.toNat % 8
  if f.x.ty = .f32 then (match op with
    | 0 => 0x80000000
    | 1 => 0x7F800000
    | _ => 0xFF800000)
  else match op with
    | 1 => wrapInt f.x.ty.intW (intMax f.x.ty)
    | 2 => wrapInt f.x.ty.intW (intMin f.x.ty)
    | 3 => wrapInt f.x.ty.intW (-1)
    | _ => 0

/-- R267: SCAN, left to right. -/
def scanRes (f : Form) (ps : List Place) (s : State) : List LaneRes :=
  let op := f.x.sub.toNat % 8
  let excl := f.x.sub.getLsbD 3
  let step (acc : List LaneRes × Option DWord × FFlags) (p : Place) : List LaneRes × Option DWord × FFlags :=
    let (out, before, fl) := acc
    let x := readTerm f (s.flush p.t) p.o.a
    let next : DWord × FFlags := match before with
      | some b => let c := combine f (s.flush p.t) op b x.1; (c.1, fl ||| x.2 ||| c.2)
      | none => (x.1, fl ||| x.2)
    let mine : DWord × FFlags := if excl then (before.getD (scanIdentity f), fl) else next
    let v := if f.x.ty.intW = 64 then mine.1 else (mine.1.setWidth 32).setWidth 64
    (out ++ [⟨p.t, v, mine.2⟩], some next.1, next.2)
  (ps.foldl step ([], none, 0)).1

/-! ## Meanings -/

/-- SHFL (R263), one word. -/
def execShfl (g : Guard) (b : BitVec 5) (a : BitVec 6) (d : BitVec 6) (s : State) : Host.Outcome State Fault Refusal :=
  .next (s.laneOp (Instr.shfl g b a d) shflRes)

/-- SHFL (R263). -/
def execShflX (g : Guard) (x : XForm) (s : State) : Host.Outcome State Fault Refusal :=
  .next (s.laneOp (Instr.shflX g x) shflRes)

/-- VOTE (R264), one word. -/
def execVote (g : Guard) (a : BitVec 6) (d : BitVec 3) (s : State) : Host.Outcome State Fault Refusal :=
  .next (s.laneOp (Instr.vote g a d) voteRes)

/-- VOTE (R264). -/
def execVoteX (g : Guard) (x : XForm) (s : State) : Host.Outcome State Fault Refusal :=
  .next (s.laneOp (Instr.voteX g x) voteRes)

/-- REDUX (R265), one word. -/
def execRedux (g : Guard) (a : BitVec 6) (d : BitVec 6) (s : State) : Host.Outcome State Fault Refusal :=
  .next (s.laneOp (Instr.redux g a d) reduxRes)

/-- REDUX (R265). -/
def execReduxX (g : Guard) (x : XForm) (s : State) : Host.Outcome State Fault Refusal :=
  .next (s.laneOp (Instr.reduxX g x) reduxRes)

/-- MATCH (R266), one word. -/
def execMatchAny (g : Guard) (a : BitVec 6) (d : BitVec 6) (s : State) : Host.Outcome State Fault Refusal :=
  .next (s.laneOp (Instr.matchAny g a d) matchRes)

/-- MATCH (R266). -/
def execMatchX (g : Guard) (x : XForm) (s : State) : Host.Outcome State Fault Refusal :=
  .next (s.laneOp (Instr.matchX g x) matchRes)

/-- SCAN (R267), one word. -/
def execScan (g : Guard) (a : BitVec 6) (d : BitVec 6) (s : State) : Host.Outcome State Fault Refusal :=
  .next (s.laneOp (Instr.scan g a d) scanRes)

/-- SCAN (R267). -/
def execScanX (g : Guard) (x : XForm) (s : State) : Host.Outcome State Fault Refusal :=
  .next (s.laneOp (Instr.scanX g x) scanRes)

end Sys2Proof.Machine
end

