-- ==== Sys2Proof/Machine/Control.lean ====
section
/-! DEFINITION. Control, synchronisation, sets, register reallocation, state reading and time (13, R327, R333, R335 to
R348; 08, R204, R205), but for the instructions that touch memory (Access.lean). -/

namespace Sys2Proof.Machine

/-! ## The end of warps, blocks and grids (R327, R365, R368) -/

/-- Whether every operation the warp issued has completed (R327). -/
def State.quiet (s : State) (w : Nat) : Bool :=
  let wp := s.warp w
  let c := s.core wp.core
  wp.stores.isEmpty && wp.inFlight == 0
    && (s.net.all fun m => match m with
      | .windowWriteArrival x => x.srcWarp != w
      | _ => true)
    && s.heldWrites.all (fun h => h.srcWarp != w)
    && c.copies.all (fun o => o.warp != w)
    && c.arrayQ.all (fun o => !o.members.contains w) && c.drainQ.all (fun o => !o.members.contains w)

/-- The number of a core's partition granule pool of a block (R205). -/
def poolKey (place part : Nat) : Nat := 8 * place + part

/-- The place index of a core in a block. -/
def Block.placeOf (b : Block) (core : Nat) : Nat := b.places.idxOf core

/-- R365: a coordinate counts as done when its holder exits. -/
def State.dropCoord (s : State) (g : Nat) (n : Option Nat) : State :=
  match n with
  | some k => s.setGrid g fun gr => { gr with held := gr.held.filter (· ≠ k) }
  | none => s

/-- R184: a warp's exit frees every buffer held by it or offered to it. -/
def State.freeBuffers (s : State) (w : Nat) : State :=
  { s with cores := s.cores.map fun (e : Nat × Core) => (e.1, { e.2 with buffers := e.2.buffers.map fun (b : Nat × Buffer) =>
      if b.2.state ≠ 0 ∧ b.2.warp = w then (b.1, { b.2 with state := 0, gen := b.2.gen + 1 }) else b }) }

/-- The bytes of a packet from an offset, as a number. -/
def field (bs : List Byte) (o n : Nat) : Nat := ofLeBytes ((bs.drop o).take n)

/-- R357: LATB of a grid's packet. -/
def Grid.latb (g : Grid) : Nat := field g.packet 0x28 4

/-- Whether a grid has blocks to place. -/
def Grid.waits (g : Grid) : Bool :=
  !g.toPlace.isEmpty && (match g.state with | .waitingPlacement => true | .running => true | _ => false)

/-- R376: a bounded grid that waits to be placed asks the estimator, once at a time. -/
def State.askEstimator (s : State) (g : Nat) : State :=
  if (s.grid g).waits && (s.grid g).latb != 0 && s.fe.peEn && !s.net.contains (.estimatorRun g) then s.send (.estimatorRun g) else s

/-- R376: cores are released: every bounded grid that waits asks the estimator. -/
def State.coresFreed (s : State) : State := s.grids.foldl (fun (s : State) (e : Nat × Grid) => s.askEstimator e.1) s

/-- R309: what a block's warps have written and observed joins its grid, whose completion waits for it. -/
def State.gridWrote (s : State) (g : Nat) (ws : List Warp) : State :=
  s.setGrid g fun gr => { gr with gw := ws.foldl (fun t w => later (later t w.gwSys.toNat) w.obs.toNat) gr.gw }

/-- R327, R205, R269: a block leaves its cores: its claims and buffers are freed. -/
def State.freeBlock (s0 : State) (b : Nat) : State :=
  let blk := s0.block b
  let s := s0.gridWrote blk.grid ((s0.warps.filter fun e => e.2.block == b).map (·.2))
  let s' := blk.places.foldl (fun s c => s.setCore c fun co =>
    { co with
      accClaim := if co.accClaim = some b then none else co.accClaim
      buffers := co.buffers.map fun (k, bf) =>
        if bf.block = b ∧ bf.state ≠ 0 then (k, { bf with state := 0, gen := bf.gen + 1 }) else (k, bf)
      arrayQ := co.arrayQ.filter fun o => o.block ≠ b
      drainQ := co.drainQ.filter fun o => o.block ≠ b
      copies := co.copies.filter fun o => o.block ≠ b }) s
  State.coresFreed { s' with
    blocks := Tab.del s'.blocks b
    warps := s'.warps.filter fun e => e.2.block ≠ b
    waits := s'.waits.filter fun e => (s.warp e.2.warp).block ≠ b
    heldWrites := s'.heldWrites.filter fun h => (s.warp h.warp).block ≠ b }

/-- R368: whether a grid is complete but for its completion step. -/
def State.gridDone (s : State) (g : Nat) : Bool :=
  let gr := s.grid g
  gr.doneBlocks == gr.blocks && gr.xreads == 0 && gr.tasksPushed == 0 && gr.tasksRunning == 0
    && s.fe.lends.all fun l => l.2.grid != g

/-- The completion step is sent once its conditions hold. -/
def State.checkGrid (s : State) (g : Nat) : State :=
  if (s.grid g).state == .running && s.gridDone g then
    (s.setGrid g fun gr => { gr with state := .ending }).send (.gridCompletion g)
  else s

/-- R327: a warp whose threads have all exited and whose operations have completed is freed, unless a declared set with
unexited members holds it; a block whose warps have all been freed exits. -/
def State.reap (s : State) (w : Nat) : State :=
  let wp := s.warp w
  let gone (v : Nat) : Bool := (s.warp v).threads.all Thread.exited
  let held := !(setMembers wp.setReg).isEmpty && (s.setOf w).any fun m => !gone m
  if gone w && !wp.freed && s.quiet w && wp.task.isNone && !held then
    let s1 := ((s.freeBuffers w).setWarp w fun wp => { wp with freed := true }).dropCoord wp.grid wp.heldCoord
    let b := s1.block wp.block
    if b.warps.all fun v => (s1.warp v).freed then
      let s2 := ((s1.dropCoord wp.grid b.heldCoord).freeBlock wp.block).setGrid wp.grid fun g => { g with doneBlocks := g.doneBlocks + 1 }
      s2.checkGrid wp.grid
    else s1
  else s

/-! ## Simple control (R333, R335 to R337, R343) -/

/-- NOP and YIELD (R337): nothing but the issue; YIELD lets the picker prefer others, except in deterministic mode. -/
def nopEff (_ : TRef) (_ : Operands) (s : State) : Eff := .done s

def yieldEff (t : TRef) (_ : Operands) (s : State) : Eff :=
  .done (s.setThread t fun th => { th with yielded := !(s.grid (s.warp t.warp).grid).det })

/-- NOP and YIELD at wider scopes are a rendezvous and nothing more: members whose predicates differ mismatch (R325). -/
def rendezvous (i : Instr) (s : State) : State := s.laneOrOnce i nopEff

/-- The header address of the clause of a position (R28). -/
def headerOf (pos : DWord) : DWord := pos &&& ~~~7#64

/-- R49: the target of a direct branch. -/
def branchTarget (pos : DWord) (off : DWord) : DWord := headerOf pos + 8 * off

/-- BRA (R49, R334). -/
def bra (i : Instr) (off : DWord) (s : State) : State :=
  s.laneOrOnce i fun _ _ s => .jump s (branchTarget s.cur.pos off)

/-- EXIT (R327, R335). -/
def exitEff (t : TRef) (_ : Operands) (s : State) : Eff :=
  let s1 := (s.setThread t fun th =>
    { th with exited := true, arrival := none, wait := none, lastIssue := s.clock }).unsuspend t
  let w := s1.warp t.warp
  if w.threads.all Thread.exited then
    match w.task with
    | some _ => .stay (s1.send (.taskEnd t.warp))
    | none => .stay s1
  else .stay s1

def exitOp (i : Instr) (s : State) : State :=
  let ws := s.groupWarps
  ws.foldl (fun s w => s.reap w) (s.eachThread i exitEff)

/-- TRAP and BRK (R336). -/
def trapOp (i : Instr) (cls : Nat) (code : BitVec 6) (s : State) : State :=
  s.laneOrOnce i fun _ _ _ => .fault (report cls 0 (code.setWidth 64))

/-- R28, R336: the position after a position: the next slot of its clause, or slot 0 of the next clause. `cnt` and the
clause's end are those of the clause at the position. -/
def afterPos (pos nextClause : DWord) (cnt : Nat) : DWord :=
  if (pos.extractLsb' 0 2).toNat < cnt then pos + 1 else nextClause

/-- IDEMB and IDEME (R343). -/
def idemOp (i : Instr) (on : Bool) (s : State) : State :=
  s.onceFor i fun ld _ s => .done (s.setWarp ld.warp fun w =>
    { w with idem := on, idemPos := if on then s.cur.pos else w.idemPos })

/-! ## Barriers (R338, R339) -/

/-- R339: whether a window write or LDW that a warp of a list has issued has not been applied. STS and LDS act at once in this
model (log 9), and an STW.wait held at its target is not waited for. -/
def State.windowsOut (s : State) (ws : List Nat) : Bool :=
  s.net.any fun m =>
    match m with
    | .windowWriteArrival mm => ws.contains mm.srcWarp
    | .vclassWriteBack wb => ws.contains wb.warp && (match wb.src with | .window .. => true | _ => false)
    | _ => false

/-- Plain BAR (R339): complete when its rendezvous is and no window access of a participant is under way. -/
def barPlain (i : Instr) (s : State) : State :=
  if s.windowsOut s.groupWarps && (s.cur.group.all fun t => s.legal t i.form) then { s with issue := none }
  else s.onceFor i nopEff

/-! ## Sets (R340, R341) -/

/-- R341: whether a list is one a SETDECL of this warp may name; no migrated warp holds a set (R320). -/
def State.setListOk (s : State) (w : Nat) (r : DWord) : Bool :=
  let wp := s.warp w
  let k := (r.extractLsb' 54 3).toNat
  let ms := setMembers r
  let upper := r.extractLsb' 57 7
  let unusedZero := (List.range 6).all fun i => decide (i < k) || (r.extractLsb' (9 * i) 9) == 0
  upper == 0 && unusedZero && decide (2 ≤ k ∧ k ≤ 6) && decide (ms.dedup = ms) && ms.contains wp.index
    && ms.all fun m => match s.warpOfIndex wp.block m with
      | some v => (s.warp v).core == wp.core && (s.warp v).slot != 12
      | none => false

/-- The waiting SETDECLs of a block that a warp's arrival meets: those whose list names its index, and those of the warps that
its own list names (R341). -/
def State.setWaiters (s : State) (block index : Nat) (named : List Nat) : List (Nat × WaitRec × DWord) :=
  s.waits.filterMap fun e => match e.2.kind with
    | .setdecl l =>
      if (s.warp e.2.warp).block = block ∧ ((setMembers l).contains index ∨ named.contains (s.warp e.2.warp).index)
      then some (e.1, e.2, l) else none
    | _ => none

/-- SETDECL (R341). -/
def setdeclOp (i : Instr) (s : State) : State :=
  s.onceFor i fun ld o s =>
    let w := s.warp ld.warp
    let mine := s.setWaiters w.block w.index (if w.setReg = 0 && s.setListOk ld.warp o.a then setMembers o.a else [])
    if !s.setListOk ld.warp o.a || w.setReg != 0 then
      -- a listed warp that arrives while in another set faults the arrived warps with cause 4
      let s1 := if w.setReg = 0 then s
        else mine.foldl (fun s e => (s.unpark e.1).raiseAll e.2.1.members (report clsScope 4 0) false) s
      .stay (s1.raiseAll s.cur.group (report clsScope 3 0) false)
    else
      if mine.any fun e => e.2.2 ≠ o.a then
        -- an arriving list that differs: every arrived warp faults (R329)
        let s1 := mine.foldl (fun s e => (s.unpark e.1).raiseAll e.2.1.members (report clsMember 3 0) false) s
        .stay (s1.raiseAll (s.cur.group) (report clsMember 3 0) false)
      else
        let ms := (setMembers o.a).filterMap fun m => s.warpOfIndex w.block m
        if ms.any fun v => (s.warp v).threads.all Thread.exited then
          let s1 := mine.foldl (fun s e => (s.unpark e.1).raiseAll e.2.1.members (report clsScope 4 0) false) s
          .stay (s1.raiseAll (s.cur.group) (report clsScope 4 0) false)
        else
          let arrived := mine.map fun e => e.2.1.warp
          if ms.all fun v => v = ld.warp ∨ arrived.contains v then
            let s1 := mine.foldl (fun s e => s.completeWait e.1) s
            .done (ms.foldl (fun s v => s.setWarp v fun wp => { wp with setReg := o.a }) s1)
          else .held (s.park (.setdecl o.a) ld.warp s.cur.group)

/-- R341: a listed warp exits while others wait in SETDECL: scope-mismatch with cause 4 in every arrived warp. -/
def State.setdeclExit (s : State) (w : Nat) : State :=
  let wp := s.warp w
  if wp.threads.all Thread.exited then
    (s.setWaiters wp.block wp.index []).foldl
      (fun s e => (s.unpark e.1).raiseAll e.2.1.members (report clsScope 4 0) false) s
  else s

/-- R341: the set is dissolved when every member warp with a non-exited thread has issued SETFREE. -/
def State.setfreeDone (s : State) (members : List Nat) : Bool :=
  members.all fun m =>
    (s.warp m).threads.all Thread.exited || s.waits.any fun e => e.2.warp == m && e.2.kind == .setfree

def State.setfreeAll (s : State) (members : List Nat) : State :=
  let ids := (s.waits.filter fun e => members.contains e.2.warp && e.2.kind == .setfree).map (·.1)
  let s1 := ids.foldl (fun s k => s.completeWait k) s
  let s2 := members.foldl (fun s m => s.setWarp m fun w => { w with setReg := 0 }) s1
  members.foldl (fun s m => s.reap m) s2

/-- R341: a member exits: the SETFREEs of its set that waited for it alone complete. -/
def State.setfreeExit (s : State) (w : Nat) : State :=
  let ms := s.setOf w
  if (setMembers (s.warp w).setReg).isEmpty || !(s.warp w).threads.all Thread.exited then s
  else if s.waits.any (fun e => ms.contains e.2.warp && e.2.kind == .setfree) && s.setfreeDone ms then s.setfreeAll ms
  else s

/-- SETFREE (R341). -/
def setfreeOp (i : Instr) (s : State) : State :=
  s.onceFor i fun ld _ s =>
    if (setMembers (s.warp ld.warp).setReg).isEmpty then .done s
    else
      let ms := s.setOf ld.warp
      let s1 := s.park .setfree ld.warp s.cur.group
      if s1.setfreeDone ms then .held (s1.setfreeAll ms) else .held s1

/-! ## Register reallocation (R204, R205) -/

/-- R205, R399: the pool of a warp: the block's for its partition, or its cairn slot's reserve. -/
def State.poolHas (s : State) (w n : Nat) : Bool :=
  let wp := s.warp w
  if wp.slot = 12 then true
  else decide ((n - wp.alloc) / 8 ≤ SMap.get 0 (s.block wp.block).pools (poolKey ((s.block wp.block).placeOf wp.core) wp.part))

/-- REGCLAIM granted: v(a) to v(n-1) become 0 and full. -/
def State.grantRegs (s : State) (w n : Nat) : State :=
  let wp := s.warp w
  let k := poolKey ((s.block wp.block).placeOf wp.core) wp.part
  let take := (n - wp.alloc) / 8
  let s1 := if wp.slot = 12 then s
    else s.setBlock wp.block fun b => { b with pools := SMap.set 0 b.pools k (SMap.get 0 b.pools k - take) }
  s1.setWarp w fun wp =>
    { wp with
      alloc := n
      regs := wp.regs.filter fun e => !(decide (32 * wp.alloc ≤ e.1) && decide (e.1 < 32 * n))
      empty := wp.empty.filter fun e => !(decide (32 * wp.alloc ≤ e.1) && decide (e.1 < 32 * n)) }

/-- The waiting REGCLAIMs of a partition, in order of issue (R205). -/
def State.regWaiters (s : State) (block core part : Nat) : List (Nat × Nat × Nat) :=
  s.waits.filterMap fun e => match e.2.kind with
    | .regclaim n =>
      let wp := s.warp e.2.warp
      if wp.block = block ∧ wp.core = core ∧ wp.part = part ∧ wp.slot ≠ 12 then some (e.1, e.2.warp, n) else none
    | _ => none

/-- REGCLAIM_GRANT (R205): a waiting REGCLAIM that the pool now covers. -/
def regclaimGrant (wait : Nat) (s : State) : State :=
  match Tab.find s.waits wait with
  | some r =>
    match r.kind with
    | .regclaim n => if s.poolHas r.warp n then (s.grantRegs r.warp n).completeWait wait else s
    | _ => s
  | none => s

/-- R205: the REGCLAIMs waiting on a grown pool are examined in order of issue. -/
def State.examineClaims (s : State) (block core part : Nat) : State :=
  (s.regWaiters block core part).foldl (fun s e => s.send (.regclaimGrant e.1)) s

/-- The registers v(n) to v(a-1) of a warp that are the destination of an outstanding V-class write (R205): empty ones
with a write-back under way. -/
def State.regBusy (s : State) (w n : Nat) : Bool :=
  let wp := s.warp w
  s.net.any fun m => match m with
    | .vclassWriteBack wb => wb.warp == w && (match wb.dst with
      | .vec r c => decide (n < r + c ∧ r < wp.alloc)
      | .uni _ => false)
    | .sliceRead r => r.warp == w && (match r.dst with
      | .vec q c => decide (n < q + c ∧ q < wp.alloc)
      | .uni _ => false)
    | .routineInvocation v => v.warp == w && (match v.ret with
      | some q => decide (n < q + 2 ∧ q < wp.alloc)
      | none => false)
    | .routineReturn r => r.inv.warp == w && (match r.inv.ret with
      | some q => decide (n < q + 2 ∧ q < wp.alloc)
      | none => false)
    | _ => false

def regCountOk (n : Nat) : Bool := n % 8 == 0 && decide (8 ≤ n ∧ n ≤ 320)

/-- REGGIVE (R205). Window writes held at a given-away register are discarded; those in flight are at their landing. -/
def reggiveOp (i : Instr) (s : State) : State :=
  s.onceFor i fun ld o s =>
    let n := (o.a.setWidth 32).toNat
    let wp := s.warp ld.warp
    if !regCountOk n || decide (n > wp.alloc) then .fault s.illegal
    else if s.regBusy ld.warp n then .retry
    else
      let b := s.block wp.block
      let k := poolKey (b.placeOf wp.core) wp.part
      let s1 := if wp.slot = 12 then s
        else s.setBlock wp.block fun b => { b with pools := SMap.set 0 b.pools k (SMap.get 0 b.pools k + (wp.alloc - n) / 8) }
      let s2 := s1.setWarp ld.warp fun w =>
        { w with
          alloc := n
          regs := w.regs.filter fun e => decide (e.1 < 32 * n)
          empty := w.empty.filter fun e => decide (e.1 < 32 * n)
          pend := w.pend.filter fun p => match p.key with | .vec r _ => decide (r < n) | _ => true
          winMap := w.winMap &&& BitVec.ofNat 320 (2 ^ n - 1) }
      let s3 := { s2 with heldWrites := s2.heldWrites.filter fun h => !(h.warp == ld.warp && decide (n ≤ h.reg)) }
      .done (s3.examineClaims wp.block wp.core wp.part)

/-- REGCLAIM (R205). -/
def regclaimOp (i : Instr) (s : State) : State :=
  s.onceFor i fun ld o s =>
    let n := (o.a.setWidth 32).toNat
    let wp := s.warp ld.warp
    if !regCountOk n then .fault s.illegal
    else if n ≤ wp.alloc then .done s
    else if s.poolHas ld.warp n then .done (s.grantRegs ld.warp n)
    else if (s.grid wp.grid).det then .retry
    else .held (s.park (.regclaim n) ld.warp s.cur.group)

/-! ## Reading state and marking progress (R342, R344 to R348) -/

/-- RDSR (R342): the special register of A. %fflags reads every earlier instruction's flags (R236). -/
def rdsrOp : AluOp := fun _ o _ _ => .ok o.a false 0

/-- PROG (R344). -/
def progOp (i : Instr) (s : State) : State :=
  s.onceFor i fun ld o s =>
    let v := (o.a.setWidth 32).toNat
    .done (s.setBlock (s.warp ld.warp).block fun b =>
      { b with prog := if i.form.x.sub = 0 then min 65536 (b.prog + v) else min 65536 v })

/-- R174, R283, R395: the deferred fault that a wait on the flags of `mask` raises in a lane, if any. -/
def State.deferredAt (s : State) (t : TRef) (mask : Nat) : Option Deferred :=
  (s.warp t.warp).deferred.find? fun d => mask.testBit d.flag && !d.taken.contains t.lane

/-- R395: the deferred fault is raised in the thread, once; a set-wide one suspends the set (R330). -/
def State.raiseDeferred (s : State) (t : TRef) (d : Deferred) : State :=
  let s1 := s.setWarp t.warp fun w =>
    let live := (List.range w.threads.length).filter fun l => !(w.thread l).exited
    { w with deferred := (w.deferred.map fun e => if e = d then { e with taken := t.lane :: e.taken } else e).filter fun e =>
        !(live.all fun l => e.taken.contains l) }
  let s2 := s1.raise t d.report
  if d.members.isEmpty || reportFatal d.report then s2 else s2.suspend d.members [t]

/-- WAITF (R345): not ready until every named flag is set; a deferred fault is raised here. -/
def waitfEff (t : TRef) (mask : Nat) (s : State) : Eff :=
  let w := s.warp t.warp
  if (List.range 12).all fun k => !mask.testBit k || w.cf.getLsbD k then
    match s.deferredAt t mask with
    | some d => .stay (s.raiseDeferred t d)
    | none => .done (s.waited [t.warp] mask)
  else .retry

def waitfOp (i : Instr) (s : State) : State :=
  if i.form.g.scope = .lane then s.eachThread i fun t o s => waitfEff t (o.a.toNat % 4096) s
  else s.onceFor i fun ld o s =>
    let mask := o.a.toNat % 4096
    let w := s.warp ld.warp
    if (List.range 12).all fun k => !mask.testBit k || w.cf.getLsbD k then
      match s.cur.group.find? fun t => (s.deferredAt t mask).isSome with
      | some _ =>
        .stay (s.cur.group.foldl (fun s t => match s.deferredAt t mask with
          | some d => s.raiseDeferred t d
          | none => s) s)
      | none => .done (s.waited s.groupWarps mask)
    else .retry

/-- R346: the value of a CSR in a thread. -/
def State.csr (s : State) (t : TRef) (n : Nat) : DWord :=
  let w := s.warp t.warp
  let th := w.thread t.lane
  if n = 0 then th.fflags.setWidth 64
  else if n = 1 then th.tcause
  else if n = 2 then th.tpos
  else if n = 3 then th.tval
  else if n = 4 then th.tscr
  else if n = 5 then w.icount
  else if n = 8 then w.gwBlk
  else if n = 9 then w.gwDev
  else if n = 0xA then w.gwSys
  else if n = 0xB then w.obs
  else if 0x100 ≤ n ∧ n < 0x148 then
    let d := s.die ((n - 0x100) / 8)
    let fe := (n - 0x100) / 8 == Config.feDie
    match n % 8 with
    | 0 => d.cnt
    | 1 => if fe then 0 else d.ofs
    | 2 => if fe then 0 else d.rate.setWidth 64
    | 3 => d.gen
    | _ => d.skew.setWidth 64
  else if 0x200 ≤ n ∧ n < 0x240 then SMap.get 0 (s.die ((n - 0x200) / 8)).counters.slice (n % 8)
  else if 0x240 ≤ n ∧ n < 0x280 then SMap.get 0 (s.die ((n - 0x240) / 8)).counters.routine (n % 8)
  else if n = 0x280 then
    BitVec.ofNat 64 ((if s.mem.frz then 2 ^ 17 else 0) + (if s.mem.nocp then 2 ^ 16 else 0) + s.mem.lease)
  else if n = 0x281 then BitVec.ofNat 64 (2 ^ 16 * s.mem.poll + s.mem.yldt)
  else BitVec.ofNat 64 ((if s.mem.far then 2 ^ 16 else 0) + s.mem.ppwin)

/-- CSRR (R347): class V: the destination is empty until the write-back; a uniform destination is written at once. -/
def csrrOp (i : Instr) (s : State) : State :=
  let f := i.form
  let read (t : TRef) (o : Operands) (s : State) : DWord :=
    let v := s.csr t o.a.toNat
    if f.x.ty = .u64 then v else (v.setWidth 32).setWidth 64
  match f.x.dst with
  | .uni n => s.onceFor i fun ld o s => .done (s.writeNow ld.warp [(.uni (n.toNat % 32), read ld o s)])
  | d => s.onceEach i fun t o s =>
    let regs := (opRule f.opc f.g f.x).d.regs
    let s1 := s.setWarp t.warp fun w => { w.markEmpty t.lane d.num.toNat regs true with inFlight := w.inFlight + 1 }
    .done ((s1.fresh).send (.vclassWriteBack
      ⟨s.nextId, t.warp, t.lane, .vec d.num.toNat regs, .value ((read t o s).setWidth 128), s.cur.pos, s.cur.num⟩))

/-- R346, R347: a CSR written in a thread. -/
def State.setCsr (s : State) (t : TRef) (n : Nat) (v : DWord) : State :=
  s.setThread t fun th => if n = 0 then { th with fflags := v.setWidth 4 } else { th with tscr := v }

/-- CSRW (R347): at warp scope the value is written in every member. -/
def csrwOp (i : Instr) (s : State) : State :=
  let f := i.form
  if f.g.scope = .lane then s.eachThread i fun t o s => .done (s.setCsr t o.a.toNat o.b)
  else s.onceFor i fun _ o s => .done (s.cur.group.foldl (fun s t => s.setCsr t o.a.toNat o.b) s)

/-- TIME (R348, R375). -/
def timeOp : AluOp := fun f _ t s =>
  let w := s.warp t.warp
  if (s.grid w.grid).det then .ok (4 * w.icount) false 0
  else if f.x.sub = 0 then .ok (s.common (dieOfCore w.core)) false 0
  else .ok (s.die (dieOfCore w.core)).cnt false 0

/-! ## Meanings -/

/-- NOP (R337). -/
def execNop (g : Guard) (s : State) : Host.Outcome State Fault Refusal :=
  .next (rendezvous (Instr.nop g) s)

/-- YIELD (R337). -/
def execYield (g : Guard) (s : State) : Host.Outcome State Fault Refusal :=
  .next (if g.scope = .lane then s.eachThread (Instr.yield g) yieldEff else rendezvous (Instr.yield g) s)

/-- BRA (R49, R334). -/
def execBra (g : Guard) (o : BitVec 17) (s : State) : Host.Outcome State Fault Refusal :=
  .next (Sys2Proof.Machine.bra (Instr.bra g o) (o.signExtend 64) s)

/-- BRA with a literal offset (R49, R334). -/
def execBraLit (g : Guard) (lit : DWord) (s : State) : Host.Outcome State Fault Refusal :=
  .next (Sys2Proof.Machine.bra (Instr.braLit g lit) lit s)

/-- EXIT (R327, R335). -/
def execExit (g : Guard) (s : State) : Host.Outcome State Fault Refusal :=
  .next (s.groupWarps.foldl (fun s w => s.setdeclExit w) (exitOp (Instr.exit g) s))

/-- TRAP (R336). -/
def execTrap (g : Guard) (c : BitVec 6) (s : State) : Host.Outcome State Fault Refusal :=
  .next (trapOp (Instr.trap g c) clsTrap c s)

/-- BRK (R336). -/
def execBrk (g : Guard) (c : BitVec 6) (s : State) : Host.Outcome State Fault Refusal :=
  .next (trapOp (Instr.brk g c) clsBrk c s)

/-- BAR, plain (R339). -/
def execBar (g : Guard) (s : State) : Host.Outcome State Fault Refusal :=
  .next (barPlain (Instr.bar g) s)

/-- SETDECL (R341). -/
def execSetdecl (g : Guard) (x : XForm) (s : State) : Host.Outcome State Fault Refusal :=
  .next (setdeclOp (Instr.setdecl g x) s)

/-- SETFREE (R341). -/
def execSetfree (g : Guard) (x : XForm) (s : State) : Host.Outcome State Fault Refusal :=
  .next (setfreeOp (Instr.setfree g x) s)

/-- RDSR, one word (R342). -/
def execRdsr (g : Guard) (a : BitVec 6) (d : BitVec 6) (s : State) : Host.Outcome State Fault Refusal :=
  .next (s.alu (Instr.rdsr g a d) latF4 rdsrOp)

/-- RDSR (R342). -/
def execRdsrX (g : Guard) (x : XForm) (s : State) : Host.Outcome State Fault Refusal :=
  .next (s.alu (Instr.rdsrX g x) latF4 rdsrOp)

/-- IDEMB (R343). -/
def execIdemb (g : Guard) (s : State) : Host.Outcome State Fault Refusal :=
  .next (idemOp (Instr.idemb g) true s)

/-- IDEME (R343). -/
def execIdeme (g : Guard) (s : State) : Host.Outcome State Fault Refusal :=
  .next (idemOp (Instr.ideme g) false s)

/-- PROG.add, one word (R344). -/
def execProg (g : Guard) (v : BitVec 5) (s : State) : Host.Outcome State Fault Refusal :=
  .next (progOp (Instr.prog g v) s)

/-- PROG (R344). -/
def execProgX (g : Guard) (x : XForm) (s : State) : Host.Outcome State Fault Refusal :=
  .next (progOp (Instr.progX g x) s)

/-- WAITF, one word (R345). -/
def execWaitf (g : Guard) (a : BitVec 6) (d : BitVec 6) (s : State) : Host.Outcome State Fault Refusal :=
  .next (waitfOp (Instr.waitf g a d) s)

/-- WAITF (R345). -/
def execWaitfX (g : Guard) (x : XForm) (s : State) : Host.Outcome State Fault Refusal :=
  .next (waitfOp (Instr.waitfX g x) s)

/-- REGGIVE (R205). -/
def execReggive (g : Guard) (x : XForm) (s : State) : Host.Outcome State Fault Refusal :=
  .next (reggiveOp (Instr.reggive g x) s)

/-- REGCLAIM (R205). -/
def execRegclaim (g : Guard) (x : XForm) (s : State) : Host.Outcome State Fault Refusal :=
  .next (regclaimOp (Instr.regclaim g x) s)

/-- REGCLAIM_GRANT (R205). -/
def execRegclaimGrant (wait : Nat) (s : State) : Host.Outcome State Fault Refusal :=
  .next (Sys2Proof.Machine.regclaimGrant wait s)

/-- CSRR, one word (R347). -/
def execCsrr (g : Guard) (a : BitVec 6) (d : BitVec 6) (s : State) : Host.Outcome State Fault Refusal :=
  .next (csrrOp (Instr.csrr g a d) s)

/-- CSRR (R347). -/
def execCsrrX (g : Guard) (x : XForm) (s : State) : Host.Outcome State Fault Refusal :=
  .next (csrrOp (Instr.csrrX g x) s)

/-- CSRW, one word (R347). -/
def execCsrw (g : Guard) (b : BitVec 5) (a : BitVec 6) (s : State) : Host.Outcome State Fault Refusal :=
  .next (csrwOp (Instr.csrw g b a) s)

/-- CSRW (R347). -/
def execCsrwX (g : Guard) (x : XForm) (s : State) : Host.Outcome State Fault Refusal :=
  .next (csrwOp (Instr.csrwX g x) s)

/-- TIME, one word (R348). -/
def execTime (g : Guard) (c : BitVec 1) (d : BitVec 6) (s : State) : Host.Outcome State Fault Refusal :=
  .next (s.alu (Instr.time g c d) latF4 timeOp)

/-- TIME (R348). -/
def execTimeX (g : Guard) (x : XForm) (s : State) : Host.Outcome State Fault Refusal :=
  .next (s.alu (Instr.timeX g x) latF4 timeOp)

end Sys2Proof.Machine
end

