-- ==== Sys2Proof/Machine/Memory.lean ====
section
/-! DEFINITION. Memory as every agent reaches it: bytes and lines (R98), page tables and translation (R74 to R78), the
frame check (R80), homes with their lines, copies, collapses and owners (R100 to R108, R121), monitors as writes meet
them (R147), generation bumps (R81), and FE's own reads and indivisible updates (R433). -/

namespace Sys2Proof.Machine

/-! ## Lines (R98) -/

/-- `n` bytes of a line from an offset, as a little-endian number. -/
def lineGet (d : LineData) (off n : Nat) : Nat := (d.extractLsb' (8 * off) (8 * n)).toNat

/-- The line with `n` bytes from an offset replaced by a number's low bytes. -/
def linePut (d : LineData) (off n v : Nat) : LineData :=
  let m : LineData := BitVec.ofNat 1024 (2 ^ (8 * n) - 1) <<< (8 * off)
  (d &&& ~~~m) ||| ((BitVec.ofNat 1024 v <<< (8 * off)) &&& m)

/-- A listed byte laid into the line that starts at an address. -/
def layByte (a : Nat) (d : LineData) (c : Host.Cell) : LineData :=
  d ||| ((BitVec.setWidth 1024 c.2 : LineData) <<< (8 * (c.1 - a) : Nat))

/-- The 128 bytes of a memory from an address. -/
def Memory.line (m : Memory) (a : Nat) : LineData :=
  (m.filter fun c => decide (a ≤ c.1) && decide (c.1 < a + 128)).foldl (layByte a) 0

/-- The bytes of a line that are not 0, from an address. -/
def lineCells (d : LineData) (a : Nat) : Memory :=
  (List.range 128).filterMap fun i =>
    if d.extractLsb' (8 * i) 8 = 0 then none else some (a + i, d.extractLsb' (8 * i) 8)

/-- The memory with 128 bytes from an address replaced. -/
def Memory.putLine (m : Memory) (a : Nat) (d : LineData) : Memory :=
  m.filter (fun c => decide (c.1 < a)) ++ lineCells d a ++ m.filter fun c => decide (a + 128 ≤ c.1)

/-- R98: the package slice number of a line's home, from the line number PA[39:7]. -/
def homeSlice (line : Nat) : Nat :=
  (line % 256) ^^^ (line / 2 ^ 8 % 256) ^^^ (line / 2 ^ 16 % 256) ^^^ (line / 2 ^ 24 % 256) ^^^ (line / 2 ^ 32 % 2)

/-- R98: the home die of a line. -/
def homeDie (line : Nat) : Nat := homeSlice line / Config.slicesPerDie

/-- R121: a line entering its home slice. -/
def HomeLine.enter (d : LineData) : HomeLine where
  state := .clean
  data := d
  emax := 0
  hold := 0
  grants := []
  cpend := false
  waiters := []
  heldFor := none
  ownerDie := none
  ownerData := 0
  ownerDirty := false
  mode := 0
  run := 0
  rdie := 0
  tpp := none

/-- R101: the state of a line at its home with some bytes: clean where HBM holds the same. -/
def State.kept (s : State) (line : Nat) (d : LineData) : HomeState := if d = Memory.line s.hbm (128 * line) then .clean else .dirty

/-- The home line of a line number; entered from HBM where the slice does not hold it (R98). -/
def State.homeLine (s : State) (line : Nat) : HomeLine :=
  (Tab.find s.lines line).getD (HomeLine.enter (Memory.line s.hbm (128 * line)))

def State.setLine (s : State) (line : Nat) (h : HomeLine) : State := { s with lines := Tab.put s.lines line h }

/-- The current value of a home line: the owner's while it is lent (R101). -/
def HomeLine.value (h : HomeLine) : LineData := if h.ownerDie.isSome then h.ownerData else h.data

/-- The current byte at a place: device physical space through the line's holder, or host memory. -/
def State.byteAt (s : State) (host : Bool) (pa : Nat) : Byte :=
  if host then Memory.byte s.hostMem pa
  else match Tab.find s.lines (pa / 128) with
    | some h => h.value.extractLsb' (8 * (pa % 128)) 8
    | none => Memory.byte s.hbm pa

/-- The current value of `n` bytes at a place. -/
def State.peek (s : State) (host : Bool) (pa n : Nat) : Nat :=
  ofLeBytes ((List.range n).map fun i => s.byteAt host (pa + i))

/-- Bytes put at a place by firmware or by FE's host interface: into the line's holder, or the memory itself. -/
def State.poke (s : State) (host : Bool) (pa : Nat) : List Byte → State
  | [] => s
  | b :: rest =>
    let s' := if host then { s with hostMem := Memory.set s.hostMem pa b }
      else match Tab.find s.lines (pa / 128) with
        | some h =>
          let put (d : LineData) := linePut d (pa % 128) 1 b.toNat
          s.setLine (pa / 128) (if h.ownerDie.isSome then { h with ownerData := put h.ownerData, ownerDirty := true }
            else { h with data := put h.data, state := .dirty })
        | none => { s with hbm := Memory.set s.hbm pa b }
    State.poke s' host (pa + 1) rest

/-! ## Time and counters -/

/-- The home's own reading of common time for a line (R104). -/
def State.homeTime (s : State) (line : Nat) : Nat := (s.common (homeDie line)).toNat

/-- R24: the wider SKEW of two dies. -/
def State.skew2 (s : State) (a b : Nat) : Nat := max (s.die a).skew.toNat (s.die b).skew.toNat

/-- R113, R156: a counter of a die advanced. -/
def State.countSlice (s : State) (d k : Nat) : State :=
  s.setDie d fun di => { di with counters := { di.counters with
    slice := SMap.set 0 di.counters.slice k (SMap.get 0 di.counters.slice k + 1) } }

def State.countRoutine (s : State) (d k : Nat) : State :=
  s.setDie d fun di => { di with counters := { di.counters with
    routine := SMap.set 0 di.counters.routine k (SMap.get 0 di.counters.routine k + 1) } }

/-- A message that cannot be acted on yet stays in flight, ahead of the rest. -/
def State.hold (s : State) (m : Msg) : State := { s with net := m :: s.net }

/-- A message that stays in flight, once. -/
def State.keep (s : State) (m : Msg) : State := if s.net.contains m then s else s.hold m

/-- R361: the next sequence number, and the state that has handed it out. -/
def State.takeSeq (s : State) : Nat × State :=
  (s.fe.nextSeq, { s with fe := { s.fe with nextSeq := s.fe.nextSeq + 1 } })

/-- R373: an event with its own sequence number, on its way to the event ring. -/
def State.postEvent (s : State) (type qid : Nat) (d0 d1 : DWord) : State :=
  let (n, s') := s.takeSeq
  s'.send (.eventRecordWrite ⟨type, qid, 1, n, d0, d1⟩)

/-- R373: D1 of types 2 and 3. -/
def eventD1 (asid gen cause : Nat) : DWord := BitVec.ofNat 64 (asid % 4096 + 2 ^ 12 * (gen % 2 ^ 20) + 2 ^ 32 * (cause % 256))

/-! ## Address spaces and frames -/

/-- An address space that was never created (R73: STATE 0). -/
def Asid.none : Asid where
  root := 0
  gen := 0
  st := 0
  cold := 0
  rtab := 0
  tcat := 0
  tcatn := 0
  eptab := 0
  eptn := 0
  hbase := 0
  vbase := 0
  vlen := 0

def State.asid (s : State) (a : Nat) : Asid := (Tab.find s.asids a).getD Asid.none

def State.setAsid (s : State) (a : Nat) (f : Asid → Asid) : State :=
  { s with asids := Tab.put s.asids a (f (s.asid a)) }

/-- R79: a frame entry at reset. -/
def Frame.free : Frame where
  mgen := 0
  owner := 0
  state := 0
  accessed := false
  pin := false
  large := false
  noComp := false
  lease := 0
  mlen := 0
  mgran := 0
  sfn := 0
  va := 0

def State.frame (s : State) (n : Nat) : Frame := (Tab.find s.frames n).getD Frame.free

def State.setFrame (s : State) (n : Nat) (f : Frame → Frame) : State :=
  { s with frames := Tab.put s.frames n (f (s.frame n)) }

/-! ## Generations as agents hold them (R72, R81) -/

/-- R72: the agents that hold a copy of every generation: the cores are 0 to 143, their copy engines 144 to 287, and FE is 288. -/
def engineAgent (core : Nat) : Nat := 144 + core
def feAgent : Nat := 288

/-- R72, R81: the generation of an address space as an agent holds it: without the bumps that it has not installed. -/
def State.genAt (s : State) (agent asid : Nat) : Nat :=
  (s.asid asid).gen - (s.bumps.filter fun b => b.asid == asid && b.installs.contains agent).length

/-! ## The walk (R74 to R76) -/

/-- R74: the table index of an address at a level. -/
def levelIndex (lvl : Nat) (va : DWord) : Nat :=
  match lvl with
  | 4 => va.toNat / 2 ^ 39 % 512
  | 3 => va.toNat / 2 ^ 30 % 512
  | 2 => va.toNat / 2 ^ 21 % 512
  | _ => va.toNat / 2 ^ 16 % 32

/-- R74: log2 of the page a leaf at a level maps. -/
def levelLog2 (lvl : Nat) : Nat :=
  match lvl with
  | 3 => 30
  | 2 => 21
  | _ => 16

/-- R75: fields of an entry. -/
def pteV (e : Nat) : Bool := e.testBit 0
def pteLeaf (e : Nat) : Bool := e.testBit 1
def pteR (e : Nat) : Bool := e.testBit 2
def pteW (e : Nat) : Bool := e.testBit 3
def pteX (e : Nat) : Bool := e.testBit 4
def pteEvc (e : Nat) : Bool := e.testBit 5
def pteTgt (e : Nat) : Nat := e / 2 ^ 6 % 4
def pteAddr (e : Nat) : Nat := e % 2 ^ 52 / 2 ^ 8 * 2 ^ 8

/-- R75: an entry from its fields. -/
def mkPte (v leaf r w x evc : Bool) (tgt addr : Nat) : Nat :=
  v.toNat + 2 * leaf.toNat + 4 * r.toNat + 8 * w.toNat + 16 * x.toNat + 32 * evc.toNat + 64 * tgt + addr

/-- R76: an entry that does not fail the walk at a level, as a leaf or as a pointer to the next table. -/
def pteOk (lvl e : Nat) : Bool :=
  let align := if pteLeaf e then 2 ^ levelLog2 lvl else if lvl = 2 then 256 else 4096
  pteV e && e / 2 ^ 52 == 0 && decide (pteTgt e < 2) && (if pteLeaf e then decide (lvl ≤ 3) else decide (2 ≤ lvl))
    && pteAddr e % align == 0 && (pteTgt e == 1 || decide (pteAddr e < 2 ^ 40))

/-- R74, R76: the walk from a table of a level: the leaf and its level. -/
def State.walkFrom (s : State) (host : Bool) (base : Nat) (va : DWord) : Nat → Option (Nat × Nat)
  | 0 => none
  | lvl + 1 =>
    let e := s.peek host (base + 8 * levelIndex (lvl + 1) va) 8
    if !pteOk (lvl + 1) e then none
    else if pteLeaf e then some (e, lvl + 1)
    else State.walkFrom s (pteTgt e == 1) (pteAddr e) va lvl

/-- R74: the translation of an address of an address space, as a TLB would hold it (R77). -/
def State.walk (s : State) (asid : Nat) (va : DWord) : Option TlbEntry :=
  let a := s.asid asid
  if va.toNat ≥ 2 ^ 48 ∨ a.st = 0 then none
  else match s.walkFrom false a.root va 4 with
    | none => none
    | some (e, lvl) =>
      some ⟨asid, va.toNat / 2 ^ levelLog2 lvl, levelLog2 lvl, a.gen, pteTgt e, pteAddr e, pteR e, pteW e, pteX e⟩

/-- R72: the translation as an agent's walk makes it, under the generation that the agent holds. -/
def State.walkFor (s : State) (agent asid : Nat) (va : DWord) : Option TlbEntry :=
  (s.walk asid va).map fun e => { e with gen := s.genAt agent asid }

/-- The physical address of an address under an entry. -/
def TlbEntry.at (e : TlbEntry) (va : DWord) : Nat := e.pa + va.toNat % 2 ^ e.log2

/-- R77: whether a TLB entry of a core matches. -/
def State.tlbMatches (s : State) (core asid : Nat) (va : DWord) (e : TlbEntry) : Bool :=
  e.asid == asid && e.gen == s.genAt core asid && e.vpage == va.toNat / 2 ^ e.log2 && decide (va.toNat < 2 ^ 48)

/-- R77: a core translates an address: its TLB first, then the walker, whose result the TLB keeps; oldest entry out
(log 8). -/
def State.xlate (s : State) (core asid : Nat) (va : DWord) : Option TlbEntry × State :=
  match (s.core core).tlb.find? (s.tlbMatches core asid va) with
  | some e => (some e, s)
  | none =>
    match s.walkFor core asid va with
    | some e => (some e, s.setCore core fun c =>
        { c with tlb := if c.tlb.length < Config.tlbEntries then c.tlb ++ [e] else c.tlb.drop 1 ++ [e] })
    | none => (none, s)

/-- R78: the cause that ends an access, if any: 1 MISS, 2 PERM. -/
def xlateCause (e : Option TlbEntry) (r w x : Bool) : Option Nat :=
  match e with
  | none => some 1
  | some e => if (r && !e.r) || (w && !e.w) || (x && !e.x) then some 2 else none

/-! ## Copies and collapses (R103 to R107) -/

/-- R114: the lease length in force. -/
def State.leaseLen (s : State) : Nat := max 256 (min 16000 s.mem.lease)

/-- R104: the dies whose leases on a line are live at its home. -/
def State.liveLeases (s : State) (line : Nat) (h : HomeLine) : List Nat :=
  (h.grants.filter fun g => decide (s.homeTime line < g.2 + s.skew2 (homeDie line) g.1)).map (·.1)

/-- R104: the copy of a line that a die may still serve. -/
def State.copyAt (s : State) (die line : Nat) : Option RimeCopy :=
  s.copies.find? fun c => c.die == die && c.line == line
    && decide ((s.common die).toNat + s.skew2 (homeDie line) die < c.expiry)

/-- A die's copy of a line dropped (R105, R312). -/
def State.dropCopy (s : State) (die line : Nat) : State :=
  { s with copies := s.copies.filter fun c => !(c.die == die && c.line == line) }

/-- R110: the region tag of an address. -/
def regionOf (va : DWord) : Nat := va.toNat / 2 ^ 21

/-- R110: the keeper die of a region. -/
def keeperDie (asid region : Nat) : Nat := (asid % 8) ^^^ (region % 8)

/-- R109, R110: the degree of a region at its keeper. -/
def State.degree (s : State) (asid region : Nat) : Nat :=
  match s.keepers.find? fun k => k.asid == asid && k.region == region with
  | some k => k.deg
  | none => 0

/-- Whether a slice's entry is that of a region. -/
def DegreeEntry.isOf (e : DegreeEntry) (slice asid region : Nat) : Bool :=
  e.slice == slice && e.asid == asid && e.region == region

/-- R110: the degree that a slice goes by: a miss in its cache counts as degree 0 until the keeper answers. -/
def State.degreeAt (s : State) (slice asid region : Nat) : Nat :=
  match s.degCache.find? fun e => e.isOf slice asid region with
  | some e => e.deg.getD 0
  | none => 0

/-- R110: a slice without an entry of a region asks its keeper; oldest entry out (log 8). -/
def State.askDegree (s : State) (slice asid region : Nat) : State :=
  if s.degCache.any fun e => e.isOf slice asid region then s
  else
    let mine := s.degCache.filter fun e => e.slice == slice
    let rest := if mine.length < Config.degreeEntries then s.degCache else s.degCache.erase (mine.headD ⟨slice, asid, region, none⟩)
    { s with degCache := rest ++ [⟨slice, asid, region, none⟩] }

/-- R110: the keeper of a region answers the slices that have asked. -/
def State.answerDegree (s : State) (asid region : Nat) : State :=
  { s with degCache := s.degCache.map fun e =>
    if e.asid = asid ∧ e.region = region then { e with deg := some (s.degree asid region) } else e }

/-- R110: the keepers send the present degrees to every slice that has an answer. -/
def State.sendDegrees (s : State) : State :=
  { s with degCache := s.degCache.map fun e => { e with deg := e.deg.map fun _ => s.degree e.asid e.region } }

/-- R106, R123, R174, R189, R291: a write's GWCT on its way to whoever waits for it. -/
def State.ackWrite (s : State) (w : Waiter) (gwct : Nat) : State :=
  match w with
  | .store warp lane id => s.send (.storeAcknowledgement ⟨id, warp, lane, gwct, .blk, true⟩)
  | .copy core id => s.setCore core fun c => { c with copies := c.copies.map fun o =>
      if o.id = id then { o with outstanding := o.outstanding - 1, gwct := later o.gwct gwct } else o }
  | .drain core id => s.setCore core fun c => { c with drainQ := c.drainQ.map fun o =>
      if o.id = id then { o with outstanding := o.outstanding - 1, gwct := later o.gwct gwct } else o }
  | .xread id => { s with fe := { s.fe with xreads := s.fe.xreads.map fun x =>
      if x.id = id then { x with outstanding := x.outstanding - 1, gwct := later x.gwct gwct } else x } }
  | .invocation v ret => s.send (.routineReturn ⟨v, .ok ret gwct⟩)
  | .interrupt v => { s with fe := { s.fe with owed := s.fe.owed ++ [.interrupt v gwct] } }
  | .none => s

/-- R106: the collapse of a line ends at a common time: every write that waited gets the GWCT. -/
def State.endCollapse (s : State) (line t : Nat) : State :=
  let h := s.homeLine line
  h.waiters.foldl (fun s w => s.ackWrite w.1 (max t w.2))
    (s.setLine line { h with cpend := false, hold := 0, grants := [], waiters := [] })

/-- R106: the common time at which a collapse ends without its acknowledgements: EMAX + G. -/
def State.collapseDue (s : State) (line : Nat) (h : HomeLine) : Nat :=
  h.emax + (h.grants.map fun x => s.skew2 (homeDie line) x.1).foldl max (s.die (homeDie line)).skew.toNat

/-- R106, R107: a write or a routine's commit has been applied at the home at its present time: it completes at once, or
with the collapse that it starts or joins. -/
def State.collapse (s : State) (line : Nat) (waiter : Waiter) : State :=
  let h := s.homeLine line
  let t := s.homeTime line
  if h.cpend then s.setLine line { h with waiters := h.waiters ++ [(waiter, t)] }
  else
    match s.liveLeases line h with
    | [] => (s.setLine line { h with hold := 0, grants := [] }).ackWrite waiter t
    | live =>
      let emax := (h.grants.map (·.2)).foldl max 0
      let hold : BitVec 8 := BitVec.ofNat 8 ((live.map fun d => 2 ^ d).foldl (· + ·) 0)
      let s1 := s.setLine line { h with
        cpend := true, hold := hold, emax := emax, waiters := [(waiter, t)]
        grants := h.grants.filter fun g => live.contains g.1 }
      (live.foldl (fun s d => s.send (.collapseReceipt d line)) s1).send (.leaseExpiry line)

/-! ## Monitors as writes meet them (R147, R151) -/

/-- R153: the comparison of a monitor on a value. -/
def cmpHolds (c : Cmp) (wide : Bool) (cur value : Nat) : Bool :=
  let w := if wide then 64 else 32
  let sx (n : Nat) : Int := (BitVec.ofNat w n).toInt
  match c with
  | .eq => cur == value
  | .ne => cur != value
  | .ltu => decide (cur < value)
  | .geu => decide (value ≤ cur)
  | .lts => decide (sx cur < sx value)
  | .ges => decide (sx value ≤ sx cur)

/-- The bytes a key watches (R152). -/
def keyBytes (k : MonKey) : Nat := if k.wide then 8 else 4

/-- Whether a key's condition holds now. -/
def State.keyHolds (s : State) (k : MonKey) : Bool := cmpHolds k.cmp k.wide (s.peek k.host k.pa (keyBytes k)) k.value.toNat

/-- R147: a monitor fires: wakes to every agent of its mask, and the entry is freed. -/
def State.fireMonitor (s : State) (m : Monitor) (result : Bool) : State :=
  let s1 := { s with monitors := s.monitors.filter (· ≠ m) }
  m.agents.foldl (fun s a => s.send (.monitorWake m.key a result)) (s1.countRoutine (m.slice / Config.slicesPerDie) 5)

/-- R147: after a write at the home, every armed entry of the line that now holds fires. -/
def State.fireLine (s : State) (line : Nat) : State :=
  (s.monitors.filter fun m => !m.key.host && m.key.pa / 128 == line && s.keyHolds m.key).foldl
    (fun s m => s.fireMonitor m true) s

/-- R151: a released frame's entries fire with false. -/
def State.fireFrame (s : State) (n : Nat) : State :=
  (s.monitors.filter fun m => !m.key.host && m.key.pa / 65536 == n).foldl (fun s m => s.fireMonitor m false) s

/-- R146: whether a monitor is armed on a line. -/
def State.armedOn (s : State) (line : Nat) : Bool := s.monitors.any fun m => !m.key.host && m.key.pa / 128 == line

/-! ## Owners and the predictor (R102, R120, R121) -/

/-- R114, R157: the ping-pong window in force. -/
def State.ppwin (s : State) : Nat := max 1 s.mem.ppwin

/-- The lent line's data back at its home, in C or D. -/
def HomeLine.returned (h : HomeLine) : HomeLine :=
  { h with state := if h.ownerDirty then .dirty else .clean, data := h.ownerData, ownerDie := none, ownerDirty := false }

/-- R102, R121: the home recalls a lent line for a request from another die. -/
def State.recall (s : State) (line byDie : Nat) : State :=
  let h := s.homeLine line
  match h.ownerDie with
  | none => s
  | some o =>
    if o = byDie then s
    else
      let t := s.homeTime line
      let near := match h.tpp with
        | some p => decide (t - p ≤ s.ppwin)
        | none => false
      let s1 := s.setLine line { h.returned with mode := if near then 1 else h.mode, tpp := some t }
      if near && h.mode == 0 then s1.countRoutine (homeDie line) 2 else s1

/-- R121: RUN on a request that is no invocation. -/
def State.touchRun (s : State) (line die : Nat) : State :=
  match Tab.find s.lines line with
  | none => s
  | some h => if die = homeDie line ∨ die ≠ h.rdie then s.setLine line { h with run := 0 } else s

/-- R102, R121: a request of a die that is no invocation reaches a line at its home. -/
def State.reachHome (s : State) (line die : Nat) : State := (s.recall line die).touchRun line die

/-! ## Sets and ways (R100) -/

/-- R103, R120: the slice of a die that has the local number of a line's home. -/
def sliceAt (die line : Nat) : Nat := die * Config.slicesPerDie + homeSlice line % Config.slicesPerDie

/-- R100: the set of a line. -/
def lineSet (line : Nat) : Nat := Config.sliceSet line % Config.sliceSets

/-- What a way of a set holds (R101): a home line, a line owned in state W, or a die's rime copy. -/
inductive Way where
  | home (line : Nat)
  | owned (line : Nat)
  | copy (die line : Nat)
  deriving DecidableEq, Repr

def Way.isCopy : Way → Bool
  | .copy .. => true
  | _ => false

/-- The ways in use of the set of a slice that a line belongs to. -/
def State.waysAt (s : State) (slice line : Nat) : List Way :=
  (s.lines.filterMap fun e => if homeSlice e.1 == slice && lineSet e.1 == lineSet line then some (.home e.1) else none)
  ++ (s.lines.filterMap fun e => match e.2.ownerDie with
    | some d => if sliceAt d e.1 == slice && lineSet e.1 == lineSet line then some (.owned e.1) else none
    | none => none)
  ++ s.copies.filterMap fun c => if sliceAt c.die c.line == slice && lineSet c.line == lineSet line then some (.copy c.die c.line) else none

/-- R100: whether what a way holds may leave. -/
def State.choosable (s : State) : Way → Bool
  | .home l => match Tab.find s.lines l with
    | some h => !h.cpend && h.ownerDie.isNone && (s.liveLeases l h).isEmpty && !s.badLines.contains l
    | none => true
  | _ => true

/-- R100, R101, R105, R120: what a way holds leaves: a home line for HBM, which holds a clean one already, an owned line for its
home, a copy without a message. -/
def State.evict (s : State) : Way → State
  | .home l => match Tab.find s.lines l with
    | some h => { s with hbm := Memory.putLine s.hbm (128 * l) h.data, lines := Tab.del s.lines l }
    | none => s
  | .owned l => match Tab.find s.lines l with
    | some h => s.setLine l h.returned
    | none => s
  | .copy d l => s.dropCopy d l

/-- One of some ways emptied, which one is left open (R100, log 8); none where there is none. -/
def State.evictOne (s : State) (ws : List Way) : Option State :=
  match ws[Config.victim s.freeCtr % ws.length]? with
  | some w => some ({ s with freeCtr := s.freeCtr + 1 }.evict w)
  | none => none

/-- R100: a way for a line in a slice, for a rime copy or not; none while every way of its set is unchoosable. -/
def State.makeRoom (s : State) (slice line : Nat) (copy : Bool) : Option State :=
  let ws := s.waysAt slice line
  if copy && decide (Config.copyWays ≤ (ws.filter Way.isCopy).length) then s.evictOne (ws.filter Way.isCopy)
  else if ws.length < Config.sliceWays then some s
  else s.evictOne (ws.filter s.choosable)

/-- R98, R100: a line in its home slice; none while it has no way. -/
def State.enterHome (s : State) (line : Nat) : Option State :=
  if (Tab.find s.lines line).isSome then some s
  else (s.makeRoom (homeSlice line) line false).map fun s' =>
    s'.setLine line (HomeLine.enter (Memory.line s'.hbm (128 * line)))

/-! ## Free storage (R70, R88) -/

/-- R91: the stop level in force. -/
def State.sweepHigh (s : State) : Nat := if s.mem.swHigh > s.mem.swLow then s.mem.swHigh else s.mem.swLow + 1

/-- R88: the sweeper starts when FREE falls below LOW and stops when it reaches HIGH. -/
def State.sweepSense (s : State) : State :=
  { s with mem := { s.mem with
    sweeping := decide (s.mem.swFree < s.mem.swLow) || (s.mem.sweeping && decide (s.mem.swFree < s.sweepHigh)) } }

/-- The number of free storage frames changed. -/
def State.setFree (s : State) (n : Nat) : State := State.sweepSense { s with mem := { s.mem with swFree := n } }

/-- R70: the storage frame the controllers choose: the lowest not in use (log 6). -/
def State.freshSfn (s : State) : Nat :=
  let used := (s.frames.filter fun e => e.2.state != 2).map fun e => e.2.sfn
  ((List.range (used.length + 1)).find? fun k => !used.contains k).getD 0

/-- R95: a compressed frame takes a free storage frame and starts to be expanded; while none is free nothing happens. -/
def State.expand (s : State) (n : Nat) : State :=
  if s.mem.swFree = 0 then s
  else (((s.setFree (s.mem.swFree - 1)).setFrame n fun fe => { fe with state := 3, sfn := s.freshSfn })).send (.expansion n)

/-! ## The frame check (R80, R94, R95, R100, R115, R116) -/

/-- What the check answers: serve, reject, or wait. -/
inductive Check where
  | serve (s : State)
  | stale
  | wait (s : State)

/-- The blocks on a die, or with a warp on it. -/
def State.blocksOn (s : State) (die : Nat) : List Nat :=
  (s.blocks.filter fun e => e.2.die == die || e.2.warps.any fun w => !(s.warp w).freed && dieOfCore (s.warp w).core == die).map (·.1)

/-- R115, R116: whether requests to a die's homes and memory controllers wait: it is lost, or it is being reset and its blocks
are gone. -/
def State.dieSilent (s : State) (die : Nat) : Bool :=
  (s.die die).lost || ((s.die die).resetting && (s.blocksOn die).isEmpty)

/-- R80: a request against its frame's entry; a write ends a compression (R94); a compressed frame is expanded first
(R95); a line that an invocation holds is waited for (R124). A request that is served finds its line in the home slice (R100). -/
def State.frameCheck (s : State) (asid gen pa : Nat) (write : Bool) : Check :=
  let n := pa / 65536
  let fe := s.frame n
  if s.dieSilent (homeDie (pa / 128)) then .wait s
  else if fe.state = 0 ∨ fe.owner ≠ asid ∨ gen < fe.mgen then .stale
  else
    let s1 := s.setFrame n fun fe =>
      { fe with accessed := true, noComp := fe.noComp && !write, state := if write && fe.state == 4 then 1 else fe.state }
    if fe.state = 2 then .wait (s1.expand n)
    else if fe.state = 3 then .wait s1
    else if s.badLines.contains (pa / 128) || (s.homeLine (pa / 128)).heldFor.isSome then .wait s1
    else match s1.enterHome (pa / 128) with
      | some s2 => .serve s2
      | none => .wait s1

/-- R80, R373: the event of a dropped write. -/
def State.staleWrite (s : State) (asid gen pa : Nat) : State :=
  s.postEvent 2 0 (BitVec.ofNat 64 pa) (eventD1 asid gen 0)

/-! ## Writes at the home (R106, R107, R120, R301) -/

/-- The value of a line changed by a request of a die, at the owner's slice while that die owns it, else at the home; the
line's monitors see the new value, and the GWCT goes to the waiter. -/
def State.writeLine (s : State) (line die : Nat) (f : LineData → LineData) (waiter : Waiter) : State :=
  let h0 := s.homeLine line
  if h0.ownerDie = some die then
    (s.setLine line { h0 with ownerData := f h0.ownerData, ownerDirty := true }).ackWrite waiter (s.common die).toNat
  else
    let s1 := (s.recall line die).touchRun line die
    let h := s1.homeLine line
    let s2 := s1.setLine line { h with data := f h.data, state := .dirty }
    (s2.fireLine line).collapse line waiter

/-- R110: a request counted for its region. -/
def State.countRegion (s : State) (asid : Nat) (va : DWord) (rr wr coll : Nat) : State :=
  s.send (.degreeCount asid (regionOf va) rr wr coll)

/-- R106, R110: whether a write meets a live lease of its line. -/
def State.leased (s : State) (line : Nat) : Bool :=
  let h := s.homeLine line
  h.cpend || !(s.liveLeases line h).isEmpty

/-- R312: a store counts as applied. -/
def State.markApplied (s : State) (w : WriteReq) : State :=
  match w.waiter with
  | .store warp _ id =>
    s.setWarp warp fun wp => { wp with stores := wp.stores.map fun p => if p.id = id then { p with applied := true } else p }
  | _ => s

/-- R312: the home has applied a store: the issuing core's L1 takes its bytes, and a copy that the issuing die was granted since
the store left it is dropped (R211). -/
def State.storeApplied (s : State) (w : WriteReq) : State :=
  match w.waiter with
  | .store .. =>
    let s1 := (s.markApplied w).setCore w.core fun c => { c with l1 := c.l1.map fun l =>
      if l.asid = w.asid ∧ l.host = w.host ∧ l.line = w.pa / 128 then
        { l with data := linePut l.data (w.pa % 128) w.bytes w.data.toNat } else l }
    if w.host then s1 else s1.dropCopy (dieOfCore w.core) (w.pa / 128)
  | _ => s

/-- The part of a write that lies in its first line (a write of at most 16 aligned bytes lies in one line). -/
def writeFun (pa bytes : Nat) (data : Nat) (d : LineData) : LineData := linePut d (pa % 128) bytes data

/-- SLICE_WRITE (R80, R99, R106): a write reaches its home or FE. -/
def sliceWrite (w : WriteReq) (s : State) : State :=
  if w.host then
    let s1 := s.poke true w.pa (leBytes w.bytes w.data.toNat)
    (s1.storeApplied w).ackWrite w.waiter s1.now
  else
    match s.frameCheck w.asid w.gen w.pa true with
    | .stale => ((s.staleWrite w.asid w.gen w.pa).markApplied w).ackWrite w.waiter 0
    | .wait s1 => s1.hold (.sliceWrite w)
    | .serve s1 =>
      let line := w.pa / 128
      let s2 := (s1.countRegion w.asid w.va 0 1 (s1.leased line).toNat).storeApplied w
      s2.writeLine line (dieOfCore w.core) (writeFun w.pa w.bytes w.data.toNat) w.waiter

/-! ## Generation bumps (R81) -/

/-- The agent, address space and generation of an access in flight: 0 to 143 the cores, 144 to 287 their copy engines. -/
def msgAccess (m : Msg) : Option (Nat × Nat × Nat) :=
  match m with
  | .sliceRead r => some (r.core, r.asid, r.gen)
  | .sliceWrite w => match w.waiter with
    | .copy c _ => some (144 + c, w.asid, w.gen)
    | _ => some (w.core, w.asid, w.gen)
  | .routineInvocation v => some (v.core, v.asid, v.gen)
  | .routineReturn r => some (r.inv.core, r.inv.asid, r.inv.gen)
  | _ => none

/-- R81: the agents with an access of an address space under a generation older than `gen` outstanding: in flight, a store or
an invocation whose GWCT has not returned, an engine's operation, or an update that FE owes. -/
def State.outstanding (s : State) (asid gen : Nat) : List Nat :=
  let stores := (s.warps.filter fun e => e.2.asid == asid && e.2.stores.any fun p => decide (p.gen < gen)).map fun e => e.2.core
  let fe := if s.fe.owed.any fun o => (match o with
    | .update i g _ _ _ _ => i == asid && decide (g < gen)
    | _ => false) then [feAgent] else []
  let inNet := s.net.filterMap fun m => match msgAccess m with
    | some (a, i, g) => if i = asid ∧ g < gen then some a else none
    | none => none
  let engines := s.cores.flatMap fun (c, co) =>
    (if co.copies.any fun o => o.asid == asid && decide (o.gen < gen) then [144 + c] else [])
      ++ (if (co.arrayQ ++ co.drainQ).any fun o => o.asid == asid && decide (o.gen < gen) then [c] else [])
  (inNet ++ stores ++ engines ++ fe).dedup

/-- R108: the collapse of the copies of a frame's lines; true once none has a live lease or a collapse under way. -/
def State.collapseFrame (s : State) (n : Nat) : State × Bool :=
  let mine := s.lines.filter fun e => e.1 / 512 == n && (e.2.cpend || !(s.liveLeases e.1 e.2).isEmpty)
  ((mine.filter fun e => !e.2.cpend).foldl (fun s e => s.collapse e.1 .none) s, mine.isEmpty)

/-- R81: a frame released: STATE 0, its lines and copies gone, its storage free, its monitors false (R151). -/
def State.releaseFrame (s : State) (n : Nat) : State :=
  let fe := s.frame n
  if fe.state = 0 then s
  else
    let s1 := s.fireFrame n
    State.setFree { s1 with
      frames := Tab.del s1.frames n
      lines := s1.lines.filter fun e => e.1 / 512 != n
      copies := s1.copies.filter fun c => c.line / 512 != n
      badLines := s1.badLines.filter fun l => l / 512 != n
      hbm := Memory.clear s1.hbm (65536 * n) 65536 } (s1.mem.swFree + (if fe.state = 2 then 0 else 1))

/-- R81: the cores that hold anything of an address space: warps, translations, lines or operations. Every other core installs a
new generation at once (log 30). -/
def State.coresOf (s : State) (asid : Nat) : List Nat :=
  ((s.warps.filter fun e => e.2.asid == asid && !e.2.freed).map (fun e => e.2.core)
    ++ (s.cores.filter fun e => e.2.tlb.any (fun x => x.asid == asid) || e.2.l1.any (fun x => x.asid == asid)
        || e.2.copies.any (fun x => x.asid == asid) || e.2.catalogue.any (fun x => x.asid == asid)
        || (e.2.arrayQ ++ e.2.drainQ).any fun x => x.asid == asid).map (·.1)).dedup

/-- R81 step 3, R193: FE installs a generation: every external read of the address space under an older one ends as STALE. -/
def State.staleXreads (s : State) (asid gen : Nat) : State :=
  let mine := s.fe.xreads.filter fun x => x.asid == asid && decide (x.gen < gen)
  let s1 := { s with fe := { s.fe with xreads := s.fe.xreads.map fun x =>
    if x.asid = asid ∧ x.gen < gen then { x with status := 1, detail := 0, bytes := 0 } else x } }
  mine.foldl (fun s x => s.sendOnce (.xreadCompletionWord x.id)) s1

/-- R81, R82: a bump: the new generation in the descriptor, and on its way to every receiver; the last generation retires the
address space. -/
def State.bump (s : State) (asid : Nat) (frames reqs : List Nat) : State :=
  let g := (s.asid asid).gen + 1
  let s1 := s.setAsid asid fun a => { a with gen := g, st := if a.st = 1 ∧ 0xFFFFF ≤ g then 3 else a.st }
  let cs := s1.coresOf asid
  let all := cs ++ cs.map engineAgent ++ [feAgent]
  all.foldl (fun s a => s.send (.generationAck asid a)) { s1 with bumps := s1.bumps ++ [⟨asid, g, all, all, frames, reqs⟩] }

/-- R82, R116, R118: the work of an address space ends by a bump: class 6 with TVAL 0 for each grid. -/
def State.endAsid (s : State) (asid : Nat) : State :=
  (s.grids.filter fun e => e.2.asid == asid && e.2.fault.isNone).foldl
    (fun s e => s.send (.fatalFault e.1 (report clsStaleGen 0 0) 0)) s

/-! ## FE and firmware as readers and writers (R99, R361, R433) -/

/-- The translation FE uses for an address space. -/
def State.fePlace (s : State) (asid : Nat) (va : DWord) (w : Bool) : Option (Bool × Nat) :=
  match s.walk asid va with
  | some e => if (if w then e.w else e.r) then some (e.tgt == 1, e.at va) else none
  | none => none

/-- Whether FE's read of a place under a generation passes the frame check (R80). -/
def State.feReadableAs (s : State) (asid gen : Nat) (va : DWord) : Bool :=
  match s.fePlace asid va false with
  | none => false
  | some (true, _) => true
  | some (false, pa) =>
    let fe := s.frame (pa / 65536)
    !(fe.state == 0 || fe.owner != asid || decide (gen < fe.mgen))

/-- The same under the generation that FE holds (R72). -/
def State.feReadable (s : State) (asid : Nat) (va : DWord) : Bool := s.feReadableAs asid (s.genAt feAgent asid) va

/-- FE's read of a byte of an address space, 0 where it cannot be read; callers check `feReadable` first. -/
def State.feByte (s : State) (asid : Nat) (va : DWord) : Byte :=
  match s.fePlace asid va false with
  | some (host, pa) => s.byteAt host pa
  | none => 0

/-- FE's read of `n` bytes within one page, as a number; none where they cannot be read. -/
def State.feReadAs (s : State) (asid gen : Nat) (va : DWord) (n : Nat) : Option Nat :=
  if s.feReadableAs asid gen va then
    match s.fePlace asid va false with
    | some (host, pa) => some (s.peek host pa n)
    | none => none
  else none

def State.feRead (s : State) (asid : Nat) (va : DWord) (n : Nat) : Option Nat := s.feReadAs asid (s.genAt feAgent asid) va n

/-- The bytes of an address space from an address, page by page; none where a page cannot be read. -/
def State.feBytesAs (s : State) (asid gen : Nat) (va : DWord) (n : Nat) : Option (List Byte) :=
  let ok := (List.range ((va.toNat % 65536 + n + 65535) / 65536)).all fun i =>
    s.feReadableAs asid gen (if i = 0 then va else (va &&& ~~~65535#64) + BitVec.ofNat 64 (65536 * i))
  if n = 0 then some []
  else if ok then some ((List.range n).map fun i => s.feByte asid (va + BitVec.ofNat 64 i)) else none

def State.feBytes (s : State) (asid : Nat) (va : DWord) (n : Nat) : Option (List Byte) :=
  s.feBytesAs asid (s.genAt feAgent asid) va n

/-- R362: a completion signal decremented by a value modulo 2^62, with ERR where a grid ended by a fault. -/
def signalDec (v : Nat) (err : Bool) (old : Nat) : Nat :=
  (old % 2 ^ 62 + 2 ^ 62 - v % 2 ^ 62) % 2 ^ 62 + (if err || old.testBit 62 then 2 ^ 62 else 0)

/-- What an update makes of an old value. -/
def FeFun.apply (f : FeFun) (old : Nat) : Nat :=
  match f with
  | .put v => v
  | .signal v err => signalDec v err old
  | .dec => (old + 2 ^ 32 - 1) % 2 ^ 32

/-- Whether an update reads what it changes. -/
def FeFun.reads : FeFun → Bool
  | .put _ => false
  | _ => true

/-- Whether an update that FE owes stands on a line (R433: FE makes the updates of one line one after another). -/
def State.owedOn (s : State) (host : Bool) (line : Nat) : Bool :=
  s.fe.owed.any fun o => match o with
    | .hostWrite cells _ => host && cells.any fun c => c.1 / 128 == line
    | .update asid _ va _ _ _ => match s.fePlace asid va true with
      | some (h, pa) => h == host && pa / 128 == line
      | none => false
    | .interrupt .. => false

def State.owe (s : State) (o : Owed) : State := { s with fe := { s.fe with owed := s.fe.owed ++ [o] } }

/-- R433, R403: an update of host memory that reads what it changes: under CXL.cache FE holds the line and makes it at once; else
it has read, and writes later. -/
def State.hostUpdate (s : State) (cells : List Host.Cell) (waiter : Waiter) : State :=
  if s.hk.cxl then (cells.foldl (fun s c => s.poke true c.1 [c.2]) s).ackWrite waiter s.now
  else s.owe (.hostWrite cells waiter)

/-- The bytes of a value at an address. -/
def cellsAt (pa n v : Nat) : List Host.Cell := (leBytes n v).zipIdx.map fun b => (pa + b.2, b.1)

/-- R433: one update of `n` bytes tried, at the line's home or at FE for a host page, for whoever waits for its GWCT; false where it
must wait. A place that cannot be written drops it. -/
def State.tryUpdate (s : State) (asid gen : Nat) (va : DWord) (n : Nat) (f : FeFun) (waiter : Waiter) : State × Bool :=
  match s.fePlace asid va true with
  | none => (s.ackWrite waiter s.now, true)
  | some (true, pa) =>
    let new := f.apply (s.peek true pa n)
    (if f.reads then s.hostUpdate (cellsAt pa n new) waiter else (s.poke true pa (leBytes n new)).ackWrite waiter s.now, true)
  | some (false, pa) =>
    match s.frameCheck asid gen pa true with
    | .stale => ((s.staleWrite asid gen pa).ackWrite waiter s.now, true)
    | .wait s1 => (s1, false)
    | .serve s1 =>
      let line := pa / 128
      ((s1.countRegion asid va 0 1 (s1.leased line).toNat).writeLine line Config.feDie
        (fun d => linePut d (pa % 128) n (f.apply (lineGet d (pa % 128) n))) waiter, true)

/-- R433: an update of FE's, after those that it owes on the line. -/
def State.feUpdateFor (s : State) (asid gen : Nat) (va : DWord) (n : Nat) (f : FeFun) (waiter : Waiter) : State :=
  let busy := match s.fePlace asid va true with
    | some (host, pa) => s.owedOn host (pa / 128)
    | none => false
  if busy then s.owe (.update asid gen va n f waiter)
  else match s.tryUpdate asid gen va n f waiter with
    | (s1, true) => s1
    | (s1, false) => s1.owe (.update asid gen va n f waiter)

def State.feUpdate (s : State) (asid : Nat) (va : DWord) (n : Nat) (f : FeFun) : State :=
  s.feUpdateFor asid (s.genAt feAgent asid) va n f .none

/-- An MSI-X vector raised towards the host. -/
def State.raiseMsix (s : State) (v : Nat) : State := { s with fe := { s.fe with msixRaised := s.fe.msixRaised ++ [v] } }

/-- R312: PKSKEW, the largest SKEW of the nine dies. -/
def State.pkskew (s : State) : Nat := (s.dies.map fun d => d.2.skew.toNat).foldl max 0

/-- FE makes what it owes, oldest first; what must still wait stays owed. An interrupt waits until its GWCT has passed at every
die (R368, R315). -/
def State.payOwed (s : State) : State :=
  s.fe.owed.foldl (fun s o => match o with
    | .update asid gen va n f waiter => s.feUpdateFor asid gen va n f waiter
    | .hostWrite cells waiter => (cells.foldl (fun s c => s.poke true c.1 [c.2]) s).ackWrite waiter s.now
    | .interrupt v gwct => if gwct + s.pkskew ≤ s.now then s.raiseMsix v else s.owe (.interrupt v gwct))
    { s with fe := { s.fe with owed := [] } }

/-- R433: a write by the host: bytes of it that an uncached update is about to write back become unpredictable (log 4). -/
def State.hostStore (s : State) (pa : Nat) (bytes : List Byte) : State :=
  let met (c : Host.Cell) : Bool := decide (pa ≤ c.1 ∧ c.1 < pa + bytes.length)
  let owed := s.fe.owed.map fun o => match o with
    | .hostWrite cells w => Owed.hostWrite (cells.map fun c => if met c then (c.1, (Config.freeValue (s.freeCtr + c.1)).setWidth 8) else c) w
    | o => o
  State.poke { s with fe := { s.fe with owed := owed }, freeCtr := s.freeCtr + 1 } true pa bytes

/-- FE's write of bytes, one line's share after another. -/
def State.feWrite (s : State) (asid : Nat) (va : DWord) (bs : List Byte) : State :=
  (List.range ((bs.length + 7) / 8)).foldl (fun s i =>
    let part := (bs.drop (8 * i)).take 8
    s.feUpdate asid (va + BitVec.ofNat 64 (8 * i)) part.length (.put (ofLeBytes part))) s

/-- R106: FE's write of bytes at a device address that no address space names to it (R83), cut at 8 bytes. -/
def State.fePut (s : State) (host : Bool) (pa : Nat) (bs : List Byte) : State :=
  if host then s.poke true pa bs
  else (List.range ((bs.length + 7) / 8)).foldl (fun s i =>
    let part := (bs.drop (8 * i)).take 8
    let at_ := pa + 8 * i
    ((s.enterHome (at_ / 128)).getD s).writeLine (at_ / 128) Config.feDie
      (fun d => linePut d (at_ % 128) part.length (ofLeBytes part)) .none) s

/-- R362: FE decrements a signal; address 0 names none. -/
def State.decSignal (s : State) (asid : Nat) (va : DWord) (err : Bool) : State :=
  if va = 0 then s else s.feUpdate asid va 8 (.signal 1 err)

/-- R368: the signal of a grid decremented; its interrupt, if it has one, follows the signal's GWCT, or comes at once where there is
no signal. -/
def State.gridSignal (s : State) (asid : Nat) (va : DWord) (err : Bool) (msix : Option Nat) : State :=
  match msix with
  | none => s.decSignal asid va err
  | some v =>
    if va = 0 then s.raiseMsix v else s.feUpdateFor asid (s.genAt feAgent asid) va 8 (.signal 1 err) (.interrupt v)

/-! ## Reads of a die's agents (R80, R95, R102, R103, R121) -/

/-- R103: whether the home grants a copy of a line to a die. -/
def State.mayGrant (s : State) (asid region line die : Nat) (h : HomeLine) : Bool :=
  die != homeDie line && decide (die < Config.shaderDies) && h.ownerDie.isNone && !h.cpend && !s.mem.nocp
    && !(s.die (homeDie line)).resetting
    && decide (((s.liveLeases line h).filter (· ≠ die)).length < s.degreeAt (homeSlice line) asid region)

/-- R104: a copy granted to a die, with its lease, where the die's slice has a way for it (R100). -/
def State.grantCopy (s : State) (line die : Nat) : Option State :=
  ((s.dropCopy die line).makeRoom (sliceAt die line) line true).map fun s0 =>
    let h := s0.homeLine line
    let e := s0.homeTime line + s0.leaseLen
    let s1 := s0.setLine line { h with
      hold := h.hold ||| BitVec.ofNat 8 (2 ^ die), emax := max h.emax e, grants := Tab.put h.grants die e }
    (({ s1 with copies := s1.copies ++ [RimeCopy.mk die line h.data e] }).countSlice die 1).send (.copyExpiry die line)

/-- R103, R110, R121: a read of a die that has passed its frame check at the home of its line: the value stands at the home
afterwards, and the die gets a copy where one is granted; a copy that it holds otherwise is older than what it reads, and is
dropped (R302). None while the copy has no way (R100). -/
def State.readAt (s : State) (asid : Nat) (va : DWord) (line die : Nat) : Option State :=
  let s1 := s.reachHome line die
  if die = homeDie line then some s1
  else
    let s2 := (s1.askDegree (homeSlice line) asid (regionOf va)).countRegion asid va 1 0 0
    if s2.mayGrant asid (regionOf va) line die (s2.homeLine line) then s2.grantCopy line die else some (s2.dropCopy die line)

/-- Whether an agent's access of a line may be served now: its frame and its line are at hand, and no update that FE owes comes
first. An access that the frame check rejects is rejected where its bytes are taken. -/
def State.lineReady (s : State) (asid gen die : Nat) (write : Bool) (va : DWord) : State × Bool :=
  match s.walk asid va with
  | none => (s, true)
  | some e =>
    let host := e.tgt == 1
    let pa := e.at va
    if s.owedOn host (pa / 128) then (s, false)
    else if host || (!write && (s.copyAt die (pa / 128)).isSome) then (s, true)
    else match s.frameCheck asid gen pa write with
      | .stale => (s, true)
      | .wait s1 => (s1, false)
      | .serve s1 => (s1, true)

/-- R103, R114: an agent's read of a line as it is served: from its die's copy, or at the home. -/
def State.lineRead (s : State) (asid gen die : Nat) (va : DWord) : State :=
  match s.walk asid va with
  | none => s
  | some e =>
    let pa := e.at va
    let line := pa / 128
    let fe := s.frame (pa / 65536)
    if e.tgt = 1 ∨ fe.state = 0 ∨ fe.owner ≠ asid ∨ gen < fe.mgen then s
    else if (s.copyAt die line).isSome then s.countSlice die 0
    else (s.readAt asid va line die).getD s

/-- The lines, by address over 128, that spans of addresses touch. -/
def spanLines (spans : List (Nat × Nat)) : List Nat :=
  (spans.flatMap fun p => if p.2 = 0 then [] else (List.range ((p.1 % 128 + p.2 + 127) / 128)).map fun i => p.1 / 128 + i).dedup

/-- R80, R95: the lines of some spans of an address space as an agent of a die reaches them for one step of its own; false where
one must be waited for, and nothing is read or written yet. -/
def State.reachSpans (s : State) (asid gen die : Nat) (write : Bool) (spans : List (Nat × Nat)) : State × Bool :=
  let at_ (l : Nat) : DWord := BitVec.ofNat 64 (128 * l)
  let ls := spanLines spans
  let r := ls.foldl (fun (acc : State × Bool) l =>
    let x := acc.1.lineReady asid gen die write (at_ l)
    (x.1, acc.2 && x.2)) (s, true)
  if r.2 && !write then (ls.foldl (fun s l => s.lineRead asid gen die (at_ l)) r.1, true) else r

/-- The byte that an agent of a die reads at a place: its die's copy serves it while there is one (R103). -/
def State.byteFor (s : State) (die : Nat) (host : Bool) (pa : Nat) : Byte :=
  if host then s.byteAt true pa
  else match s.copyAt die (pa / 128) with
    | some c => c.data.extractLsb' (8 * (pa % 128)) 8
    | none => s.byteAt false pa

/-- FE reaches the lines of spans that it reads or writes. -/
def State.feReach (s : State) (asid : Nat) (write : Bool) (spans : List (Nat × Nat)) : State × Bool :=
  s.reachSpans asid (s.genAt feAgent asid) Config.feDie write spans

/-- What FE does once it has reached what it reads or writes; the step waits before. -/
def State.feThen (s : State) (asid : Nat) (write : Bool) (spans : List (Nat × Nat)) (m : Msg) (act : State → State) : State :=
  match s.feReach asid write spans with
  | (s1, true) => act s1
  | (s1, false) => s1.hold m

end Sys2Proof.Machine
end

