-- ==== Sys2Proof/Machine/MemSys.lean ====
section
/-! DEFINITION. The memory system's own steps: reads at a slice (R103), collapses, leases and recalls (R104 to R106),
degree and keepers (R110 to R112), frames, page tables and memory requests (R73 to R97), the sweeper (R88), die reset,
die loss and soft errors (R115 to R118). -/

namespace Sys2Proof.Machine

/-! ## Reads at a slice (R99, R103, R104) -/

/-- R209: a loaded value of a type widened into its registers. -/
def loadWiden (ty : Ty) (bytes v : Nat) : BitVec 128 :=
  match ty with
  | .s16 => ((BitVec.ofNat 16 v).signExtend 32).setWidth 128
  | .s8 => ((BitVec.ofNat 8 v).signExtend 32).setWidth 128
  | _ => BitVec.ofNat 128 (v % 2 ^ (8 * bytes))

/-- R15: the lines an L1 of 256 KiB holds. -/
def l1Lines : Nat := 2048

/-- R210: a line put into a core's L1; oldest line out (log 8). -/
def State.l1Fill (s : State) (core asid gen : Nat) (host : Bool) (line : Nat) (d : LineData) : State :=
  s.setCore core fun c =>
    let rest := c.l1.filter fun l => !(l.asid == asid && l.gen == gen && l.host == host && l.line == line)
    { c with l1 := (if rest.length < l1Lines then rest else rest.drop 1) ++ [L1Line.mk asid gen host line d] }

/-- R210: the L1 line a load hits. -/
def State.l1Hit (s : State) (core asid gen : Nat) (host : Bool) (line : Nat) : Option LineData :=
  ((s.core core).l1.find? fun l => l.asid == asid && l.gen == gen && l.host == host && l.line == line).map (·.data)

/-- R123, R211: whether a store or an invocation of the line that a core sent has not returned; a read served meanwhile allocates
nothing in its L1, where the line of before it would outlive it. -/
def State.writing (s : State) (core : Nat) (host : Bool) (line : Nat) : Bool :=
  s.warps.any fun e => e.2.core == core && e.2.stores.any fun p => p.host == host && p.pa / 128 == line

/-- A line leaves a core's L1. -/
def State.l1Drop (s : State) (core : Nat) (host : Bool) (line : Nat) : State :=
  s.setCore core fun c => { c with l1 := c.l1.filter fun l => !(l.host == host && l.line == line) }

/-- A read's value on its way to its destination (R34); unpredictable where an engine may still be writing it (R177, R189, R285). -/
def State.loaded (s : State) (r : ReadReq) (d : LineData) : State :=
  let (v, s1) := if r.raced then (let (x, s') := s.free; (x.toNat, s')) else (lineGet d (r.pa % 128) r.bytes, s)
  s1.send (.vclassWriteBack ⟨r.id, r.warp, r.lane, r.dst, .value (loadWiden r.ty r.bytes v), r.insn, 0⟩)

/-- A read's value from beyond L1. A line that L1 holds and the read passed by leaves L1, which may hold an older
value of it (R302). -/
def State.readDone (s : State) (r : ReadReq) (d : LineData) : State :=
  let line := r.pa / 128
  let s1 := if r.ca && !s.writing r.core r.host line then s.l1Fill r.core r.asid r.gen r.host line d
    else s.l1Drop r.core r.host line
  s1.loaded r d

/-- The line of host memory that holds an address. -/
def State.hostLine (s : State) (pa : Nat) : LineData := Memory.line s.hostMem (pa / 128 * 128)

/-- R311: a load of a warp served at the home while a collapse is under way bounds what the warp has observed. -/
def State.observe (s : State) (warp line : Nat) : State :=
  let h := s.homeLine line
  if h.cpend then s.setWarp warp fun w => { w with obs := later w.obs (s.collapseDue line h) } else s

/-- R103, R311: a read that has passed its frame check, at its home or at its owner's slice; it waits while a copy that it
is granted has no way (R100). -/
def State.serveRead (s : State) (r : ReadReq) : State :=
  let line := r.pa / 128
  match s.readAt r.asid r.va line (dieOfCore r.core) with
  | none => s.hold (.sliceRead r)
  | some s1 => (s1.observe r.warp line).readDone r (s1.homeLine line).value

/-- One lane's read at its home slice, or at FE for a host page (R80, R99, R103). A rejected read raises the stale-generation fault
at its lane; a read that meets a lost line never receives the value (R118). -/
def readLane (r : ReadReq) (s : State) : State :=
  let gone := s.setWarp r.warp fun w => { w with inFlight := w.inFlight - 1 }
  if r.host then s.readDone r (s.hostLine r.pa)
  else if s.badLines.contains (r.pa / 128) then gone
  else
    match s.frameCheck r.asid r.gen r.pa false with
    | .stale => gone.fatal r.warp (report clsStaleGen 0 r.va) r.insn
    | .wait s1 => s1.hold (.sliceRead r)
    | .serve s1 => s1.serveRead r

/-- R211: the reads on their way that other lanes of the same issue make of the same line. -/
def State.readMates (s : State) (r : ReadReq) : List ReadReq :=
  s.net.filterMap fun m => match m with
    | .sliceRead u => if u.batch = r.batch ∧ r.batch ≠ 0 ∧ u.id ≠ r.id ∧ u.core = r.core ∧ u.host = r.host ∧ u.pa / 128 = r.pa / 128
      then some u else none
    | _ => none

/-- Reads of one issue served together; where one waits, it and those after it wait. -/
def State.readAll : List ReadReq → State → State
  | [], s => s
  | u :: us, s =>
    let s1 := readLane u { s with net := s.net.erase (.sliceRead u) }
    if s1.net.contains (.sliceRead u) then s1 else State.readAll us s1

/-- SLICE_READ (R80, R99, R103): a read, and with it those of the other lanes of its issue on its line, so that lanes that read one
location read the same value (R211). -/
def sliceRead (r : ReadReq) (s : State) : State :=
  let mates := s.readMates r
  let s1 := readLane r s
  if s1.net.contains (.sliceRead r) then s1 else State.readAll mates s1

/-! ## Collapses, leases, recalls (R102, R104 to R106) -/

/-- COLLAPSE_RECEIPT (R105, R106): a holder invalidates its copy, if it has one, and acknowledges. -/
def collapseReceipt (die line : Nat) (s : State) : State :=
  ((s.dropCopy die line).countSlice die 2).send (.collapseAck die line)

/-- COLLAPSE_ACK (R106): the last acknowledgement ends the collapse. -/
def collapseAck (die line : Nat) (s : State) : State :=
  let h := s.homeLine line
  if !h.cpend then s
  else
    let hold := h.hold &&& ~~~(BitVec.ofNat 8 (2 ^ die))
    let s1 := s.setLine line { h with hold := hold }
    if hold = 0 then s1.endCollapse line (min (s.homeTime line) (s.collapseDue line h)) else s1

/-- R106: home time has reached EMAX + G: the collapse ends without the acknowledgements, at that time. -/
def State.expireCollapse (s : State) (line : Nat) : State :=
  let h := s.homeLine line
  if h.cpend && decide (s.collapseDue line h ≤ s.homeTime line) then s.endCollapse line (s.collapseDue line h) else s

/-- LEASE_EXPIRY (R106): the collapse of a line ends where it is due. -/
def leaseExpiry (line : Nat) (s : State) : State :=
  let s1 := s.expireCollapse line
  if (s1.homeLine line).cpend then s1.hold (.leaseExpiry line) else s1

/-- COPY_EXPIRY (R104): from E − G on the holder treats its copy as absent. -/
def copyExpiry (die line : Nat) (s : State) : State :=
  match s.copies.find? fun c => c.die == die && c.line == line with
  | none => s
  | some _ => if (s.copyAt die line).isSome then s.hold (.copyExpiry die line) else s.dropCopy die line

/-- RECALL (R102, R120, R121). -/
def recallLine (line byDie : Nat) (s : State) : State := s.recall line byDie

/-! ## Degree (R109 to R112) -/

/-- R111: the keeper entry of a region found or made; none where no entry can be had. -/
def State.keeperFor (s : State) (asid region : Nat) : Option (List Keeper) :=
  let d := keeperDie asid region
  let fresh : Keeper := ⟨d, asid, region, 0, false, 0, 0, 0, s.clock⟩
  if s.keepers.any fun k => k.asid == asid && k.region == region then some s.keepers
  else if (s.keepers.filter fun k => k.die == d).length < Config.keeperEntries then some (s.keepers ++ [fresh])
  else
    let free := s.keepers.filter fun k => k.die == d && !k.pin && k.deg == 0
    match free with
    | [] => none
    | k0 :: rest =>
      let v := rest.foldl (fun a k => if k.last < a.last then k else a) k0
      some (s.keepers.map fun k => if k = v then fresh else k)

/-- A keeper entry changed in place. -/
def State.mapKeeper (s : State) (asid region : Nat) (f : Keeper → Keeper) : State :=
  { s with keepers := s.keepers.map fun k => if k.asid = asid ∧ k.region = region then f k else k }

/-- R114: DRAISE or DLOWER for a change of DEG. -/
def State.countDegree (s : State) (asid region old new : Nat) : State :=
  if old < new then s.countSlice (keeperDie asid region) 3
  else if new < old then s.countSlice (keeperDie asid region) 4 else s

/-- DEGREE_COUNT (R110, R111): counts of a region reach its keeper, which answers the slices that have asked for its degree. -/
def degreeCount (asid region rr wr coll : Nat) (s : State) : State :=
  match s.keeperFor asid region with
  | none => s.answerDegree asid region
  | some ks => ({ s with keepers := ks }.mapKeeper asid region fun k =>
      { k with rr := k.rr + rr, wr := k.wr + wr, coll := k.coll + coll, last := s.clock }).answerDegree asid region

/-- R111: the degree of an entry at a boundary. -/
def nextDegree (frz : Bool) (k : Keeper) : Nat :=
  if k.pin || frz then k.deg
  else if 64 ≤ k.coll ∨ k.wr > k.rr then 0
  else if 8 ≤ k.coll then k.deg - 1
  else if 64 ≤ k.rr ∧ 4 * k.wr ≤ k.rr then min 7 (k.deg + 1)
  else k.deg

/-- KEEPER_UPDATE (R111): the update of every entry at a multiple of 10,000 ticks. -/
def keeperUpdate (s : State) : State :=
  let s1 := s.keepers.foldl (fun t k => t.countDegree k.asid k.region k.deg (nextDegree s.mem.frz k)) s
  State.sendDegrees { s1 with keepers := s.keepers.map fun k => { k with deg := nextDegree s.mem.frz k, rr := 0, wr := 0, coll := 0 } }

/-- R112: a pin of a region at a degree; false where it is refused. -/
def State.pinRegion (s : State) (asid region deg : Nat) : State × Bool :=
  match s.keeperFor asid region with
  | none => (s, false)
  | some ks =>
    let old := s.degree asid region
    ((({ s with keepers := ks }.mapKeeper asid region fun k => { k with pin := true, deg := deg }).countDegree
      asid region old deg).sendDegrees, true)

/-- R112: an unpin. -/
def State.unpinRegion (s : State) (asid region : Nat) : State := s.mapKeeper asid region fun k => { k with pin := false }

/-- DGPIN (R112, R114): a pin or unpin written by the host reaches its keeper. -/
def dgpinApply (value : DWord) (s : State) : State :=
  let asid := (value.extractLsb' 47 12).toNat
  let region := (value.extractLsb' 20 27).toNat
  if value.getLsbD 59 then
    let (s1, ok) := s.pinRegion asid region (value.extractLsb' 60 3).toNat
    { s1 with mem := { s1.mem with dgSts := if ok then 2 else 3 } }
  else
    let s1 := s.unpinRegion asid region
    { s1 with mem := { s1.mem with dgSts := 2 } }

/-! ## Frames and storage (R70, R79, R89) -/

/-- The lowest run of `k` free device frames aligned to `k`. -/
def State.freeRun (s : State) (k : Nat) : Nat :=
  ((List.range (s.frames.length + 1)).find? fun i =>
    s.frames.all fun e => decide (e.1 < k * i) || decide (k * i + k ≤ e.1)).getD 0 * k

/-- R79, R81: a device frame bound to a mapping, filled with zeros; no slice holds a line of it. -/
def State.bindFrame (s : State) (n asid gen va : Nat) (pin large : Bool) : State :=
  State.setFree { s with
    frames := Tab.put s.frames n { Frame.free with
      mgen := gen, owner := asid, state := 1, pin := pin, large := large, sfn := s.freshSfn, va := va }
    lines := s.lines.filter fun e => e.1 / 512 != n
    hbm := Memory.clear s.hbm (65536 * n) 65536 } (s.mem.swFree - 1)

/-- R89: storage left beside the frames kept for expansion. -/
def State.spare (s : State) (n : Nat) : Bool := decide (n + 64 ≤ s.mem.swFree)

/-- R70, R89: whether firmware may leave the frames as they are: the frames kept for expansion are free, and every device frame
bound exists. -/
def State.fits (s : State) : Bool := s.spare 0 && s.frames.all fun e => decide (e.1 < 2 ^ 24)

/-- R75: a page table placed by firmware in a pinned frame of ASID 0: its address. -/
def State.allocTable (s : State) (bytes : Nat) : Nat × State :=
  let a := (s.tableNext + bytes - 1) / bytes * bytes
  if a % 65536 = 0 ∨ s.tableNext = 0 then
    let n := s.freeRun 1
    let s1 := s.bindFrame n 0 0 0 true false
    (65536 * n, { s1 with tableNext := 65536 * n + bytes })
  else (a, { s with tableNext := a + bytes })

/-! ## Page table edits (R74, R75) -/

/-- The entry written for an address at a level, tables made on the way from a table of a level. -/
def State.setPteFrom (s : State) (base : Nat) (va : DWord) (target e : Nat) : Nat → State
  | 0 => s
  | lvl + 1 =>
    let at_ := base + 8 * levelIndex (lvl + 1) va
    if lvl + 1 ≤ target then s.poke false at_ (leBytes 8 e)
    else
      let cur := s.peek false at_ 8
      if pteV cur && !pteLeaf cur then State.setPteFrom s (pteAddr cur) va target e lvl
      else
        let (t, s1) := s.allocTable (if lvl = 1 then 256 else 4096)
        State.setPteFrom (s1.poke false at_ (leBytes 8 (mkPte true false false false false false 0 t))) t va target e lvl

/-- R75: the leaf entry of an address of an address space written at the level of a page size. -/
def State.setPte (s : State) (asid : Nat) (va : DWord) (log2 e : Nat) : State :=
  s.setPteFrom (s.asid asid).root va (if log2 = 30 then 3 else if log2 = 21 then 2 else 1) e 4

/-- A page entry that firmware finds for an address: its value, its page and page size. -/
structure Leaf where
  e : Nat
  va : Nat
  log2 : Nat
  deriving DecidableEq, Repr

/-- The entry that maps an address, or holds its evicted page; none where nothing is mapped. -/
def State.leafFrom (s : State) (base : Nat) (va : DWord) : Nat → Option Leaf
  | 0 => none
  | lvl + 1 =>
    let e := s.peek false (base + 8 * levelIndex (lvl + 1) va) 8
    if pteV e && !pteLeaf e then State.leafFrom s (pteAddr e) va lvl
    else if pteV e || pteEvc e then
      some ⟨e, va.toNat / 2 ^ levelLog2 (lvl + 1) * 2 ^ levelLog2 (lvl + 1), levelLog2 (lvl + 1)⟩
    else none

def State.leaf (s : State) (asid va : Nat) : Option Leaf :=
  if (s.asid asid).st = 0 ∨ 2 ^ 48 ≤ va then none else s.leafFrom (s.asid asid).root (BitVec.ofNat 64 va) 4

/-- The 64 KiB page addresses of a range. -/
def pageList (va len : Nat) : List Nat := (List.range (len / 65536)).map fun i => va + 65536 * i

/-- The entries of a range, each once; none where some page of it is not mapped. -/
def State.leaves (s : State) (asid va len : Nat) : Option (List Leaf) :=
  ((pageList va len).mapM fun p => s.leaf asid p).map List.dedup

/-- The entries of a range that map something. -/
def State.leavesIn (s : State) (asid va len : Nat) : List Leaf := ((pageList va len).filterMap fun p => s.leaf asid p).dedup

/-- The 64 KiB units of an entry's page from its ADDR on. -/
def Leaf.units (l : Leaf) : List Nat := (List.range (2 ^ (l.log2 - 16))).map fun i => pteAddr l.e / 65536 + i

/-- The device frames of a valid entry. -/
def Leaf.frames (l : Leaf) : List Nat := if pteV l.e && pteTgt l.e == 0 then l.units else []

/-- The entry of an address that is no pointer to a table, whatever it holds. -/
def State.rawLeafFrom (s : State) (base : Nat) (va : DWord) : Nat → Leaf
  | 0 => ⟨0, va.toNat, 16⟩
  | lvl + 1 =>
    let e := s.peek false (base + 8 * levelIndex (lvl + 1) va) 8
    if pteV e && !pteLeaf e then State.rawLeafFrom s (pteAddr e) va lvl
    else ⟨e, va.toNat / 2 ^ levelLog2 (lvl + 1) * 2 ^ levelLog2 (lvl + 1), levelLog2 (lvl + 1)⟩

def State.rawLeaf (s : State) (asid va : Nat) : Leaf := s.rawLeafFrom (s.asid asid).root (BitVec.ofNat 64 va) 4

def State.rawPte (s : State) (asid va : Nat) : Nat := (s.rawLeaf asid va).e

/-- R87: whether an entry's page is leased. -/
def State.leafLeased (s : State) (asid : Nat) (l : Leaf) : Bool :=
  (l.frames.any fun n => decide (0 < (s.frame n).lease))
    || (pteV l.e && pteTgt l.e == 1 && s.grids.any fun g => g.2.asid == asid && g.2.leases.any fun r =>
        decide (r.1.toNat < l.va + 2 ^ l.log2) && decide (l.va < r.1.toNat + r.2))

/-! ## Memory requests (R83 to R87, R92) -/

/-- R83: a record's address in the ring. -/
def State.mrSlot (s : State) (i : Nat) : Nat := s.mem.mrBase.toNat + 128 + 64 * (i % 2 ^ s.mem.mrLog2n)

def State.mrInHost (s : State) : Bool := Config.ringInHost s.mem.mrBase.toNat

/-- The ring is enabled (R91). -/
def State.mrOn (s : State) : Bool := decide (4 ≤ s.mem.mrLog2n ∧ s.mem.mrLog2n ≤ 16)

/-- R97: a later move in the same direction, on pages that a completed one claimed, takes its status. -/
def twinOf (m : MemOp) (status : Nat) (n : MemOp) : MemOp :=
  if n.op = m.op ∧ n.req.asid = m.req.asid ∧ !n.pages.isEmpty ∧ n.pages.all m.pages.contains then
    { n with twin := some status } else n

/-- R97: firmware reissues an eviction of its own that has lost a race. -/
def State.reissue (s : State) (m : MemOp) (status : Nat) : State :=
  if m.fromDevice ∧ m.op = 7 ∧ status = 1 then
    (m.pages.filterMap fun p => (s.rawLeaf m.req.asid p).units.head?).foldl (fun s n => s.sendOnce (.eviction n)) s
  else s

/-- R85: a request completes: its status, its signal, its interrupt; later moves that share its pages share its status
(R97). -/
def State.completeReq (s : State) (r : MemRequest) (status : Nat) : State :=
  let s1 := match s.mreqs.find? fun e => e.2.req = r with
    | some (k, m) =>
      let s1 := match m.record with
        | some (host, a) => s.fePut host (a + 4) (leBytes 4 status)
        | none => s
      State.reissue { s1 with mreqs := (Tab.del s1.mreqs k).map fun (e : Nat × MemOp) => (e.1, twinOf m status e.2) } m status
    | none => s
  let s2 := s1.decSignal r.asid r.signal false
  if r.flags % 2 = 1 then s2.raiseMsix Config.mrVector else s2

/-- R83, R85: a record whose fields break their rules in any request. -/
def reqBad (r : MemRequest) : Bool := decide (r.flags > 1) || decide (r.asid ≥ 4096) || r.asid == 0

/-- ATTR fields. -/
def attrLog2 (a : Word) : Nat := if a.extractLsb' 3 2 = 0 then 16 else if a.extractLsb' 3 2 = 1 then 21 else 30
def attrBad (a : Word) : Bool := a.extractLsb' 10 22 != 0 || a.extractLsb' 3 2 == 3 || decide ((a.extractLsb' 5 2).toNat ≥ 2) || a.extractLsb' 8 2 == 3

/-- R83: a range that is not whole pages of the request's size within 48 bits. -/
def rangeBad (r : MemRequest) : Bool :=
  let p := 2 ^ attrLog2 r.attr
  r.va.toNat % p != 0 || r.len.toNat % p != 0 || decide (r.va.toNat + r.len.toNat > 2 ^ 48)

/-- An entry that sticks out of the request's range (log 18). -/
def sticksOut (r : MemRequest) (l : Leaf) : Bool :=
  decide (l.va < r.va.toNat) || decide (r.va.toNat + r.len.toNat < l.va + 2 ^ l.log2)

/-- R83, R97: whether an accepted request of lower number still stands on the address space's range. -/
def State.reqWaits (s : State) (r : MemRequest) : Bool :=
  s.mreqs.any fun e => e.2.req.asid == r.asid && decide (e.2.req.seq < r.seq)
    && (e.2.op == 1 || e.2.op == 2 || r.len == 0 || e.2.req.len == 0
      || (decide (e.2.req.va.toNat < r.va.toNat + r.len.toNat) && decide (r.va.toNat < e.2.req.va.toNat + e.2.req.len.toNat)))

/-- R84: the checks common to requests on a live address space: a status, or none. A request that needs a bump completes with
GENEXH on a retired one (R82). -/
def State.reqCheck (s : State) (r : MemRequest) (ranged bumps : Bool) : Option Nat :=
  if reqBad r || attrBad r.attr || (ranged && rangeBad r) then some 4
  else if (s.asid r.asid).st = 1 then none
  else if (s.asid r.asid).st = 3 ∧ bumps then some 6
  else some 9

/-- R82, R85: whether a further bump is possible. -/
def State.canBump (s : State) (asid : Nat) : Bool := decide ((s.asid asid).gen < 0xFFFFF)

/-- A request marked as waiting for its bump. -/
def State.reqInBump (s : State) (r : MemRequest) : State :=
  { s with mreqs := s.mreqs.map fun (k, m) => (k, if m.req = r then { m with waitsBump := true } else m) }

/-- The number of an accepted request, or of a request run without its acceptance. -/
def State.reqId (s : State) (r : MemRequest) (op : Nat) : Nat × State :=
  match s.mreqs.find? fun e => e.2.req = r with
  | some e => (e.1, s)
  | none => (s.nextId, { s.fresh with mreqs := Tab.put s.mreqs s.nextId ⟨r, none, op, [], false, false, r.slot.isNone, none, []⟩ })

/-- A request whose change needs a bump: the bump starts, and the request completes with it. -/
def State.bumpFor (s : State) (r : MemRequest) (op : Nat) (frames : List Nat) : State :=
  let (k, s1) := s.reqId r op
  (s1.reqInBump r).bump r.asid frames [k]

/-- ASCREATE (R73, R82, R84). -/
def ascreate (r : MemRequest) (s : State) : State :=
  if s.reqWaits r then s.hold (.ascreate r)
  else
    let img (o n : Nat) : Nat := s.peek true (r.addr.toNat + o) n
    let bad := reqBad r || attrBad r.attr || decide (img 0x0D 1 > 2) || img 0x0E 2 != 0 || img 0x48 56 != 0
      || img 0x10 8 % 128 != 0 || img 0x30 8 % 65536 != 0 || img 0x38 8 % 65536 != 0 || img 0x40 8 % 65536 != 0
    let a := s.asid r.asid
    if bad then s.completeReq r 4
    else if a.st = 1 ∨ a.st = 2 then s.completeReq r 8
    else if a.st = 3 ∨ a.gen ≥ 0xFFFFF then s.completeReq r 6
    else
      let (root, s1) := s.allocTable 4096
      if !s1.fits then s.completeReq r 5
      else
      let s2 := s1.setAsid r.asid fun a => { a with
        root := root, st := 1, cold := img 0x0D 1, rtab := BitVec.ofNat 64 (img 0x10 8)
        tcat := BitVec.ofNat 64 (img 0x18 8), tcatn := img 0x20 4, eptn := img 0x24 4
        eptab := BitVec.ofNat 64 (img 0x28 8), hbase := BitVec.ofNat 64 (img 0x30 8)
        vbase := BitVec.ofNat 64 (img 0x38 8), vlen := BitVec.ofNat 64 (img 0x40 8) }
      s2.bumpFor r 1 []

/-- R82: a grid of the address space is queued or running. -/
def State.asidBusy (s : State) (asid : Nat) : Bool :=
  (s.grids.any fun g => g.2.asid == asid)
    || s.fe.queues.any fun q => q.2.asid == asid && q.2.packets.any fun p => !p.done && (p.bytes.getD 0 0) == 1

/-- ASDESTROY (R82). -/
def asdestroy (r : MemRequest) (s : State) : State :=
  if s.reqWaits r then s.hold (.asdestroy r)
  else match s.reqCheck r false true with
  | some st => s.completeReq r st
  | none =>
    if s.asidBusy r.asid then s.completeReq r 2
    else if !s.canBump r.asid then s.completeReq r 6
    else
      let mine := (s.frames.filter fun e => e.2.owner == r.asid).map (·.1)
      (s.setAsid r.asid fun a => { a with st := 2 }).bumpFor r 2 mine

/-- MAP's pages: TGT 00 binds fresh frames, TGT 01 names host memory (R84). -/
def State.mapEach (s : State) (r : MemRequest) (gen : Nat) : State :=
  let l := attrLog2 r.attr
  let n := r.len.toNat / 2 ^ l
  let rd := r.attr.getLsbD 0
  let wr := r.attr.getLsbD 1
  (List.range n).foldl (fun s i =>
    let va := r.va.toNat + i * 2 ^ l
    if r.attr.extractLsb' 5 2 = 0 then
      let k := 2 ^ (l - 16)
      let f := s.freeRun k
      let s1 := (List.range k).foldl (fun s j =>
        s.bindFrame (f + j) r.asid gen (va + 65536 * j) (r.attr.getLsbD 7) (decide (l ≠ 16))) s
      s1.setPte r.asid (BitVec.ofNat 64 va) l (mkPte true true rd wr false false 0 (65536 * f))
    else
      s.setPte r.asid (BitVec.ofNat 64 va) l (mkPte true true rd wr false false 1 (r.addr.toNat + i * 2 ^ l))) s

/-- MAP (R81, R84, R87). -/
def mapPagesOp (r : MemRequest) (s : State) : State :=
  if s.reqWaits r then s.hold (.mapPages r)
  else
    let p := 2 ^ attrLog2 r.attr
    let toHost := r.attr.extractLsb' 5 2 == 1
    if r.attr.getLsbD 2 || (toHost && (r.addr.toNat % p != 0 || decide (r.addr.toNat + r.len.toNat > 2 ^ 52))) then
      s.completeReq r 4
    else
      let old := s.leavesIn r.asid r.va.toNat r.len.toNat
      let valid := old.filter fun l => pteV l.e
      match s.reqCheck r true (!valid.isEmpty) with
      | some st => s.completeReq r st
      | none =>
        if old.any (sticksOut r) then s.completeReq r 4
        else if old.any (s.leafLeased r.asid) then s.completeReq r 2
        else if !valid.isEmpty && !s.canBump r.asid then s.completeReq r 6
        else
          let gone := valid.flatMap Leaf.frames
          let gen := (s.asid r.asid).gen + (if valid.isEmpty then 0 else 1)
          let s1 := s.mapEach r gen
          if !s1.fits then s.completeReq r 5
          else if valid.isEmpty then s1.completeReq r 0 else s1.bumpFor r 3 gone

/-- UNMAP (R81, R84, R87). -/
def unmapOp (r : MemRequest) (s : State) : State :=
  if s.reqWaits r then s.hold (.unmap r)
  else match s.reqCheck r true true with
  | some st => s.completeReq r st
  | none =>
    match s.leaves r.asid r.va.toNat r.len.toNat with
    | none => s.completeReq r 3
    | some ls =>
      if ls.any (sticksOut r) then s.completeReq r 4
      else if ls.any (s.leafLeased r.asid) then s.completeReq r 2
      else if !s.canBump r.asid then s.completeReq r 6
      else
        let s1 := ls.foldl (fun s l => s.setPte r.asid (BitVec.ofNat 64 l.va) l.log2 0) s
        s1.bumpFor r 4 (ls.flatMap Leaf.frames)

/-- R81: whether PROTECT takes a permission from an entry, mapped or evicted. -/
def takesRight (r : MemRequest) (l : Leaf) : Bool :=
  (pteR l.e && !r.attr.getLsbD 0) || (pteW l.e && !r.attr.getLsbD 1) || pteX l.e

/-- PROTECT (R81, R84, R87). -/
def protectOp (r : MemRequest) (s : State) : State :=
  if s.reqWaits r then s.hold (.protect r)
  else if r.attr.getLsbD 2 then s.completeReq r 4
  else
    let found := s.leaves r.asid r.va.toNat r.len.toNat
    match s.reqCheck r true ((found.getD []).any (takesRight r)) with
    | some st => s.completeReq r st
    | none =>
      match found with
      | none => s.completeReq r 3
      | some ls =>
        let rd := r.attr.getLsbD 0
        let wr := r.attr.getLsbD 1
        let removes := ls.any (takesRight r)
        if ls.any (sticksOut r) then s.completeReq r 4
        else if ls.any (s.leafLeased r.asid) then s.completeReq r 2
        else if removes && !s.canBump r.asid then s.completeReq r 6
        else
          let s1 := ls.foldl (fun s l => s.setPte r.asid (BitVec.ofNat 64 l.va) l.log2
            (mkPte (pteV l.e) (pteLeaf l.e) rd wr false (pteEvc l.e) (pteTgt l.e) (pteAddr l.e))) s
          if removes then s1.bumpFor r 5 [] else s1.completeReq r 0

/-- SETCOLD (R84). -/
def setcoldOp (r : MemRequest) (s : State) : State :=
  if s.reqWaits r then s.hold (.setcold r)
  else match s.reqCheck r false false with
  | some st => s.completeReq r st
  | none => (s.setAsid r.asid fun a => { a with cold := (r.attr.extractLsb' 8 2).toNat }).completeReq r 0

/-- SETPIN (R84). -/
def setpinOp (r : MemRequest) (s : State) : State :=
  if s.reqWaits r then s.hold (.setpin r)
  else match s.reqCheck r true false with
  | some st => s.completeReq r st
  | none =>
    match s.leaves r.asid r.va.toNat r.len.toNat with
    | none => s.completeReq r 3
    | some ls =>
      if ls.any (sticksOut r) then s.completeReq r 4
      else ((ls.flatMap Leaf.frames).foldl (fun s n => s.setFrame n fun f => { f with pin := r.attr.getLsbD 7 }) s).completeReq r 0

/-! ## Page moves (R96, R97) -/

/-- R96: the host address of an evicted page. -/
def State.backing (s : State) (asid va : Nat) : Nat := (s.asid asid).hbase.toNat + (va - (s.asid asid).vbase.toNat)

/-- R88, R96: whether a page may be evicted to its address space's backing. -/
def State.backed (s : State) (asid va : Nat) : Bool :=
  let a := s.asid asid
  decide (a.vbase.toNat ≤ va ∧ va + 65536 ≤ a.vbase.toNat + a.vlen.toNat)

/-- R96: steps 1 and 2 of a page's way out: STATE 5 and V cleared. -/
def State.startOut (s : State) (asid va : Nat) : State :=
  match s.leaf asid va with
  | some l => ((l.frames.foldl (fun s n => s.setFrame n fun f => { f with state := 5 }) s)).setPte asid (BitVec.ofNat 64 va) l.log2
      (mkPte false (pteLeaf l.e) (pteR l.e) (pteW l.e) (pteX l.e) false (pteTgt l.e) (pteAddr l.e))
  | none => s

/-- R97: an eviction undone: V and STATE 1 restored. -/
def State.undoOut (s : State) (asid va : Nat) : State :=
  let l := s.rawLeaf asid va
  (l.units.foldl (fun s n => s.setFrame n fun f => { f with state := 1 }) s).setPte asid (BitVec.ofNat 64 va) l.log2
    (l.e + 1 - l.e % 2)

/-- R96: steps 4 to 6: the page copied to its backing, the entry evicted (its TGT by log 34), its frames released. -/
def State.finishOut (s : State) (asid va : Nat) : State :=
  let l := s.rawLeaf asid va
  let cur := (List.range (2 ^ (l.log2 - 7))).foldl (fun (m : Memory) i => Memory.putLine m (s.backing asid va + 128 * i)
    (s.homeLine (pteAddr l.e / 128 + i)).value) s.hostMem
  l.units.foldl (fun s n => s.releaseFrame n) (({ s with hostMem := cur }).setPte asid (BitVec.ofNat 64 va) l.log2
    (mkPte false (pteLeaf l.e) (pteR l.e) (pteW l.e) (pteX l.e) true 1 (s.backing asid va)))

/-- R96: an evicted page brought into HBM; its frames are not pinned (log 34). -/
def State.moveIn (s : State) (asid va : Nat) : State :=
  let l := s.rawLeaf asid va
  let k := 2 ^ (l.log2 - 16)
  let n := s.freeRun k
  let s1 := (List.range k).foldl (fun s j => s.bindFrame (n + j) asid (s.asid asid).gen (va + 65536 * j) false (decide (l.log2 ≠ 16))) s
  let img := (List.range (2 ^ (l.log2 - 7))).foldl (fun (m : Memory) i => Memory.putLine m (65536 * n + 128 * i)
    (Memory.line s.hostMem (pteAddr l.e + 128 * i))) s1.hbm
  ({ s1 with hbm := img }).setPte asid (BitVec.ofNat 64 va) l.log2
    (mkPte true true (pteR l.e) (pteW l.e) (pteX l.e) false 0 (65536 * n))

/-- R97: whether a move of the opposite direction to a code's, 6 in and 7 out, claims a page. -/
def State.opposed (s : State) (asid page op : Nat) : Bool :=
  s.mreqs.any fun e => (e.2.op == 6 || e.2.op == 7) && e.2.op != op && e.2.req.asid == asid && !e.2.retry && e.2.pages.contains page

/-- R97: a move request accepted: its claim stands, and a race with a move of the opposite direction is decided; a losing
eviction under way is undone. Codes 6 and 7 are the directions. -/
def State.claim (s : State) (r : MemRequest) (record : Option (Bool × Nat)) (op : Nat) : State :=
  let pages := pageList r.va.toNat r.len.toNat
  let rivals := s.mreqs.filter fun e => (e.2.op == 6 || e.2.op == 7) && e.2.op != op && e.2.req.asid == r.asid
    && !e.2.retry && e.2.pages.any pages.contains
  let leased (p : Nat) : Bool := match s.leaf r.asid p with
    | some l => s.leafLeased r.asid l
    | none => (s.rawLeaf r.asid p).units.any fun n =>
        decide (65536 * (p / 65536) = (s.frame n).va) && decide (0 < (s.frame n).lease)
  let newLoses (m : MemOp) : Bool :=
    if (pages.filter m.pages.contains).any leased then op == 7 else decide (m.req.seq < r.seq)
  let lost := rivals.any fun e => newLoses e.2
  let losers := if lost then [] else rivals
  let s1 := losers.foldl (fun s e =>
    let s' := { s with mreqs := Tab.upd s.mreqs e.1 fun m => { m with retry := true } }
    e.2.outs.foldl (fun s p => s.undoOut r.asid p) s') s
  { s1.fresh with mreqs := Tab.put s1.mreqs s1.nextId ⟨r, record, op, pages, lost, false, r.slot.isNone, none, []⟩ }

/-- The accepted move of a request. -/
def State.moveOf (s : State) (r : MemRequest) : Option MemOp := (s.mreqs.find? fun e => e.2.req = r).map (·.2)

/-- R97: a move whose outcome another move has fixed. -/
def State.moveFixed (s : State) (r : MemRequest) : Option Nat :=
  match s.moveOf r with
  | some m => if m.retry then some 1 else m.twin
  | none => none

/-- MIGIN (R96, R97). -/
def miginOp (r : MemRequest) (s : State) : State :=
  match s.moveFixed r with
  | some st => s.completeReq r st
  | none =>
    if s.reqWaits r then s.hold (.migin r)
    else match s.reqCheck r true false with
    | some st => s.completeReq r st
    | none =>
      match s.leaves r.asid r.va.toNat r.len.toNat with
      | none => s.completeReq r 3
      | some ls =>
        let s1 := (ls.filter fun l => !pteV l.e).foldl (fun s l => s.moveIn r.asid l.va) s
        if ls.any (sticksOut r) then s.completeReq r 4
        else if !s1.fits then s.completeReq r 5 else s1.completeReq r 0

/-- R96: the way out of pages, up to the bump. -/
def State.moveOut (s : State) (r : MemRequest) (vas : List Nat) : State :=
  let s1 := vas.foldl (fun s p => s.startOut r.asid p) s
  let (k, s2) := s1.reqId r 7
  ({ s2 with mreqs := Tab.upd s2.mreqs k fun m => { m with outs := vas, waitsBump := true } }).bump r.asid [] [k]

/-- The compressed frames of some entries, which R96 moves once they are resident again (R95). -/
def State.squeezed (s : State) (ls : List Leaf) : List Nat :=
  (ls.flatMap Leaf.frames).filter fun n => (s.frame n).state == 2 || (s.frame n).state == 3

/-- MIGOUT (R87, R96, R97). -/
def migoutOp (r : MemRequest) (s : State) : State :=
  match s.moveFixed r with
  | some st => s.completeReq r st
  | none =>
    if s.reqWaits r then s.hold (.migout r)
    else
      let found := s.leaves r.asid r.va.toNat r.len.toNat
      let res := (found.getD []).filter fun l => pteV l.e && pteTgt l.e == 0
      match s.reqCheck r true (!res.isEmpty) with
      | some st => s.completeReq r st
      | none =>
        if found.isNone then s.completeReq r 3
        else if (found.getD []).any (sticksOut r) then s.completeReq r 4
        else if res.any (s.leafLeased r.asid) then s.completeReq r 2
        else if (pageList r.va.toNat r.len.toNat).any fun p => !s.backed r.asid p then s.completeReq r 7
        else if res.isEmpty then s.completeReq r 0
        else if !s.canBump r.asid then s.completeReq r 6
        else if !(s.squeezed res).isEmpty then
          (((s.squeezed res).filter fun n => (s.frame n).state == 2).foldl (fun s n => s.expand n) s).hold (.migout r)
        else s.moveOut r (res.map Leaf.va)

/-- R82: an address space's page tables lose every entry. -/
def State.unroot (s : State) (asid : Nat) : State :=
  let root := (s.asid asid).root
  { s with
    hbm := Memory.clear s.hbm root 4096
    lines := s.lines.filter fun e => !(decide (root / 128 ≤ e.1) && decide (e.1 < root / 128 + 32)) }

/-- R81 steps 4 and 5: every receiver has acknowledged: the frames go, and the requests complete; ASDESTROY's signal is decremented
while its address space still translates it (R83). -/
def State.finishBump (s : State) (b : Bump) : State :=
  b.reqs.foldl (fun s k =>
    match Tab.find s.mreqs k with
    | none => b.frames.foldl (fun s n => s.releaseFrame n) s
    | some m =>
      if m.op = 7 then
        if m.retry then s.completeReq m.req 1
        else (m.outs.foldl (fun s p => s.finishOut m.req.asid p) s).completeReq m.req 0
      else if m.op = 2 then
        State.unroot ((b.frames.foldl (fun s n => s.releaseFrame n) (s.completeReq m.req 0)).setAsid m.req.asid fun a =>
          { a with st := if a.gen ≥ 0xFFFFF then 3 else 0 }) m.req.asid
      else (b.frames.foldl (fun s n => s.releaseFrame n) s).completeReq m.req 0)
    (if b.reqs.isEmpty then b.frames.foldl (fun s n => s.releaseFrame n) s else s)

/-- R81 step 4: the frames that a bump will release. -/
def State.bumpFrames (s : State) (b : Bump) : List Nat :=
  b.frames ++ b.reqs.flatMap fun k => match Tab.find s.mreqs k with
    | some m => if m.retry then [] else m.outs.flatMap fun p => (s.rawLeaf m.req.asid p).units
    | none => []

/-- R81 step 3: a receiver installs the oldest generation that it has not; FE ends the external reads under older ones. -/
def State.installGen (s : State) (b : Bump) (agent : Nat) : State :=
  let s1 := { s with bumps := s.bumps.map fun x => if x = b then { x with installs := x.installs.filter (· ≠ agent) } else x }
  if agent = feAgent then s1.staleXreads b.asid b.gen else s1

/-- GENERATION_ACK (R81): a receiver installs the new generation, and acknowledges once its accesses under older ones are over; after
the last one the copies of the frames to be released collapse (R108), and the bump is finished. -/
def generationAck (asid agent : Nat) (s : State) : State :=
  match s.bumps.find? fun b => b.asid == asid && b.installs.contains agent with
  | some b => (s.installGen b agent).hold (.generationAck asid agent)
  | none =>
    if (s.bumps.any fun b => b.asid == asid && b.waiting.contains agent && (s.outstanding asid b.gen).contains agent) then
      s.hold (.generationAck asid agent)
    else
      let acked := s.bumps.map fun b => if b.asid = asid then { b with waiting := b.waiting.filter (· ≠ agent) } else b
      let done := acked.filter fun b => b.asid == asid && b.waiting.isEmpty
      let r := (done.flatMap s.bumpFrames).foldl (fun (acc : State × Bool) n =>
        let x := acc.1.collapseFrame n
        (x.1, acc.2 && x.2)) ({ s with bumps := acked }, true)
      if r.2 then
        done.foldl (fun s b => s.finishBump b) { r.1 with bumps := acked.filter fun b => !(b.asid == asid && b.waiting.isEmpty) }
      else r.1.hold (.generationAck asid agent)

/-- The message that carries out an accepted request (R84); none for a code that is refused. -/
def reqMsg (op : Nat) (r : MemRequest) : Option Msg :=
  match op with
  | 1 => some (.ascreate r)
  | 2 => some (.asdestroy r)
  | 3 => some (.mapPages r)
  | 4 => some (.unmap r)
  | 5 => some (.protect r)
  | 6 => some (.migin r)
  | 7 => some (.migout r)
  | 8 => some (.setcold r)
  | 9 => some (.setpin r)
  | _ => none

/-- FE's reads of a ring at device addresses reach their lines at home (R102). -/
def State.feLines (s : State) (host : Bool) (pa n : Nat) : State :=
  if host then s
  else (List.range ((pa % 128 + n + 127) / 128)).foldl (fun s i =>
    ((s.enterHome (pa / 128 + i)).getD s).reachHome (pa / 128 + i) Config.feDie) s

/-- R83: the next record of the ring accepted. -/
def State.acceptRecord (s0 : State) : State :=
  let i := s0.mem.mrRead.toNat
  let host := s0.mrInHost
  let a := s0.mrSlot i
  let s := s0.feLines host a 64
  let f (o n : Nat) : Nat := s.peek host (a + o) n
  let (seq, s1) := s.takeSeq
  let r : MemRequest := ⟨f 1 1, f 2 2, BitVec.ofNat 64 (f 8 8), BitVec.ofNat 64 (f 0x10 8), BitVec.ofNat 64 (f 0x18 8),
    BitVec.ofNat 32 (f 0x20 4), seq, BitVec.ofNat 64 (f 0x30 8), some i⟩
  let s2 := (s1.fePut host (a + 0x28) (leBytes 8 seq)).fePut host (s1.mem.mrBase.toNat + 64) (leBytes 8 (i + 1))
  let s3 := { s2 with mem := { s2.mem with mrRead := s2.mem.mrRead + 1 } }
  let plain := { s3.fresh with mreqs := Tab.put s3.mreqs s3.nextId ⟨r, some (host, a), f 0 1, [], false, false, false, none, []⟩ }
  match reqMsg (f 0 1) r with
  | none => plain.completeReq r 4
  | some m =>
    if f 0x24 4 ≠ 0 ∨ f 0x38 8 ≠ 0 ∨ reqBad r then plain.completeReq r 4
    else if f 0 1 = 6 ∨ f 0 1 = 7 then (s3.claim r (some (host, a)) (f 0 1)).send m
    else plain.send m

/-- Whether a write to MRBASE or MRCTL has not taken effect (R92). -/
def State.mrChanging (s : State) : Bool :=
  s.net.any fun m => match m with
    | .mrbaseWrite .. => true
    | _ => false

/-- MR_ACCEPT (R83, R355): a tail seen by FE, taken by the maximum rule; the next record is accepted, unless the ring is about to
change (R92). -/
def mrAccept (tail : DWord) (s : State) : State :=
  let t := if s.mem.mrTail.toNat < tail.toNat then tail else s.mem.mrTail
  let s1 := { s with mem := { s.mem with mrTail := t } }
  if s.mrOn && decide (s.mem.mrRead.toNat < t.toNat) && !s.mrChanging then
    let s2 := s1.acceptRecord
    if s2.mem.mrRead.toNat < t.toNat then s2.send (.mrAccept t) else s2
  else s1

/-- R92: the tail of the ring as its control line holds it. -/
def State.ringTail (s : State) : Nat := max s.mem.mrTail.toNat (s.peek s.mrInHost s.mem.mrBase.toNat 8)

/-- MRBASE_WRITE (R92): MRBASE or MRCTL changes; while the ring holds unaccepted records, once every accepted request has completed,
and those records are discarded, with the published read index at the tail. -/
def mrbaseWrite (ctl : Bool) (value : DWord) (s : State) : State :=
  let unread := s.mrOn && decide (s.mem.mrRead.toNat < s.ringTail)
  if unread ∧ s.mreqs.any (fun e => e.2.req.slot.isSome) then s.hold (.mrbaseWrite ctl value)
  else
    let t := s.ringTail
    let s1 := if unread then
        { s with
          mem := { s.mem with mrRead := BitVec.ofNat 64 t, mrTail := BitVec.ofNat 64 t }
          net := s.net.filter fun m => match m with
            | .mrAccept _ => false
            | _ => true }.fePut s.mrInHost (s.mem.mrBase.toNat + 64) (leBytes 8 t)
      else s
    if ctl then { s1 with mem := { s1.mem with mrLog2n := (value.extractLsb' 0 5).toNat } }
    else { s1 with mem := { s1.mem with mrBase := value &&& ~~~127#64 } }

/-! ## The sweeper, compression and eviction (R88, R94 to R96) -/

/-- R88: whether a frame is eligible. -/
def State.eligible (s : State) (fe : Frame) : Bool :=
  let a := s.asid fe.owner
  fe.state == 1 && !fe.pin && fe.owner != 0
    && ((a.cold == 1 && !fe.noComp) || (a.cold == 2 && fe.lease == 0 && !fe.large && s.backed fe.owner fe.va))

/-- R88: whether the sweeper runs. -/
def State.sweepOn (s : State) : Bool :=
  s.mem.swEn && (decide (s.mem.swFree < s.mem.swLow) || (s.mem.sweeping && decide (s.mem.swFree < s.sweepHigh)))

/-- SWEEPER_VISIT (R88): one frame examined. -/
def sweeperVisit (s : State) : State :=
  if !s.sweepOn then s
  else
    let n := s.mem.swHand
    let fe := s.frame n
    let next := { s with mem := { s.mem with swHand := (n + 1) % 2 ^ 24 } }
    if fe.state = 1 ∧ fe.pin = false ∧ fe.owner ≠ 0 then
      if fe.accessed then next.setFrame n fun f => { f with accessed := false }
      else if s.eligible fe ∧ s.mem.swQ.length < 1024 then
        ({ next with mem := { next.mem with swQ := s.mem.swQ ++ [n] } }).send
          (if (s.asid fe.owner).cold = 1 then .compression n else .eviction n)
      else next
    else next

/-- COMPRESSION (R88, R94): the memory controller takes an entry of the ready queue; a frame still eligible starts to be
compressed. -/
def compression (n : Nat) (s : State) : State :=
  let s1 := { s with mem := { s.mem with swQ := s.mem.swQ.erase n } }
  if s.eligible (s.frame n) ∧ (s.asid (s.frame n).owner).cold = 1 then
    let g := max 1 (Config.compressedGranules n s.freeCtr)
    ({ s1 with freeCtr := s1.freeCtr + 1 }.setFrame n fun f => { f with state := 4 }).send (.compressionCommit n g)
  else s1

/-- The lines of a frame written to HBM and dropped from their slices, their copies collapsed (R94, R108). -/
def State.flushFrame (s : State) (n : Nat) : State :=
  let mine := s.lines.filter fun e => e.1 / 512 == n
  { s with
    hbm := mine.foldl (fun m e => Memory.putLine m (128 * e.1) e.2.value) s.hbm
    lines := s.lines.filter fun e => e.1 / 512 != n
    copies := s.copies.filter fun c => c.line / 512 != n }

/-- R94: free granules for an image: the first run of the zone that no compressed frame holds, those on their way back included
(R95); none where the zone is full. -/
def State.freeGranules (s : State) (g : Nat) : Option Nat :=
  let held := (s.frames.filter fun e => e.2.state == 2 || e.2.state == 3).map fun e => (e.2.mgran, e.2.mlen)
  (0 :: held.map fun h => h.1 + h.2).find? fun c =>
    decide (c + g ≤ s.mem.moraine) && held.all fun h => decide (c + g ≤ h.1) || decide (h.1 + h.2 ≤ c)

/-- COMPRESSION_COMMIT (R94): once the copies of the frame's lines have collapsed (R108). -/
def compressionCommit (n granules : Nat) (s : State) : State :=
  if (s.frame n).state ≠ 4 then s
  else if granules > 24 then s.setFrame n fun f => { f with state := 1, noComp := true }
  else match s.freeGranules granules with
    | none => s.setFrame n fun f => { f with state := 1 }
    | some c =>
      match s.collapseFrame n with
      | (s1, false) => s1.hold (.compressionCommit n granules)
      | (s1, true) =>
        ((s1.flushFrame n).setFrame n fun f => { f with state := 2, mlen := granules, mgran := c, sfn := 0 }).setFree (s1.mem.swFree + 1)

/-- EXPANSION (R95): the frame's contents are back in its storage frame, and its granules are free. A frame still in STATE 2 takes
a storage frame first. -/
def expansion (n : Nat) (s : State) : State :=
  let fe := s.frame n
  if fe.state = 3 then s.setFrame n fun f => { f with state := 1, mlen := 0, mgran := 0 }
  else if fe.state = 2 then (if s.mem.swFree = 0 then s.hold (.expansion n) else s.expand n)
  else s

/-- EVICTION (R88, R96, R97): firmware takes an entry of the ready queue; a frame still eligible goes out as a device move
with its own sequence number, once no move of the other direction claims its page. -/
def eviction (n : Nat) (s : State) : State :=
  let s1 := { s with mem := { s.mem with swQ := s.mem.swQ.erase n } }
  let fe := s.frame n
  if s.eligible fe ∧ (s.asid fe.owner).cold = 2 then
    if s.opposed fe.owner fe.va 7 then s1.hold (.eviction n)
    else
      let (seq, s2) := s1.takeSeq
      let r : MemRequest := ⟨0, fe.owner, BitVec.ofNat 64 fe.va, 65536, 0, 0, seq, 0, none⟩
      (s2.claim r none 7).send (.migout r)
  else s1

/-! ## Die reset, die loss, soft errors (R115 to R118) -/

/-- R116, R118: a line-loss event, with the generation before its bump. -/
def State.postLoss (s : State) (asid pa cause : Nat) : State :=
  s.postEvent 3 0 (BitVec.ofNat 64 pa) (eventD1 asid (s.asid asid).gen cause)

/-- R81, R82: a bump where one is possible. -/
def State.bumpLive (s : State) (asid : Nat) : State :=
  if (s.asid asid).st = 1 ∧ s.canBump asid then s.bump asid [] [] else s

/-- LINE_LOSS (R116, R118): the last good value stands, the loss is posted, and the owner's generation is bumped, which
ends its work. -/
def lineLoss (line cause : Nat) (s : State) : State :=
  let asid := (s.frame (line / 512)).owner
  let h := s.homeLine line
  let good := if h.ownerDie.isSome then h.data else if h.state = .dirty then Memory.line s.hbm (128 * line) else h.data
  let s1 := s.setLine line { h with state := s.kept line good, data := good, ownerDie := none, ownerDirty := false }
  let s2 := ({ s1 with badLines := s1.badLines.filter (· ≠ line) }.countSlice (homeDie line) 5).postLoss asid (128 * line) cause
  (s2.bumpLive asid).endAsid asid

/-- R118: an uncorrectable error of a line that is lost: no read of it is served until the loss has been handled. -/
def State.spoil (s : State) (line cause : Nat) : State :=
  { s with badLines := s.badLines ++ [line] }.send (.lineLoss line cause)

/-- SOFT_ERROR (R117): corrected errors count; an uncorrectable one drops a clean line or copy, which is read again, or loses a
dirty or an owned one; the mesh and the links replay. -/
def softError (stage : ErrorStage) (die line : Nat) (corrected : Bool) (s : State) : State :=
  match stage with
  | .mesh | .link => s
  | .hbm => if corrected then s.countSlice die 6 else (s.countSlice die 7).spoil line 2
  | .slice =>
    if corrected then s.countSlice die 6
    else
      let s1 := s.countSlice die 7
      match Tab.find s.lines line with
      | some h =>
        if h.ownerDie = some die ∨ (homeDie line = die ∧ h.state = .dirty ∧ h.ownerDie.isNone) then s1.spoil line 1
        else if homeDie line = die ∧ h.ownerDie.isNone then s1.setLine line { h with data := Memory.line s1.hbm (128 * line) }
        else s1.dropCopy die line
      | none => s1.dropCopy die line

/-- R115: a home line of a resetting die goes to HBM, and one lent to it back to its home. -/
def State.returnLine (s : State) (die : Nat) (e : Nat × HomeLine) : State :=
  let line := e.1
  if homeDie line = die then
    if e.2.cpend then s
    else { s with hbm := Memory.putLine s.hbm (128 * line) e.2.value, lines := Tab.del s.lines line }
  else if e.2.ownerDie = some die then s.setLine line e.2.returned
  else s

/-- R23: how far a calibration converts a counter's reading from common time, FE's counter being `now`. -/
def calError (c : Calibration) (cnt now : Nat) : Nat :=
  ((cnt : Int) + c.ofs.toInt + (cnt : Int) * c.rate.toInt / 2 ^ 40 - now).natAbs

/-- R23: whether a calibration keeps every converted value within its SKEW from now until the next is due, 1 ms later (R21): a
value passes from one die's reading to another's by common time. -/
def State.calibrated (s : State) (die : Nat) (c : Calibration) : Bool :=
  let cnt := (s.die die).cnt.toNat
  let slack := if c.rate = 0 then 0 else 1
  die == Config.feDie || decide (2 * calError c cnt s.now + slack ≤ min 8 c.skew.toNat
    ∧ 2 * calError c (cnt + 1000000) (s.now + 1000000) + slack ≤ min 8 c.skew.toNat)

/-- R21: the calibration that firmware installs every 1 ms: the present one where it keeps R23 for another, else the exact offset
(log 25: the spec gives no values). -/
def State.nextCalibration (s : State) (die : Nat) : Calibration :=
  let d := s.die die
  let c : Calibration := ⟨d.ofs, d.rate, d.skew⟩
  if s.calibrated die c then c else ⟨BitVec.ofNat 64 s.now - d.cnt, 0, d.skew⟩

/-- R21: firmware writes a calibration into the shadows of a die's timer, which takes it over at the next step. -/
def State.calibrate (s : State) (die : Nat) (cal : Calibration) : State :=
  (s.setDie die fun d => { d with shadow := some cal }).send (.dieTimerCalibration die cal)

/-- R108: a die that loses its copies acknowledges no collapse any more. -/
def State.dropAcks (s : State) (die : Nat) : State :=
  { s with net := s.net.filter fun m => match m with
      | .collapseReceipt d _ | .collapseAck d _ => d != die
      | _ => true }

/-- DIE_RESET (R115): the die's blocks are saved first; then it grants nothing, lent lines return, dirty lines go to HBM, copies are
dropped, and the die's cores and slices are empty; firmware calibrates its timer anew, by offset 0, rate 0 and skew 8 (log 25: the
spec gives no values), and it is neither stopped nor cleared (R20). -/
def dieReset (die : Nat) (s : State) : State :=
  let blocks := s.blocksOn die
  let busy := s.lines.any fun e => homeDie e.1 == die && e.2.cpend
  let s0 := s.setDie die fun d => { d with resetting := true }
  if !blocks.isEmpty then
    (blocks.foldl (fun s b => s.sendOnce (.save b)) s0).hold (.dieReset die)
  else if busy then s0.hold (.dieReset die)
  else
    let s1 := s0.lines.foldl (fun s e => s.returnLine die e) s0
    let s2 := { s1 with
      copies := s1.copies.filter fun c => c.die != die
      cores := s1.cores.filter fun e => dieOfCore e.1 != die
      rtCache := s1.rtCache.filter fun e => e.slice / Config.slicesPerDie != die }
    ((s2.dropAcks die).setDie die fun d => { d with resetting := false, lost := false }).calibrate die ⟨0, 0, 8⟩

/-- DIE_LOSS (R116). -/
def dieLoss (die : Nat) (s : State) : State :=
  let lent := s.lines.filter fun e => e.2.ownerDie == some die && homeDie e.1 != die
  let s1 := lent.foldl (fun s e =>
    let asid := (s.frame (e.1 / 512)).owner
    (((s.setLine e.1 { e.2 with state := s.kept e.1 e.2.data, ownerDie := none, ownerDirty := false }).countSlice (homeDie e.1) 5).postLoss
      asid (128 * e.1) 0).bumpLive asid) s
  let s2 := { s1 with
    lines := s1.lines.filter fun e => homeDie e.1 != die
    copies := s1.copies.filter fun c => c.die != die }
  let live := (s2.asids.filter fun e => e.2.st == 1).map (·.1)
  let s3 := (live.foldl (fun s a => (s.bumpLive a).endAsid a) s2).postLoss 0 0 3
  (s3.dropAcks die).setDie die fun d => { d with lost := true }

/-- DIE_TIMER_CALIBRATION (R21): OFS, RATE and SKEW move from their shadows at one tick boundary, and GEN advances; SKEW
is never above 8 (R22), and FE's OFS and RATE stay 0. -/
def dieTimerCalibration (die : Nat) (cal : Calibration) (s : State) : State :=
  s.setDie die fun d => { d with
    ofs := if die = Config.feDie then 0 else cal.ofs
    rate := if die = Config.feDie then 0 else cal.rate
    skew := if cal.skew.toNat ≤ 8 then cal.skew else 8
    gen := d.gen + 1
    shadow := none }

/-! ## Writes that return, and the fences that wait for them (R311, R315) -/

/-- A memory scope by its code (R141, R314). -/
def scopeOfCode (k : Nat) : MemScope := if k = 0 then .dev else if k = 1 then .blk else .sys

/-- R314: the scope of K. -/
def fenceScope (k : Nat) : MemScope := scopeOfCode (k / 4 % 16)

/-- R311: whether a write issued at a scope counts at another. -/
def countsAt (issued at_ : MemScope) : Bool :=
  match issued, at_ with
  | .blk, _ => true
  | .dev, .dev | .dev, .sys => true
  | .sys, .sys => true
  | _, _ => false

/-- The warp's GW value of a scope (R311). -/
def Warp.gw (w : Warp) (sc : MemScope) : DWord :=
  match sc with
  | .blk => w.gwBlk
  | .dev => w.gwDev
  | .sys => w.gwSys

/-- The member warps M of a waiting fence (R315). -/
def WaitRec.warps (r : WaitRec) : List Nat := (r.members.map TRef.warp).dedup

/-- R315: every write of a warp counted at a scope and issued before the fence has returned its GWCT. -/
def State.writesBack (s : State) (m fence : Nat) (sc : MemScope) : Bool :=
  (s.warp m).stores.all fun p => !(countsAt p.scope sc && decide (p.id < fence))

/-- Whether every warp of a block runs on one die. -/
def State.oneDie (s : State) (b : Nat) : Bool :=
  let blk := s.block b
  blk.warps.all fun w => (s.warp w).freed || dieOfCore (s.warp w).core == blk.die

/-- R315: t, the common time that the release waits for. -/
def State.fenceTime (s : State) (ms : List Nat) (sc : MemScope) : Nat :=
  let b := (s.warp (ms.headD 0)).block
  if sc = .blk ∧ s.oneDie b then 0
  else (ms.map fun m => max ((s.warp m).gw sc).toNat (s.warp m).obs.toNat).foldl max 0

/-- R315: the time t of a release of some warps, once every write that it waits for has returned. -/
def State.fenceDue (s : State) (fence : Nat) (ms : List Nat) (sc : MemScope) : Option Nat :=
  if ms.all fun m => s.writesBack m fence sc then some (s.fenceTime ms sc) else none

/-- R315: a write of a warp has returned: t is fixed for the fences that have waited for it. -/
def State.fixFences (s : State) (warp : Nat) : State :=
  { s with waits := s.waits.map fun e => match e.2.kind with
    | .fence k 0 none => if e.2.warps.contains warp then
        (e.1, { e.2 with kind := .fence k 0 (s.fenceDue e.1 e.2.warps (fenceScope k)) }) else e
    | _ => e }

/-- A store or an invocation of a warp is outstanding no longer. -/
def State.storeGone (s : State) (warp id : Nat) : State :=
  (s.setWarp warp fun w => { w with stores := w.stores.filter fun p => p.id != id }).fixFences warp

/-- STORE_ACKNOWLEDGEMENT (R311): a GWCT joins the warp's values of its scope. -/
def storeAck (a : StoreAck) (s : State) : State :=
  State.storeGone (s.setWarp a.warp fun w => { w with
    gwBlk := if a.scope = .blk then later w.gwBlk a.gwct else w.gwBlk
    gwDev := if a.scope = .sys then w.gwDev else later w.gwDev a.gwct
    gwSys := later w.gwSys a.gwct }) a.warp a.id

/-! ## Meanings -/

/-- SLICE_READ (R103). -/
def execSliceRead (r : ReadReq) (s : State) : Host.Outcome State Fault Refusal :=
  .next (Sys2Proof.Machine.sliceRead r s)

/-- SLICE_WRITE (R106). -/
def execSliceWrite (r : WriteReq) (s : State) : Host.Outcome State Fault Refusal :=
  .next (Sys2Proof.Machine.sliceWrite r s)

/-- COLLAPSE_RECEIPT (R105). -/
def execCollapseReceipt (die : Nat) (line : Nat) (s : State) : Host.Outcome State Fault Refusal :=
  .next (Sys2Proof.Machine.collapseReceipt die line s)

/-- COLLAPSE_ACK (R106). -/
def execCollapseAck (die : Nat) (line : Nat) (s : State) : Host.Outcome State Fault Refusal :=
  .next (Sys2Proof.Machine.collapseAck die line s)

/-- LEASE_EXPIRY (R106). -/
def execLeaseExpiry (line : Nat) (s : State) : Host.Outcome State Fault Refusal :=
  .next (Sys2Proof.Machine.leaseExpiry line s)

/-- COPY_EXPIRY (R104). -/
def execCopyExpiry (die : Nat) (line : Nat) (s : State) : Host.Outcome State Fault Refusal :=
  .next (Sys2Proof.Machine.copyExpiry die line s)

/-- RECALL (R102). -/
def execRecall (line : Nat) (byDie : Nat) (s : State) : Host.Outcome State Fault Refusal :=
  .next (Sys2Proof.Machine.recallLine line byDie s)

/-- DEGREE_COUNT (R110). -/
def execDegreeCount (asid : Nat) (region : Nat) (rr wr coll : Nat) (s : State) : Host.Outcome State Fault Refusal :=
  .next (Sys2Proof.Machine.degreeCount asid region rr wr coll s)

/-- KEEPER_UPDATE (R111). -/
def execKeeperUpdate (s : State) : Host.Outcome State Fault Refusal :=
  .next (Sys2Proof.Machine.keeperUpdate s)

/-- DGPIN (R112). -/
def execDgpin (value : DWord) (s : State) : Host.Outcome State Fault Refusal :=
  .next (Sys2Proof.Machine.dgpinApply value s)

/-- SOFT_ERROR (R117). -/
def execSoftError (stage : ErrorStage) (die : Nat) (line : Nat) (corrected : Bool) (s : State) : Host.Outcome State Fault Refusal :=
  .next (Sys2Proof.Machine.softError stage die line corrected s)

/-- LINE_LOSS (R118). -/
def execLineLoss (line : Nat) (cause : Nat) (s : State) : Host.Outcome State Fault Refusal :=
  .next (Sys2Proof.Machine.lineLoss line cause s)

/-- DIE_RESET (R115). -/
def execDieReset (die : Nat) (s : State) : Host.Outcome State Fault Refusal :=
  .next (Sys2Proof.Machine.dieReset die s)

/-- DIE_LOSS (R116). -/
def execDieLoss (die : Nat) (s : State) : Host.Outcome State Fault Refusal :=
  .next (Sys2Proof.Machine.dieLoss die s)

/-- MR_ACCEPT (R83). -/
def execMrAccept (tail : DWord) (s : State) : Host.Outcome State Fault Refusal :=
  .next (Sys2Proof.Machine.mrAccept tail s)

/-- ASCREATE (R84). -/
def execAscreate (r : MemRequest) (s : State) : Host.Outcome State Fault Refusal :=
  .next (Sys2Proof.Machine.ascreate r s)

/-- ASDESTROY (R82). -/
def execAsdestroy (r : MemRequest) (s : State) : Host.Outcome State Fault Refusal :=
  .next (Sys2Proof.Machine.asdestroy r s)

/-- MAP (R84). -/
def execMapPages (r : MemRequest) (s : State) : Host.Outcome State Fault Refusal :=
  .next (Sys2Proof.Machine.mapPagesOp r s)

/-- UNMAP (R84). -/
def execUnmap (r : MemRequest) (s : State) : Host.Outcome State Fault Refusal :=
  .next (Sys2Proof.Machine.unmapOp r s)

/-- PROTECT (R84). -/
def execProtect (r : MemRequest) (s : State) : Host.Outcome State Fault Refusal :=
  .next (Sys2Proof.Machine.protectOp r s)

/-- MIGIN (R96). -/
def execMigin (r : MemRequest) (s : State) : Host.Outcome State Fault Refusal :=
  .next (Sys2Proof.Machine.miginOp r s)

/-- MIGOUT (R96). -/
def execMigout (r : MemRequest) (s : State) : Host.Outcome State Fault Refusal :=
  .next (Sys2Proof.Machine.migoutOp r s)

/-- SETCOLD (R84). -/
def execSetcold (r : MemRequest) (s : State) : Host.Outcome State Fault Refusal :=
  .next (Sys2Proof.Machine.setcoldOp r s)

/-- SETPIN (R84). -/
def execSetpin (r : MemRequest) (s : State) : Host.Outcome State Fault Refusal :=
  .next (Sys2Proof.Machine.setpinOp r s)

/-- GENERATION_ACK (R81). -/
def execGenerationAck (asid : Nat) (agent : Nat) (s : State) : Host.Outcome State Fault Refusal :=
  .next (Sys2Proof.Machine.generationAck asid agent s)

/-- MRBASE_WRITE (R92). -/
def execMrbaseWrite (ctl : Bool) (value : DWord) (s : State) : Host.Outcome State Fault Refusal :=
  .next (Sys2Proof.Machine.mrbaseWrite ctl value s)

/-- SWEEPER_VISIT (R88). -/
def execSweeperVisit (s : State) : Host.Outcome State Fault Refusal :=
  .next (Sys2Proof.Machine.sweeperVisit s)

/-- COMPRESSION (R94). -/
def execCompression (frame : Nat) (s : State) : Host.Outcome State Fault Refusal :=
  .next (Sys2Proof.Machine.compression frame s)

/-- COMPRESSION_COMMIT (R94). -/
def execCompressionCommit (frame : Nat) (granules : Nat) (s : State) : Host.Outcome State Fault Refusal :=
  .next (Sys2Proof.Machine.compressionCommit frame granules s)

/-- EXPANSION (R95). -/
def execExpansion (frame : Nat) (s : State) : Host.Outcome State Fault Refusal :=
  .next (Sys2Proof.Machine.expansion frame s)

/-- EVICTION (R96). -/
def execEviction (frame : Nat) (s : State) : Host.Outcome State Fault Refusal :=
  .next (Sys2Proof.Machine.eviction frame s)

/-- DIE_TIMER_CALIBRATION (R21). -/
def execDieTimerCalibration (die : Nat) (cal : Calibration) (s : State) : Host.Outcome State Fault Refusal :=
  .next (Sys2Proof.Machine.dieTimerCalibration die cal s)

/-- STORE_ACKNOWLEDGEMENT (R311). -/
def execStoreAcknowledgement (ack : StoreAck) (s : State) : Host.Outcome State Fault Refusal :=
  .next (Sys2Proof.Machine.storeAck ack s)

end Sys2Proof.Machine
end

