-- ==== Sys2Proof/Machine/Scratch.lean ====
section
/-! DEFINITION. Scratchpad addresses, windows and buffers as every instruction meets them (07, R162, R163, R184, R186;
08, R196 to R198), and clauses as threads reach them (02, R25 to R28, R50). -/

namespace Sys2Proof.Machine

/-! ## Scratchpad (R162, R163, R186, R196, R198) -/

/-- A scratchpad place: the place index of a core of the block, and the offset in the block's allocation there. -/
structure SaPlace where
  place : Nat
  ofs : Nat
  deriving DecidableEq, Repr

/-- R162, R163, R176: the place a scratchpad address of `n` bytes names for a warp, or the window-permission fault. -/
def State.saPlace (s : State) (warp sa n : Nat) : Except Report SaPlace :=
  let w := s.warp warp
  let b := s.block w.block
  let win := sa.testBit 24
  let pl := sa / 2 ^ 21 % 8
  let ofs := sa % 2 ^ 21
  let bad (c : Nat) : Except Report SaPlace := .error (report clsWindow c (BitVec.ofNat 64 sa))
  if sa / 2 ^ 25 ≠ 0 ∨ (!win && pl ≠ 0) then bad 1
  else if win && (decide (b.places.length ≤ pl) || dieOfCore w.core != b.die) then bad 1
  else
    let place := if win then pl else b.placeOf w.core
    if b.places.length ≤ place ∨ b.scratch < ofs + n then bad 2 else .ok ⟨place, ofs⟩

/-- R186: whether a range overlaps a buffer that none of the given warps holds. -/
def State.saOwned (s : State) (block : Nat) (ws : List Nat) (p : SaPlace) (n : Nat) : Bool :=
  let core := (s.block block).places.getD p.place 0
  (s.core core).buffers.all fun e =>
    let bf := e.2
    !(bf.state != 0 && bf.block == block && decide (p.ofs < bf.offset + bf.length) && decide (bf.offset < p.ofs + n))
      || (bf.state == 1 && ws.contains bf.warp)

/-- R162, R176, R186: the place of an access, or its fault: window permission before ownership. -/
def State.saCheck (s : State) (warp : Nat) (ws : List Nat) (sa n : Nat) : Except Report SaPlace :=
  match s.saPlace warp sa n with
  | .error r => .error r
  | .ok p => if s.saOwned (s.warp warp).block ws p n then .ok p
    else .error (report clsOwnership 1 (BitVec.ofNat 64 sa))

/-- The byte of a block's scratchpad. -/
def Block.byte (b : Block) (place ofs : Nat) : Byte := SMap.get 0 b.bytes (place * 2 ^ 21 + ofs)

/-- `n` bytes of a block's scratchpad as a number. -/
def Block.get (b : Block) (place ofs n : Nat) : Nat :=
  ofLeBytes ((List.range n).map fun i => b.byte place (ofs + i))

/-- R198: bytes written, and their lines touched; a queue control word among them is no longer one that QCWSET has set (R178). -/
def Block.put (b : Block) (place ofs : Nat) : List Byte → Block
  | [] => b
  | v :: rest =>
    Block.put { b with
      qcws := SMap.set false b.qcws (place * 2 ^ 21 + ofs / 16 * 16) false
      bytes := SMap.set 0 b.bytes (place * 2 ^ 21 + ofs) v
      touched := SMap.set false b.touched (place * 2 ^ 14 + ofs / 128) true } place (ofs + 1) rest

/-- A warp's scratchpad at a place. -/
def State.scratch (s : State) (warp : Nat) (p : SaPlace) (n : Nat) : Nat :=
  (s.block (s.warp warp).block).get p.place p.ofs n

/-- R285: a write remembered, in place of those that it covers. -/
def Block.note (b : Block) (r : Race) : Block :=
  { b with races := (b.races.filter fun o =>
      !(o.place == r.place && decide (r.ofs ≤ o.ofs) && decide (o.ofs + o.bytes ≤ r.ofs + r.bytes))) ++ [r] }

/-- A write of some warps on a core into a block's scratchpad, under a token where an engine makes it. -/
def State.scratchWrite (s : State) (block : Nat) (p : SaPlace) (bs : List Byte) (ws : List Nat) (core : Nat) (token : Option Nat) : State :=
  s.setBlock block fun b => (b.put p.place p.ofs bs).note ⟨p.place, p.ofs, bs.length, s.nextId, ws, core, token, false, [], []⟩

def State.setScratch (s : State) (warp : Nat) (p : SaPlace) (bs : List Byte) : State :=
  s.scratchWrite (s.warp warp).block p bs [warp] (s.warp warp).core none

/-! ## Translation as code and cores use it -/

/-- R77: a translation as a core has it, without keeping it. -/
def State.look (s : State) (core asid : Nat) (va : DWord) : Option TlbEntry :=
  match (s.core core).tlb.find? (s.tlbMatches core asid va) with
  | some e => some e
  | none => s.walkFor core asid va

/-- R80: whether a read of a place under a generation passes the frame check. -/
def State.frameReadable (s : State) (asid gen : Nat) (host : Bool) (pa : Nat) : Bool :=
  let fe := s.frame (pa / 65536)
  host || !(fe.state == 0 || fe.owner != asid || decide (gen < fe.mgen))

/-! ## Clauses (R25 to R28) -/

/-- A clause header's fields (R25). -/
structure Header where
  mark : BitVec 12
  ent : Bool
  cnt : Nat
  yld : Bool
  raw : DWord
  deriving DecidableEq, Repr

def Header.ofDWord (h : DWord) : Header :=
  ⟨h.setWidth 12, h.getLsbD 12, (h.extractLsb' 13 2).toNat, h.getLsbD 15, h⟩

/-- R25: DIST and WAIT of a slot. -/
def Header.dist (h : Header) (i : Nat) : Nat := (h.raw.extractLsb' (16 + 16 * i) 4).toNat
def Header.waits (h : Header) (i : Nat) : Nat := (h.raw.extractLsb' (20 + 16 * i) 12).toNat

/-- R27. -/
def Header.ok (h : Header) : Bool :=
  h.mark == 0xE5A && h.cnt != 3
    && (List.range 3).all fun i => decide (i ≤ h.cnt) || (h.dist i == 0 && h.waits i == 0)

/-- R78, R80: a code word at an address, or the report of the fetch that fails. -/
def State.codeWord (s : State) (core asid : Nat) (va : DWord) : Except Report Word :=
  match s.look core asid va with
  | none => .error (report clsLease 1 va)
  | some e =>
    if !e.x then .error (report clsLease 2 va)
    else if !s.frameReadable asid (s.genAt core asid) (e.tgt == 1) (e.at va) then .error (report clsStaleGen 0 va)
    else .ok (BitVec.ofNat 32 (s.peek (e.tgt == 1) (e.at va) 4))

/-- A clause header at an address (R27 is checked by the caller). -/
def State.header (s : State) (core asid : Nat) (va : DWord) : Except Report Header :=
  match s.codeWord core asid va, s.codeWord core asid (va + 4) with
  | .ok lo, .ok hi => .ok (Header.ofDWord (hi ++ lo))
  | .error r, _ => .error r
  | _, .error r => .error r

/-- R26: the address of a slot of a clause, from the address of the slot before. -/
def State.slotAddr (s : State) (core asid : Nat) (head : DWord) : Nat → Except Report DWord
  | 0 => .ok (head + 8)
  | i + 1 =>
    match s.slotAddr core asid head i with
    | .error r => .error r
    | .ok a =>
      match s.codeWord core asid a with
      | .error r => .error r
      | .ok w => .ok (a + BitVec.ofNat 64 (4 * wordsOfLen (w.setWidth 2)))

/-- R26: the header address of the clause that follows one of `cnt` + 1 instructions. -/
def State.clauseAfter (s : State) (core asid : Nat) (head : DWord) (cnt : Nat) : Except Report DWord :=
  match s.slotAddr core asid head (cnt + 1) with
  | .error r => .error r
  | .ok a => .ok ((a + 7) &&& ~~~7#64)

/-- R28, R336: the position after a position. -/
def State.posAfter (s : State) (core asid : Nat) (pos : DWord) : Except Report DWord :=
  let head := headerOf pos
  match s.header core asid head with
  | .error r => .error r
  | .ok h =>
    if (pos.setWidth 2).toNat < h.cnt then .ok (pos + 1) else s.clauseAfter core asid head h.cnt

/-- The end of the words of a position's slot, as far as they can be read. -/
def State.slotEnd (s : State) (core asid : Nat) (pos : DWord) : DWord :=
  match s.slotAddr core asid (headerOf pos) ((pos.setWidth 2).toNat + 1) with
  | .ok a => a
  | .error _ => headerOf pos + 8

/-- R80, R95, R103: the words of a position as a fetch of a core reaches them. -/
def State.fetchReach (s : State) (core asid : Nat) (pos : DWord) : State :=
  let head := headerOf pos
  (s.reachSpans asid (s.genAt core asid) (dieOfCore core) false [(head.toNat, (s.slotEnd core asid pos - head).toNat)]).1

/-- R95, R115: whether a code word can be read now: its frame is not on its way back from compression, and its home answers. -/
def State.wordHere (s : State) (core asid : Nat) (va : DWord) : Bool :=
  match s.look core asid va with
  | none => true
  | some e =>
    let fe := s.frame (e.at va / 65536)
    e.tgt == 1 || !(fe.state == 2 || fe.state == 3 || s.dieSilent (homeDie (e.at va / 128)))

/-- Whether the words of a position can be read now. -/
def State.codeHere (s : State) (core asid : Nat) (pos : DWord) : Bool :=
  s.wordHere core asid (headerOf pos) && s.wordHere core asid (s.slotEnd core asid pos - 4)

/-- R50: the check of an indirect branch target. -/
def State.targetOk (s : State) (core asid : Nat) (t : DWord) : Bool :=
  t.setWidth 3 == (0 : BitVec 3) &&
    match s.header core asid t with
    | .ok h => h.mark == 0xE5A && h.ent
    | .error _ => false

end Sys2Proof.Machine
end

