-- ==== Sys2Proof/Machine/Tensor.lean ====
section
/-! DEFINITION. Tensors, images and blocks as the engines meet them: catalogue entries and tiles (07, R158 to R161, R167 to
R172), self-describing blocks (09, R226 to R230), .plain and .planes images (07, R168; 08, R199), one conversion per element
(R169, R434), and the engines' reads and writes of memory (R80, R106, R170). -/

namespace Sys2Proof.Machine

/-! ## Blocks (R226 to R230) -/

/-- Positive zero. -/
def plusZero : FVal := .fin false 0 0 false

/-- R229: the code of element `j` of a payload. -/
def payloadCode (container : Nat) (payload : List Byte) (j : Nat) : Nat :=
  if container = 8 then (payload.getD j 0).toNat
  else (payload.getD (j / 2) 0).toNat / (if j % 2 = 0 then 1 else 16) % 16

/-- R227: the format that a CODE byte names for a reader with these format registers, or a format fault's cause. -/
def codeFormat (fmts : List Word) (container code : Nat) : Except Nat Fmt :=
  let found := if 0x80 ≤ code ∧ code < 0x88 then some (fmts.getD (code - 0x80) 0x00007B34) else predefined code
  match found with
  | none => .error 1
  | some w => if (Fmt.ofWord w).container = container then .ok (Fmt.ofWord w) else .error 2

/-- R227, R228: the element values of a block, scale applied, or a format fault's cause. -/
def readBlock (fmts : List Word) (container : Nat) (b : List Byte) : Except Nat (List FVal) :=
  let n := elemsPerBlock container
  let code := (b.getD 0 0).toNat
  let q := (b.getD 1 0).toNat
  if code = 0 then .ok (List.replicate n plusZero)
  else match codeFormat fmts container code with
    | .error c => .error c
    | .ok f =>
      if q = 0xFF then (if f.hasNan then .ok (List.replicate n (.nan false)) else .error 3)
      else .ok ((List.range n).map fun j => (f.decode (payloadCode container (b.drop 2) j)).scale ((q : Int) - 127))

/-! ## Planes (R199) -/

/-- R199: the bytes of a plane row: bit `p` of each element's container. -/
def planeRow (container p : Nat) (b : List Byte) : List Byte :=
  (List.range (if container = 8 then 8 else 16)).map fun k =>
    BitVec.ofNat 8 (((List.range 8).map fun j =>
      let e := 8 * k + j
      if e < elemsPerBlock container ∧ (payloadCode container (b.drop 2) e).testBit p then 2 ^ j else 0).foldl (· + ·) 0)

/-- R199: a panel of 128 rows, each the 64 bytes of its block. -/
def panelBytes (container : Nat) (rows : List (List Byte)) : List Byte :=
  rows.flatMap (·.take 2) ++ (List.range container).flatMap fun p => rows.flatMap (planeRow container p)

/-- R199, R275: row `r`'s block, from a panel's bytes. -/
def panelBlock (container : Nat) (panel : List Byte) (r : Nat) : List Byte :=
  let wide := if container = 8 then 8 else 16
  let bit (p j : Nat) : Nat :=
    ((panel.getD (256 + 128 * wide * p + wide * r + j / 8) 0).toNat / 2 ^ (j % 8)) % 2
  let code (j : Nat) : Nat := ((List.range container).map fun p => bit p j * 2 ^ p).foldl (· + ·) 0
  panel.getD (2 * r) 0 :: panel.getD (2 * r + 1) 0
    :: packCodes container ((List.range (elemsPerBlock container)).map code)

def panelSize : Nat := 8448

/-- The block of an absent row (R199). -/
def zeroBlock : List Byte := List.replicate 64 0

/-! ## Catalogue entries and tiles (R159, R161, R167, R172) -/

/-- An entry's fields. -/
structure Tensor where
  base : Nat
  limit : Nat
  ext : List Nat
  str : List Nat
  fill : Nat
  gen : Nat
  ndim : Nat
  elem : Nat
  layout : Nat
  strsh : Nat
  flags : Nat
  pad : Nat
  deriving DecidableEq, Repr

/-- R159: the fields of the 64 bytes. -/
def Tensor.ofBytes (e : List Byte) : Tensor :=
  let f (o n : Nat) : Nat := ofLeBytes ((e.drop o).take n)
  ⟨f 0 8, f 8 8, (List.range 5).map fun d => f (0x10 + 4 * d) 4, 0 :: (List.range 4).map fun d => f (0x24 + 4 * d) 4,
    f 0x34 4, f 0x38 2, f 0x3A 1, f 0x3B 1, f 0x3C 1, f 0x3D 1, f 0x3E 1, f 0x3F 1⟩

/-- R159: bytes of an element of a wide type. -/
def wideSize (t : Ty) : Nat := t.bits / 8

/-- The element type. -/
def Tensor.ty (t : Tensor) : Ty := (Ty.ofBits (BitVec.ofNat 4 t.elem)).getD .u32

/-- R159, R226: the container of a blocked layout, and the unit in which its bytes move. -/
def Tensor.container (t : Tensor) : Nat := if t.layout = 2 then 4 else 8
def Tensor.unit (t : Tensor) : Nat := if t.layout = 0 then wideSize t.ty else 64

/-- The stride of a dimension in bytes. -/
def Tensor.stride (t : Tensor) (d : Nat) : Nat := t.str.getD d 0 * 2 ^ t.strsh

/-- R159, R160: an entry that keeps every rule of its table. -/
def Tensor.ok (t : Tensor) : Bool :=
  t.base % t.unit == 0 && decide (1 ≤ t.limit ∧ t.limit ≤ 2 ^ 48) && decide (1 ≤ t.ndim ∧ t.ndim ≤ 5)
    && ((List.range 5).all fun d => if d < t.ndim then t.ext.getD d 0 != 0 else t.ext.getD d 0 == 0)
    && ((List.range 5).all fun d => decide (d < t.ndim) || t.str.getD d 0 == 0)
    && ((List.range 5).all fun d => d == 0 || t.stride d % t.unit == 0)
    && decide (t.gen < 4096) && decide (t.elem < 15 ∧ t.elem ≠ 7 ∧ t.elem ≠ 8) && decide (t.layout ≤ 2)
    && ((t.layout == 0) == (t.elem != 14)) && decide (t.strsh ≤ 8) && decide (t.flags < 4) && t.pad == 0

/-- R161: whether an element of a line lies inside; `line` gives c1 to c4. -/
def Tensor.inside (t : Tensor) (c0 : Int) (line : List Int) : Bool :=
  (List.range 5).all fun d =>
    let c := if d = 0 then c0 else line.getD (d - 1) 0
    if d < t.ndim then decide (0 ≤ c ∧ c < (t.ext.getD d 0 : Nat)) else c == 0

/-- R161: the address of an inside element, or of its block. -/
def Tensor.addr (t : Tensor) (c0 : Int) (line : List Int) : Nat :=
  let off := ((List.range 4).map fun d => (line.getD d 0).toNat * t.stride (d + 1)).foldl (· + ·) 0
  t.base + off + (if t.layout = 0 then wideSize t.ty * c0.toNat else 64 * (c0.toNat / elemsPerBlock t.container))

/-- The lines of a tile in image order, each by its c1 to c4: dimension 1 fastest (R168); for a gather or scatter one for
each participating lane (R172). -/
def tileLines (o : CopyOp) : List (List Int) :=
  let og (d : Nat) : Int := o.origin.getD d 0
  let sh (d : Nat) : Nat := o.shape.getD d 1
  if o.kind = 1 ∨ o.kind = 2 then o.lanes.map fun l => [l, og 2, og 3, og 4]
  else (List.range (sh 1 * sh 2 * sh 3 * sh 4)).map fun k =>
    [og 1 + (k % sh 1 : Nat), og 2 + (k / sh 1 % sh 2 : Nat), og 3 + (k / (sh 1 * sh 2) % sh 3 : Nat),
     og 4 + (k / (sh 1 * sh 2 * sh 3) : Nat)]

/-- S0 and O0. -/
def CopyOp.s0 (o : CopyOp) : Nat := o.shape.getD 0 1
def CopyOp.o0 (o : CopyOp) : Int := o.origin.getD 0 0

/-- The c0 of the units in which a line's bytes move: elements, or blocks of a blocked layout. -/
def unitStarts (t : Tensor) (o : CopyOp) : List Int :=
  if t.layout = 0 then (List.range o.s0).map fun k => o.o0 + (k : Nat)
  else (List.range (o.s0 / elemsPerBlock t.container)).map fun b => o.o0 + (b * elemsPerBlock t.container : Nat)

/-- Whether a unit of a line has an inside element: the first, since extents count from 0, or a later one of a block. -/
def unitInside (t : Tensor) (c0 : Int) (line : List Int) : Bool :=
  if t.layout = 0 then t.inside c0 line
  else (List.range (elemsPerBlock t.container)).any fun j => t.inside (c0 + (j : Nat)) line

/-- Whether every position of a unit lies inside. -/
def unitWhole (t : Tensor) (c0 : Int) (line : List Int) : Bool :=
  if t.layout = 0 then t.inside c0 line
  else (List.range (elemsPerBlock t.container)).all fun j => t.inside (c0 + (j : Nat)) line

/-- R170: the byte ranges of a copy's inside units. -/
def copySpans (o : CopyOp) : List (Nat × Nat) :=
  let t := Tensor.ofBytes o.entry
  (tileLines o).flatMap fun line => ((unitStarts t o).filter fun c => unitInside t c line).map fun c => (t.addr c line, t.unit)

/-- R161: a span beyond LIMIT. -/
def beyondLimit (t : Tensor) (sp : Nat × Nat) : Bool := decide (t.base + t.limit < sp.1 + sp.2)

/-! ## Elements (R169) -/

/-- An element as one exact value: a number or an integer. -/
inductive Elem where
  | num (v : FVal)
  | int (i : Int)
  deriving DecidableEq, Repr

/-- The value of a bit pattern of a wide type. -/
def elemOf (t : Ty) (bits : Nat) : Elem :=
  match t with
  | .f32 | .f16 | .bf16 => .num ((fmtOfTy t).decode bits)
  | t => .int (intVal t (BitVec.ofNat 64 bits))

/-- The value as a number. -/
def Elem.num? : Elem → FVal
  | .num v => v
  | .int i => .ofInt i

/-- R169: a value written in a wide type: one conversion, as CVTF, CVTFI, CVTIF or CVTI makes it. -/
def elemTo (t : Ty) (rnd : Rnd) (sat : Bool) (e : Elem) : Nat :=
  match t, e with
  | .f32, e | .f16, e | .bf16, e => (roundTo (fmtOfTy t) rnd sat e.num?).1
  | t, .num v => ((fToInt t.signed t.bits rnd v).1 % 2 ^ t.bits).toNat
  | t, .int i => ((if sat then max (intMin t) (min (intMax t) i) else i) % 2 ^ t.bits).toNat

/-- R169, R220: a bit pattern of one wide type as another has it; without a conversion the bits stay. -/
def convertBits (src dst : Ty) (rnd : Rnd) (sat : Bool) (bits : Nat) : Nat :=
  if src = dst then bits % 2 ^ dst.bits else elemTo dst rnd sat (elemOf src bits)

/-! ## The engines in memory -/

/-- The place an engine's access reaches: its translation, and the frame check under the generation of its operation (R80);
none where it is rejected. -/
def State.enginePlace (s : State) (asid gen : Nat) (va : Nat) (write : Bool) : Option (Bool × Nat) :=
  match s.walk asid (BitVec.ofNat 64 va) with
  | none => none
  | some e =>
    let pa := e.at (BitVec.ofNat 64 va)
    let fe := s.frame (pa / 65536)
    if if write then !e.w else !e.r then none
    else if e.tgt = 1 then some (true, pa)
    else if fe.state = 0 ∨ fe.owner ≠ asid ∨ gen < fe.mgen then none else some (false, pa)

/-- An engine's read of bytes within one page, from its die's copies or the lines' holders (R103); none where it is rejected. -/
def State.engineRead (s : State) (asid gen die va n : Nat) : Option (List Byte) :=
  (s.enginePlace asid gen va false).map fun p => (List.range n).map fun i => s.byteFor die p.1 (p.2 + i)

/-- Bytes laid into a line at an offset of it. -/
def lineWrite (ofs : Nat) (bs : List Byte) (d : LineData) : LineData := linePut d ofs bs.length (ofLeBytes bs)

/-- The pieces of a write, cut at lines. -/
def linePieces (va : Nat) (bs : List Byte) : List (Nat × List Byte) :=
  let first := 128 - va % 128
  let rest := bs.drop first
  (va, bs.take first) :: (List.range ((rest.length + 127) / 128)).map fun i => (va + first + 128 * i, (rest.drop (128 * i)).take 128)

/-- R177, R312: as an engine's write leaves its die, the line goes from the L1 and the copies beside the engine. -/
def State.engineDrop (s : State) (waiter : Waiter) (die : Nat) (host : Bool) (line : Nat) : State :=
  let s1 := match waiter with
    | .copy core _ | .drain core _ => s.l1Drop core host line
    | _ => s
  if host then s1 else s1.dropCopy die line

/-- R80: an engine's write that is rejected is dropped with its event, and its waiter waits for nothing. -/
def State.engineStale (s : State) (asid gen va : Nat) (waiter : Waiter) : State :=
  let pa := match s.walk asid (BitVec.ofNat 64 va) with
    | some e => e.at (BitVec.ofNat 64 va)
    | none => 0
  (s.staleWrite asid gen pa).ackWrite waiter 0

/-- An engine's write of one line's piece: through the home slice, with the waiter told its GWCT (R106); false where it is
rejected. Its line has been reached before (R95). -/
def State.enginePiece (s : State) (asid gen die : Nat) (waiter : Waiter) (va : Nat) (f : Nat → LineData → LineData) (bs : List Byte) :
    State × Bool :=
  match s.enginePlace asid gen va true with
  | none => (s.engineStale asid gen va waiter, false)
  | some (true, pa) => (((s.engineDrop waiter die true (pa / 128)).poke true pa bs).ackWrite waiter s.now, true)
  | some (false, pa) =>
    let line := pa / 128
    match s.frameCheck asid gen pa true with
    | .stale => (s.engineStale asid gen va waiter, false)
    | .serve s1 | .wait s1 =>
      (((s1.engineDrop waiter die false line).countRegion asid (BitVec.ofNat 64 va) 0 1 (s1.leased line).toNat).writeLine line die
        (f (pa % 128)) waiter, true)

/-- Scratchpad bytes of a block's place. -/
def Block.read (b : Block) (place ofs n : Nat) : List Byte := (List.range n).map fun i => b.byte place (ofs + i)

/-- `n` free bytes: what an unpredictable destination holds (R174, log 4). -/
def State.freeBytes (s : State) (n : Nat) : List Byte × State :=
  ((List.range n).map fun i => (Config.freeValue (s.freeCtr + i)).setWidth 8, { s with freeCtr := s.freeCtr + n })

/-! ## Tokens (R31, R174, R271, R292) -/

/-- An operation accepted under a flag: the flag is clear. -/
def State.takeToken (s : State) (w flag : Nat) : State :=
  s.setWarp w fun wp => { wp with
    cf := wp.cf &&& ~~~(BitVec.ofNat 12 (2 ^ flag)), tokens := SMap.set 0 wp.tokens flag (SMap.get 0 wp.tokens flag + 1) }

/-- An operation under a flag has posted; with the last one the flag sets, and the GWCTs join the warp's (R311). -/
def State.postToken (s : State) (w flag : Nat) (gwct : DWord) : State :=
  s.setWarp w fun wp =>
    let left := SMap.get 0 wp.tokens flag - 1
    let g := later (SMap.get 0 wp.tokGw flag) gwct.toNat
    if left = 0 then
      { wp with
        tokens := SMap.set 0 wp.tokens flag 0, tokGw := SMap.set 0 wp.tokGw flag 0, cf := wp.cf ||| BitVec.ofNat 12 (2 ^ flag)
        gwBlk := later wp.gwBlk g.toNat, gwDev := later wp.gwDev g.toNat, gwSys := later wp.gwSys g.toNat }
    else { wp with tokens := SMap.set 0 wp.tokens flag left, tokGw := SMap.set 0 wp.tokGw flag g }

/-- R177, R285, R309: whether every write that warps issued before an operation has been made. -/
def State.writtenBefore (s : State) (ws : List Nat) (id : Nat) : Bool :=
  ws.all fun w => (s.warp w).stores.all fun p => p.applied || decide (id ≤ p.id)

/-- R174, R283, R393: a fault deferred to the waits on a flag in a warp. -/
def State.deferFault (s : State) (w flag : Nat) (pos : DWord) (r : Report) (members : List Nat) : State :=
  s.setWarp w fun wp => { wp with deferred := wp.deferred ++ [Deferred.mk flag { r with deferred := true, tval := pos } [] members] }

/-! ## The ranges of a matrix operation (R273, R274, R279, R288) -/

/-- Elements of a tile's side. -/
def tileSide : Nat := 128

/-- R273, R274: bytes of one panel of an operand. -/
def matPanel (ty : Ty) : Nat := if ty = .fmt then panelSize else 8192

/-- R288: the container of a TYPE 14 drain. -/
def MatrixOp.container (o : MatrixOp) : Nat := (Fmt.ofWord (o.fmts.getD o.fmt 0x00007B34)).container

/-- R288: the blocks of a TYPE 14 row. -/
def MatrixOp.rowBlocks (o : MatrixOp) : Nat := (tileSide + elemsPerBlock o.container - 1) / elemsPerBlock o.container

/-- R288: the packed row size, and the row distance. -/
def MatrixOp.rowSize (o : MatrixOp) : Nat := if o.ty = .fmt then 64 * o.rowBlocks else tileSide * wideSize o.ty
def MatrixOp.rowStep (o : MatrixOp) : Nat := if o.stride = 0 then o.rowSize else o.stride

/-- R288: bytes from the first row to the end of the last. -/
def MatrixOp.span (o : MatrixOp) : Nat := if o.planes then panelSize * o.rowBlocks else (tileSide - 1) * o.rowStep + o.rowSize

/-- R279: the ranges an MMA or MMAS reads. -/
def MatrixOp.images (o : MatrixOp) : List (Nat × Nat) :=
  let p := matPanel o.ty * o.kTot
  (o.a.toNat, p) :: (if o.kind = 1 then [(o.b, 2 * p), (o.sm, 4096 * o.kTot)] else [(o.b, p)])

/-! ## What engines may still be writing (R177, R178, R180, R189, R285) -/

/-- Whether two ranges share a byte. -/
def meet (a n b m : Nat) : Bool := decide (a < b + m) && decide (b < a + n)

/-- R180, R182: slot `k` of the ring whose control word stands at a place. -/
def Block.ringSlot (b : Block) (place ofs k : Nat) : Nat :=
  b.get place ofs 4 + 128 * b.get place (ofs + 6) 2 * (k % b.get place (ofs + 4) 2)

/-- R168, R199: bytes of an image of `lines` lines. -/
def imageSize (ty : Ty) (container s0 lines : Nat) (planes : Bool) : Nat :=
  if ty = .fmt then
    let nb := (s0 + elemsPerBlock container - 1) / elemsPerBlock container
    if planes then panelSize * nb * ((lines + 127) / 128) else 64 * nb * lines
  else wideSize ty * s0 * lines

/-- The container that fmtFMT gives (R168). -/
def CopyOp.container (o : CopyOp) : Nat := (Fmt.ofWord (o.fmts.getD o.fmt 0x00007B34)).container

/-- R168, R199: bytes of the operation's image. -/
def CopyOp.imageBytes (o : CopyOp) : Nat := imageSize o.ty o.container o.s0 (tileLines o).length o.planes

/-- Where the image of a copy stands: its SA, or its ring slot (R180). -/
def State.imageOfs (s : State) (o : CopyOp) : Nat :=
  match o.slot with
  | some k => (s.block o.block).ringSlot o.place o.ofs k
  | none => o.ofs

/-- Whether a copy that has not posted writes a range of its block's scratchpad. -/
def State.copyInto (s : State) (o : CopyOp) (p : SaPlace) (n : Nat) : Bool :=
  !o.store && o.kind < 4 && !o.done && (!o.ring || o.slot.isSome) && o.place == p.place && meet p.ofs n (s.imageOfs o) o.imageBytes

/-- The place and offset of an engine's scratchpad operand. -/
def State.matPlace (s : State) (core block sa : Nat) : SaPlace :=
  ⟨if sa.testBit 24 then sa / 2 ^ 21 % 8 else (s.block block).placeOf core, sa % 2 ^ 21⟩

/-- R177, R285: an LDS of what its own warp's copy, or a drain of its block, has not finished writing. -/
def State.racedLds (s : State) (warp : Nat) (p : SaPlace) (n : Nat) : Bool :=
  let wp := s.warp warp
  ((s.core wp.core).copies.any fun o => o.warp == warp && s.copyInto o p n)
    || s.cores.any fun e => e.2.drainQ.any fun o => o.block == wp.block && !o.mem
        && (s.matPlace e.1 o.block o.a.toNat).place == p.place && meet p.ofs n (o.a.toNat % 2 ^ 21) o.span

/-- R177, R189, R285: a read of memory that its own warp's copy, a drain of its block or an external read of its address space has
not finished writing. -/
def State.racedRead (s : State) (warp : Nat) (va : DWord) (n : Nat) : Bool :=
  let wp := s.warp warp
  ((s.core wp.core).copies.any fun o => o.warp == warp && o.store && (copySpans o).any fun sp => meet va.toNat n sp.1 sp.2)
    || (s.cores.any fun e => e.2.drainQ.any fun o => o.block == wp.block && o.mem
        && (List.range tileSide).any fun m => meet va.toNat n (o.a.toNat + m * o.rowStep) o.rowSize)
    || s.fe.xreads.any fun x => x.asid == wp.asid && meet va.toNat n x.dst.toNat x.len

end Sys2Proof.Machine
end

