-- ==== Sys2Proof/Machine/Access.lean ====
section
/-! DEFINITION. Access instructions and calls: LD, ST, LDS, STS, LDC, LDW, STW, PREF, CINV (08, R206 to R218) with their
window events and write-backs (R34, R203), and BRX, CALL, CALLX, RET, TRAPRET (13, R333, R334, R336). -/

namespace Sys2Proof.Machine

/-! ## Data registers and addresses (R208, R209) -/

/-- The registers of a data source as one number, the first register lowest. -/
def State.dataOf (s : State) (t : TRef) (src : Src) (regs : Nat) : Nat :=
  match src with
  | .vec n _ => ((List.range regs).map fun i => ((s.warp t.warp).vreg t.lane (n.toNat + i)).toNat * 2 ^ (32 * i)).foldl (· + ·) 0
  | src => (s.readSrc t 32 src).toNat

/-- R209: the address of an LD, ST or PREF: 64 bits, the offset a signed 32-bit value (DEDUCED, log 19). -/
def ea64 (o : Operands) : DWord := o.a + (o.b.setWidth 32).signExtend 64

/-- R209: the address of an LDS, STS or LDC: 32 bits. -/
def ea32 (o : Operands) : Nat := (o.a.toNat + o.b.toNat) % 2 ^ 32

/-- R209: an access that is not a multiple of its width. -/
def misaligned (a n : Nat) : Bool := a % n != 0

/-- R312: whether a load of a thread must wait: bytes of one of its warp's stores not yet applied, or of one of its own
invocations. -/
def State.loadWaits (s : State) (t : TRef) (va : DWord) (n : Nat) : Bool :=
  let w := s.warp t.warp
  match s.look w.core w.asid va with
  | none => false
  | some e => w.stores.any fun p => !p.applied && (!p.inv || p.lane == t.lane) && p.meets (e.tgt == 1) (e.at va) n

/-- R211, R302: whether a read of a line that a core has sent is on its way; a later read of the line then takes the same way. -/
def State.reading (s : State) (core : Nat) (host : Bool) (line : Nat) : Bool :=
  s.net.any fun m => match m with
    | .sliceRead r => r.core == core && r.host == host && r.pa / 128 == line
    | _ => false

/-- R77, R78, R209: the checks of an access of a thread: misaligned, then translation; the state keeps the TLB entry. -/
def State.accessCheck (s : State) (t : TRef) (va : DWord) (n : Nat) (r w : Bool) : Except Report State :=
  if misaligned va.toNat n then .error (report clsMisaligned 0 va)
  else
    let wp := s.warp t.warp
    let (e, s1) := s.xlate wp.core wp.asid va
    match xlateCause e r w false with
    | some c => .error (report clsLease c va)
    | none => .ok s1

/-! ## Loads (R210 to R213) -/

/-- R210: a translated load on its way: from L1, from the die's rime copy, or to the home or FE. `dst` is where its value
goes; a copy read counts in CHIT (R114). -/
def State.startLoad (s : State) (t : TRef) (id : Nat) (va : DWord) (n : Nat) (ty : Ty) (ca : Bool) (dst : WbDst) : State :=
  let wp := s.warp t.warp
  let gen := s.genAt wp.core wp.asid
  let s0 := s.setWarp t.warp fun w => { w with inFlight := w.inFlight + 1 }
  match s.look wp.core wp.asid va with
  | none => s0
  | some e =>
    let pa := e.at va
    let host := e.tgt == 1
    let r : ReadReq := ⟨id, t.warp, t.lane, wp.core, wp.asid, gen, va, pa, host, n, ty, ca, dst, s.cur.pos, s.cur.num,
      s.racedRead t.warp va n⟩
    let die := dieOfCore wp.core
    if s.reading wp.core host (pa / 128) then s0.send (.sliceRead r)
    else match (if ca then s.l1Hit wp.core wp.asid gen host (pa / 128) else none) with
    | some d => s0.loaded r d
    | none =>
      match (if host then none else s.copyAt die (pa / 128)) with
      | some c => (s0.countSlice die 0).readDone r c.data
      | none => s0.send (.sliceRead r)

/-- LD and LDC in a thread: the destination goes empty, and the load starts. -/
def loadEff (f : Form) (va : DWord) (n : Nat) (ca : Bool) (t : TRef) (s : State) : Eff :=
  if s.loadWaits t va n then .retry
  else
    let d := f.x.dst.num.toNat
    let regs := (opRule f.opc f.g f.x).d.regs
    let s1 := s.setWarp t.warp fun w => w.markEmpty t.lane d regs true
    .done ((s1.fresh).startLoad t s.nextId va n f.x.ty ca (.vec d regs))

/-- A load at warp scope into a uniform register, class Q (R32, R210). -/
def loadUniform (f : Form) (va : DWord) (n : Nat) (ca : Bool) (ld : TRef) (s : State) : Eff :=
  if s.loadWaits ld va n then .retry
  else
    let id := s.nextId
    let s1 := s.fresh.park (.uniform id) ld.warp s.cur.group
    .held (s1.startLoad ld id va n f.x.ty ca (.uni (f.x.dst.num.toNat % 32)))

/-- LD (R210). -/
def ldOp (i : Instr) (s : State) : State :=
  let f := i.form
  let n := accessBytes f.x
  let ca := !f.x.sub.getLsbD 2
  if f.g.scope = .lane then
    s.eachChecked i (fun t o s => s.accessCheck t (ea64 o) n true false) fun t o s => loadEff f (ea64 o) n ca t s
  else s.onceFor i fun ld o s =>
    match s.accessCheck ld (ea64 o) n true false with
    | .error r => .fault r
    | .ok s1 => loadUniform f (ea64 o) n ca ld s1

/-- R213: the checks of an LDC: alignment, the section's size, translation. -/
def State.constCheck (s : State) (t : TRef) (ofs n : Nat) : Except Report (State × DWord) :=
  let k := (s.grid (s.warp t.warp).grid).kernel
  let va := k.constBase + BitVec.ofNat 64 ofs
  if misaligned ofs n then .error (report clsMisaligned 0 (BitVec.ofNat 64 ofs))
  else if k.constSize < ofs + n then .error (report clsLease 1 va)
  else match s.accessCheck t va n true false with
    | .error r => .error r
    | .ok s1 => .ok (s1, va)

/-- LDC (R213). -/
def ldcOp (i : Instr) (s : State) : State :=
  let f := i.form
  let n := accessBytes f.x
  let va (t : TRef) (o : Operands) (s : State) : DWord :=
    (s.grid (s.warp t.warp).grid).kernel.constBase + BitVec.ofNat 64 (ea32 o)
  if f.g.scope = .lane then
    s.eachChecked i (fun t o s => (s.constCheck t (ea32 o) n).map (·.1)) fun t o s => loadEff f (va t o s) n true t s
  else s.onceFor i fun ld o s =>
    match s.constCheck ld (ea32 o) n with
    | .error r => .fault r
    | .ok (s1, v) => loadUniform f v n true ld s1

/-- VCLASS_WRITE_BACK (R34, R203, R215, R182): a result reaches its destination and marks it full; a window read waits for
its target to be full, an RPOP for a filled slot. -/
def State.putBack (s : State) (wb : WriteBack) (v : BitVec 128) : State :=
  let s1 := s.setWarp wb.warp fun w => { w with inFlight := w.inFlight - 1 }
  match wb.dst with
  | .vec r c =>
    let ws := (List.range c).map fun i => ((.vec (r + i) wb.lane : RegKey), (v.extractLsb' (32 * i) 32).setWidth 64)
    (s1.writeNow wb.warp ws).setWarp wb.warp fun w => w.markEmpty wb.lane r c false
  | .uni n =>
    let s2 := s1.writeNow wb.warp [(.uni n, v.setWidth 64)]
    match s2.waits.find? fun e => e.2.kind == .uniform wb.id with
    | some e => s2.completeWait e.1
    | none => s2

/-! ## Stores (R210, R312) -/

/-- R106, R312: a store of a thread on its way to its home: its warp remembers it, and the issuing die's copy is dropped. -/
def State.startStore (s : State) (t : TRef) (va : DWord) (n data : Nat) : State :=
  let wp := s.warp t.warp
  match s.look wp.core wp.asid va with
  | none => s
  | some e =>
    let id := s.nextId
    let pa := e.at va
    let host := e.tgt == 1
    let gen := s.genAt wp.core wp.asid
    let s1 := s.fresh.setWarp t.warp fun w => { w with stores := w.stores ++ [⟨id, t.lane, host, pa, n, .blk, gen, false, false⟩] }
    let s2 := if host then s1 else s1.dropCopy (dieOfCore wp.core) (pa / 128)
    s2.send (.sliceWrite ⟨.store t.warp t.lane id, wp.core, wp.asid, gen, va, pa, host, n, BitVec.ofNat 128 data, s.cur.num⟩)

/-- ST (R210). -/
def stOp (i : Instr) (s : State) : State :=
  let f := i.form
  let n := accessBytes f.x
  s.eachChecked i (fun t o s => s.accessCheck t (ea64 o) n false true) fun t o s =>
    .done (s.startStore t (ea64 o) n (s.dataOf t f.x.c (accessRegs f.x)))

/-! ## Scratchpad (R212) -/

/-- R209, R212: the checks of an LDS or STS. -/
def State.ldsCheck (s : State) (t : TRef) (sa n : Nat) : Except Report State :=
  if misaligned sa n then .error (report clsMisaligned 0 (BitVec.ofNat 64 sa))
  else match s.saCheck t.warp [t.warp] sa n with
    | .error r => .error r
    | .ok _ => .ok s

/-- What an LDS reads: the scratchpad's value at its issue (log 9), unpredictable where an engine is still writing it. -/
def State.ldsValue (s : State) (warp : Nat) (p : SaPlace) (n : Nat) : Nat × State :=
  if s.racedLds warp p n then (let (v, s1) := s.free; (v.toNat, s1)) else (s.scratch warp p n, s)

/-- LDS (R212). -/
def ldsOp (i : Instr) (s : State) : State :=
  let f := i.form
  let n := accessBytes f.x
  s.eachChecked i (fun t o s => s.ldsCheck t (ea32 o) n) fun t o s =>
    match s.saPlace t.warp (ea32 o) n with
    | .error r => .fault r
    | .ok p =>
      let d := f.x.dst.num.toNat
      let regs := (opRule f.opc f.g f.x).d.regs
      let (v, s0) := s.ldsValue t.warp p n
      let s1 := s0.fresh.setWarp t.warp fun w => { w.markEmpty t.lane d regs true with inFlight := w.inFlight + 1 }
      .done (s1.send (.vclassWriteBack ⟨s.nextId, t.warp, t.lane, .vec d regs, .value (loadWiden f.x.ty n v), s.cur.pos, s.cur.num⟩))

/-- STS (R198, R212). -/
def stsOp (i : Instr) (s : State) : State :=
  let f := i.form
  let n := accessBytes f.x
  s.eachChecked i (fun t o s => s.ldsCheck t (ea32 o) n) fun t o s =>
    match s.saPlace t.warp (ea32 o) n with
    | .error r => .fault r
    | .ok p => .done (s.setScratch t.warp p (leBytes n (s.dataOf t f.x.c (accessRegs f.x))))

/-! ## Register windows (R203, R214 to R216) -/

/-- A register-window address's target (R214). -/
structure Rwa where
  warp : Nat
  reg : Nat
  lane : Nat
  deriving DecidableEq, Repr

/-- R215: the target of an RWA for a warp of a block, or the window-permission fault. -/
def State.rwa (s : State) (warp v : Nat) : Except Report Rwa :=
  let w := s.warp warp
  let die := (s.block w.block).die
  let reg := v / 2 ^ 11 % 2 ^ 9
  let bad (c : Nat) : Except Report Rwa := .error (report clsWindow c (BitVec.ofNat 64 v))
  if v / 2 ^ 29 ≠ 0 ∨ v / 2 ^ 5 % 2 ^ 6 ≠ 0 then bad 1
  else match s.warpOfIndex w.block (v / 2 ^ 20 % 2 ^ 9) with
    | none => bad 1
    | some tw =>
      let target := s.warp tw
      if target.freed ∨ dieOfCore target.core ≠ die ∨ dieOfCore w.core ≠ die then bad 1
      else if target.alloc ≤ reg then bad 2
      else .ok ⟨tw, reg, v % 32⟩

/-- R388: a register named by an STW or LDW.take enters its warp's window map. -/
def State.mapWindow (s : State) (r : Rwa) : State :=
  s.setWarp r.warp fun w => { w with winMap := w.winMap ||| BitVec.ofNat 320 (2 ^ r.reg) }

/-- R203: a window write at its target: the word lands, and the bit is full; a register given away takes nothing. -/
def State.windowLand (s : State) (m : WinWrite) : State :=
  if m.reg < (s.warp m.warp).alloc ∧ !(s.warp m.warp).freed then
    s.setWarp m.warp fun w => (w.setReg' (.vec m.reg m.lane) (m.data.setWidth 64)).markEmpty m.lane m.reg 1 false
  else s

/-- R215: whether a window write of the same thread or issue to the same target lane came before another. -/
def winBefore (h m : WinWrite) : Bool :=
  ((h.srcWarp == m.srcWarp && h.srcLane == m.srcLane) || h.batch == m.batch) && h.warp == m.warp && h.reg == m.reg
    && h.lane == m.lane && decide (h.id < m.id)

/-- R215: whether a write that came before has not landed, held or on its way. -/
def State.writeBefore (s : State) (m : WinWrite) : Bool :=
  (s.heldWrites.any fun h => winBefore h m) || s.net.any fun e => match e with
    | .windowWriteArrival h => winBefore h m
    | _ => false

/-- WINDOW_WRITE_ARRIVAL (R203, R215). -/
def windowWriteArrival (m : WinWrite) (s : State) : State :=
  if s.writeBefore m then s.hold (.windowWriteArrival m) else s.windowLand m

/-- STW_WAIT_LAND (R215): a held write lands once its target is empty; it is discarded where the target is gone. -/
def stwWaitLand (m : WinWrite) (s : State) : State :=
  if !s.heldWrites.contains m then s
  else
    let w := s.warp m.warp
    let out := { s with heldWrites := s.heldWrites.erase m }
    if w.alloc ≤ m.reg ∨ w.freed then out
    else if s.writeBefore m ∨ !w.isEmpty m.lane m.reg then s.hold (.stwWaitLand m)
    else out.windowLand m

/-- LDW in a thread (R215). In a deterministic grid an empty target is a failed evaluation, and the read is made at the
release (R375). -/
def ldwEff (f : Form) (t : TRef) (o : Operands) (s : State) : Eff :=
  match s.rwa t.warp o.a.toNat with
  | .error r => .fault r
  | .ok r =>
    let take := f.x.sub.getLsbD 4
    let d := f.x.dst.num.toNat
    let target := s.warp r.warp
    if (s.grid (s.warp t.warp).grid).det && target.isEmpty r.lane r.reg then .retry
    else
      let s1 := if take then s.mapWindow r else s
      let s2 := s1.fresh.setWarp t.warp fun w => { w.markEmpty t.lane d 1 true with inFlight := w.inFlight + 1 }
      let wb : WriteBack := ⟨s.nextId, t.warp, t.lane, .vec d 1, .window r.warp r.reg r.lane take, s.cur.pos, s.cur.num⟩
      if (s.grid (s.warp t.warp).grid).det then
        let s3 := s2.putBack wb ((target.vreg r.lane r.reg).setWidth 128)
        .done (if take then s3.setWarp r.warp fun w => w.markEmpty r.lane r.reg 1 true else s3)
      else .done (s2.send (.vclassWriteBack wb))

/-- R215: the checks of an LDW or STW, and an empty destination. -/
def rwaCheck (t : TRef) (o : Operands) (s : State) : Except Report State :=
  match s.rwa t.warp o.a.toNat with
  | .error r => .error r
  | .ok _ => .ok s

/-- LDW (R215). -/
def ldwOp (i : Instr) (s : State) : State := s.eachChecked i rwaCheck (ldwEff i.form)

/-- STW in a thread (R215, R375). -/
def stwEff (f : Form) (t : TRef) (o : Operands) (s : State) : Eff :=
  match s.rwa t.warp o.a.toNat with
  | .error r => .fault r
  | .ok r =>
    let wait := f.x.sub.getLsbD 4
    let det := (s.grid (s.warp t.warp).grid).det
    let m : WinWrite := ⟨s.nextId, t.warp, t.lane, r.warp, r.reg, r.lane, o.b.setWidth 32, s.cur.pos, s.cur.num⟩
    let s1 := s.fresh.mapWindow r
    if det then
      if wait && !(s.warp r.warp).isEmpty r.lane r.reg then .retry else .done (s1.windowLand m)
    else if wait then .done ({ s1 with heldWrites := s1.heldWrites ++ [m] }.send (.stwWaitLand m))
    else .done (s1.send (.windowWriteArrival m))

/-- STW (R215). -/
def stwOp (i : Instr) (s : State) : State := s.eachChecked i rwaCheck (stwEff i.form)

/-! ## Ring reads (R178, R182) -/

/-- The fields of a queue control word (R178), at an offset of a block's scratchpad on a core. -/
structure Qcw where
  base : Nat
  depth : Nat
  esize : Nat
  wr : Nat
  fill : Nat
  rd : Nat
  rl : Nat
  deriving DecidableEq, Repr

def Block.qcw (b : Block) (place ofs : Nat) : Qcw :=
  ⟨b.get place ofs 4, b.get place (ofs + 4) 2, b.get place (ofs + 6) 2, b.get place (ofs + 8) 2, b.get place (ofs + 10) 2,
    b.get place (ofs + 12) 2, b.get place (ofs + 14) 2⟩

/-- R178: whether QCWSET has set a control word, and only ring operations have changed it since. -/
def Block.qcwSet (b : Block) (place ofs : Nat) : Bool := SMap.get false b.qcws (place * 2 ^ 21 + ofs)

/-- A control word marked as set, or not. -/
def Block.markQcw (b : Block) (place ofs : Nat) (on : Bool) : Block :=
  { b with qcws := SMap.set false b.qcws (place * 2 ^ 21 + ofs) on }

/-- A counter of a control word written (R178); the line counts as touched (R198). -/
def Block.qcwPut (b : Block) (place ofs field v : Nat) : Block :=
  (b.put place (ofs + field) (leBytes 2 (v % 2 ^ 16))).markQcw place ofs (b.qcwSet place ofs)

/-- R178: slots filled and not taken. -/
def Qcw.filled (q : Qcw) : Nat := (q.fill + 2 ^ 16 - q.rd) % 2 ^ 16

/-- R178: free slots. -/
def Qcw.room (q : Qcw) : Nat := q.depth - (q.wr + 2 ^ 16 - q.rl) % 2 ^ 16

/-- R178: the offset of a slot. -/
def Qcw.slot (q : Qcw) (k : Nat) : Nat := q.base + 128 * q.esize * (k % q.depth)

/-- R182: an RPOP takes the next filled slot: its SA, or none while the ring is empty. -/
def State.ringTake (s : State) (block place qofs : Nat) : Option (Nat × State) :=
  let q := (s.block block).qcw place qofs
  if q.filled = 0 then none
  else some (q.slot q.rd, s.setBlock block fun b => b.qcwPut place qofs 12 (q.rd + 1))

/-- R178: the result of a ring operation, unpredictable on a control word that QCWSET has not set. -/
def State.ringValue (s : State) (block place qofs v : Nat) : Nat × State :=
  if (s.block block).qcwSet place qofs then (v, s) else (let (x, s1) := s.free; ((x.setWidth 32).toNat, s1))

/-- VCLASS_WRITE_BACK (R34, R182, R203, R215). -/
def vclassWriteBack (wb : WriteBack) (s : State) : State :=
  match wb.src with
  | .value v => s.putBack wb v
  | .window tw reg lane take =>
    let w := s.warp tw
    if w.freed ∨ w.alloc ≤ reg then
      let (v, s1) := s.free
      s1.putBack wb (v.setWidth 128)
    else if w.isEmpty lane reg then s.hold (.vclassWriteBack wb)
    else
      let s1 := s.putBack wb ((w.vreg lane reg).setWidth 128)
      if take then s1.setWarp tw fun w => w.markEmpty lane reg 1 true else s1
  | .ring place qofs =>
    match s.ringTake (s.warp wb.warp).block place qofs with
    | none => s.hold (.vclassWriteBack wb)
    | some (slot, s0) =>
      let (sa, s1) := s0.ringValue (s.warp wb.warp).block place qofs slot
      let lanes := List.range (s.warp wb.warp).threads.length
      match wb.dst with
      | .uni _ => s1.putBack wb (BitVec.ofNat 128 sa)
      | .vec r c =>
        lanes.foldl
          (fun s l => s.setWarp wb.warp fun w => (w.setReg' (.vec r l) (BitVec.ofNat 64 sa)).markEmpty l r c false)
          (s1.setWarp wb.warp fun w => { w with inFlight := w.inFlight - 1 })

/-! ## PREF and CINV (R217, R218) -/

/-- R103, R217: a prefetch beyond L1: the state, and the line where the request is served. A request that would wait, or that
the frame check rejects, brings nothing. -/
def State.prefetch (s : State) (asid gen die : Nat) (host : Bool) (va : DWord) (pa : Nat) : State × Option LineData :=
  let line := pa / 128
  if host then (s, some (s.hostLine pa))
  else match s.copyAt die line with
    | some c => (s.countSlice die 0, some c.data)
    | none =>
      match s.frameCheck asid gen pa false with
      | .stale => (s, none)
      | .wait s1 => (s1, none)
      | .serve s1 => match s1.readAt asid va line die with
        | some s2 => (s2, some (s2.homeLine line).value)
        | none => (s1, none)

/-- PREF in a thread (R217): a lane whose address fails a check is ignored. -/
def prefEff (f : Form) (t : TRef) (o : Operands) (s : State) : Eff :=
  let va := ea64 o
  match s.accessCheck t va 4 true false with
  | .error _ => .done s
  | .ok s1 =>
    let wp := s1.warp t.warp
    match s1.look wp.core wp.asid va with
    | none => .done s1
    | some e =>
      let pa := e.at va
      let host := e.tgt == 1
      let gen := s1.genAt wp.core wp.asid
      if f.x.sub = 0 && (s1.l1Hit wp.core wp.asid gen host (pa / 128)).isSome then .done s1
      else match s1.prefetch wp.asid gen (dieOfCore wp.core) host va pa with
        | (s2, some d) => .done (if f.x.sub = 0 && !s2.writing wp.core host (pa / 128) then
            s2.l1Fill wp.core wp.asid gen host (pa / 128) d else s2)
        | (s2, none) => .done s2

/-- PREF (R217). -/
def prefOp (i : Instr) (s : State) : State := s.eachThread i (prefEff i.form)

/-- R218: lines leave a core's L1, and no read that is on its way brings one of them back. -/
def State.invalidate (s : State) (core : Nat) (gone : Nat → Bool → Nat → Bool) : State :=
  let s1 := s.setCore core fun c => { c with l1 := c.l1.filter fun l => !gone l.asid l.host l.line }
  { s1 with net := s1.net.map fun m => match m with
    | .sliceRead r => if r.core = core ∧ gone r.asid r.host (r.pa / 128) then .sliceRead { r with ca := false } else m
    | _ => m }

/-- CINV in a thread (R218). -/
def cinvEff (f : Form) (t : TRef) (o : Operands) (s : State) : Eff :=
  let wp := s.warp t.warp
  if f.x.sub = 1 then .done (s.invalidate wp.core fun _ _ _ => true)
  else match s.look wp.core wp.asid o.a with
    | none => .done s
    | some e => .done (s.invalidate wp.core fun asid host line => asid == wp.asid && host == (e.tgt == 1) && line == e.at o.a / 128)

/-- CINV (R218). -/
def cinvOp (i : Instr) (s : State) : State := s.eachThread i (cinvEff i.form)

/-! ## Indirect branches and calls (R50, R333, R334) -/

/-- BRX (R50, R333). -/
def brxEff (t : TRef) (o : Operands) (s : State) : Eff :=
  let w := s.warp t.warp
  if s.targetOk w.core w.asid o.a then .jump s o.a else .fault (report clsBranch 0 o.a)

def brxOp (i : Instr) (s : State) : State := s.laneOrOnce i brxEff

/-- R334: the base of a thread's call-stack area. -/
def State.areaBase (s : State) (t : TRef) : DWord :=
  let w := s.warp t.warp
  let g := s.grid w.grid
  let sb := (g.wpb * 32 * g.kernel.stack + 65535) / 65536 * 65536
  g.stkva + BitVec.ofNat 64 ((s.block w.block).index * sb + (32 * w.index + t.lane) * g.kernel.stack)

/-- R334: the area's top. -/
def State.areaTop (s : State) (t : TRef) : DWord :=
  s.areaBase t + BitVec.ofNat 64 (s.grid (s.warp t.warp).grid).kernel.stack

/-- R334: the checks of CALL and CALLX, made before any lane acts, as those of an ST (R210): an indirect target, the end of the
thread's area, and the store of the return address. -/
def callCheck (indirect : Bool) (target : DWord) (t : TRef) (s : State) : Except Report State :=
  let w := s.warp t.warp
  let a := (s.thread t).sp - 8
  if indirect && !s.targetOk w.core w.asid target then .error (report clsBranch 0 target)
  else if (s.thread t).sp.toNat < (s.areaBase t).toNat + 8 then .error (report clsLease 1 a)
  else s.accessCheck t a 8 false true

/-- R334: CALL: the return address stored below %sp, and the jump. -/
def callTo (target : DWord) (t : TRef) (s : State) : Eff :=
  let a := (s.thread t).sp - 8
  .jump ((s.startStore t a 8 s.cur.nextClause.toNat).setThread t fun th => { th with sp := a }) target

/-- CALL (R49, R334). -/
def callOp (i : Instr) (off : DWord) (s : State) : State :=
  s.eachChecked i (fun t _ s' => callCheck false (branchTarget s.cur.pos off) t s') fun t _ s' =>
    callTo (branchTarget s.cur.pos off) t s'

/-- CALLX (R50, R334). -/
def callxOp (i : Instr) (s : State) : State :=
  s.eachChecked i (fun t o s' => callCheck true o.a t s') fun t o s' => callTo o.a t s'

/-- The thread's load of its return address, as its core reaches it (R80, R95, R103); false while it must wait. -/
def State.retReach (s : State) (t : TRef) : State × Bool :=
  let w := s.warp t.warp
  s.reachSpans w.asid (s.genAt w.core w.asid) (dieOfCore w.core) false [((s.thread t).sp.toNat, 8)]

/-- R334: the checks of RET, made before any lane acts, as those of an LD (R210); the request for the return address is sent. -/
def retCheck (t : TRef) (_ : Operands) (s : State) : Except Report State :=
  let th := s.thread t
  if th.sp = s.areaTop t then .error (report clsLease 1 th.sp)
  else (s.accessCheck t th.sp 8 true false).map fun s1 => (s1.retReach t).1

/-- RET in a thread (R50, R211, R334). -/
def retEff (t : TRef) (_ : Operands) (s : State) : Eff :=
  let th := s.thread t
  let w := s.warp t.warp
  if s.loadWaits t th.sp 8 || !(s.retReach t).2 then .retry
  else
    match s.look w.core w.asid th.sp with
    | none => .fault (report clsLease 1 th.sp)
    | some e =>
      let host := e.tgt == 1
      let pa := e.at th.sp
      if !s.frameReadable w.asid (s.genAt w.core w.asid) host pa then .fault (report clsStaleGen 0 th.sp)
      else
        let target := BitVec.ofNat 64 (ofLeBytes ((List.range 8).map fun i => s.byteFor (dieOfCore w.core) host (pa + i)))
        if s.targetOk w.core w.asid target then
          let s1 := if host then s else s.observe t.warp (pa / 128)
          .jump (s1.setThread t fun th => { th with sp := th.sp + 8 }) target
        else .fault (report clsBranch 0 target)

def retOp (i : Instr) (s : State) : State := s.eachChecked i retCheck retEff

/-- TRAPRET (R336): at TPOS, or with .skip at the position after it; outside a handler an illegal instruction. -/
def trapretEff (skip : Bool) (t : TRef) (_ : Operands) (s : State) : Eff :=
  let th := s.thread t
  let w := s.warp t.warp
  if !th.inHandler then .fault s.illegal
  else if skip then
    match s.posAfter w.core w.asid th.tpos with
    | .ok p => .stay (s.trapReturn t p)
    | .error r => .fault r
  else .stay (s.trapReturn t th.tpos)

def trapretOp (i : Instr) (skip : Bool) (s : State) : State := s.eachThread i (trapretEff skip)

/-! ## Meanings -/

/-- BRX (R50). -/
def execBrx (g : Guard) (a : BitVec 6) (s : State) : Host.Outcome State Fault Refusal :=
  .next (brxOp (Instr.brx g a) s)

/-- BRX_X (R333). -/
def execBrxX (g : Guard) (x : XForm) (s : State) : Host.Outcome State Fault Refusal :=
  .next (brxOp (Instr.brxX g x) s)

/-- CALLX (R334). -/
def execCallx (g : Guard) (a : BitVec 6) (s : State) : Host.Outcome State Fault Refusal :=
  .next (callxOp (Instr.callx g a) s)

/-- CALLX_X (R334). -/
def execCallxX (g : Guard) (x : XForm) (s : State) : Host.Outcome State Fault Refusal :=
  .next (callxOp (Instr.callxX g x) s)

/-- RET (R334). -/
def execRet (g : Guard) (s : State) : Host.Outcome State Fault Refusal :=
  .next (retOp (Instr.ret g) s)

/-- LD (R210). -/
def execLd (g : Guard) (o : BitVec 5) (a : BitVec 6) (d : BitVec 6) (s : State) : Host.Outcome State Fault Refusal :=
  .next (ldOp (Instr.ld g o a d) s)

/-- LD_X (R210). -/
def execLdX (g : Guard) (x : XForm) (s : State) : Host.Outcome State Fault Refusal :=
  .next (ldOp (Instr.ldX g x) s)

/-- ST (R210). -/
def execSt (g : Guard) (o : BitVec 5) (a : BitVec 6) (d : BitVec 6) (s : State) : Host.Outcome State Fault Refusal :=
  .next (stOp (Instr.st g o a d) s)

/-- ST_X (R210). -/
def execStX (g : Guard) (x : XForm) (s : State) : Host.Outcome State Fault Refusal :=
  .next (stOp (Instr.stX g x) s)

/-- LDS (R212). -/
def execLds (g : Guard) (o : BitVec 5) (a : BitVec 6) (d : BitVec 6) (s : State) : Host.Outcome State Fault Refusal :=
  .next (ldsOp (Instr.lds g o a d) s)

/-- LDS_X (R212). -/
def execLdsX (g : Guard) (x : XForm) (s : State) : Host.Outcome State Fault Refusal :=
  .next (ldsOp (Instr.ldsX g x) s)

/-- STS (R212). -/
def execSts (g : Guard) (o : BitVec 5) (a : BitVec 6) (d : BitVec 6) (s : State) : Host.Outcome State Fault Refusal :=
  .next (stsOp (Instr.sts g o a d) s)

/-- STS_X (R212). -/
def execStsX (g : Guard) (x : XForm) (s : State) : Host.Outcome State Fault Refusal :=
  .next (stsOp (Instr.stsX g x) s)

/-- LDC (R213). -/
def execLdc (g : Guard) (o : BitVec 5) (a : BitVec 6) (d : BitVec 6) (s : State) : Host.Outcome State Fault Refusal :=
  .next (ldcOp (Instr.ldc g o a d) s)

/-- LDC_X (R213). -/
def execLdcX (g : Guard) (x : XForm) (s : State) : Host.Outcome State Fault Refusal :=
  .next (ldcOp (Instr.ldcX g x) s)

/-- LDW (R215). -/
def execLdw (g : Guard) (k : BitVec 1) (a : BitVec 6) (d : BitVec 6) (s : State) : Host.Outcome State Fault Refusal :=
  .next (ldwOp (Instr.ldw g k a d) s)

/-- LDW_X (R215). -/
def execLdwX (g : Guard) (x : XForm) (s : State) : Host.Outcome State Fault Refusal :=
  .next (ldwOp (Instr.ldwX g x) s)

/-- STW (R215). -/
def execStw (g : Guard) (b : BitVec 5) (a : BitVec 6) (s : State) : Host.Outcome State Fault Refusal :=
  .next (stwOp (Instr.stw g b a) s)

/-- STW_X (R215). -/
def execStwX (g : Guard) (x : XForm) (s : State) : Host.Outcome State Fault Refusal :=
  .next (stwOp (Instr.stwX g x) s)

/-- PREF (R217). -/
def execPref (g : Guard) (c : BitVec 1) (a : BitVec 6) (s : State) : Host.Outcome State Fault Refusal :=
  .next (prefOp (Instr.pref g c a) s)

/-- PREF_X (R217). -/
def execPrefX (g : Guard) (x : XForm) (s : State) : Host.Outcome State Fault Refusal :=
  .next (prefOp (Instr.prefX g x) s)

/-- CINV (R218). -/
def execCinv (g : Guard) (c : BitVec 1) (a : BitVec 6) (s : State) : Host.Outcome State Fault Refusal :=
  .next (cinvOp (Instr.cinv g c a) s)

/-- CINV_X (R218). -/
def execCinvX (g : Guard) (x : XForm) (s : State) : Host.Outcome State Fault Refusal :=
  .next (cinvOp (Instr.cinvX g x) s)

/-- CALL (R334). -/
def execCall (g : Guard) (o : BitVec 17) (s : State) : Host.Outcome State Fault Refusal :=
  .next (callOp (Instr.call g o) (o.signExtend 64) s)

/-- CALL_LIT (R334). -/
def execCallLit (g : Guard) (lit : DWord) (s : State) : Host.Outcome State Fault Refusal :=
  .next (callOp (Instr.callLit g lit) lit s)

/-- TRAPRET (R336). -/
def execTrapret (g : Guard) (k : BitVec 1) (s : State) : Host.Outcome State Fault Refusal :=
  .next (trapretOp (Instr.trapret g k) (k == 1) s)

/-- VCLASS_WRITE_BACK (R34). -/
def execVclassWriteBack (wb : WriteBack) (s : State) : Host.Outcome State Fault Refusal :=
  .next (Sys2Proof.Machine.vclassWriteBack wb s)

/-- WINDOW_WRITE_ARRIVAL (R203). -/
def execWindowWriteArrival (m : WinWrite) (s : State) : Host.Outcome State Fault Refusal :=
  .next (Sys2Proof.Machine.windowWriteArrival m s)

/-- STW_WAIT_LAND (R215). -/
def execStwWaitLand (m : WinWrite) (s : State) : Host.Outcome State Fault Refusal :=
  .next (Sys2Proof.Machine.stwWaitLand m s)

end Sys2Proof.Machine
end

