-- ==== Sys2Proof/Machine/Copies.lean ====
section
/-! DEFINITION. Copy engines, rings and buffers (07, R158 to R186): the issue of XCOPY, XGATHER, XSCAT and XFILL, the
engine's steps COPY_POST and RING_RESERVE, QCWSET, RPUSH, RPOP, BGIVE and BTAKE. -/

namespace Sys2Proof.Machine

/-! ## Handles (R158, R160) -/

/-- The report of a stale handle. -/
def handleReport (cause handle : Nat) : Report := report clsHandle cause (BitVec.ofNat 64 handle)

/-- The entry of a slot that a copy engine holds (R160). -/
def State.catalogueHeld (s : State) (warp slot : Nat) : Option CatEntry :=
  let wp := s.warp warp
  (s.core wp.core).catalogue.find? fun e => e.asid == wp.asid && e.gen == s.genAt (engineAgent wp.core) wp.asid && e.slot == slot

/-- R80, R95, R103: the line of a catalogue entry that the engine does not hold, as it reaches it; false while it must wait. -/
def State.catalogueReach (s : State) (warp h : Nat) : State × Bool :=
  let wp := s.warp warp
  let a := s.asid wp.asid
  let slot := h % 2 ^ 20
  if a.tcat = 0 ∨ a.tcatn ≤ slot ∨ (s.catalogueHeld warp slot).isSome then (s, true)
  else s.reachSpans wp.asid (s.genAt (engineAgent wp.core) wp.asid) (dieOfCore wp.core) false [((a.tcat + BitVec.ofNat 64 (64 * slot)).toNat, 64)]

/-- R160: the 64 bytes of a slot of the catalogue: the engine's, or read under R77, R78 and R80. -/
def State.catalogueEntry (s : State) (warp slot : Nat) : Except Report (List Byte × State) :=
  let wp := s.warp warp
  let gen := s.genAt (engineAgent wp.core) wp.asid
  match s.catalogueHeld warp slot with
  | some e => .ok (e.bytes, s)
  | none =>
    let va := (s.asid wp.asid).tcat + BitVec.ofNat 64 (64 * slot)
    let (tr, s1) := s.xlate wp.core wp.asid va
    match xlateCause tr true false false with
    | some c => .error (report clsLease c va)
    | none =>
      match s1.engineRead wp.asid gen (dieOfCore wp.core) va.toNat 64 with
      | none => .error (report clsStaleGen 0 va)
      | some bs => .ok (bs, s1.setCore wp.core fun c => { c with catalogue := c.catalogue ++ [CatEntry.mk wp.asid gen slot bs] })

/-- R160: a handle resolved. -/
def State.resolve (s : State) (warp h : Nat) (write : Bool) : Except Report (List Byte × State) :=
  let a := s.asid (s.warp warp).asid
  let slot := h % 2 ^ 20
  if a.tcat = 0 ∨ a.tcatn ≤ slot then .error (handleReport 1 h)
  else match s.catalogueEntry warp slot with
    | .error r => .error r
    | .ok (bs, s1) =>
      let t := Tensor.ofBytes bs
      if !t.flags.testBit 0 then .error (handleReport 3 h)
      else if t.gen % 4096 ≠ h / 2 ^ 20 then .error (handleReport 2 h)
      else if !t.ok || (write && t.flags.testBit 1) then .error (handleReport 4 h)
      else .ok (bs, s1)

/-! ## Rings (R178, R180) -/

/-- R178: the whole ring's bytes. -/
def Qcw.bytes (q : Qcw) : Nat := 128 * q.depth * q.esize

/-- R178: a control word within its limits. -/
def Qcw.ok (q : Qcw) (scratch : Nat) : Bool :=
  q.base % 128 == 0 && decide (q.base < 2 ^ 21) && decide (1 ≤ q.depth ∧ q.depth ≤ 4096) && decide (1 ≤ q.esize ∧ q.esize ≤ 512)
    && decide (q.base + q.bytes ≤ scratch)

/-- R162, R178, R186: the place of a queue control word, or its fault. -/
def State.qcwPlace (s : State) (warp sa : Nat) : Except Report SaPlace :=
  if sa % 16 ≠ 0 then .error (report clsMisaligned 0 (BitVec.ofNat 64 sa))
  else if sa / 2 ^ 25 = 0 ∧ sa.testBit 24 then .error (report clsWindow 3 (BitVec.ofNat 64 sa))
  else s.saPlace warp sa 16

/-- R178: the checks of a ring that an instruction names. -/
def State.ringCheck (s : State) (warp sa : Nat) : Except Report (SaPlace × Qcw) :=
  match s.qcwPlace warp sa with
  | .error r => .error r
  | .ok p =>
    let b := s.block (s.warp warp).block
    let q := b.qcw p.place p.ofs
    if !q.ok b.scratch then .error (report clsWindow 3 (BitVec.ofNat 64 sa))
    else if !(s.saOwned (s.warp warp).block [warp] p 16 && s.saOwned (s.warp warp).block [warp] ⟨p.place, q.base⟩ q.bytes) then
      .error (report clsOwnership 1 (BitVec.ofNat 64 sa))
    else .ok (p, q)

/-- R179: whether a QCWSET of the warp's own has not taken effect on the control word at an SA; the warp's later ring operations
apply after it. -/
def State.qcwPending (s : State) (warp sa : Nat) : Bool :=
  match s.qcwPlace warp sa with
  | .error _ => false
  | .ok p =>
    let wp := s.warp warp
    (s.core wp.core).copies.any fun o => o.kind == 5 && o.warp == warp && o.block == wp.block && o.place == p.place && o.ofs == p.ofs

/-- A ring operation of a block's ring that has not had its turn: a push without a slot, or a QCWSET. -/
def CopyOp.waitsOn (o : CopyOp) (block place ofs : Nat) : Bool :=
  (o.ring || o.kind == 5) && o.slot.isNone && o.block == block && o.place == place && o.ofs == ofs

/-- Whether some ring operation, earlier than `id`, waits on a ring (R179, R180). -/
def State.ringBusy (s : State) (core id block place ofs : Nat) : Bool :=
  (s.core core).copies.any fun o => o.waitsOn block place ofs && decide (o.id < id)

/-- A copy operation of a core changed. -/
def State.setCopy (s : State) (core id : Nat) (f : CopyOp → CopyOp) : State :=
  s.setCore core fun c => { c with copies := c.copies.map fun o => if o.id = id then f o else o }

/-- A copy operation taken from its core. -/
def State.dropOp (s : State) (core id : Nat) : State :=
  s.setCore core fun c => { c with copies := c.copies.filter fun o => o.id != id }

/-- R180: FILL advances past every complete slot at its front. -/
def State.advanceFill (s : State) (core block place ofs : Nat) : Nat → State
  | 0 => s
  | fuel + 1 =>
    let q := (s.block block).qcw place ofs
    match (s.core core).copies.find? fun o => o.done && o.block == block && o.place == place && o.ofs == ofs && o.slot == some q.fill with
    | none => s
    | some o =>
      State.advanceFill ((s.dropOp core o.id).setBlock block fun b => b.qcwPut place ofs 10 (q.fill + 1)) core block place ofs fuel

/-! ## Issue (R166 to R173) -/

/-- XFILL.mem names no scratchpad. -/
def CopyOp.toMem (o : CopyOp) : Bool := o.kind == 3 && o.store

/-- Whether a tensor is named at all. -/
def CopyOp.named (o : CopyOp) : Bool := o.kind != 3 || o.store

/-- R167: a tile group's origins and extents, or none where a reserved bit is set. -/
def tileGroup (w : Warp) (n : Nat) : Option (List Int × List Nat) :=
  let lo (v : DWord) : Int := (v.extractLsb' 0 32).toInt
  let hi (v : DWord) : Int := (v.extractLsb' 32 32).toInt
  let b0 := w.ureg n
  let b1 := w.ureg (n + 1)
  let b2 := w.ureg (n + 2)
  let b3 := w.ureg (n + 3)
  if b2.extractLsb' 32 32 ≠ 0 ∨ b3.extractLsb' 56 8 ≠ 0 then none
  else some ([lo b0, hi b0, lo b1, hi b1, lo b2],
    [(b3.extractLsb' 0 16).toNat + 1, (b3.extractLsb' 16 16).toNat + 1, (b3.extractLsb' 32 8).toNat + 1,
     (b3.extractLsb' 40 8).toNat + 1, (b3.extractLsb' 48 8).toNat + 1])

/-- The uniform number of a source. -/
def srcUni : Src → Nat
  | .uni n => n.toNat % 32
  | _ => 0

/-- R173: the fill value: 64 bits from a whole register where the element has 64 bits. -/
def fillValue (w : Warp) (src : Src) (c : DWord) (wide : Bool) : DWord :=
  match src with
  | .uni n => if wide ∧ n.toNat < 32 then w.ureg n.toNat else c
  | _ => c

/-- R391: the operand values of a copy in operand order: A, the tile group, and a uniform C. -/
def copyOperands (w : Warp) (f : Form) (o : Operands) : List DWord :=
  o.a :: ((List.range 4).map fun k => w.ureg (srcUni f.x.b + k)) ++ [o.c]

/-- The operation of an issue, before its checks. -/
def copyOp (f : Form) (kind : Nat) (ld : TRef) (o : Operands) (s : State) : CopyOp :=
  let wp := s.warp ld.warp
  let b := s.block wp.block
  let sub := f.x.sub.toNat
  { id := s.nextId, warp := ld.warp, block := wp.block, asid := wp.asid, gen := s.genAt (engineAgent wp.core) wp.asid
    token := some (sub / 8), pos := s.cur.pos
    kind := if kind = 1 ∧ sub % 2 = 1 then 2 else kind
    store := sub % 2 == 1, planes := sub / 2 % 4 == 1, ring := sub / 2 % 4 == 2
    ty := f.x.ty, rnd := f.x.rnd, sat := f.x.sat, fmt := f.x.fmt.toNat
    fmts := (List.range 8).map b.fmtReg
    entry := [], origin := [], shape := [], lanes := [], value := o.c, place := 0, ofs := 0
    slot := none, started := false, done := false, opnd := copyOperands wp f o, outstanding := 0, gwct := 0, fault := none }

/-- R167: alignment of the image and, for a blocked layout, of O0 and S0. -/
def CopyOp.misplaced (o : CopyOp) (sa : Nat) : Bool :=
  let t := Tensor.ofBytes o.entry
  let align := if o.planes then 128 else if o.ty = .fmt then 64 else wideSize o.ty
  (!o.toMem && !o.ring && sa % align != 0)
    || (o.named && t.layout != 0 && (o.o0 % (elemsPerBlock t.container : Nat) != 0 || o.s0 % elemsPerBlock t.container != 0))

/-- R162, R178, R186: the scratchpad side of a copy: its place, or its fault. -/
def State.copyPlace (s : State) (o : CopyOp) (sa : Nat) : Except Report SaPlace :=
  if o.toMem then .ok ⟨0, 0⟩
  else if o.ring then
    match s.ringCheck o.warp sa with
    | .error r => .error r
    | .ok (p, q) => if 128 * q.esize < o.imageBytes then .error (report clsWindow 3 (BitVec.ofNat 64 sa)) else .ok p
  else s.saCheck o.warp [o.warp] sa o.imageBytes

/-- R161, R170: the memory side of a copy: LIMIT, then every page translated; the state keeps the TLB entries. -/
def State.copyPages (s : State) (o : CopyOp) (handle : Nat) : Except Report State :=
  let t := Tensor.ofBytes o.entry
  let spans := if o.named then copySpans o else []
  if spans.any (beyondLimit t) then .error (handleReport 6 handle)
  else
    let core := (s.warp o.warp).core
    (spans.map fun sp => sp.1 / 65536 * 65536).dedup.foldl (fun (acc : Except Report State) va => match acc with
      | .error r => .error r
      | .ok s =>
        let (e, s1) := s.xlate core o.asid (BitVec.ofNat 64 va)
        match xlateCause e (!o.store) o.store false with
        | some c => .error (report clsLease c (BitVec.ofNat 64 ((spans.find? fun sp => sp.1 / 65536 * 65536 == va).map (·.1) |>.getD va)))
        | none => .ok s1) (.ok s)

/-- R42, R166: whether the value operand of XFILL.mem is one of an element of `w` bits: a whole uniform register for 64 bits, and a
literal with no bit above the element. -/
def fillFits (src : Src) (w : Nat) : Bool :=
  match src with
  | .uni n => w != 64 || decide (n.toNat < 32)
  | .lit v => decide (v.toNat < 2 ^ w)
  | _ => true

/-- R170: every check of a copy, in order; then the operation as it will be accepted. -/
def State.prepareCopy (s : State) (f : Form) (o0 : CopyOp) (a : DWord) (lanes : List Int) : Except Report (CopyOp × State) :=
  let wp := s.warp o0.warp
  let handle := (a.extractLsb' 0 32).toNat
  let sa := (a.extractLsb' 32 32).toNat
  let resolved : Except Report (List Byte × State) :=
    if o0.named then s.resolve o0.warp handle o0.store
    else if handle ≠ 0 then .error (handleReport 5 handle) else .ok ([], s)
  match resolved with
  | .error r => .error r
  | .ok (entry, s1) =>
    let t := Tensor.ofBytes entry
    match tileGroup wp (srcUni f.x.b) with
    | none => .error (handleReport 5 handle)
    | some (origin, shape) =>
      let wide := (if o0.named then t.ty else o0.ty).bits == 64
      let o := { o0 with
        entry := entry, origin := origin, shape := shape, lanes := lanes, value := fillValue wp f.x.c o0.value wide }
      if o.fmt ≠ 0 ∧ o.ty ≠ .fmt ∧ !(o.named && t.layout != 0) then .error s.illegal
      else if o.kind = 3 ∧ o.toMem ∧ !fillFits f.x.c (if t.layout = 0 then t.ty.bits else 32) then .error s.illegal
      else if o.toMem ∧ o.fmt ≠ 0 ∧ t.layout = 0 then .error s.illegal
      else if (o.kind = 1 ∨ o.kind = 2) ∧ (shape.drop 1).any (· != 1) then .error (handleReport 5 handle)
      else if o.misplaced sa then .error (report clsMisaligned 0 (BitVec.ofNat 64 sa))
      else match s1.copyPlace o sa with
        | .error r => .error r
        | .ok p =>
          match s1.copyPages o handle with
          | .error r => .error r
          | .ok s2 => .ok ({ o with place := p.place, ofs := p.ofs }, s2)

/-- R175: room for one more operation at the engine and under the token. -/
def State.copyRoom (s : State) (warp flag : Nat) : Bool :=
  let wp := s.warp warp
  decide (((s.core wp.core).copies.filter fun o => o.token.isSome && !o.done).length < Config.copyOps)
    && decide (SMap.get 0 wp.tokens flag < Config.copyOpsPerToken)

/-- R180: the next slot of a ring reserved for an operation. -/
def State.reserve (s : State) (core : Nat) (o : CopyOp) : State :=
  let q := (s.block o.block).qcw o.place o.ofs
  (s.setBlock o.block fun b => b.qcwPut o.place o.ofs 8 (q.wr + 1)).setCopy core o.id fun o => { o with slot := some q.wr }

/-- R170, R180: a checked operation accepted: its flag clear, on its way in the engine. -/
def State.acceptCopy (s : State) (o : CopyOp) (det : Bool) : State :=
  let core := (s.warp o.warp).core
  let s1 := ((s.fresh).takeToken o.warp (o.token.getD 0)).setCore core fun c => { c with copies := c.copies ++ [o] }
  if !o.ring then s1.send (.copyPost core o.id)
  else if det then (s1.reserve core o).send (.copyPost core o.id)
  else s1.send (.ringReserve core o.id)

/-- XCOPY, XGATHER, XSCAT and XFILL (R170 to R173). -/
def copyIssue (i : Instr) (kind : Nat) (s : State) : State :=
  let f := i.form
  s.onceFor i fun ld o s =>
    let wp := s.warp ld.warp
    let lanes := s.cur.group.map fun t => match f.x.c with
      | .vec r _ => (wp.vreg t.lane r.toNat).toInt
      | _ => 0
    let op := copyOp f kind ld o s
    let handle := (o.a.extractLsb' 0 32).toNat
    let (s0, here) := if op.named then s.catalogueReach ld.warp handle else (s, true)
    if !here || (op.ring && s.qcwPending ld.warp (o.a.extractLsb' 32 32).toNat) then .wait s0
    else match s0.prepareCopy f op o.a lanes with
    | .error r => .fault r
    | .ok (op, s1) =>
      let det := (s.grid wp.grid).det
      let full := op.ring && ((s.block wp.block).qcw op.place op.ofs).room == 0
      if !s1.copyRoom ld.warp (op.token.getD 0) || (det && full) then .retry
      else .done (s1.acceptCopy op det)

/-! ## Movement (R168 to R173) -/

/-- An element on its way: a wide type's bits, or a narrow value with its scale applied. -/
inductive CopyVal where
  | wide (ty : Ty) (bits : Nat)
  | narrow (v : FVal)
  deriving DecidableEq, Repr

/-- The value in a wide type. -/
def CopyVal.bits (v : CopyVal) (dst : Ty) (rnd : Rnd) (sat : Bool) : Nat :=
  match v with
  | .wide ty b => convertBits ty dst rnd sat b
  | .narrow v => elemTo dst rnd sat (.num v)

/-- The value as a number. -/
def CopyVal.num (v : CopyVal) : FVal :=
  match v with
  | .wide ty b => (elemOf ty b).num?
  | .narrow v => v

/-- A line's values, and for each whole block of a blocked source its bytes. -/
structure LineVals where
  vals : List CopyVal
  raw : List (Option (List Byte))

/-- A movement's fault: its class and cause. -/
abbrev MoveFault := Nat × Nat

/-- R161, R169: one unit of a line read from memory: inside elements, and the fill value elsewhere. -/
def State.unitVals (s : State) (o : CopyOp) (t : Tensor) (line : List Int) (c0 : Int) : Except MoveFault LineVals :=
  if t.layout = 0 then
    if t.inside c0 line then
      match s.engineRead o.asid o.gen (dieOfCore (s.warp o.warp).core) (t.addr c0 line) t.unit with
      | none => .error (clsStaleGen, 0)
      | some bs => .ok ⟨[.wide t.ty (ofLeBytes bs)], []⟩
    else .ok ⟨[.wide t.ty (t.fill % 2 ^ t.ty.bits)], []⟩
  else
    let n := elemsPerBlock t.container
    let fill := fp32.decode t.fill
    if !unitInside t c0 line then .ok ⟨List.replicate n (.narrow fill), [none]⟩
    else match s.engineRead o.asid o.gen (dieOfCore (s.warp o.warp).core) (t.addr c0 line) 64 with
      | none => .error (clsStaleGen, 0)
      | some bs =>
        match readBlock o.fmts t.container bs with
        | .error c => .error (clsFormat, c)
        | .ok vs =>
          .ok ⟨(List.range n).map fun j => .narrow (if t.inside (c0 + (j : Nat)) line then vs.getD j plusZero else fill),
            [if unitWhole t c0 line then some bs else none]⟩

/-- The parts of a line joined. -/
def joinVals : List (Except MoveFault LineVals) → Except MoveFault LineVals
  | [] => .ok ⟨[], []⟩
  | .error e :: _ => .error e
  | .ok v :: rest =>
    match joinVals rest with
    | .error e => .error e
    | .ok w => .ok ⟨v.vals ++ w.vals, v.raw ++ w.raw⟩

/-- A line read from memory. -/
def State.lineVals (s : State) (o : CopyOp) (t : Tensor) (line : List Int) : Except MoveFault LineVals :=
  joinVals ((unitStarts t o).map (s.unitVals o t line))

/-- R173: a line of XFILL into scratchpad. -/
def fillVals (o : CopyOp) : LineVals :=
  ⟨List.replicate o.s0 (if o.ty = .fmt then .narrow (fp32.decode (o.value.toNat % 2 ^ 32)) else .wide o.ty (o.value.toNat % 2 ^ o.ty.bits)), []⟩

/-- R168, R169, R434: block `b` of a line formed in fmtFMT, or kept where it already names it in the same container. -/
def formOrKeep (o : CopyOp) (srcContainer : Nat) (v : LineVals) (b : Nat) : List Byte :=
  let f := Fmt.ofWord (o.fmts.getD o.fmt 0x00007B34)
  let n := elemsPerBlock f.container
  let xs := (List.range n).map fun j => match v.vals[b * n + j]? with
    | some x => x.num
    | none => plusZero
  let made := (formBlock (0x80 + o.fmt) f o.rnd xs).1
  match (if srcContainer = f.container then v.raw.getD b none else none) with
  | some raw => if (raw.getD 0 0).toNat = 0x80 + o.fmt then raw else made
  | none => made

/-- R168: the blocks of a line of a type-14 image. -/
def lineBlocks (o : CopyOp) (srcContainer : Nat) (v : LineVals) : List (List Byte) :=
  let n := elemsPerBlock o.container
  (List.range ((o.s0 + n - 1) / n)).map (formOrKeep o srcContainer v)

/-- R168, R199: an image of blocks, by line. -/
def imageOfBlocks (container : Nat) (planes : Bool) (rows : List (List (List Byte))) : List Byte :=
  if planes then
    let nb := (rows.map List.length).foldl max 0
    (List.range ((rows.length + 127) / 128)).flatMap fun g =>
      (List.range nb).flatMap fun b =>
        panelBytes container ((List.range 128).map fun r => ((rows.getD (128 * g + r) []).getD b zeroBlock))
  else (rows.map List.flatten).flatten

/-- R168: the image of lines' values. -/
def imageOf (o : CopyOp) (srcContainer : Nat) (lines : List LineVals) : List Byte :=
  if o.ty = .fmt then imageOfBlocks o.container o.planes (lines.map (lineBlocks o srcContainer))
  else lines.flatMap fun l => l.vals.flatMap fun v => leBytes (wideSize o.ty) (v.bits o.ty o.rnd o.sat)

/-- The lines of a copy into scratchpad, all read. -/
def State.allLines (s : State) (o : CopyOp) : Except MoveFault (List LineVals) :=
  let t := Tensor.ofBytes o.entry
  if o.kind = 3 then .ok ((tileLines o).map fun _ => fillVals o)
  else (tileLines o).foldr (fun line (acc : Except MoveFault (List LineVals)) => match acc with
    | .error e => .error e
    | .ok ls => match s.lineVals o t line with
      | .error e => .error e
      | .ok l => .ok (l :: ls)) (.ok [])

/-- R168, R199: block `b` of image line `k`. -/
def imageBlock (o : CopyOp) (image : List Byte) (k b : Nat) : List Byte :=
  let n := elemsPerBlock o.container
  let nb := (o.s0 + n - 1) / n
  if o.planes then panelBlock o.container ((image.drop (panelSize * (b + nb * (k / 128)))).take panelSize) (k % 128)
  else (image.drop (64 * (b + nb * k))).take 64

/-- R169: line `k` of an image in scratchpad. -/
def imageLine (o : CopyOp) (image : List Byte) (k : Nat) : Except MoveFault LineVals :=
  if o.ty = .fmt then
    let n := elemsPerBlock o.container
    let blocks := (List.range ((o.s0 + n - 1) / n)).map (imageBlock o image k)
    let parts := blocks.map fun b => match readBlock o.fmts o.container b with
      | .error c => (.error (clsFormat, c) : Except MoveFault LineVals)
      | .ok vs => .ok ⟨vs.map .narrow, [some b]⟩
    match joinVals parts with
    | .error e => .error e
    | .ok v => .ok ⟨v.vals.take o.s0, v.raw⟩
  else
    let sz := wideSize o.ty
    .ok ⟨(List.range o.s0).map fun j => .wide o.ty (ofLeBytes ((image.drop (sz * (k * o.s0 + j))).take sz)), []⟩

/-- R170, R173: the writes of a line to memory: each inside unit's address and bytes. Positions of a block outside the
tensor are +0. -/
def lineWrites (o : CopyOp) (t : Tensor) (line : List Int) (v : LineVals) : List (Nat × List Byte) :=
  let units := (unitStarts t o).zipIdx
  if t.layout = 0 then
    (units.filter fun u => t.inside u.1 line).map fun u =>
      (t.addr u.1 line, leBytes t.unit ((v.vals.getD u.2 (.narrow plusZero)).bits t.ty o.rnd o.sat))
  else
    let n := elemsPerBlock t.container
    let f := Fmt.ofWord (o.fmts.getD o.fmt 0x00007B34)
    (units.filter fun u => unitInside t u.1 line).map fun u =>
      let xs := (List.range n).map fun j =>
        if t.inside (u.1 + (j : Nat)) line then (v.vals.getD (u.2 * n + j) (.narrow plusZero)).num else plusZero
      let made := (formBlock (0x80 + o.fmt) f o.rnd xs).1
      let kept := match (if unitWhole t u.1 line then v.raw.getD u.2 none else none) with
        | some raw => if (raw.getD 0 0).toNat = 0x80 + o.fmt then raw else made
        | none => made
      (t.addr u.1 line, kept)

/-- R434: a blocked destination whose container is not fmtFMT's. -/
def CopyOp.wrongContainer (o : CopyOp) : Bool :=
  let t := Tensor.ofBytes o.entry
  o.store && t.layout != 0 && t.container != o.container

/-- The memory writes of a copy: all its lines'. -/
def copyWrites (o : CopyOp) (image : List Byte) : Except MoveFault (List (Nat × List Byte)) :=
  let t := Tensor.ofBytes o.entry
  if o.wrongContainer then .error (clsFormat, 2)
  else ((tileLines o).zipIdx).foldr (fun (l : List Int × Nat) (acc : Except MoveFault (List (Nat × List Byte))) => match acc with
    | .error e => .error e
    | .ok ws =>
      let vals := if o.kind = 3 then
          .ok ⟨List.replicate o.s0 (if t.layout = 0 then CopyVal.wide t.ty (o.value.toNat % 2 ^ t.ty.bits)
            else .narrow (fp32.decode (o.value.toNat % 2 ^ 32))), []⟩
        else imageLine o image l.2
      match vals with
      | .error e => .error e
      | .ok v => .ok (lineWrites o t l.1 v ++ ws)) (.ok [])

/-- A fault of the engine kept for the token's waits (R174). -/
def State.copyFault (s : State) (core : Nat) (o : CopyOp) (e : MoveFault) : State :=
  s.setCopy core o.id fun o => { o with fault := some (report e.1 e.2 0) }

/-- The engine's writes of a copy to memory (R106, R174). -/
def State.copyStore (s : State) (core : Nat) (o : CopyOp) (ws : List (Nat × List Byte)) : State :=
  ws.foldl (fun s w =>
    let s1 := s.setCopy core o.id fun o => { o with outstanding := o.outstanding + 1 }
    let (s2, ok) := s1.enginePiece o.asid o.gen (dieOfCore core) (.copy core o.id) w.1 (fun ofs d => lineWrite ofs w.2 d) w.2
    if ok then s2 else s2.copyFault core o (clsStaleGen, 0)) s

/-- R174: free bytes written to places in memory. -/
def State.spoilMem (s : State) (core : Nat) (o : CopyOp) (spans : List (Nat × Nat)) : State :=
  spans.foldl (fun s sp =>
    let (bs, s1) := s.freeBytes sp.2
    s1.copyStore core o [(sp.1, bs)]) s

/-- R80, R95, R102: the memory of a copy as the engine reaches it; false while a line must be waited for. -/
def State.copyReach (s : State) (core : Nat) (o : CopyOp) : State × Bool :=
  if o.named then s.reachSpans o.asid o.gen (dieOfCore core) o.store (copySpans o) else (s, true)

/-- R174, R178: an image as it is put into scratchpad: free bytes in a slot of a ring whose control word QCWSET has not set. -/
def State.putImage (s : State) (core : Nat) (o : CopyOp) (bs : List Byte) : State :=
  let b := s.block o.block
  let (bs, s1) := if o.ring && !SMap.get false b.qcws (o.place * 2 ^ 21 + o.ofs) then s.freeBytes o.imageBytes else (bs, s)
  s1.scratchWrite o.block ⟨o.place, s.imageOfs o⟩ bs [o.warp] core o.token

/-- R170 to R174: a copy's data move, in one step; after a fault, or where a write is rejected, the destination holds free bytes. -/
def State.moveCopy (s : State) (core : Nat) (o : CopyOp) : State :=
  let s0 := s.setCopy core o.id fun o => { o with started := true }
  if o.store then
    let image := if o.toMem then [] else (s.block o.block).read o.place (s.imageOfs o) o.imageBytes
    match copyWrites o image with
    | .ok ws =>
      if ws.all fun w => (s.enginePlace o.asid o.gen w.1 true).isSome then s0.copyStore core o ws
      else s0.spoilMem core o (ws.map fun w => (w.1, w.2.length))
    | .error e => (s0.copyFault core o e).spoilMem core o (copySpans o)
  else
    match s.allLines o with
    | .ok lines => s0.putImage core o (imageOf o (Tensor.ofBytes o.entry).container lines)
    | .error e =>
      let (bs, s1) := (s0.copyFault core o e).freeBytes o.imageBytes
      s1.putImage core o bs

/-! ## The engine's steps (R174, R179, R180) -/

/-- R174: a copy posts: its token, a deferred fault, its ring slot. -/
def State.postCopy (s : State) (core : Nat) (o : CopyOp) : State :=
  let flag := o.token.getD 0
  let s1 := s.postToken o.warp flag o.gwct
  let s2 := match o.fault with
    | some r => s1.deferFault o.warp flag o.pos r []
    | none => s1
  if o.ring then
    (s2.setCopy core o.id fun o => { o with done := true }).advanceFill core o.block o.place o.ofs ((s2.core core).copies.length + 1)
  else s2.dropOp core o.id

/-- R179: a QCWSET takes effect once no push holds a reservation. -/
def State.applyQcwset (s : State) (core : Nat) (o : CopyOp) : State :=
  (s.setBlock o.block fun b => (b.put o.place o.ofs (leBytes 8 o.value.toNat ++ leBytes 8 0)).markQcw o.place o.ofs true).dropOp core o.id

/-- Whether an earlier QCWSET waits on the same control word. -/
def State.qcwBefore (s : State) (core : Nat) (o : CopyOp) : Bool :=
  (s.core core).copies.any fun p => p.kind == 5 && p.block == o.block && p.place == o.place && p.ofs == o.ofs && decide (p.id < o.id)

/-- COPY_POST (R170, R174, R177, R179): once the warp's earlier writes have been made the engine moves an operation's data, and
posts it once every write's GWCT is known. -/
def copyPost (core op : Nat) (s : State) : State :=
  match (s.core core).copies.find? fun o => o.id == op with
  | none => s
  | some o =>
    if o.done then s
    else if o.kind = 5 then
      let q := (s.block o.block).qcw o.place o.ofs
      if q.wr = q.fill ∧ !s.qcwBefore core o then s.applyQcwset core o else s.hold (.copyPost core op)
    else if !o.started ∧ !s.writtenBefore [o.warp] o.id then s.hold (.copyPost core op)
    else
      let (s0, here) := if o.started then (s, true) else s.copyReach core o
      let s1 := if o.started then s else if here then s0.moveCopy core o else s0
      match (s1.core core).copies.find? fun o => o.id == op with
      | none => s1
      | some o1 => if o1.started ∧ o1.outstanding = 0 then s1.postCopy core o1 else s1.hold (.copyPost core op)

/-- RING_RESERVE (R180): a push takes the next slot of its ring, in the order of the pushes' acceptance. -/
def ringReserve (core op : Nat) (s : State) : State :=
  match (s.core core).copies.find? fun o => o.id == op with
  | none => s
  | some o =>
    let q := (s.block o.block).qcw o.place o.ofs
    if o.slot.isSome then s
    else if s.ringBusy core o.id o.block o.place o.ofs ∨ q.room = 0 then s.hold (.ringReserve core op)
    else (s.reserve core o).send (.copyPost core op)

/-! ## QCWSET, RPUSH, RPOP (R179 to R182) -/

/-- QCWSET (R179). -/
def qcwsetOp (i : Instr) (s : State) : State :=
  let f := i.form
  s.onceFor i fun ld o s =>
    let wp := s.warp ld.warp
    let b := s.block wp.block
    let sa := (o.a.setWidth 32).toNat
    match s.qcwPlace ld.warp sa with
    | .error r => .fault r
    | .ok p =>
      let q : Qcw := ⟨(o.b.extractLsb' 0 32).toNat, (o.b.extractLsb' 32 16).toNat, (o.b.extractLsb' 48 16).toNat, 0, 0, 0, 0⟩
      if !q.ok b.scratch then .fault (report clsWindow 3 (BitVec.ofNat 64 sa))
      else if !(s.saOwned wp.block [ld.warp] p 16 && s.saOwned wp.block [ld.warp] ⟨p.place, q.base⟩ q.bytes) then
        .fault (report clsOwnership 1 (BitVec.ofNat 64 sa))
      else
        let op := { copyOp f 5 ld o s with token := none, ring := false, kind := 5, value := o.b, place := p.place, ofs := p.ofs }
        .done (((s.fresh).setCore wp.core fun c => { c with copies := c.copies ++ [op] }).send (.copyPost wp.core op.id))

/-- R181: line `i`, word `l` of a push: the register of the lanes that take part. -/
def pushBytes (w : Warp) (lanes : List Nat) (reg n : Nat) : List Byte :=
  (List.range n).flatMap fun i => (List.range 32).flatMap fun l =>
    leBytes 4 (if lanes.contains l then (w.vreg l (reg + i)).toNat else 0)

/-- RPUSH (R181, R183). -/
def rpushOp (i : Instr) (s : State) : State :=
  let f := i.form
  s.onceFor i fun ld o s =>
    let wp := s.warp ld.warp
    let sa := (o.b.setWidth 32).toNat
    let n := f.x.sub.toNat + 1
    if s.qcwPending ld.warp sa then .retry
    else match s.ringCheck ld.warp sa with
    | .error r => .fault r
    | .ok (p, q) =>
      if q.esize < n then .fault (report clsWindow 3 (BitVec.ofNat 64 sa))
      else if q.room = 0 ∨ s.ringBusy wp.core s.nextId wp.block p.place p.ofs then .retry
      else
        let op := { copyOp f 4 ld o s with
          token := none, ring := true, kind := 4, place := p.place, ofs := p.ofs, slot := some q.wr, started := true, done := true }
        let s1 := (s.fresh).setCore wp.core fun c => { c with copies := c.copies ++ [op] }
        let bs := pushBytes wp (s.cur.group.map TRef.lane) f.x.a.num.toNat n
        let (bs, s1) := if (s.block wp.block).qcwSet p.place p.ofs then (bs, s1) else s1.freeBytes bs.length
        let s2 := (s1.setBlock wp.block fun b => b.qcwPut p.place p.ofs 8 (q.wr + 1)).scratchWrite wp.block ⟨p.place, q.slot q.wr⟩ bs
          [ld.warp] wp.core none
        .done (s2.advanceFill wp.core wp.block p.place p.ofs ((s2.core wp.core).copies.length + 1))

/-- R183: whether a take of the warp's on a ring waits; a release of the warp's follows it. -/
def State.takeWaits (s : State) (warp : Nat) (p : SaPlace) : Bool :=
  s.net.any fun m => match m with
    | .vclassWriteBack wb => wb.warp == warp && wb.src == .ring p.place p.ofs
    | _ => false

/-- RPOP (R182, R375). -/
def rpopOp (i : Instr) (s : State) : State :=
  let f := i.form
  s.onceFor i fun ld o s =>
    let wp := s.warp ld.warp
    let sa := (o.b.setWidth 32).toNat
    if s.qcwPending ld.warp sa then .retry
    else match s.ringCheck ld.warp sa with
    | .error r => .fault r
    | .ok (p, q) =>
      if f.x.sub = 1 ∧ s.takeWaits ld.warp p then .retry
      else if f.x.sub = 1 then
        .done (if q.rl = q.rd then s else s.setBlock wp.block fun b => b.qcwPut p.place p.ofs 14 (q.rl + 1))
      else if (s.grid wp.grid).det && q.wr == q.rd then .retry
      else
        let id := s.nextId
        let s1 := s.fresh
        match f.x.dst with
        | .uni n =>
          let s2 := s1.park (.uniform id) ld.warp s.cur.group
          .held ((s2.setWarp ld.warp fun w => { w with inFlight := w.inFlight + 1 }).send
            (.vclassWriteBack ⟨id, ld.warp, ld.lane, .uni (n.toNat % 32), .ring p.place p.ofs, s.cur.pos, s.cur.num⟩))
        | d =>
          let s2 := s1.setWarp ld.warp fun w =>
            { (List.range 32).foldl (fun w l => w.markEmpty l d.num.toNat 1 true) w with inFlight := w.inFlight + 1 }
          .done (s2.send (.vclassWriteBack ⟨id, ld.warp, ld.lane, .vec d.num.toNat 1, .ring p.place p.ofs, s.cur.pos, s.cur.num⟩))

/-! ## Buffers (R184 to R186) -/

/-- R184: entries of a core's buffer table. -/
def bufferEntries : Nat := 64

/-- A buffer of a core at reset. -/
def Buffer.free : Buffer where
  state := 0
  block := 0
  warp := 0
  gen := 0
  offset := 0
  length := 0

def State.buffer (s : State) (core k : Nat) : Buffer := (Tab.find (s.core core).buffers k).getD Buffer.free

def State.setBuffer (s : State) (core k : Nat) (b : Buffer) : State :=
  s.setCore core fun c => { c with buffers := Tab.put c.buffers k b }

/-- R184: a handle. -/
def bufferHandle (entry place : Nat) (gen : BitVec 23) : DWord := BitVec.ofNat 64 (entry + 64 * place + 512 * gen.toNat)

/-- R184, R186: the entry that a handle of a warp names: its core and number; none where the handle is stale. -/
def State.bufferOf (s : State) (warp h : Nat) : Option (Nat × Nat) :=
  let wp := s.warp warp
  let b := s.block wp.block
  match b.places[h / 64 % 8]? with
  | none => none
  | some core =>
    let bf := s.buffer core (h % 64)
    if bf.state ≠ 0 ∧ bf.block = wp.block ∧ bf.gen.toNat = h / 512 then some (core, h % 64) else none

/-- The ownership fault with cause 2. -/
def staleHandle (h : Nat) : Report := report clsOwnership 2 (BitVec.ofNat 64 h)

/-- BGIVE, and with no target BGIVE.free (R186). -/
def bgiveOp (i : Instr) (give : Bool) (s : State) : State :=
  s.onceFor i fun ld o s =>
    let h := (o.a.setWidth 32).toNat
    match s.bufferOf ld.warp h with
    | none => .fault (staleHandle h)
    | some (core, k) =>
      let bf := s.buffer core k
      if bf.state ≠ 1 ∨ bf.warp ≠ ld.warp then .fault (staleHandle h)
      else if give then
        match s.warpOfIndex (s.warp ld.warp).block (o.b.setWidth 32).toNat with
        | none => .fault (staleHandle h)
        | some w => .done (s.setBuffer core k { bf with state := 2, warp := w })
      else .done (s.setBuffer core k { bf with state := 0, gen := bf.gen + 1 })

/-- A uniform destination written. -/
def State.putUniform (s : State) (warp : Nat) (d : Dst) (v : DWord) : State :=
  match d with
  | .uni n => s.writeNow warp [(.uni (n.toNat % 32), v)]
  | _ => s

/-- BTAKE (R186, R375). -/
def btakeOp (i : Instr) (s : State) : State :=
  s.onceFor i fun ld o s =>
    let h := (o.a.setWidth 32).toNat
    match s.bufferOf ld.warp h with
    | none => .fault (staleHandle h)
    | some (core, k) =>
      let bf := s.buffer core k
      if bf.state = 2 ∧ bf.warp = ld.warp then
        .done ((s.setBuffer core k { bf with state := 1 }).putUniform ld.warp i.form.x.dst (BitVec.ofNat 64 h))
      else .retry

/-- BTAKE.new (R186). -/
def btakeNewOp (i : Instr) (s : State) : State :=
  s.onceFor i fun ld o s =>
    let wp := s.warp ld.warp
    let b := s.block wp.block
    let ofs := (o.a.extractLsb' 0 32).toNat
    let len := (o.a.extractLsb' 32 32).toNat
    let c := s.core wp.core
    let place := b.placeOf wp.core
    if ofs % 128 ≠ 0 ∨ len % 128 ≠ 0 then .fault (report clsMisaligned 0 (BitVec.ofNat 64 ofs))
    else if !b.places.contains wp.core ∨ len < 128 ∨ b.scratch < ofs + len then .fault (report clsWindow 2 (BitVec.ofNat 64 ofs))
    else if c.buffers.any fun e => e.2.state != 0 && e.2.block == wp.block && decide (ofs < e.2.offset + e.2.length)
        && decide (e.2.offset < ofs + len) then .fault (report clsOwnership 3 (BitVec.ofNat 64 ofs))
    else match (List.range bufferEntries).find? fun k => (s.buffer wp.core k).state == 0 with
      | none => .fault (report clsOwnership 4 (BitVec.ofNat 64 ofs))
      | some k =>
        let bf := s.buffer wp.core k
        .done ((s.setBuffer wp.core k { bf with state := 1, block := wp.block, warp := ld.warp, offset := ofs, length := len }).putUniform
          ld.warp i.form.x.dst (bufferHandle k place bf.gen))

/-! ## Meanings -/

/-- XCOPY (R170). -/
def execXcopy (g : Guard) (x : XForm) (s : State) : Host.Outcome State Fault Refusal :=
  .next (copyIssue (Instr.xcopy g x) 0 s)

/-- XGATHER (R172). -/
def execXgather (g : Guard) (x : XForm) (s : State) : Host.Outcome State Fault Refusal :=
  .next (copyIssue (Instr.xgather g x) 1 s)

/-- XSCAT (R172). -/
def execXscat (g : Guard) (x : XForm) (s : State) : Host.Outcome State Fault Refusal :=
  .next (copyIssue (Instr.xscat g x) 1 s)

/-- XFILL (R173). -/
def execXfill (g : Guard) (x : XForm) (s : State) : Host.Outcome State Fault Refusal :=
  .next (copyIssue (Instr.xfill g x) 3 s)

/-- COPY_POST (R174). -/
def execCopyPost (core : Nat) (op : Nat) (s : State) : Host.Outcome State Fault Refusal :=
  .next (Sys2Proof.Machine.copyPost core op s)

/-- RING_RESERVE (R180). -/
def execRingReserve (core : Nat) (op : Nat) (s : State) : Host.Outcome State Fault Refusal :=
  .next (Sys2Proof.Machine.ringReserve core op s)

/-- QCWSET (R179). -/
def execQcwset (g : Guard) (x : XForm) (s : State) : Host.Outcome State Fault Refusal :=
  .next (qcwsetOp (Instr.qcwset g x) s)

/-- RPUSH (R181). -/
def execRpush (g : Guard) (q : BitVec 5) (a : BitVec 6) (c : BitVec 3) (s : State) : Host.Outcome State Fault Refusal :=
  .next (rpushOp (Instr.rpush g q a c) s)

/-- RPUSH_X (R181). -/
def execRpushX (g : Guard) (x : XForm) (s : State) : Host.Outcome State Fault Refusal :=
  .next (rpushOp (Instr.rpushX g x) s)

/-- RPOP (R182). -/
def execRpop (g : Guard) (q : BitVec 5) (d : BitVec 6) (s : State) : Host.Outcome State Fault Refusal :=
  .next (rpopOp (Instr.rpop g q d) s)

/-- RPOP_X (R182). -/
def execRpopX (g : Guard) (x : XForm) (s : State) : Host.Outcome State Fault Refusal :=
  .next (rpopOp (Instr.rpopX g x) s)

/-- BGIVE (R186). -/
def execBgive (g : Guard) (x : XForm) (s : State) : Host.Outcome State Fault Refusal :=
  .next (bgiveOp (Instr.bgive g x) true s)

/-- BGIVE_FREE (R186). -/
def execBgiveFree (g : Guard) (x : XForm) (s : State) : Host.Outcome State Fault Refusal :=
  .next (bgiveOp (Instr.bgiveFree g x) false s)

/-- BTAKE (R186). -/
def execBtake (g : Guard) (x : XForm) (s : State) : Host.Outcome State Fault Refusal :=
  .next (btakeOp (Instr.btake g x) s)

/-- BTAKE_NEW (R186). -/
def execBtakeNew (g : Guard) (x : XForm) (s : State) : Host.Outcome State Fault Refusal :=
  .next (btakeNewOp (Instr.btakeNew g x) s)

end Sys2Proof.Machine
end

