-- ==== Sys2Proof/Machine/Routines.lean ====
section
/-! DEFINITION. Line routines and condition monitors (06): the curator (R125 to R135), routine images and caches (R136 to
R139), LATOM and LATOMS (R142, R143), RTINST and RTREM (R145), WAITCMP and MONCAN (R147 to R155). -/

namespace Sys2Proof.Machine

/-! ## The curator (R125 to R132) -/

/-- A curator's state (R125). -/
structure Curator where
  line : LineData
  a : List Word
  t : List Word
  ret : DWord
  deriving DecidableEq, Repr

/-- R125: the set-up for an invocation of `n` operands at an address. -/
def Curator.start (line : LineData) (pa n : Nat) (a0 a1 a2 a3 : Word) : Curator :=
  let keep (j : Nat) (x : Word) : Word := if j < n then x else 0
  ⟨line, [keep 0 a0, keep 1 a1, keep 2 a2, keep 3 a3], BitVec.ofNat 32 (pa / 4 % 32) :: List.replicate 7 0, 0⟩

/-- R129: the value of an operand number. -/
def Curator.read (c : Curator) (n : Nat) : Word :=
  if n < 32 then BitVec.ofNat 32 (lineGet c.line (4 * n) 4)
  else if n < 0x24 then c.a.getD (n - 0x20) 0
  else if 0x28 ≤ n ∧ n < 0x30 then c.t.getD (n - 0x28) 0
  else 0

/-- R129, R131: a destination written. -/
def Curator.write (c : Curator) (n : Nat) (v : Word) : Curator :=
  if n < 32 then { c with line := linePut c.line (4 * n) 4 v.toNat }
  else if 0x28 ≤ n ∧ n < 0x30 then { c with t := c.t.set (n - 0x28) v }
  else c

/-- R128: the fields of a curator word. -/
def curOp (w : Word) : Nat := (w.extractLsb' 27 5).toNat
def curI (w : Word) : Bool := w.getLsbD 26
def curD (w : Word) : Nat := (w.extractLsb' 20 6).toNat
def curA (w : Word) : Nat := (w.extractLsb' 14 6).toNat
def curB (w : Word) : Nat := (w.extractLsb' 8 6).toNat
def curX (w : Word) : Nat := (w.extractLsb' 0 8).toNat

/-- R130: the value of source B: an operand, or the sign-extended immediate. -/
def Curator.srcB (c : Curator) (w : Word) : Word :=
  if curI w then (w.extractLsb' 8 6).signExtend 32 else c.read (curB w)

/-- R130: the conditions of CMP. -/
def curCond (k : Nat) (a b : Word) : Bool :=
  match k with
  | 0 => a == b
  | 1 => a != b
  | 2 => a.slt b
  | 3 => !a.slt b
  | 4 => a.ult b
  | 5 => !a.ult b
  | 6 => (fCmp false fp32 2 a.toNat b.toNat).1
  | _ => (fCmp false fp32 3 a.toNat b.toNat).1

/-- R130, R132: the result of an operation from A and B, for the operations that write D from them alone. -/
def curAlu (op k : Nat) (a b : Word) : Word :=
  match op with
  | 0x03 => a + b
  | 0x04 => a - b
  | 0x05 => a &&& b
  | 0x06 => a ||| b
  | 0x07 => a ^^^ b
  | 0x08 => a <<< (b.toNat % 32)
  | 0x09 => a >>> (b.toNat % 32)
  | 0x0A => if a.slt b then a else b
  | 0x0B => if a.ult b then a else b
  | 0x0C => if a.slt b then b else a
  | 0x0D => if a.ult b then b else a
  | 0x0E => BitVec.ofNat 32 (fAdd false fp32 .rn false a.toNat b.toNat).1
  | 0x0F => BitVec.ofNat 32 (fMinMax false fp32 false a.toNat b.toNat).1
  | 0x10 => BitVec.ofNat 32 (fMinMax false fp32 true a.toNat b.toNat).1
  | _ => if curCond (k % 8) a b then 1 else 0

/-- What a curator instruction does: go on, skip `n` more, or end with a routine fault and its abort code. -/
inductive CurNext where
  | next (c : Curator)
  | skip (n : Nat)
  | fault (code abort : Nat)

/-- R126, R130: one instruction. -/
def Curator.exec (c : Curator) (w : Word) : CurNext :=
  let a := c.read (curA w)
  let b := c.srcB w
  match curOp w with
  | 0x01 =>
    let k := (a + b).toNat
    if k > 31 then .fault 2 0 else .next (c.write (curD w) (c.read k))
  | 0x02 =>
    let k := (a + b).toNat
    if k > 31 then .fault 2 0 else .next (c.write k (c.read (curX w % 64)))
  | 0x12 => .next (c.write (curD w) (if a ≠ 0 then b else c.read (curX w % 64)))
  | 0x13 => if (a != 0) != (curX w).testBit 5 then .skip (curX w % 32) else .next c
  | 0x14 => .next { c with ret := b ++ a }
  | 0x15 => .fault 3 (curX w)
  | op => .next (c.write (curD w) (curAlu op (curX w) a b))

/-- R126: the run of a routine from `pc`: its end state, or its fault. -/
def Curator.run (code : List Word) (c : Curator) (pc : Nat) : Nat → Except (Nat × Nat) Curator
  | 0 => .ok c
  | fuel + 1 =>
    match code[pc]? with
    | none => .ok c
    | some w =>
      match c.exec w with
      | .next c' => Curator.run code c' (pc + 1) fuel
      | .skip n => Curator.run code c (pc + 1 + n) fuel
      | .fault k x => .error (k, x)

/-- R132, R135: the new word of a built-in routine. -/
def builtin (id : Nat) (w a0 a1 : Word) : Word :=
  match id with
  | 0 => w + a0
  | 1 => w - a0
  | 2 => if w.slt a0 then w else a0
  | 3 => if w.ult a0 then w else a0
  | 4 => if w.slt a0 then a0 else w
  | 5 => if w.ult a0 then a0 else w
  | 6 => w &&& a0
  | 7 => w ||| a0
  | 8 => w ^^^ a0
  | 9 => a0
  | 10 => if w = a0 then a1 else w
  | 11 => curAlu 0x0E 0 w a0
  | 12 => curAlu 0x0F 0 w a0
  | 13 => curAlu 0x10 0 w a0
  | 14 => if w.ult a0 then w + 1 else 0
  | _ => if w = 0 ∨ a0.ult w then a0 else w - 1

/-- R135: a built-in routine on a line: its return is the old word. -/
def Curator.runBuiltin (c : Curator) (id : Nat) : Curator :=
  let k := (c.t.headD 0).toNat
  let w := c.read k
  { c.write k (builtin id w (c.a.getD 0 0) (c.a.getD 1 0)) with ret := w.setWidth 64 }

/-! ## Routine images (R128 to R130, R133, R136) -/

/-- R129: an operand number that may be read, and one that may be written. -/
def curSrcOk (n : Nat) : Bool := decide (n < 0x24) || decide (0x28 ≤ n ∧ n ≤ 0x30)
def curDstOk (n : Nat) : Bool := decide (n < 0x20) || decide (0x28 ≤ n ∧ n < 0x30)

/-- R133: whether a word may stand at an index of a routine of `n` words. -/
def curWordOk (n index : Nat) (w : Word) : Bool :=
  let op := curOp w
  let d := curD w
  let a := curA w
  let x := curX w
  let bOk := curI w || curSrcOk (curB w)
  match op with
  | 0x01 => curDstOk d && curSrcOk a && bOk && x == 0
  | 0x02 => d == 0 && curSrcOk a && bOk && decide (x < 64) && curSrcOk x
  | 0x11 => curDstOk d && curSrcOk a && bOk && decide (x < 8) && (!curI w || decide (x ≤ 5))
  | 0x12 => curDstOk d && curSrcOk a && bOk && decide (x < 64) && curSrcOk x
  | 0x13 => d == 0 && curB w == 0 && !curI w && curSrcOk a && decide (x < 64) && x % 32 != 0
      && decide (index + 1 + x % 32 ≤ n)
  | 0x14 => d == 0 && curSrcOk a && bOk && x == 0
  | 0x15 => d == 0 && a == 0 && curB w == 0 && !curI w
  | _ => decide (0x03 ≤ op ∧ op ≤ 0x10) && curDstOk d && curSrcOk a && bOk && x == 0
      && !(curI w && decide (0x0E ≤ op))

/-- R126: the clocks of a word. -/
def curClocks (w : Word) : Nat :=
  if (0x0E ≤ curOp w ∧ curOp w ≤ 0x10) ∨ (curOp w = 0x11 ∧ 6 ≤ curX w) then 2 else 1

/-- R136: the words of an image's code, 144 bytes with its header. -/
def imageCode (img : List Byte) : List Word :=
  (List.range (ofLeBytes (img.take 2))).map fun i => BitVec.ofNat 32 (ofLeBytes ((img.drop (16 + 4 * i)).take 4))

/-- R133, R145: the code of RTINST for an image and the index of the failing word: 0 where the image is valid. -/
def imageCheck (img : List Byte) : Nat × Nat :=
  let n := ofLeBytes (img.take 2)
  let code := imageCode img
  if n = 0 ∨ 32 < n ∨ ((img.drop 2).take 14).any (· != 0) then (3, 0)
  else match (List.range n).find? fun i => !curWordOk n i (code.getD i 0) with
    | some i => (4, i)
    | none => if 40 < 4 + (code.map curClocks).foldl (· + ·) 0 then (5, 0) else (0, 0)

/-! ## The routine table and slice caches (R137, R138) -/

/-- The slice entry that an invocation may use (R138). -/
def State.rtCached (s : State) (slice : Nat) (v : Invocation) : Option RtEntry :=
  s.rtCache.find? fun e => e.slice == slice && e.asid == v.asid && e.gen == v.gen && e.rid == v.rid
    && decide (v.version ≤ e.version)

/-- R138: an entry put into its slice's cache; oldest out (log 8). -/
def State.rtKeep (s : State) (e : RtEntry) : State :=
  let rest := s.rtCache.filter fun o => !(o.slice == e.slice && o.asid == e.asid && o.gen == e.gen && o.rid == e.rid)
  let mine := rest.filter fun o => o.slice == e.slice
  { s with rtCache := (if mine.length < Config.rtCacheEntries then rest else rest.erase (mine.headD e)) ++ [e] }

/-- R137: the address of a table entry. -/
def rtEntryAddr (rtab : DWord) (rid : Nat) : DWord := rtab + BitVec.ofNat 64 (0x40 + 0x90 * (rid - 16))

/-- R138: the table's lines as a slice reaches them for an entry that it does not hold; false while one must be waited for. -/
def State.rtReach (s : State) (slice : Nat) (v : Invocation) : State × Bool :=
  let rtab := (s.asid v.asid).rtab
  if v.rid < 16 ∨ (s.rtCached slice v).isSome ∨ rtab = 0 then (s, true)
  else s.reachSpans v.asid v.gen (slice / Config.slicesPerDie) false [(rtab.toNat, 16), ((rtEntryAddr rtab v.rid).toNat, 144)]

/-- R127, R138: the code of a user routine at a slice, or its routine fault. -/
def State.rtCode (s : State) (slice : Nat) (v : Invocation) : Except Nat (List Word × State) :=
  match s.rtCached slice v with
  | some e => .ok (imageCode e.image, s)
  | none =>
    let rtab := (s.asid v.asid).rtab
    if rtab = 0 then .error 1
    else match s.feReadAs v.asid v.gen rtab 8, s.feReadAs v.asid v.gen (rtab + 8) 8, s.feBytesAs v.asid v.gen (rtEntryAddr rtab v.rid) 144 with
      | some version, some inst, some img =>
        if !inst.testBit v.rid then .error 1
        else if (imageCheck img).1 ≠ 0 then .error 5
        else .ok (imageCode img, s.rtKeep ⟨slice, v.asid, v.gen, v.rid, version, img⟩)
      | _, _, _ => .error 5

/-! ## Where a routine runs (R120 to R124) -/

/-- R122 and the table of R120: whether an invocation runs at the home. A home that stops grants no ownership (R115). -/
def State.runsAtHome (s : State) (v : Invocation) (line : Nat) : Bool :=
  let h := s.homeLine line
  dieOfCore v.core == homeDie line || h.mode == 1 || s.mem.far || s.armedOn line || v.det || (s.die (homeDie line)).resetting

/-- R121: the predictor at an invocation that arrives at the home from another die. -/
def State.predict (s : State) (line die : Nat) : State :=
  let h := s.homeLine line
  if die = homeDie line ∨ h.mode ≠ 1 then s
  else
    let run := if die = h.rdie then min 16 (h.run + 1) else 1
    if run = 16 ∧ !s.armedOn line ∧ !s.mem.far then s.setLine line { h with run := 0, rdie := die, mode := 0 }
    else s.setLine line { h with run := run, rdie := die }

/-- R102, R122: a line that must be at its home comes back; from another die's hands by a recall. -/
def State.bringHome (s : State) (line die : Nat) : State :=
  let s1 := s.recall line die
  let h := s1.homeLine line
  if h.ownerDie.isSome then s1.setLine line h.returned else s1

/-- R121, R147: a request at the home that is no invocation and needs the line there. -/
def State.homeFor (s : State) (line die : Nat) : State := (s.bringHome line die).touchRun line die

/-- R120: a line lent to a die. -/
def State.lend (s : State) (line die : Nat) : State :=
  let h := s.homeLine line
  s.setLine line { h with
    state := .owned, ownerDie := some die, ownerData := h.data, ownerDirty := h.state == .dirty, hold := 0, grants := [] }

/-- R126: what an invocation makes of a line: its curator at the end, or its fault. -/
def runRoutine (v : Invocation) (code : List Word) (d : LineData) : Except (Nat × Nat) Curator :=
  let c := Curator.start d v.pa v.n v.a0 v.a1 v.a2 v.a3
  if v.rid < 16 then .ok (c.runBuiltin v.rid) else Curator.run code c 0 33

/-- A result on its way back to the core. -/
def State.rtReturn (s : State) (v : Invocation) (r : RtResult) : State := s.send (.routineReturn ⟨v, r⟩)

/-- R127: a routine fault found at a slice of a die. -/
def State.rtFault (s : State) (v : Invocation) (die code abort : Nat) : State :=
  (s.countRoutine die 3).rtReturn v (.fault code abort)

/-- R123: an invocation run at the home: it sends the collapse of the line's copies, it runs, the line takes the commit at its
arrival (R106), and the GWCT is the later of the collapse's end and the commit (log 33). -/
def State.runHome (s : State) (v : Invocation) (line : Nat) (code : List Word) : State :=
  let s0 := s.countRoutine (homeDie line) 1
  let s1 := if s0.leased line then s0.collapse line .none else s0
  let h := s1.homeLine line
  match runRoutine v code h.data with
  | .error (k, x) => s1.rtFault v (homeDie line) k x
  | .ok c =>
    let s2 := if c.line = h.data then s1
      else (s1.setLine line { h with data := c.line, state := .dirty }).fireLine line
    s2.collapse line (.invocation v c.ret)

/-- R120, R123: an invocation run at the owner's slice. -/
def State.runOwner (s : State) (v : Invocation) (line die : Nat) (code : List Word) : State :=
  let s1 := s.countRoutine die 0
  let h := s1.homeLine line
  match runRoutine v code h.ownerData with
  | .error (k, x) => s1.rtFault v die k x
  | .ok c =>
    (s1.setLine line { h with ownerData := c.line, ownerDirty := h.ownerDirty || c.line != h.ownerData }).rtReturn v
      (.ok c.ret (s1.common die).toNat)

/-- The code of an invocation's routine at a slice; none for a built-in routine. -/
def State.codeFor (s : State) (slice : Nat) (v : Invocation) : Except Nat (List Word × State) :=
  if v.rid < 16 then .ok ([], s) else s.rtCode slice v

/-- R143, R142: whether an invocation's return is waited for. -/
def expectsReturn (v : Invocation) : Bool := v.ret.isSome || decide (16 ≤ v.rid) || v.det

/-- R123: a rejected invocation. -/
def State.rejectInvocation (s : State) (v : Invocation) : State :=
  if expectsReturn v then s.rtReturn v .stale else (s.staleWrite v.asid v.gen v.pa).rtReturn v (.ok 0 0)

/-- R124: an invocation waits at its slice and holds its line. -/
def State.holdLine (s : State) (v : Invocation) (line : Nat) : State :=
  (s.setLine line { s.homeLine line with heldFor := some v.id }).hold (.routineInvocation v)

/-- The slice that runs an invocation (R120). -/
def State.runSlice (s : State) (v : Invocation) (line : Nat) : Nat :=
  if s.runsAtHome v line then homeSlice line else sliceAt (dieOfCore v.core) line

/-- R120: an invocation in near mode of a die that does not own the line: every copy collapses, and the line is lent to the die's
slice where that has a way for it (R100). `first` says that the invocation has not waited yet. -/
def State.lendTo (s : State) (v : Invocation) (line die : Nat) (first : Bool) : State :=
  let s1 := s.bringHome line die
  if s1.leased line then
    let s2 := if first then s1.countRegion v.asid v.va 0 0 1 else s1
    (if (s1.homeLine line).cpend then s2 else s2.collapse line .none).holdLine v line
  else match s1.makeRoom (sliceAt die line) line false with
    | none => s1.holdLine v line
    | some s2 =>
      let s3 := (s2.countRegion v.asid v.va 0 1 0).lend line die
      match s3.codeFor (sliceAt die line) v with
      | .error k => s3.rtFault v die k 0
      | .ok (code, s4) => s4.runOwner v line die code

/-- R120: an invocation that has passed its frame check, at the slice that runs it. -/
def State.invokeAt (s : State) (v : Invocation) (line : Nat) (first : Bool) : State :=
  let die := dieOfCore v.core
  let home := homeDie line
  if s.runsAtHome v line then
    let s1 := ((s.countRegion v.asid v.va 0 1 (s.leased line).toNat).predict line die).bringHome line die
    match s1.codeFor (homeSlice line) v with
    | .error k => s1.rtFault v home k 0
    | .ok (code, s2) => s2.runHome v line code
  else if (s.homeLine line).ownerDie = some die then
    match s.codeFor (sliceAt die line) v with
    | .error k => s.rtFault v die k 0
    | .ok (code, s2) => s2.runOwner v line die code
  else s.lendTo v line die first

/-- R124: a line that an invocation has held is free for it. -/
def State.freeLine (s : State) (v : Invocation) (line : Nat) : State :=
  if (s.homeLine line).heldFor = some v.id then s.setLine line { s.homeLine line with heldFor := none } else s

/-- One lane's invocation at the slice that runs it (R120, R123, R126). -/
def routineLane (v : Invocation) (s : State) : State :=
  let line := v.pa / 128
  let s0 := s.freeLine v line
  match s0.frameCheck v.asid v.gen v.pa true with
  | .stale => s0.rejectInvocation v
  | .wait s1 => s1.hold (.routineInvocation v)
  | .serve s1 =>
    match s1.rtReach (s1.runSlice v line) v with
    | (s2, false) => s2.holdLine v line
    | (s2, true) => s2.invokeAt v line ((s.homeLine line).heldFor != some v.id)

/-- R124: the invocations on their way that other lanes of the same issue make of the same line, in lane order. -/
def State.batchMates (s : State) (v : Invocation) : List Invocation :=
  s.net.filterMap fun m => match m with
    | .routineInvocation u => if u.batch = v.batch ∧ v.batch ≠ 0 ∧ u.id ≠ v.id ∧ u.core = v.core ∧ u.pa / 128 = v.pa / 128 then some u else none
    | _ => none

/-- R124: invocations run one after another with nothing between them; where one waits, it and those after it wait. -/
def State.runMates : List Invocation → State → State
  | [], s => s
  | u :: us, s =>
    let s1 := routineLane u { s with net := s.net.erase (.routineInvocation u) }
    if s1.net.contains (.routineInvocation u) then s1 else State.runMates us s1

/-- ROUTINE_INVOCATION (R124): an invocation, and with it those of the later lanes of its issue on its line. -/
def routineInvocation (v : Invocation) (s : State) : State := State.runMates (v :: s.batchMates v) s

/-! ## LATOM and LATOMS (R140 to R143) -/

/-- R140: the operands a0 to a3 of a lane. -/
def State.latomArgs (s : State) (t : TRef) (f : Form) (o : Operands) : List Word :=
  let n := f.x.sub.toNat % 8
  match f.x.b with
  | .vec r _ => (List.range 4).map fun j => if j < n then (s.warp t.warp).vreg t.lane (r.toNat + j) else 0
  | _ => [o.b.setWidth 32, o.b.extractLsb' 32 32, 0, 0]

/-- A lane's id operand (R140). -/
def latomId (o : Operands) : Nat := (o.c.setWidth 32).toNat

/-- R127, R393: the report of a routine fault. -/
def routineReport (code id abort : Nat) (va : DWord) : Report := ⟨clsRoutine, code, id % 256, abort, 0, false, va⟩

/-- R142: the checks of a lane, all of which precede any lane's invocation. -/
def latomCheck (t : TRef) (o : Operands) (s : State) : Except Report State :=
  let va := o.a
  let wp := s.warp t.warp
  if misaligned va.toNat 4 then .error (report clsMisaligned 0 va)
  else if latomId o > 63 then .error (routineReport 6 (latomId o) 0 va)
  else
    let (e, s1) := s.xlate wp.core wp.asid va
    match xlateCause e true true false with
    | some c => .error (report clsLease c va)
    | none =>
      match e with
      | some e => if e.tgt = 1 then .error (routineReport 4 (latomId o) 0 va) else .ok s1
      | none => .ok s1

/-- R124, R312: whether a lane of the issue must wait for a store of its warp to the line of its address. -/
def State.latomWaits (s : State) (f : Form) : Bool :=
  s.cur.group.any fun t =>
    let wp := s.warp t.warp
    s.guardHolds t f.g && match s.look wp.core wp.asid (s.operands t f).a with
      | none => false
      | some e => wp.stores.any fun p => !p.applied && !p.inv && p.meets (e.tgt == 1) (e.at (s.operands t f).a / 128 * 128) 128

/-- R124: whether a lower lane of the issue has been put off, so that no higher lane may go before it. -/
def State.lowerWaits (s : State) (t : TRef) : Bool := s.cur.group.any fun u => decide (u.lane < t.lane) && (s.thread u).unready

/-- R123, R142, R143, R312: a lane's invocation leaves its core. -/
def latomEff (f : Form) (ret : Bool) (t : TRef) (o : Operands) (s : State) : Eff :=
  let wp := s.warp t.warp
  let va := o.a
  let id := latomId o
  match s.look wp.core wp.asid va with
  | none => .fault (report clsLease 1 va)
  | some e =>
    if s.lowerWaits t || s.latomWaits f then .retry
    else
      let d := f.x.dst.num.toNat
      let args := s.latomArgs t f o
      let det := (s.grid wp.grid).det
      let scope := scopeOfCode (f.x.sub.toNat / 8)
      let pa := e.at va
      let n := s.nextId
      let v : Invocation := ⟨n, t.warp, t.lane, wp.core, wp.asid, s.genAt wp.core wp.asid, SMap.get 0 s.rtVers wp.asid, va, pa, id,
        f.x.sub.toNat % 8, args.getD 0 0, args.getD 1 0, args.getD 2 0, args.getD 3 0, det, if ret then some d else none,
        scope, s.cur.pos, s.cur.num⟩
      let s1 := (s.fresh).setWarp t.warp fun w =>
        let w1 := if ret then w.markEmpty t.lane d 2 true else w
        { w1 with
          inFlight := if ret then w1.inFlight + 1 else w1.inFlight
          stores := w1.stores ++ [⟨n, t.lane, false, pa / 128 * 128, 128, scope, v.gen, true, false⟩] }
      let s2 := (s1.setCore wp.core fun c => { c with l1 := c.l1.filter fun l =>
        !(l.asid == wp.asid && !l.host && l.line == pa / 128) }).dropCopy (dieOfCore wp.core) (pa / 128)
      let s3 := s2.send (.routineInvocation v)
      if 16 ≤ id ∨ det then .held (s3.park (.invocation n) t.warp [t]) else .done s3

/-- LATOM and LATOMS (R142). -/
def latomOp (i : Instr) (ret : Bool) (s : State) : State := s.eachChecked i latomCheck (latomEff i.form ret)

/-- The wait of a held invocation. -/
def State.invocationWait (s : State) (id : Nat) : Option Nat :=
  (s.waits.find? fun e => e.2.kind == .invocation id).map (·.1)

/-- ROUTINE_RETURN (R127, R142, R143, R311). -/
def routineReturn (r : RtReturn) (s : State) : State :=
  let v := r.inv
  let t : TRef := ⟨v.warp, v.lane⟩
  let full (s : State) : State := match v.ret with
    | some d => s.setWarp v.warp fun w => { w.markEmpty v.lane d 2 false with inFlight := w.inFlight - 1 }
    | none => s
  let gone (s : State) : State := s.storeGone v.warp v.id
  match r.result with
  | .ok ret gwct =>
    let s1 := storeAck ⟨v.id, v.warp, v.lane, gwct, v.scope, false⟩ s
    let s2 := match v.ret with
      | some d => (s1.writeNow v.warp (dstWrites (.vec (BitVec.ofNat 9 d)) v.lane 2 ret)).setWarp v.warp fun w =>
          { w with obs := later w.obs gwct }
      | none => s1
    let s3 := full s2
    match s3.invocationWait v.id with
    | some k => s3.completeWait k
    | none => s3
  | .fault code abort =>
    let s1 := gone (full s)
    let s2 := match s1.invocationWait v.id with
      | some k => s1.unpark k
      | none => s1
    s2.raiseAll [t] (routineReport code v.rid abort v.va) false
  | .stale =>
    let s1 := gone (full s)
    let s2 := match s1.invocationWait v.id with
      | some k => s1.unpark k
      | none => s1
    s2.fatal v.warp (report clsStaleGen 0 v.va) v.insn

/-! ## RTINST and RTREM (R139, R144, R145) -/

/-- R145: the pages an RTINST or RTREM reads, checked at issue: the table's, and an image's header and code. -/
def State.rtChecks (s : State) (t : TRef) (install : Bool) (image : DWord) : List DWord :=
  let a := s.asid (s.warp t.warp).asid
  let table := if a.rtab = 0 then [] else [a.rtab, a.rtab + 6975]
  let n := (s.feRead (s.warp t.warp).asid image 2).getD 0
  let img := if install then [image, image + 15] ++ (if 1 ≤ n ∧ n ≤ 32 then [image + BitVec.ofNat 64 (15 + 4 * n)] else []) else []
  img ++ table

/-- RTINST and RTREM (R144, R145): the checks of issue, then the request in sequencer order (R139). -/
def rtOp (i : Instr) (install : Bool) (s : State) : State :=
  s.onceFor i fun ld o s =>
    let wp := s.warp ld.warp
    let bad := (s.rtChecks ld install o.a).findSome? fun va => match s.accessCheck ld va 1 true false with
      | .error r => some r
      | .ok _ => none
    match bad with
    | some r => .fault r
    | none =>
      let (seq, s1) := s.takeSeq
      let id := s1.nextId
      let s2 := s1.fresh
      let q : RtReq := ⟨id, seq, install, wp.asid, s.genAt wp.core wp.asid, (o.b.setWidth 32).toNat, o.a, s2.nextId⟩
      let s3 := s2.park (.routineReq id i.form.x.dst) ld.warp s.cur.group
      .held ({ s3 with rtReqs := s3.rtReqs ++ [q] }.send (.rtinstExecution id))

/-- The routine table written at its homes by the Scajo pair, in pieces of 8 bytes (R139). -/
def State.tableWrite (s : State) (asid : Nat) (va : DWord) (bs : List Byte) : State :=
  (List.range ((bs.length + 7) / 8)).foldl (fun s i =>
    let part := (bs.drop (8 * i)).take 8
    match s.fePlace asid (va + BitVec.ofNat 64 (8 * i)) false with
    | none => s
    | some (true, pa) => s.poke true pa part
    | some (false, pa) =>
      ((s.enterHome (pa / 128)).getD s).writeLine (pa / 128) Config.feDie
        (fun d => linePut d (pa % 128) part.length (ofLeBytes part)) .none) s

/-- R145: the status word. -/
def rtStatus (code index version : Nat) : DWord := BitVec.ofNat 64 (code + 2 ^ 8 * index + 2 ^ 32 * (version % 2 ^ 32))

/-- R145: how many bytes of an image a request reads: its header, and its code where NINST is at most 32. -/
def State.imageBytes (s : State) (q : RtReq) : Nat :=
  let n := (s.feReadAs q.asid q.gen q.image 2).getD 0
  16 + 4 * (if n ≤ 32 then n else 0)

/-- R139, R145: the table and the image of a request as the Scajo pair reaches them; false while a line must be waited for. -/
def State.rtSpans (s : State) (q : RtReq) : State × Bool :=
  let rtab := (s.asid q.asid).rtab
  if rtab = 0 then (s, true)
  else
    let (s1, a) := s.reachSpans q.asid q.gen Config.feDie true [(rtab.toNat, 16), ((rtEntryAddr rtab q.rid).toNat, 144)]
    if q.install then
      let (s2, b) := s1.reachSpans q.asid q.gen Config.feDie false [(q.image.toNat, s1.imageBytes q)]
      (s2, a && b)
    else (s1, a)

/-- R145: a request carried out: its code, failing index and the table's version after it, with the table written. -/
def State.rtCarryOut (s : State) (q : RtReq) : Nat × Nat × Nat × State :=
  let rtab := (s.asid q.asid).rtab
  let held := SMap.get 0 s.rtVers q.asid
  if rtab = 0 then (1, 0, held, s)
  else
    match s.feReadAs q.asid q.gen rtab 8, s.feReadAs q.asid q.gen (rtab + 8) 8 with
    | some version, some inst =>
      let img := if q.install then s.feBytesAs q.asid q.gen q.image (s.imageBytes q) else some []
      let entry := rtEntryAddr rtab q.rid
      if q.rid < 16 ∨ 63 < q.rid then (2, 0, version, s)
      else if s.feBytesAs q.asid q.gen entry 144 = none then (7, 0, version, s)
      else match img with
        | none => (7, 0, version, s)
        | some bs =>
          let bad := if q.install then imageCheck bs else (0, 0)
          if bad.1 ≠ 0 then (bad.1, bad.2, version, s)
          else if !q.install ∧ !inst.testBit q.rid then (6, 0, version, s)
          else
            let image := bs ++ List.replicate (144 - bs.length) 0
            let bit := 2 ^ q.rid
            let inst' := if q.install then inst ||| bit else inst - bit
            let s1 := (s.tableWrite q.asid entry image).tableWrite q.asid (rtab + 8) (leBytes 8 inst')
            (0, 0, version + 1, s1.tableWrite q.asid rtab (leBytes 8 (version + 1)))
    | _, _ => (7, 0, held, s)

/-- RTINST_EXECUTION (R139): in sequencer order; the new version at every slice and core, then the completion. -/
def rtinstExecution (req : Nat) (s : State) : State :=
  match s.rtReqs.find? fun q => q.id == req with
  | none => s
  | some q =>
    if s.rtReqs.any fun o => o.asid == q.asid && decide (o.seq < q.seq) then s.hold (.rtinstExecution req)
    else match s.rtSpans q with
    | (s0, false) => s0.hold (.rtinstExecution req)
    | (s0, true) =>
      let (code, index, version, s1) := s0.rtCarryOut q
      let s2 := { s1 with rtReqs := s1.rtReqs.filter fun o => o.id != req }
      let s3 := if code ≠ 0 then s2 else { s2 with
        rtVers := SMap.set 0 s2.rtVers q.asid version
        rtCache := s2.rtCache.filter fun e => !(e.asid == q.asid && decide (e.version < version)) }
      match Tab.find s3.waits q.wait with
      | some r => (s3.writeNow r.warp (match r.kind with
          | .routineReq _ (.uni n) => [(.uni (n.toNat % 32), rtStatus code index version)]
          | _ => [])).completeWait q.wait
      | none => s3

/-! ## WAITCMP (R146 to R153) -/

/-- R157: the poll interval in force. -/
def State.pollTicks (s : State) : Nat := max 500 s.mem.poll

/-- R153: q written in every member of a completed wait. -/
def State.writeWait (s : State) (ts : List TRef) (dst : Nat) (b : Bool) : State :=
  ts.foldl (fun s t => s.writeNow t.warp [(.pred t.lane dst, if b then 1 else 0)]) s

/-- The end of a WAITCMP. -/
def State.endCmp (s : State) (id : Nat) (b : Bool) : State :=
  match Tab.find s.waits id with
  | none => s
  | some r =>
    match r.kind with
    | .cmp _ _ _ dst _ | .stamped (some (_, dst)) =>
      (s.writeWait (r.members.filter fun t => (s.thread t).wait == some id) dst b).completeWait id
    | _ => s

/-- R147: whether a waiting instruction is a wait of a key at a core, armed or polled. -/
def State.armedWait (s : State) (key : MonKey) (core : Nat) (e : Nat × WaitRec) : Bool :=
  (match e.2.kind with
    | .cmp k _ _ _ _ => k == key
    | _ => false) && (s.warp e.2.warp).core == core

/-- The agent at which a waiter of an entry waits: its core, or FE (144) for a saved block's and for a watch of FE's. -/
def State.agentOf (s : State) (w : Option Nat) : Nat :=
  match w.bind fun id => Tab.find s.waits id with
  | some r => (s.warp r.warp).core
  | none => 144

/-- R146: a waiter leaves the entry that counts it; the last one frees it, and an agent without a waiter leaves the mask. A waiter
whose entry has fired leaves nothing. -/
def State.withdraw (s : State) (key : MonKey) (w : Option Nat) : State :=
  { s with monitors := s.monitors.filterMap fun m =>
      if m.key ≠ key ∨ !m.waiters.contains w then some m
      else match m.waiters.erase w with
        | [] => none
        | rest => some { m with waiters := rest, agents := m.agents.filter fun a => rest.any fun x => s.agentOf x == a } }

/-- A waiting WAITCMP leaves its entry, if it is in one (R146). -/
def State.withdrawWait (s : State) (id : Nat) : State :=
  match Tab.find s.waits id with
  | none => s
  | some r =>
    match r.kind with
    | .cmp key _ _ _ _ => s.withdraw key (some id)
    | _ => s

/-- Whether an armed wait of a key has fired: no entry counts it any more. -/
def State.hasFired (s : State) (id : Nat) (k : WaitKind) : Bool :=
  match k with
  | .cmp key false _ _ _ => !s.monitors.any fun m => m.key == key && m.waiters.contains (some id)
  | _ => false

/-- R146, R147: a waiter of an agent joins the entry of its key, or makes one where its slice has room; false where refused. -/
def State.armKey (s : State) (key : MonKey) (agent : Nat) (w : Option Nat) : Bool × State :=
  let slice := homeSlice (key.pa / 128)
  if s.monitors.any fun m => m.key == key then
    (true, { s with monitors := s.monitors.map fun m =>
      if m.key = key then { m with
        waiters := m.waiters ++ [w], agents := if m.agents.contains agent then m.agents else m.agents ++ [agent] } else m })
  else if (s.monitors.filter fun m => m.slice == slice).length < Config.monitorEntries then
    (true, { s with monitors := s.monitors ++ [Monitor.mk slice key [agent] [w]] }.countRoutine (homeDie (key.pa / 128)) 4)
  else (false, s.countRoutine (homeDie (key.pa / 128)) 6)

/-- R152: the comparator of SUB[2:0]. -/
def cmpOfSub (k : Nat) : Cmp :=
  match k with
  | 0 => .eq
  | 1 => .ne
  | 2 => .ltu
  | 3 => .geu
  | 4 => .lts
  | _ => .ges

/-- The key of a WAITCMP at a translated address. -/
def waitKey (asid : Nat) (f : Form) (o : Operands) (e : TlbEntry) : MonKey :=
  let wide := f.x.ty == .u64
  ⟨asid, e.at o.a, e.tgt == 1, wide, cmpOfSub (f.x.sub.toNat % 8), if wide then o.b else (o.b.setWidth 32).setWidth 64⟩

/-- R387: the timeout of a WAITCMP: what is left of an abandoned one, else the operand; none for 0 and in deterministic
mode. -/
def State.waitTicks (s : State) (t : TRef) (o : Operands) : Option Nat :=
  let left := (s.thread t).waitRem.toNat
  let n := if left ≠ 0 then left else (o.c.setWidth 32).toNat
  if n = 0 ∨ (s.grid (s.warp t.warp).grid).det then none else some n

/-- A wait on its way: its record, its timeout, and in poll mode its first poll (R148, R153). -/
def State.parkCmp (s : State) (t : TRef) (ms : List TRef) (key : MonKey) (polled : Bool) (dst : Nat) (ticks : Option Nat) (first : Nat) : State :=
  let id := s.nextId
  let now := (s.common (dieOfCore (s.warp t.warp).core)).toNat
  let s1 := s.park (.cmp key polled (ticks.map (now + ·)) dst (now + first)) t.warp ms
  let s2 := if ticks.isSome then s1.send (.waitTimeout id) else s1
  if polled then s2.send (.monitorPoll id) else s2

/-- R302: a core has seen a word's value at its home: what its L1 and its die's copy hold of the line may be older, and goes. -/
def State.seenBy (s : State) (core : Nat) (key : MonKey) : State :=
  let s1 := s.l1Drop core key.host (key.pa / 128)
  if key.host then s1 else s1.dropCopy (dieOfCore core) (key.pa / 128)

/-- WAITCMP in a thread, or once for its members (R147, R148, R153, R375). -/
def waitcmpEff (f : Form) (ms : TRef → State → List TRef) (t : TRef) (o : Operands) (s : State) : Eff :=
  let wp := s.warp t.warp
  let n := if f.x.ty = .u64 then 8 else 4
  let dst := f.x.dst.num.toNat
  let members := ms t s
  match s.accessCheck t o.a n true false with
  | .error r => .fault r
  | .ok s1 =>
    match s1.look wp.core wp.asid o.a with
    | none => .fault (report clsLease 1 o.a)
    | some e =>
      let key := waitKey wp.asid f o e
      let line := key.pa / 128
      let ticks := s1.waitTicks t o
      if s1.loadWaits t o.a n then .retry
      else if key.host then
        if (s.grid wp.grid).det then
          if s1.keyHolds key then .done ((s1.seenBy wp.core key).writeWait members dst true)
          else .held ((s1.park (.stamped (some (key, dst))) t.warp members).send (.stampedRequestRelease wp.grid))
        else .held (s1.parkCmp t members key true dst ticks 0)
      else match s1.frameCheck wp.asid (s1.genAt wp.core wp.asid) key.pa false with
        | .stale => .fault (report clsStaleGen 0 o.a)
        | .wait s2 => .wait s2
        | .serve s2 =>
          let s3 := s2.homeFor line (dieOfCore wp.core)
          if s3.keyHolds key then .done ((s3.seenBy wp.core key).writeWait members dst true)
          else if (s.grid wp.grid).det then .held ((s3.park (.stamped (some (key, dst))) t.warp members).send (.stampedRequestRelease wp.grid))
          else
            match s3.armKey key wp.core (some s3.nextId) with
            | (true, s4) => .held (s4.parkCmp t members key false dst ticks 0)
            | (false, s4) => .held (s4.parkCmp t members key true dst ticks s4.pollTicks)

/-- WAITCMP (R153, R155). -/
def waitcmpOp (i : Instr) (s : State) : State :=
  let f := i.form
  if f.g.scope = .lane then s.eachThread i (waitcmpEff f fun t _ => [t])
  else s.onceFor i (waitcmpEff f fun _ s => s.cur.group)

/-- A saved block's wait completes with a result, unless it already has one (R150). -/
def Saved.wake (v : Saved) (id : Nat) (b : Bool) : Saved :=
  if v.woken.any fun w => w.1 == id then v else { v with woken := v.woken ++ [(id, b)] }

/-- The saved record that holds a wait. -/
def State.savedWait (s : State) (id : Nat) : Option (Nat × WaitRec) :=
  s.fe.saved.findSome? fun e => (e.2.waits.find? fun w => w.1 == id).map fun w => (e.1, w.2)

/-- R150: a wait of a saved block completes: its result is recorded, and the block is to be restored. -/
def State.wakeSaved (s : State) (id : Nat) (b : Bool) : State :=
  match s.savedWait id with
  | none => s
  | some (k, r) =>
    let s1 := match r.kind with
      | .cmp key _ _ _ _ => s.withdraw key (some id)
      | _ => s
    { s1 with fe := { s1.fe with saved := Tab.upd s1.fe.saved k fun v => v.wake id b } }.send (.yieldWake k)

/-- The saved blocks' waits that stand on a key. -/
def State.savedOn (s : State) (p : MonKey → Bool) : List Nat :=
  s.fe.saved.flatMap fun e => (e.2.waits.filter fun w => match w.2.kind with
    | .cmp k _ _ _ _ => p k && !(e.2.woken.any fun x => x.1 == w.1)
    | .stamped (some (k, _)) => p k && !(e.2.woken.any fun x => x.1 == w.1)
    | _ => false).map (·.1)

/-- R350, R355: the slot of the packet that FE looks at next. -/
def Queue.slotVa (q : Queue) : DWord := q.ring + 128 * (q.rdidx % BitVec.ofNat 64 (2 ^ q.log2n))

/-- R355: a watch of FE fires: FE re-reads the tail, or looks at the packet again, of every queue that watches the word. -/
def State.feWoken (s : State) (key : MonKey) : State :=
  s.fe.queues.foldl (fun (s : State) (e : Nat × Queue) =>
    let at_ (va : DWord) : Bool := e.2.asid == key.asid && s.fePlace e.2.asid va false == some (key.host, key.pa)
    let s1 := if at_ e.2.ctrl then s.send (.tailUpdate e.1 (BitVec.ofNat 64 (s.peek key.host key.pa 8))) else s
    if at_ e.2.slotVa then s1.send (.packetAccept e.1) else s1) s

/-- MONITOR_WAKE (R147, R150, R151, R355): every wait on the key completes, at the agent and in saved blocks; FE is 144. -/
def monitorWake (key : MonKey) (agent : Nat) (result : Bool) (s0 : State) : State :=
  let s := if agent = 144 then s0.feWoken key else s0
  let mine := (s.waits.filter fun e => s.armedWait key agent e).map (·.1)
  let s1 := mine.foldl (fun s id => ((s.seenBy agent key).withdrawWait id).endCmp id result) s
  (s1.savedOn fun k => k == key).foldl (fun s id => s.wakeSaved id result) s1

/-- R148: what a poll of a key finds: a result that ends the wait, if any. -/
def State.pollKey (s : State) (k : MonKey) (agent gen die : Nat) : State × Option Bool :=
  if k.host then (s, if s.keyHolds k then some true else none)
  else match s.frameCheck k.asid gen k.pa false with
    | .stale => (s, some false)
    | .wait s1 => (s1, none)
    | .serve s1 =>
      let s2 := s1.reachHome (k.pa / 128) die
      if s2.keyHolds k then (if agent < 144 then s2.seenBy agent k else s2, some true) else (s2, none)

/-- A saved wait with its kind replaced. -/
def Saved.setWait (v : Saved) (id : Nat) (k : WaitKind) : Saved :=
  { v with waits := v.waits.map fun (w : Nat × WaitRec) => if w.1 = id then (w.1, { w.2 with kind := k }) else w }

def State.setSavedPoll (s : State) (rec_ id : Nat) (k : WaitKind) : State :=
  { s with fe := { s.fe with saved := Tab.upd s.fe.saved rec_ fun v => v.setWait id k } }

/-- MONITOR_POLL (R148): the word is read again once its time has come. -/
def monitorPoll (wait : Nat) (s : State) : State :=
  match Tab.find s.waits wait with
  | some r =>
    match r.kind with
    | .cmp key true dl dst next =>
      let now := (s.common (dieOfCore (s.warp r.warp).core)).toNat
      if now < next then s.hold (.monitorPoll wait)
      else
        let core := (s.warp r.warp).core
        match s.pollKey key core (s.genAt core key.asid) (dieOfCore core) with
        | (s1, some b) => s1.endCmp wait b
        | (s1, none) => { s1 with waits := Tab.upd s1.waits wait fun r => { r with kind := .cmp key true dl dst (now + s.pollTicks) } }.send
            (.monitorPoll wait)
    | _ => s
  | none =>
    match s.savedWait wait with
    | some (k, r) =>
      match r.kind with
      | .cmp key true dl dst next =>
        if s.now < next then s.hold (.monitorPoll wait)
        else match s.pollKey key 144 (s.genAt feAgent key.asid) Config.feDie with
          | (s1, some b) => s1.wakeSaved wait b
          | (s1, none) => (s1.setSavedPoll k wait (.cmp key true dl dst (s.now + s.pollTicks))).send (.monitorPoll wait)
      | _ => s
    | none => s

/-- WAIT_TIMEOUT (R146, R153): the deadline has come: the waiter is withdrawn, and the wait completes with false. -/
def waitTimeout (wait : Nat) (s : State) : State :=
  match Tab.find s.waits wait with
  | some r =>
    match r.kind with
    | .cmp _ _ (some dl) _ _ =>
      if (s.common (dieOfCore (s.warp r.warp).core)).toNat < dl then s.hold (.waitTimeout wait)
      else (s.withdrawWait wait).endCmp wait false
    | _ => s
  | none =>
    match s.savedWait wait with
    | some (_, r) =>
      match r.kind with
      | .cmp _ _ (some dl) _ _ => if s.now < dl then s.hold (.waitTimeout wait) else s.wakeSaved wait false
      | _ => s
    | none => s

/-! ## MONCAN (R154) -/

/-- A place as a cancel carries it: host addresses lie above 2^52 (R76). -/
def placeNo (host : Bool) (pa : Nat) : Nat := if host then 2 ^ 52 + pa else pa

/-- R154: whether a wait's watched bytes overlap the 4 bytes at a place. -/
def keyOverlaps (asid place : Nat) (k : MonKey) : Bool :=
  k.asid == asid && decide (placeNo k.host k.pa < place + 4) && decide (place < placeNo k.host k.pa + keyBytes k)

/-- The agents a cancel is sent to: every core with a warp of the address space, and FE (144). -/
def State.cancelAgents (s : State) (asid : Nat) : List Nat :=
  ((s.warps.filter fun e => e.2.asid == asid && !e.2.freed).map fun e => e.2.core).dedup ++ [144]

/-- MONCAN in a thread, or once for its members. -/
def moncanEff (f : Form) (ms : TRef → State → List TRef) (t : TRef) (o : Operands) (s : State) : Eff :=
  let wp := s.warp t.warp
  match s.accessCheck t o.a 4 true false with
  | .error r => .fault r
  | .ok s1 =>
    match s1.look wp.core wp.asid o.a with
    | none => .fault (report clsLease 1 o.a)
    | some e =>
      let place := placeNo (e.tgt == 1) (e.at o.a)
      let agents := s1.cancelAgents wp.asid
      let id := s1.nextId
      let s2 := s1.park (.moncan agents.length) t.warp (ms t s)
      let blk := if f.x.sub.getLsbD 0 then some wp.block else none
      .held (agents.foldl (fun s a => s.send (.monitorCancel id wp.asid place blk a)) s2)

/-- R152, R325: the thread whose address MONCAN reads at warp scope: the leader; of a pair of vector registers, for which no rule names
the lane, a member's that a free value names (log 33). -/
def State.cancelLead (s : State) (f : Form) (ld : TRef) : TRef × State :=
  match f.x.a with
  | .vec .. =>
    let (x, s1) := s.free
    (⟨ld.warp, (s.cur.group.getD (x.toNat % s.cur.group.length) ld).lane⟩, s1)
  | _ => (ld, s)

/-- MONCAN (R154, R155). -/
def moncanOp (i : Instr) (s : State) : State :=
  let f := i.form
  if f.g.scope = .lane then s.eachThread i (moncanEff f fun t _ => [t])
  else s.onceFor i fun ld _ s =>
    let (t, s1) := s.cancelLead f ld
    moncanEff f (fun _ s => s.cur.group) t (s1.operands t f) s1

/-- R154: whether a cancel names a wait; one that has fired keeps its true. -/
def State.cancels (s : State) (asid place : Nat) (id : Nat) (k : WaitKind) : Bool :=
  !s.hasFired id k && match k with
    | .cmp k _ _ _ _ => keyOverlaps asid place k
    | .stamped (some (k, _)) => keyOverlaps asid place k
    | _ => false

/-- R154: the waits at a core that a cancel names, or at every core. -/
def State.cancelled (s : State) (asid place : Nat) (core block : Option Nat) : List Nat :=
  (s.waits.filter fun e =>
    (match core with | some c => (s.warp e.2.warp).core == c | none => true)
      && (match block with | some b => (s.warp e.2.warp).block == b | none => true)
      && s.cancels asid place e.1 e.2.kind).map (·.1)

/-- R154: the cancel at the cores: the waits that it names complete with false. -/
def State.cancelWaits (s : State) (asid place : Nat) (core block : Option Nat) : State :=
  (s.cancelled asid place core block).foldl (fun s id => (s.withdrawWait id).endCmp id false) s

/-- R154: the cancel at FE: the waits of saved blocks. -/
def State.cancelSaved (s : State) (asid place : Nat) (block : Option Nat) : State :=
  let ids := s.fe.saved.flatMap fun e =>
    if (match block with | some b => e.2.block == b | none => true) then
      (e.2.waits.filter fun w => s.cancels asid place w.1 w.2.kind).map (·.1) else []
  ((s.savedOn (keyOverlaps asid place)).filter ids.contains).foldl (fun s id => s.wakeSaved id false) s

/-- MONITOR_CANCEL (R154): the waits at one agent complete with false, and the agent acknowledges. With the last acknowledgement
the cancel has reached every wait, those too that have changed agents meanwhile (R150). -/
def monitorCancel (wait asid place : Nat) (block : Option Nat) (agent : Nat) (s : State) : State :=
  let s1 := if agent = 144 then s.cancelSaved asid place block else s.cancelWaits asid place (some agent) block
  match Tab.find s1.waits wait with
  | some r =>
    match r.kind with
    | .moncan left =>
      if left ≤ 1 then ((s1.cancelWaits asid place none block).cancelSaved asid place block).completeWait wait
      else { s1 with waits := Tab.upd s1.waits wait fun r => { r with kind := .moncan (left - 1) } }
    | _ => s1
  | none => s1

/-! ## Meanings -/

/-- LATOM (R142). -/
def execLatom (g : Guard) (i : BitVec 5) (a : BitVec 6) (d : BitVec 6) (s : State) : Host.Outcome State Fault Refusal :=
  .next (latomOp (Instr.latom g i a d) true s)

/-- LATOM_X (R142). -/
def execLatomX (g : Guard) (x : XForm) (s : State) : Host.Outcome State Fault Refusal :=
  .next (latomOp (Instr.latomX g x) true s)

/-- LATOMS (R142). -/
def execLatoms (g : Guard) (x : XForm) (s : State) : Host.Outcome State Fault Refusal :=
  .next (latomOp (Instr.latoms g x) false s)

/-- ROUTINE_INVOCATION (R126). -/
def execRoutineInvocation (v : Invocation) (s : State) : Host.Outcome State Fault Refusal :=
  .next (Sys2Proof.Machine.routineInvocation v s)

/-- ROUTINE_RETURN (R142). -/
def execRoutineReturn (r : RtReturn) (s : State) : Host.Outcome State Fault Refusal :=
  .next (Sys2Proof.Machine.routineReturn r s)

/-- RTINST (R145). -/
def execRtinst (g : Guard) (x : XForm) (s : State) : Host.Outcome State Fault Refusal :=
  .next (rtOp (Instr.rtinst g x) true s)

/-- RTREM (R145). -/
def execRtrem (g : Guard) (x : XForm) (s : State) : Host.Outcome State Fault Refusal :=
  .next (rtOp (Instr.rtrem g x) false s)

/-- RTINST_EXECUTION (R139). -/
def execRtinstExecution (req : Nat) (s : State) : Host.Outcome State Fault Refusal :=
  .next (Sys2Proof.Machine.rtinstExecution req s)

/-- WAITCMP (R153). -/
def execWaitcmp (g : Guard) (b : BitVec 5) (a : BitVec 6) (d : BitVec 3) (s : State) : Host.Outcome State Fault Refusal :=
  .next (waitcmpOp (Instr.waitcmp g b a d) s)

/-- WAITCMP_X (R153). -/
def execWaitcmpX (g : Guard) (x : XForm) (s : State) : Host.Outcome State Fault Refusal :=
  .next (waitcmpOp (Instr.waitcmpX g x) s)

/-- MONITOR_WAKE (R147). -/
def execMonitorWake (key : MonKey) (agent : Nat) (result : Bool) (s : State) : Host.Outcome State Fault Refusal :=
  .next (Sys2Proof.Machine.monitorWake key agent result s)

/-- MONITOR_POLL (R148). -/
def execMonitorPoll (wait : Nat) (s : State) : Host.Outcome State Fault Refusal :=
  .next (Sys2Proof.Machine.monitorPoll wait s)

/-- WAIT_TIMEOUT (R153). -/
def execWaitTimeout (wait : Nat) (s : State) : Host.Outcome State Fault Refusal :=
  .next (Sys2Proof.Machine.waitTimeout wait s)

/-- MONCAN (R154). -/
def execMoncan (g : Guard) (a : BitVec 6) (s : State) : Host.Outcome State Fault Refusal :=
  .next (moncanOp (Instr.moncan g a) s)

/-- MONCAN_X (R154). -/
def execMoncanX (g : Guard) (x : XForm) (s : State) : Host.Outcome State Fault Refusal :=
  .next (moncanOp (Instr.moncanX g x) s)

/-- MONITOR_CANCEL (R154). -/
def execMonitorCancel (wait : Nat) (asid : Nat) (pa : Nat) (block : Option Nat) (agent : Nat) (s : State) : Host.Outcome State Fault Refusal :=
  .next (Sys2Proof.Machine.monitorCancel wait asid pa block agent s)

end Sys2Proof.Machine
end

