-- ==== Sys2Proof/Machine/Fence.lean ====
section
/-! DEFINITION. Fences and the replication degree as programs reach them (12, R311 to R318). -/

namespace Sys2Proof.Machine

/-! ## FENCE (R313 to R316) -/

/-- A load, window read or LATOM return of a warp, or of one of its lanes, that has not completed (R315). -/
def loadOf (m : Msg) : Option (Nat × Nat) :=
  match m with
  | .sliceRead r => some (r.warp, r.lane)
  | .vclassWriteBack wb => match wb.src with
    | .ring .. => none
    | _ => some (wb.warp, wb.lane)
  | .routineInvocation v => if v.ret.isSome then some (v.warp, v.lane) else none
  | .routineReturn r => if r.inv.ret.isSome then some (r.inv.warp, r.inv.lane) else none
  | _ => none

/-- A line with a LATOM return that waits for its collapse. -/
def State.returnsAt (s : State) (w : Nat) (lane : Option Nat) : Bool :=
  s.lines.any fun e => e.2.waiters.any fun x => match x.1 with
    | .invocation v _ => v.ret.isSome && v.warp == w && (lane.isNone || lane == some v.lane)
    | _ => false

/-- R315: whether the loads of a warp, or of one of its lanes, have completed. -/
def State.loadsDone (s : State) (w : Nat) (lane : Option Nat) : Bool :=
  (s.net.all fun m => match loadOf m with
    | some (v, l) => v != w || (lane.isSome && lane != some l)
    | none => true) && !s.returnsAt w lane

/-- R315: the loads of M: at lane scope those of the issuing thread. -/
def State.fenceLoadsDone (s : State) (lane : Bool) (ts : List TRef) : Bool :=
  if lane then ts.all fun t => s.loadsDone t.warp (some t.lane)
  else (ts.map TRef.warp).dedup.all fun w => s.loadsDone w none

/-- R284: warps have acquired the scratchpad writes of their block that have been released. -/
def State.acquireRaces (s : State) (ms : List Nat) : State :=
  (s.blocksOf ms).foldl (fun s b => s.mapRaces b fun r =>
    if r.released then { r with acquired := (r.acquired ++ ms).dedup } else r) s

/-- R315: the L1s of M's cores lose every line, but at .blk for a block of one core without a warp in a cairn slot. -/
def State.acquire (s : State) (ms : List Nat) (sc : MemScope) : State :=
  let b := s.block (s.warp (ms.headD 0)).block
  if sc ≠ .blk ∨ 1 < b.places.length ∨ b.warps.any (fun w => (s.warp w).slot = 12 && !(s.warp w).freed) then
    ((ms.map fun m => (s.warp m).core).dedup).foldl (fun s c => s.setCore c fun co => { co with l1 := [] }) (s.acquireRaces ms)
  else s.acquireRaces ms

/-- R314: the kind of K. -/
def fenceKind (k : Nat) : Nat := k % 4

/-- Whether a waiting fence is of lane scope: K has a further bit in its record. -/
def fenceLane (k : Nat) : Bool := k.testBit 6

/-- FENCE in a thread, or once for its members (R315, R316): a waiting fence holds its threads. -/
def fenceEff (f : Form) (lane : Bool) (ms : TRef → State → List TRef) (t : TRef) (_ : Operands) (s : State) : Eff :=
  let k := f.x.sub.toNat
  let ts := ms t s
  let code := k + (if lane then 64 else 0)
  let id := s.nextId
  let again (kind : WaitKind) : Eff := .held ((s.park kind t.warp ts).send (.fenceReleaseCompletion id))
  if fenceKind k = 1 then
    if s.fenceLoadsDone lane ts then .done (s.acquire (ts.map TRef.warp).dedup (fenceScope k)) else again (.fence code 2 none)
  else again (.fence code 0 (s.fenceDue id (ts.map TRef.warp).dedup (fenceScope k)))

/-- FENCE (R315). -/
def fenceOp (i : Instr) (s : State) : State :=
  let f := i.form
  if f.g.scope = .lane then s.eachThread i (fenceEff f true fun t _ => [t])
  else s.onceFor i (fenceEff f false fun _ s => s.cur.group)

/-- R315: the release part has ended: common time on the die of M has passed t + PKSKEW. -/
def State.released (s : State) (r : WaitRec) : Bool :=
  match r.kind with
  | .fence _ _ (some t) => decide (t + s.pkskew ≤ (s.common (dieOfCore (s.warp r.warp).core)).toNat)
  | _ => false

/-- A waiting fence in a later part. -/
def State.fencePart (s : State) (id k part : Nat) : State :=
  { s with waits := Tab.upd s.waits id fun r => { r with kind := .fence k part none } }

/-- R284: warps have released their scratchpad writes to their block. -/
def State.releaseRaces (s : State) (ws : List Nat) : State :=
  (s.blocksOf ws).foldl (fun s b => s.mapRaces b fun r =>
    if r.token.isNone && r.warps.any ws.contains then { r with released := true } else r) s

/-- R315: the acquire part, once its loads have completed; the fence completes with it. -/
def State.fenceAcquire (s : State) (id : Nat) (r : WaitRec) (k : Nat) : State :=
  if s.fenceLoadsDone (fenceLane k) r.members then (s.acquire r.warps (fenceScope k)).completeWait id
  else s.keep (.fenceReleaseCompletion id)

/-- FENCE_RELEASE_COMPLETION (R315): the release part of a fence ends; a fence in its acquire part completes with its loads. -/
def fenceReleaseCompletion (wait : Nat) (s : State) : State :=
  match Tab.find s.waits wait with
  | none => s
  | some r =>
    match r.kind with
    | .fence k 0 _ =>
      if !s.released r then s.keep (.fenceReleaseCompletion wait)
      else
        let s1 := s.releaseRaces r.warps
        match fenceKind k with
        | 0 => s1.completeWait wait
        | 3 => (s1.fencePart wait k 1).send (.scOrderGrant wait)
        | _ => (s1.fencePart wait k 2).fenceAcquire wait r k
    | .fence k 2 _ => s.fenceAcquire wait r k
    | _ => s

/-- R316: the releases whose time has come end with the clock that reaches it. -/
def State.endReleases (s : State) : State :=
  (s.waits.filter fun e => (match e.2.kind with | .fence _ 0 _ => true | _ => false) && s.released e.2).foldl
    (fun s e => fenceReleaseCompletion e.1 s) s

/-- R315: the order point of a fence's instance. -/
def State.orderPoint (s : State) (r : WaitRec) (sc : MemScope) : Nat :=
  match sc with
  | .dev => 0
  | .sys => 1
  | .blk => 2 + (s.warp r.warp).block

/-- SC_ORDER_GRANT (R315): the order point grants the next position in S; the acquire part follows. -/
def scOrderGrant (wait : Nat) (s : State) : State :=
  match Tab.find s.waits wait with
  | none => s
  | some r =>
    match r.kind with
    | .fence k 1 _ =>
      let p := s.orderPoint r (fenceScope k)
      let s1 := { s with fe := { s.fe with scOrder := SMap.set 0 s.fe.scOrder p (SMap.get 0 s.fe.scOrder p + 1) } }
      (s1.fencePart wait k 2).fenceAcquire wait r k
    | _ => s

/-! ## RDEG (R317, R318) -/

/-- R318: the status word. -/
def State.rdegStatus (s : State) (asid region status : Nat) : DWord :=
  let frz := if s.mem.frz then 2 ^ 8 else 0
  match s.keepers.find? fun k => k.asid == asid && k.region == region with
  | some k => BitVec.ofNat 64 (frz + 2 ^ 5 * status + (if k.pin then 8 else 0) + k.deg)
  | none => BitVec.ofNat 64 (frz + 2 ^ 5 * status + 16)

/-- RDEG (R112, R318). -/
def rdegOp (i : Instr) (s : State) : State :=
  let f := i.form
  s.onceFor i fun ld o s =>
    let asid := (s.warp ld.warp).asid
    let region := regionOf o.a
    let put (s : State) (status : Nat) : Eff :=
      match f.x.dst with
      | .uni n =>
        let frz : DWord := if s.mem.frz then 256 else 0
        .done (s.writeNow ld.warp [(.uni (n.toNat % 32), if status = 2 then frz ||| 64 else s.rdegStatus asid region status)])
      | _ => .done s
    if f.x.sub = 1 ∧ 7 < (o.b.setWidth 32).toNat then .fault s.illegal
    else if o.a.toNat ≥ 2 ^ 48 then put s 2
    else match f.x.sub.toNat with
      | 0 => put s 0
      | 1 =>
        let (s1, ok) := s.pinRegion asid region (o.b.setWidth 32).toNat
        put s1 (if ok then 0 else 1)
      | _ => put (s.unpinRegion asid region) 0

/-! ## Meanings -/

/-- FENCE (R315). -/
def execFence (g : Guard) (k : BitVec 4) (s : State) : Host.Outcome State Fault Refusal :=
  .next (fenceOp (Instr.fence g k) s)

/-- FENCE_X (R314). -/
def execFenceX (g : Guard) (x : XForm) (s : State) : Host.Outcome State Fault Refusal :=
  .next (fenceOp (Instr.fenceX g x) s)

/-- FENCE_RELEASE_COMPLETION (R315). -/
def execFenceReleaseCompletion (wait : Nat) (s : State) : Host.Outcome State Fault Refusal :=
  .next (Sys2Proof.Machine.fenceReleaseCompletion wait s)

/-- SC_ORDER_GRANT (R315). -/
def execScOrderGrant (wait : Nat) (s : State) : Host.Outcome State Fault Refusal :=
  .next (Sys2Proof.Machine.scOrderGrant wait s)

/-- RDEG (R318). -/
def execRdeg (g : Guard) (x : XForm) (s : State) : Host.Outcome State Fault Refusal :=
  .next (rdegOp (Instr.rdeg g x) s)

end Sys2Proof.Machine
end

