-- ==== Sys2Proof/Machine/Flits.lean ====
section
/-! DEFINITION. Kwaden flits and ports (16, R405 to R407, R410): the flit's bytes, sealing and the replay buffer, key
rollover, and a port going down or up. -/

namespace Sys2Proof.Machine

def State.port (s : State) (p : Nat) : Port := (Tab.find s.hk.ports p).getD Port.reset

def State.setPort (s : State) (p : Nat) (f : Port → Port) : State :=
  { s with hk := { s.hk with ports := Tab.put s.hk.ports p (f (s.port p)) } }

/-! ## Flits (R405, R407) -/

/-- R405: bytes 0 to 7. -/
def flitHeader (seq : Nat) (kgen enc : Bool) (type len : Nat) : List Byte :=
  leBytes 8 (len % 2 ^ 8 + 2 ^ 8 * (type % 2 ^ 8) + 2 ^ 22 * enc.toNat + 2 ^ 23 * kgen.toNat + 2 ^ 24 * (seq % 2 ^ 40))

/-- R405: the payload area. -/
def flitPayload (p : List Byte) : List Byte := (p ++ List.replicate 224 0).take 224

/-- R405: bytes 0x00 to 0xF7. -/
def flitBytes (f : Flit) : List Byte :=
  flitHeader f.seq f.kgen f.enc f.type f.len ++ flitPayload f.payload ++ leBytes 16 f.tag.toNat

/-- R407: the nonce: the seal counter, the sending end's port, the direction. -/
def linkNonce (counter port dir : Nat) : List Byte := leBytes 8 counter ++ [BitVec.ofNat 8 port, BitVec.ofNat 8 dir, 0, 0]

/-- R407: the direction of flits that this end of a port's link sends, or receives. -/
def linkDir (p : Nat) (sends : Bool) : Nat := if Config.linkEnd p = sends then 1 else 0

/-- R407: the tag of a flit: the header is the additional data. The keys of a link's two directions are told apart by `p`
and 12 + `p`. -/
def sentTag (p gen counter : Nat) (header payload : List Byte) : BitVec 128 :=
  Config.gcmTag p gen counter (linkNonce counter p (linkDir p true) ++ header ++ flitPayload payload)

def receivedTag (p far gen counter : Nat) (header payload : List Byte) : BitVec 128 :=
  Config.gcmTag (12 + p) gen counter (linkNonce counter far (linkDir p false) ++ header ++ flitPayload payload)

/-- R406: the flits that a replay buffer holds. -/
def replayFlits : Nat := 512

/-- A port that can take a new flit: up, with room to keep it, under a key that may seal it (R406, R407). -/
def State.portReady (s : State) (p : Nat) : Bool :=
  (s.port p).st == 2 && decide ((s.port p).buffer.length < replayFlits) && decide ((s.port p).sealSend + 1 < 2 ^ 48)

/-- R406, R407: a flit numbered, sealed and sent; every flit is sealed (log 20). -/
def State.sendFlit (s : State) (p type : Nat) (payload : List Byte) : State :=
  let po := s.port p
  let len := (payload.length + 7) / 8
  let kg := po.keygen % 2 == 1
  let tag := sentTag p po.keygen po.sealSend (flitHeader po.seqSend kg true type len) payload
  let f0 : Flit := ⟨po.seqSend, kg, true, type, len, payload, tag, 0⟩
  let f : Flit := { f0 with crc := Config.crc64 (flitBytes f0) }
  let s1 := s.setPort p fun po =>
    { po with seqSend := (po.seqSend + 1) % 2 ^ 40, sealSend := po.sealSend + 1, buffer := po.buffer ++ [f] }
  if po.sealSend + 1 = 2 ^ 48 - 2 ^ 16 then s1.send (.forcedRollover p) else s1

/-! ## Acknowledgement, replay and rollover (R406, R407) -/

/-- R407: the old key retires once no flit sent under it waits. -/
def Port.retire (po : Port) : Port :=
  if po.buffer.any fun f => f.kgen != (po.keygen % 2 == 1) then po else { po with roll := 0 }

/-- FLIT_ACK (R406, R407): the flits up to a SEQ leave the replay buffer. -/
def flitAck (p seq : Nat) (s : State) : State :=
  s.setPort p fun po =>
    if po.buffer.any fun f => f.seq == seq then
      Port.retire { po with buffer := (po.buffer.dropWhile fun f => f.seq != seq).drop 1, resent := 0 }
    else po

/-- R407: the next key generation. -/
def Port.rollover (po : Port) : Port := Port.retire { po with keygen := po.keygen + 1, sealSend := 0, roll := 1 }

/-- LINK_ROLLOVER (R407, R410): refused with BUSY while the old key is not retired. -/
def linkRollover (p : Nat) (s : State) : State :=
  if 12 ≤ p ∨ (s.port p).st ≠ 2 then s
  else s.setPort p fun po => if po.roll = 0 then po.rollover else { po with roll := 2 }

/-- FORCED_ROLLOVER (R407): the device's own, once the last one has retired its old key. -/
def forcedRollover (p : Nat) (s : State) : State :=
  if (s.port p).st ≠ 2 then s
  else if (s.port p).roll = 0 then s.setPort p Port.rollover else s.hold (.forcedRollover p)

/-! ## Ports (R406, R410, R415) -/

/-- R190, R406: the remote reads in flight on a port complete with PEER. -/
def State.endRemote (s : State) (p : Nat) : State :=
  let mine := s.fe.xreads.filter fun x => x.kind == 2 && x.target == p && x.status == 0
  let s1 := { s with fe := { s.fe with xreads := s.fe.xreads.map fun x =>
    if x.kind = 2 ∧ x.target = p ∧ x.status = 0 then { x with status := 6 } else x } }
  mine.foldl (fun s x => s.send (.xreadCompletionWord x.id)) s1

/-- PORT_DOWN (R406, R410). -/
def portDown (p : Nat) (s : State) : State :=
  if 12 ≤ p ∨ (s.port p).st = 3 then s
  else (s.setPort p fun po => { Port.reset with replay := po.replay, keygen := po.keygen }).endRemote p

/-- PORT_UP (R410, R415): training; a port that the record disables stays so, one whose training fails is down. -/
def portUp (p : Nat) (s : State) : State :=
  if 12 ≤ p ∨ (s.port p).st = 2 then s
  else s.setPort p fun po =>
    let clear : Port := { Port.reset with replay := po.replay, keygen := po.keygen }
    if !Config.linkEnabled p then { clear with st := 3 }
    else if !Config.linkTrains p then { clear with st := 0 }
    else { clear with st := 2, rport := Config.farPort p % 16, recvGen := po.recvGen }

/-- R406: a saturating count of replays. -/
def Port.countReplay (po : Port) : Port := { po with replay := min (2 ^ 32 - 1) (po.replay + 1) }

/-- R406: the far end asks for a replay: the buffer is sent again as it was first sealed; the 16th in a row takes the
port down. -/
def State.replayFrom (s : State) (p : Nat) : State :=
  let s1 := s.setPort p fun po => { po.countReplay with resent := po.resent + 1 }
  if 16 ≤ (s1.port p).resent then portDown p s1 else s1

/-! ## Meanings -/

/-- FLIT_ACK (R406). -/
def execFlitAck (port : Nat) (seq : Nat) (s : State) : Host.Outcome State Fault Refusal :=
  .next (Sys2Proof.Machine.flitAck port seq s)

/-- LINK_ROLLOVER (R407). -/
def execLinkRollover (port : Nat) (s : State) : Host.Outcome State Fault Refusal :=
  .next (Sys2Proof.Machine.linkRollover port s)

/-- FORCED_ROLLOVER (R407). -/
def execForcedRollover (port : Nat) (s : State) : Host.Outcome State Fault Refusal :=
  .next (Sys2Proof.Machine.forcedRollover port s)

/-- PORT_DOWN (R410). -/
def execPortDown (port : Nat) (s : State) : Host.Outcome State Fault Refusal :=
  .next (Sys2Proof.Machine.portDown port s)

/-- PORT_UP (R410). -/
def execPortUp (port : Nat) (s : State) : Host.Outcome State Fault Refusal :=
  .next (Sys2Proof.Machine.portUp port s)

end Sys2Proof.Machine
end

