-- ==== Sys2Proof/Machine/External.lean ====
section
/-! DEFINITION. External reads (07, R187 to R194): XREAD, the external read engine with its NVMe commands and remote reads,
the completion word, the peer window (16, R402), remote reads served to a peer (16, R408), the attachment table, and flits
as they arrive (16, R406). -/

namespace Sys2Proof.Machine

/-! ## XREAD (R188, R189) -/

/-- The 64 KiB pages of a range, each by the first byte touched in it. -/
def touchedPages (va n : Nat) : List Nat :=
  if n = 0 then []
  else (List.range ((va % 65536 + n + 65535) / 65536)).map fun i => if i = 0 then va else va / 65536 * 65536 + 65536 * i

/-- R77, R78: pages translated in turn by a core; the first that fails gives the fault. -/
def State.xlatePages (s : State) (core asid : Nat) (r w : Bool) : List Nat → Except Report State
  | [] => .ok s
  | va :: rest =>
    let (e, s1) := s.xlate core asid (BitVec.ofNat 64 va)
    match xlateCause e r w false with
    | some c => .error (report clsLease c (BitVec.ofNat 64 va))
    | none => State.xlatePages s1 core asid r w rest

/-- XREAD (R189). -/
def xreadOp (i : Instr) (s : State) : State :=
  let f := i.form
  s.onceFor i fun ld o s =>
    let wp := s.warp ld.warp
    let n := srcUni f.x.a
    let wa := wp.ureg n
    let cw := wp.ureg (n + 1)
    let len := (wa.extractLsb' 32 32).toNat
    if cw.extractLsb' 0 3 ≠ 0 then .fault (report clsMisaligned 0 cw)
    else match s.xlatePages wp.core wp.asid false true (touchedPages cw.toNat 8 ++ touchedPages o.c.toNat len) with
      | .error r => .fault r
      | .ok s1 =>
        if Config.xreadsPerCore ≤ (s1.fe.xreads.filter fun x => x.core == wp.core).length
          ∨ Config.xreadsAtFe ≤ s1.fe.xreads.length then .retry
        else
          let id := s1.nextId
          let x : Xread := {
            id := id, warp := ld.warp, grid := wp.grid, core := wp.core, asid := wp.asid, gen := s1.genAt wp.core wp.asid
            ep := (wa.extractLsb' 0 32).toNat, len := len, cw := cw, ofs := o.b, dst := o.c
            kind := 0, target := 0, start := s1.now, status := 0, detail := 0, bytes := 0, cmds := [], outstanding := 0, gwct := 0
            entry := [] }
          let s2 := { s1.fresh with fe := { s1.fe with xreads := s1.fe.xreads ++ [x] } }
          .done (({ s2 with grids := Tab.upd s2.grids wp.grid fun g => { g with xreads := g.xreads + 1 } }).send (.xreadEngineStart id))

/-! ## The engine (R187, R190, R193) -/

def State.xread (s : State) (id : Nat) : Option Xread := s.fe.xreads.find? fun x => x.id == id

def State.setXread (s : State) (id : Nat) (f : Xread → Xread) : State :=
  { s with fe := { s.fe with xreads := s.fe.xreads.map fun x => if x.id = id then f x else x } }

/-- An endpoint table entry (R187). -/
structure Endpoint where
  kind : Nat
  flags : Nat
  target : Nat
  nsid : Nat
  base : Nat
  limit : Nat
  lbash : Nat
  pad : Nat
  deriving DecidableEq, Repr

def Endpoint.ofBytes (e : List Byte) : Endpoint :=
  let f (o n : Nat) : Nat := ofLeBytes ((e.drop o).take n)
  ⟨f 0 1, f 1 1, f 2 2, f 4 4, f 8 8, f 0x10 8, f 0x18 1, f 0x19 7⟩

/-- R187, R190: an entry that keeps the rules of its table. -/
def Endpoint.ok (e : Endpoint) : Bool :=
  e.flags == 1 && e.pad == 0
    && (if e.kind = 1 then decide (9 ≤ e.lbash ∧ e.lbash ≤ 16) else e.kind == 2 && decide (e.nsid < 4096) && e.lbash == 0)

/-- The VA of an endpoint's entry; none where the address space has none (R187, R190). -/
def State.endpointVa (s : State) (x : Xread) : Option Nat :=
  let a := s.asid x.asid
  if a.eptab = 0 ∨ a.eptn ≤ x.ep then none else some (a.eptab.toNat + 32 * x.ep)

/-- R190 step 1: the bytes of the entry of an XREAD's endpoint: those it was checked by, once it has started. -/
def State.entryBytes (s : State) (x : Xread) : Option (List Byte) :=
  if x.kind ≠ 0 then some x.entry
  else match s.endpointVa x with
    | none => none
    | some va => s.engineRead x.asid x.gen Config.feDie va 32

/-- R190 step 1: the entry of an XREAD's endpoint. -/
def State.endpoint (s : State) (x : Xread) : Option Endpoint :=
  match s.entryBytes x with
  | none => none
  | some bs =>
    let e := Endpoint.ofBytes bs
    if !e.ok then none
    else if e.kind = 1 ∧ (Tab.find s.fe.attached e.target).isNone then none
    else some e

/-- R80, R95: the entry's line as the engine reaches it; false while it must be waited for. -/
def State.entryReach (s : State) (x : Xread) : State × Bool :=
  match s.endpointVa x with
  | some va => if x.kind = 0 then s.reachSpans x.asid x.gen Config.feDie false [(va, 32)] else (s, true)
  | none => (s, true)

/-- R190: the status of the first failed check; 0 where the read may start. -/
def Endpoint.check (e : Endpoint) (x : Xread) : Nat :=
  if e.limit < x.ofs.toNat + x.len then 3
  else if e.kind = 1 ∧ (x.ofs.toNat % 2 ^ e.lbash ≠ 0 ∨ x.len % 2 ^ e.lbash ≠ 0 ∨ x.dst.toNat % 4 ≠ 0) then 4
  else 0

/-- An attachment descriptor's fields (R191). -/
def Attachment.field (a : Attachment) (o n : Nat) : Nat := ofLeBytes ((a.desc.drop o).take n)

/-- R190, R191: the bytes of one command: MDTS pages of the size in MPS, and the 65,536 logical blocks that a command can
count; at least one block. -/
def Attachment.chunk (a : Attachment) (lbash : Nat) : Nat :=
  let mdts := a.field 0x1D 1
  let most := 65536 * 2 ^ lbash
  if mdts = 0 then most else max (2 ^ lbash) (min most (2 ^ (mdts + 12 + a.field 0x1E 1)))

/-- R402: the pages of the peer window. -/
def peerPages : Nat := 2 ^ 22

/-- The lowest run of `n` unassigned pages (log 21). -/
def State.peerRun (s : State) (n : Nat) : Option Nat :=
  let starts := 0 :: s.fe.peers.map fun p => p.1 + 1
  let ok (i : Nat) : Bool := decide (i + n ≤ peerPages) && s.fe.peers.all fun p => decide (p.1 < i) || decide (i + n ≤ p.1)
  (starts.filter ok).foldl (fun (a : Option Nat) i => match a with
    | some j => some (min i j)
    | none => some i) none

/-- R402: 4 KiB stretches that a destination touches. -/
def Xread.stretches (x : Xread) : List Nat :=
  (List.range ((x.dst.toNat % 4096 + x.len + 4095) / 4096)).map fun i => x.dst.toNat / 4096 + i

/-- R402: pages of the peer window assigned to an XREAD's destination; none where too few are free. -/
def State.assignPeers (s : State) (x : Xread) : Option State :=
  if s.fe.peers.any fun p => p.2.1 == x.id then some s
  else match s.peerRun x.stretches.length with
    | none => none
    | some i =>
      some { s with fe := { s.fe with peers := s.fe.peers ++ x.stretches.zipIdx.map fun e => (i + e.2, x.id, e.1) } }

/-- R191, log 21: a submission entry: an NVMe Read of a range of logical blocks, its data pointer in the peer window. -/
def submission (nsid cid slba blocks prp1 prp2 : Nat) : List Byte :=
  leBytes 4 (0x02 + 2 ^ 16 * (cid % 2 ^ 16)) ++ leBytes 4 nsid ++ leBytes 16 0 ++ leBytes 8 prp1 ++ leBytes 8 prp2
    ++ leBytes 8 slba ++ leBytes 4 (blocks - 1) ++ leBytes 12 0

/-- The bus address of a byte of an XREAD's destination in the peer window. -/
def State.peerAddr (s : State) (x : Xread) (va : Nat) : Nat :=
  match s.fe.peers.find? fun p => p.2.1 == x.id && p.2.2 == va / 4096 with
  | some p => Config.peerBase + 4096 * p.1 + va % 4096
  | none => 0

/-- R190, R191: a command issued on a controller's queue: its submission entry written at SQADDR. -/
def State.issueCommand (s : State) (x : Xread) (e : Endpoint) (a : Attachment) (offset bytes : Nat) : State :=
  let cid := a.tail % 65536
  let va := x.dst.toNat + offset
  let next := (va / 4096 + 1) * 4096
  let last := va + bytes - 1
  let (list, s0) := s.free
  let prp2 := if last < next then 0 else if last / 4096 = va / 4096 + 1 then s.peerAddr x next else list.toNat
  let s1 := if last < next ∨ last / 4096 = va / 4096 + 1 then s else s0
  let entry := submission e.nsid cid (e.base + (x.ofs.toNat + offset) / 2 ^ e.lbash) (bytes / 2 ^ e.lbash) (s.peerAddr x va) prp2
  let s2 := s1.poke true (a.field 8 8 + 64 * (a.tail % (a.field 0x1A 2 + 1))) entry
  let s3 := { s2 with fe := { s2.fe with attached := Tab.put s2.fe.attached e.target { a with tail := a.tail + 1 } } }
  s3.setXread x.id fun x => { x with cmds := x.cmds ++ [⟨cid, offset, bytes, s.now, false⟩] }

/-- Bytes of an XREAD for which commands have been issued. -/
def Xread.issued (x : Xread) : Nat := (x.cmds.map NvCommand.bytes).foldl (· + ·) 0

/-- Commands outstanding on a controller. -/
def State.onController (s : State) (target : Nat) : Nat :=
  ((s.fe.xreads.filter fun x => x.kind == 1 && x.target == target).flatMap fun x => x.cmds.filter fun c => !c.done).length

/-- R190: commands issued while the queue has room; false where some are left. -/
def State.issueCommands (s : State) (id : Nat) (e : Endpoint) : Nat → State × Bool
  | 0 => (s, false)
  | fuel + 1 =>
    match s.xread id, Tab.find s.fe.attached e.target with
    | some x, some a =>
      let done := x.issued
      if x.len ≤ done then (s, true)
      else if a.field 0x1A 2 ≤ s.onController e.target then (s, false)
      else State.issueCommands (s.issueCommand x e a done (min (a.chunk e.lbash) (x.len - done))) id e fuel
    | _, _ => (s, true)

/-- The end of an XREAD with a status. -/
def State.endXread (s : State) (id status : Nat) : State :=
  (s.setXread id fun x => { x with status := status, bytes := 0 }).send (.xreadCompletionWord id)

/-- R190, R408, log 21: a remote read asked of the peer. -/
def State.askPeer (s : State) (x : Xread) (e : Endpoint) : State :=
  if 12 ≤ e.target ∨ (s.port e.target).st ≠ 2 then s.endXread x.id 6
  else if !s.portReady e.target then s.hold (.xreadEngineStart x.id)
  else
    ((s.setXread x.id fun x => { x with kind := 2, target := e.target }).setPort e.target fun po =>
      { po with reads := po.reads ++ [(x.id, x.len)] }).sendFlit e.target 1
      (leBytes 8 e.nsid ++ leBytes 8 (e.base + x.ofs.toNat) ++ leBytes 8 x.len)

/-- R190, R191: an NVMe read started or gone on with: the peer window's pages, and the commands that the queue has room for. -/
def State.startNvme (s : State) (x : Xread) (e : Endpoint) : State :=
  match s.assignPeers x with
  | none => s.hold (.xreadEngineStart x.id)
  | some s1 =>
    let entry := (s.entryBytes x).getD []
    let s2 := s1.setXread x.id fun x => { x with kind := 1, target := e.target, entry := entry }
    let s3 := if x.kind = 0 then s2.send (.xreadTimeout x.id) else s2
    let (s4, all) := s3.issueCommands x.id e (x.len + 1)
    if all then s4 else s4.hold (.xreadEngineStart x.id)

/-- R190: an XREAD whose endpoint's entry has been reached: the checks in their order, and the transfer. -/
def State.startXread (s : State) (x : Xread) : State :=
  match s.endpoint x with
  | none => s.endXread x.id 2
  | some e =>
    let c := if x.kind = 0 then e.check x else 0
    if c ≠ 0 then s.endXread x.id c
    else if x.len = 0 then s.endXread x.id 0
    else if e.kind = 2 then s.askPeer x e
    else s.startNvme x e

/-- XREAD_ENGINE_START (R189, R190, R191): the endpoint's checks, and the commands or the remote read. -/
def xreadEngineStart (id : Nat) (s : State) : State :=
  match s.xread id with
  | none => s
  | some x =>
    if x.status ≠ 0 then s
    else if x.kind = 0 ∧ !s.writtenBefore [x.warp] id then s.hold (.xreadEngineStart id)
    else match s.entryReach x with
      | (s1, false) => s1.hold (.xreadEngineStart id)
      | (s1, true) => s1.startXread x

/-- R190: an XREAD whose commands have all ended completes, once it has failed or every command was issued. -/
def State.settleXread (s : State) (id : Nat) : State :=
  match s.xread id with
  | none => s
  | some x =>
    if x.kind = 1 ∧ x.cmds.all (·.done) ∧ (x.status ≠ 0 ∨ x.len ≤ x.issued) ∧ x.status ≠ 1 then s.send (.xreadCompletionWord id) else s

/-- NVME_COMPLETION (R190): the completion entry of a command. -/
def nvmeCompletion (id cid : Nat) (status : BitVec 16) (s : State) : State :=
  match s.xread id with
  | none => s
  | some x =>
    match x.cmds.find? fun c => c.cid == cid && !c.done with
    | none => s
    | some c =>
      (s.setXread id fun x => { x with
        cmds := x.cmds.map fun d => if d.cid = cid then { d with done := true } else d
        status := if status ≠ 0 ∧ x.status = 0 then 5 else x.status
        detail := if status ≠ 0 ∧ x.status = 0 then status.toNat else x.detail
        bytes := if status = 0 ∧ x.status ≠ 1 then x.bytes + c.bytes else x.bytes }).settleXread id

/-- R193: five seconds in ticks. -/
def nvmeTimeout : Nat := 5000000000

/-- XREAD_TIMEOUT (R193): a command without a completion for five seconds ends the XREAD with TIMEOUT. -/
def xreadTimeout (id : Nat) (s : State) : State :=
  match s.xread id with
  | none => s
  | some x =>
    let late (c : NvCommand) : Bool := !c.done && decide (c.start + nvmeTimeout ≤ s.now)
    if x.status = 1 then s
    else if x.cmds.any late then
      ((s.setXread id fun x => { x with
        cmds := x.cmds.map fun c => if late c then { c with done := true } else c
        status := if x.status = 0 then 7 else x.status }).settleXread id).send (.xreadTimeout id)
    else if x.cmds.all (·.done) && decide (x.len ≤ x.issued ∨ x.status ≠ 0) then s
    else s.hold (.xreadTimeout id)

/-- R193: the completion word. -/
def completionWord (x : Xread) : DWord :=
  BitVec.ofNat 64 (x.bytes % 2 ^ 40 + 2 ^ 40 * (x.detail % 2 ^ 16) + 2 ^ 56 * (x.status % 2 ^ 7) + 2 ^ 63)

/-- XREAD_COMPLETION_WORD (R189, R193): after every GWCT of the destination has passed, the word is written at .sys. -/
def xreadCompletionWord (id : Nat) (s : State) : State :=
  match s.xread id with
  | none => s
  | some x =>
    if x.outstanding ≠ 0 ∨ s.now < x.gwct.toNat + (if x.gwct = 0 then 0 else s.pkskew) then s.hold (.xreadCompletionWord id)
    else
      let s1 := match s.fePlace x.asid x.cw true with
        | some _ => s.feUpdate x.asid x.cw 8 (.put (completionWord x).toNat)
        | none => s.postEvent 2 0 x.cw (eventD1 x.asid x.gen 1)
      State.checkGrid { s1 with
        fe := { s1.fe with
          xreads := s1.fe.xreads.filter fun y => y.id != id
          peers := s1.fe.peers.filter fun p => p.2.1 != id }
        grids := Tab.upd s1.grids x.grid fun g => { g with xreads := g.xreads - 1 } } x.grid

/-- Where bytes at a VA fall within an XREAD's destination; beyond its length they are dropped (R402). -/
def Xread.share (x : Xread) (va : Nat) (bs : List Byte) : Nat × List Byte :=
  let skip := x.dst.toNat - va
  (va + skip, (bs.drop skip).take (x.dst.toNat + x.len - (va + skip)))

/-- R80, R95: the lines of an XREAD's data as the engine reaches them; false while one must be waited for. -/
def State.xreadReach (s : State) (ws : List (Nat × Nat × List Byte)) : State × Bool :=
  ws.foldl (fun (acc : State × Bool) w => match acc.1.xread w.1 with
    | none => acc
    | some x =>
      let p := x.share w.2.1 w.2.2
      let r := acc.1.reachSpans x.asid x.gen Config.feDie true [(p.1, p.2.length)]
      (r.1, acc.2 && r.2)) (s, true)

/-- R189: bytes of an XREAD's data written at a place of its destination. -/
def State.xreadWrite (s : State) (id : Nat) (va : Nat) (bs : List Byte) : State :=
  match s.xread id with
  | none => s
  | some x =>
    let p := x.share va bs
    if p.2.isEmpty then s
    else
      let s1 := s.setXread id fun x => { x with outstanding := x.outstanding + 1 }
      (s1.enginePiece x.asid x.gen Config.feDie (.xread id) p.1 (fun ofs d => lineWrite ofs p.2 d) p.2).1

/-- The writes made once their lines have been reached; none before. -/
def State.xreadWrites (s : State) (ws : List (Nat × Nat × List Byte)) : State × Bool :=
  match s.xreadReach ws with
  | (s1, false) => (s1, false)
  | (s1, true) => (ws.foldl (fun s w => s.xreadWrite w.1 w.2.1 w.2.2) s1, true)

/-- R402: what a write into the peer window names, piece by piece. -/
def State.peerPieces (s : State) (offset : Nat) (data : List Byte) : List (Nat × Nat × List Byte) :=
  (linePieces offset data).filterMap fun p =>
    (s.fe.peers.find? fun q => q.1 == p.1 / 4096).map fun q => (q.2.1, 4096 * q.2.2 + p.1 % 4096, p.2)

/-- PEER_WINDOW_WRITE (R402): a write into an assigned page lands in its destination. -/
def peerWindowWrite (offset : Nat) (data : List Byte) (s : State) : State :=
  match s.xreadWrites (s.peerPieces offset data) with
  | (s1, true) => s1
  | (s1, false) => s1.hold (.peerWindowWrite offset data)

/-! ## Remote reads (R190, R408) -/

/-- KWEXP entry `e`, word `k` (R409, R410). -/
def State.kwexp (s : State) (e k : Nat) : DWord := SMap.get 0 s.hk.kwexp (4 * e + k)

/-- R408: an export entry that covers a read on a port. -/
def State.exported (s : State) (port asid : Nat) (va : DWord) (len : Nat) : Bool :=
  (List.range 64).any fun e =>
    let w := s.kwexp e 0
    w.getLsbD 31 && (w.extractLsb' 0 12).toNat == asid && (w.extractLsb' 16 12).toNat.testBit port
      && decide ((s.kwexp e 1).toNat ≤ va.toNat) && decide (va.toNat + len ≤ (s.kwexp e 1).toNat + (s.kwexp e 2).toNat)

/-- REMOTE_READ_SERVE (R190, R408): the data in flits of up to 224 bytes; a refusal is a data flit without a payload
(log 21). -/
def remoteReadServe (port asid : Nat) (va : DWord) (len : Nat) (s : State) : State :=
  if (s.port port).st ≠ 2 then s
  else if !s.portReady port then s.hold (.remoteReadServe port asid va len)
  else
    let n := min 224 len
    if !s.exported port asid va len then s.sendFlit port 2 []
    else match s.feReach asid false [(va.toNat, n)] with
      | (s1, false) => s1.hold (.remoteReadServe port asid va len)
      | (s1, true) => match s1.feBytes asid va n with
        | none => s1.sendFlit port 2 []
        | some bs =>
          let s2 := s1.sendFlit port 2 bs
          if n < len then s2.hold (.remoteReadServe port asid (va + BitVec.ofNat 64 n) (len - n)) else s2

/-- R190: the pieces of remote data that the oldest remote read on a port receives. -/
def State.remotePieces (s : State) (p : Nat) (payload : List Byte) : List (Nat × Nat × List Byte) :=
  match (s.port p).reads with
  | [] => []
  | (id, left) :: _ => match s.xread id with
    | none => []
    | some x =>
      if x.status ≠ 0 ∨ payload.isEmpty then []
      else (linePieces (x.dst.toNat + x.bytes) (payload.take left)).map fun q => (id, q.1, q.2)

/-- R190: data, or a refusal, of the oldest remote read on a port (log 21), once the lines it is written to have been reached. -/
def State.remoteData (s : State) (p : Nat) (payload : List Byte) : State :=
  match (s.port p).reads with
  | [] => s
  | (id, left) :: rest =>
    let part := payload.take left
    let last := payload.isEmpty || decide (left ≤ payload.length)
    let s1 := s.setPort p fun po => { po with reads := if last then rest else (id, left - part.length) :: rest }
    match s1.xread id with
    | none => s1
    | some x =>
      if x.status ≠ 0 then s1
      else if payload.isEmpty then (s1.setXread id fun x => { x with status := 6 }).send (.xreadCompletionWord id)
      else
        let s2 := (s.remotePieces p payload).foldl (fun s w => s.xreadWrite w.1 w.2.1 w.2.2) s1
        let s3 := s2.setXread id fun x => { x with bytes := x.bytes + part.length }
        if last then s3.send (.xreadCompletionWord id) else s3

/-! ## Flits that arrive (R405 to R407) -/

/-- R407: the key generation of an arriving flit. -/
def Port.genOf (po : Port) (f : Flit) : Nat := if f.kgen = (po.recvGen % 2 == 1) then po.recvGen else po.recvGen + 1

/-- R406: a flit that passes its checks. -/
def State.flitOk (s : State) (p : Nat) (f : Flit) : Bool :=
  let po := s.port p
  let g := po.genOf f
  let counter := if g = po.recvGen then po.sealRecv else 0
  f.seq == po.seqExpect && f.crc == Config.crc64 (flitBytes f)
    && (!f.enc || f.tag == receivedTag p po.rport g counter (flitHeader f.seq f.kgen f.enc f.type f.len) f.payload)

/-- FLIT_RECEIVE (R406, R407): a flit is accepted and acted on, or a replay from it is asked for. Acknowledgements and
replay requests are flits of TYPE 3 (log 20). -/
def flitReceive (p : Nat) (f : Flit) (s : State) : State :=
  let po := s.port p
  if po.st ≠ 2 then s
  else if !s.flitOk p f then
    let s1 := s.setPort p fun po => { po.countReplay with replays := po.replays + 1 }
    if 16 ≤ po.replays + 1 then portDown p s1
    else if s1.portReady p then s1.sendFlit p 3 (leBytes 8 (po.seqExpect + 2 ^ 63)) else s1
  else if (f.type = 1 ∨ f.type = 2) ∧ !s.portReady p then s.hold (.flitReceive p f)
  else if f.type = 2 ∧ !(s.xreadReach (s.remotePieces p (f.payload.take (8 * f.len)))).2 then
    (s.xreadReach (s.remotePieces p (f.payload.take (8 * f.len)))).1.hold (.flitReceive p f)
  else
    let g := po.genOf f
    let s1 := s.setPort p fun po => { po with
      seqExpect := (po.seqExpect + 1) % 2 ^ 40, replays := 0, recvGen := g, sealRecv := if g = po.recvGen then po.sealRecv + 1 else 1 }
    let v (o : Nat) : Nat := ofLeBytes ((f.payload.drop o).take 8)
    match f.type with
    | 1 => (s1.sendFlit p 3 (leBytes 8 f.seq)).send (.remoteReadServe p (v 0) (BitVec.ofNat 64 (v 8)) (v 16))
    | 2 => (s1.sendFlit p 3 (leBytes 8 f.seq)).remoteData p (f.payload.take (8 * f.len))
    | 3 => if (v 0).testBit 63 then s1.replayFrom p else flitAck p (v 0 % 2 ^ 40) s1
    | _ => s1

/-! ## The attachment table (R191, R192) -/

/-- NVSTS after a command. -/
def State.nvDone (s : State) (code : Nat) : State :=
  { s with fe := { s.fe with nvstsCode := code, nvstsSt := if code = 0 then 2 else 3 } }

/-- The descriptor in NVDESC0 to NVDESC7. -/
def State.nvDescriptor (s : State) : List Byte := (List.range 8).flatMap fun n => leBytes 8 (SMap.get 0 s.fe.nvdesc n).toNat

/-- R191: a descriptor that keeps the rules of its table. -/
def Attachment.ok (a : Attachment) : Bool :=
  a.field 8 8 % 4096 == 0 && a.field 0x10 8 % 4096 == 0 && a.field 0x18 2 != 0 && a.field 0x1A 2 != 0
    && a.field 0x1F 1 == 0 && a.field 0x20 32 == 0

/-- NVCMD_ATTACH (R192). -/
def nvcmdAttach (index : Nat) (s : State) : State :=
  let a : Attachment := ⟨s.nvDescriptor, 0⟩
  if !a.ok ∨ 16 ≤ index then s.nvDone 2
  else if (Tab.find s.fe.attached index).isSome then s.nvDone 3
  else ({ s with fe := { s.fe with attached := Tab.put s.fe.attached index a } }).nvDone 0

/-- R192: an outstanding XREAD that names an entry. -/
def State.entryInUse (s : State) (index : Nat) : Bool :=
  s.fe.xreads.any fun x => match s.endpoint x with
    | some e => e.kind == 1 && e.target == index
    | none => x.kind == 1 && x.target == index

/-- NVCMD_DETACH (R192). -/
def nvcmdDetach (index : Nat) (s : State) : State :=
  if (Tab.find s.fe.attached index).isNone then s.nvDone 4
  else if s.entryInUse index then s.nvDone 1
  else ({ s with fe := { s.fe with attached := Tab.del s.fe.attached index } }).nvDone 0

/-! ## Meanings -/

/-- XREAD (R189). -/
def execXread (g : Guard) (x : XForm) (s : State) : Host.Outcome State Fault Refusal :=
  .next (xreadOp (Instr.xread g x) s)

/-- XREAD_ENGINE_START (R190). -/
def execXreadEngineStart (x : Nat) (s : State) : Host.Outcome State Fault Refusal :=
  .next (Sys2Proof.Machine.xreadEngineStart x s)

/-- NVME_COMPLETION (R190). -/
def execNvmeCompletion (x : Nat) (cmd : Nat) (status : BitVec 16) (s : State) : Host.Outcome State Fault Refusal :=
  .next (Sys2Proof.Machine.nvmeCompletion x cmd status s)

/-- XREAD_TIMEOUT (R193). -/
def execXreadTimeout (x : Nat) (s : State) : Host.Outcome State Fault Refusal :=
  .next (Sys2Proof.Machine.xreadTimeout x s)

/-- XREAD_COMPLETION_WORD (R189). -/
def execXreadCompletionWord (x : Nat) (s : State) : Host.Outcome State Fault Refusal :=
  .next (Sys2Proof.Machine.xreadCompletionWord x s)

/-- PEER_WINDOW_WRITE (R402). -/
def execPeerWindowWrite (offset : Nat) (data : List Byte) (s : State) : Host.Outcome State Fault Refusal :=
  .next (Sys2Proof.Machine.peerWindowWrite offset data s)

/-- REMOTE_READ_SERVE (R408). -/
def execRemoteReadServe (port : Nat) (asid : Nat) (va : DWord) (len : Nat) (s : State) : Host.Outcome State Fault Refusal :=
  .next (Sys2Proof.Machine.remoteReadServe port asid va len s)

/-- FLIT_RECEIVE (R406). -/
def execFlitReceive (port : Nat) (f : Flit) (s : State) : Host.Outcome State Fault Refusal :=
  .next (Sys2Proof.Machine.flitReceive port f s)

/-- NVCMD_ATTACH (R192). -/
def execNvcmdAttach (index : Nat) (s : State) : Host.Outcome State Fault Refusal :=
  .next (Sys2Proof.Machine.nvcmdAttach index s)

/-- NVCMD_DETACH (R192). -/
def execNvcmdDetach (index : Nat) (s : State) : Host.Outcome State Fault Refusal :=
  .next (Sys2Proof.Machine.nvcmdDetach index s)

end Sys2Proof.Machine
end

