-- ==== Sys2Proof/Machine/Rendezvous.lean ====
section
/-! DEFINITION. Fetching an instruction at a position (R25 to R28, R46 to R48), arrival at scoped instructions and the end
of their rendezvous (R324 to R331), named barriers (R339), stuck rendezvous (R328) and the release of stamped requests
(R375, R424). -/

namespace Sys2Proof.Machine

/-! ## Fetching (R25 to R28) -/

/-- The instruction at a position, the positions after it, and its clause's DIST, WAIT and YLD for it. -/
structure Fetched where
  instr : Instr
  word0 : Word
  next : DWord
  nextClause : DWord
  dist : Nat
  waits : Nat
  yld : Bool
  deriving DecidableEq, Repr

/-- `n` code words from an address on. -/
def State.codeWords (s : State) (core asid : Nat) (a : DWord) : Nat → Except Report (List Word)
  | 0 => .ok []
  | n + 1 =>
    match s.codeWord core asid a with
    | .error r => .error r
    | .ok w =>
      match s.codeWords core asid (a + 4) n with
      | .error r => .error r
      | .ok ws => .ok (w :: ws)

/-- R26: whether the words of a clause that end at an address end on an 8-byte boundary, or a pad word of 0 follows. -/
def State.padOk (s : State) (core asid : Nat) (a : DWord) : Except Report Bool :=
  if a.getLsbD 2 then
    match s.codeWord core asid a with
    | .ok w => .ok (w == 0)
    | .error r => .error r
  else .ok true

/-- The instruction at a position (R25 to R28, R48): a header that fails R27 and a word that is no instruction raise the
illegal-instruction fault with the header or the first word in TVAL; so does the last instruction of a clause before a pad word
that is not zero (R26, R47, log 33). YLD counts after the clause's last slot (R29). -/
def State.fetchAt (s : State) (core asid : Nat) (pos : DWord) : Except Report Fetched := do
  let head := headerOf pos
  let slot := (pos.setWidth 2).toNat
  let h ← s.header core asid head
  if !h.ok then .error (report clsIllegal 0 h.raw)
  else
    let a ← s.slotAddr core asid head slot
    let w0 ← s.codeWord core asid a
    let ws ← s.codeWords core asid a (wordsOfLen (w0.setWidth 2))
    match decodeWords ws with
    | .error _ => .error (report clsIllegal 0 (w0.setWidth 64))
    | .ok (i, _) =>
      if slot == h.cnt && !(← s.padOk core asid (a + BitVec.ofNat 64 (4 * ws.length))) then
        .error (report clsIllegal 0 (w0.setWidth 64))
      else
      let nc := match s.clauseAfter core asid head h.cnt with
        | .ok c => c
        | .error _ => head
      .ok ⟨i, w0, if slot < h.cnt then pos + 1 else nc, nc, h.dist slot, h.waits slot, h.yld && slot == h.cnt⟩

/-- The fetch of a thread's instruction. -/
def State.fetchOf (s : State) (t : TRef) : Except Report Fetched :=
  s.fetchAt (s.warp t.warp).core (s.warp t.warp).asid (s.thread t).pos

/-- The issue of an instruction at a position by a group. -/
def Fetched.issue (f : Fetched) (pos : DWord) (group : List TRef) (released : Bool) : Issue :=
  ⟨pos, group, f.next, f.nextClause, f.word0, f.yld, released, 0⟩

/-- R31: whether the flags of a WAIT mask are set in a warp. -/
def Warp.flagsSet (w : Warp) (mask : Nat) : Bool := (List.range 12).all fun k => !mask.testBit k || w.cf.getLsbD k

/-- R30, R28: whether a thread's distance has passed; where it counts as met, the clock it starts at. -/
def State.distPassed (s : State) (t : TRef) (dist : Nat) : Bool :=
  let th := s.thread t
  (th.distMet && decide (th.lastIssue ≤ s.clock)) || decide (th.lastIssue + max 1 dist ≤ s.clock)

/-! ## Barriers (R338, R339) -/

/-- The number of a named barrier's participants: n, or every warp of the block not freed (R339). -/
def State.barNeeds (s : State) (b n : Nat) : Nat :=
  if n = 0 then ((s.block b).warps.filter fun w => !(s.warp w).freed).length else n

/-- Whether a thread stands at a named BAR of an id (R324). -/
def State.atBarrier (s : State) (id : Nat) (t : TRef) : Bool :=
  match (s.thread t).arrival with
  | some a => a.named == some id
  | none => false

/-- Whether all non-exited threads of a warp stand at a named barrier, so that the warp has arrived there (R339). -/
def State.warpAtBarrier (s : State) (id w : Nat) : Bool :=
  let ts := ((List.range (s.warp w).threads.length).map fun l => TRef.mk w l).filter fun t => !(s.thread t).exited
  !ts.isEmpty && ts.all fun t => s.atBarrier id t

/-- The warps among `ws` that have arrived at a named barrier join its arrivals (R339). -/
def State.barArrive (s : State) (b id : Nat) (ws : List Nat) : State :=
  ws.foldl (fun s w =>
    if s.warpAtBarrier id w && !((s.block b).arrivals.contains (id, w)) then
      s.setBlock b fun bl => { bl with arrivals := bl.arrivals ++ [(id, w)] }
    else s) s

/-- The position after a thread's own instruction (R28): that of the issue, where the thread stands at its position. -/
def State.ownNext (s : State) (t : TRef) : DWord :=
  if (s.thread t).pos = s.cur.pos then s.cur.next
  else match s.posAfter (s.warp t.warp).core (s.warp t.warp).asid (s.thread t).pos with
    | .ok p => p
    | .error _ => s.cur.next

/-- Named BAR (R338, R339, R325) as its barrier completes: the members move on, each past its own BAR, where their predicates
agree; a count of more than 512 is illegal. -/
def barNamedOp (i : Instr) (s : State) : State :=
  let f := i.form
  let ts := s.cur.group
  let bad := ts.filter fun t => !s.legal t f
  let n := match ts with
    | [] => 0
    | t :: _ => ((s.operands ⟨s.leader .block t, t.lane⟩ f).b.setWidth 32).toNat
  if !bad.isEmpty then (bad.foldl (fun s' t => s'.raise t s.illegal) s).finish f.opc []
  else if ts.all fun t => !s.guardHolds t f.g then (ts.foldl (fun s' t => s'.moveTo t (s.ownNext t)) s).finish f.opc ts
  else if !ts.all fun t => s.guardHolds t f.g then (s.raiseAll ts (report clsMember 2 0) false).finish f.opc []
  else if 512 < n then (s.raiseAll ts s.illegal false).finish f.opc []
  else (ts.foldl (fun s' t => s'.moveTo t (s.ownNext t)) s).finish f.opc ts

/-! ## Instances (R326) -/

/-- The threads of some warps that have not exited. -/
def State.live (s : State) (ws : List Nat) : List TRef :=
  ws.flatMap fun w => ((List.range (s.warp w).threads.length).map fun l => TRef.mk w l).filter fun t => !(s.thread t).exited

/-- The members of the instance at which a thread has arrived; of a masked form the lanes of its mask (R261). -/
def State.members (s : State) (a : Arrival) (w : Nat) : List TRef :=
  (s.live (s.instanceWarps a.scope w)).filter fun t => match a.mask with
    | some m => m.getLsbD t.lane
    | none => true

/-- R324: every member of the instance has arrived at the same point. -/
def State.gathered (s : State) (t : TRef) (a : Arrival) : Bool :=
  (s.members a t.warp).all fun u => match (s.thread u).arrival with
    | some b => b.scope == a.scope && b.named == a.named && (s.thread u).pos == (s.thread t).pos
    | none => false

/-! ## Arrival (R324, R261, R326) -/

/-- R261: whether a form is masked. -/
def formMasked (f : Form) : Bool := decide (0x48 ≤ f.opc ∧ f.opc ≤ 0x4C) && f.x.sub.getLsbD 5

/-- The register use of a form's source C. -/
def maskUses (f : Form) : List RegUse := f.reads.filter fun u => u.opnd == 2

/-- R338, R339: the barrier id of a named BAR. -/
def formNamed (f : Form) : Option Nat :=
  if f.opc == 0x09 && f.x.sub != 0 then some (f.x.a.num.toNat % 16) else none

/-- A thread arrives at a scoped instruction: the checks made then, and the masks of R261 compared. `none` where it
cannot arrive yet: a mask is empty. -/
def State.arrive (s : State) (t : TRef) (f : Form) (word0 : Word) : Option State :=
  let w := s.warp t.warp
  let empties := (maskUses f).filter fun u => (List.range u.count).any fun i => w.isEmpty t.lane (u.reg + i)
  let stand (mask : Option Word) : State :=
    let s1 := (s.fresh).setThread t fun th =>
      { th with arrival := some ⟨s.nextId, s.guardHolds t f.g, f.g.scope, mask, formNamed f⟩, passed := 0 }
    match formNamed f with
    | some id => (s1.barArrive w.block id [t.warp]).sendOnce (.namedBarrierComplete w.block id)
    | none => s1.send (.rendezvousComplete t.warp t.lane)
  if !s.legal t f then some (s.raiseAll [t] (report clsIllegal 0 (word0.setWidth 64)) (f.g.scope == .set))
  else if f.g.scope == .set && (setMembers w.setReg).isEmpty then some (s.raiseAll [t] (report clsScope 2 0) true)
  else if formMasked f then
    match empties with
    | u :: _ =>
      if u.trap then some (s.raiseAll [t] ⟨clsEmpty, 0, u.opnd, 0, 0, false, BitVec.ofNat 64 u.reg⟩ false) else none
    | [] =>
      let m := (s.readSrc t 32 f.x.c).setWidth 32
      let others := (s.live [t.warp]).filter fun u => u ≠ t && (s.thread u).arrival.isSome && (s.thread u).pos == (s.thread t).pos
      let agree := others.all fun u => match (s.thread u).arrival with
        | some a => a.mask == some m
        | none => true
      if m.getLsbD t.lane && agree then some (stand (some m))
      else some (s.raiseAll (others ++ [t]) (report clsMember 1 0) false)
  else some (stand none)

/-! ## Stuck rendezvous (R328) -/

/-- The rendezvous point at which a thread is parked: a position, or a named barrier's id (R324). -/
def State.point (s : State) (t : TRef) : Option (Nat × Nat) :=
  (s.thread t).arrival.map fun a => match a.named with
    | some id => (1, id)
    | none => (0, (s.thread t).pos.toNat)

/-- R325, R339: the count n of a named barrier: the operand of the BAR at which its first warp stands, as the lowest-indexed
warp of the block that has not been freed holds it. -/
def State.barCount (s : State) (b id : Nat) : Nat :=
  match ((s.block b).arrivals.filter fun a => a.1 = id).map (·.2) with
  | [] => 0
  | w :: _ =>
    match (s.live [w]).head? with
    | none => 0
    | some t =>
      match s.fetchOf t with
      | .ok f => ((s.operands ⟨s.leader .block t, t.lane⟩ f.instr.form).b.setWidth 32).toNat
      | .error _ => 0

/-- The warps that a named barrier now lets on, if enough have arrived (R339): the first n; a count of more than 512 is judged
at the issue (R338). -/
def State.barReady (s : State) (b id : Nat) : Option (List Nat) :=
  let arrived := ((s.block b).arrivals.filter fun a => a.1 = id).map (·.2)
  let n := s.barCount b id
  let need := if 512 < n then 1 else s.barNeeds b n
  if arrived.isEmpty ∨ arrived.length < need then none else some (if 512 < n then arrived else arrived.take need)

/-! ## Readiness of a rendezvous (R324) -/

/-- R330: whether a suspension of its warp leaves a thread free to issue: it took the fault. -/
def State.mayIssue (s : State) (t : TRef) : Bool :=
  match (s.warp t.warp).suspended with
  | none => true
  | some ts => ts.contains t

/-- Whether the end of its grid or a stop of its block keeps a thread from issuing (R396, R28, R381). -/
def State.stopped (s : State) (t : TRef) : Bool :=
  (s.grid (s.warp t.warp).grid).fault.isSome
    || ((s.block (s.warp t.warp).block).stopping.isSome && ((s.thread t).pos.setWidth 2 : BitVec 2) == 0)

/-- R324: whether WAIT masks and registers let a member issue: its flags are set, no deferred fault waits, and where its
predicate was true no register is empty. -/
def State.memberReady (s : State) (u : TRef) : Bool :=
  match s.fetchOf u with
  | .error _ => false
  | .ok f => (s.warp u.warp).flagsSet f.waits && (s.deferredAt u f.waits).isNone
    && (!s.guardHolds u f.instr.form.g || ((s.emptyTrap u f.instr.form).isNone && s.full u f.instr.form))

/-- The threads of a complete rendezvous at which a thread stands, if it is complete (R324, R339). -/
def State.complete (s : State) (t : TRef) : Option (List TRef) :=
  match (s.thread t).arrival with
  | none => none
  | some a =>
    let ms := match a.named with
      | none => if s.gathered t a then s.members a t.warp else []
      | some id => match s.barReady (s.warp t.warp).block id with
        | some ws => if ws.contains t.warp && !s.windowsOut ws then s.live ws else []
        | none => []
    if ms.isEmpty || !ms.all (fun u => s.memberReady u && s.mayIssue u && !s.stopped u && (s.thread u).wait.isNone) then none
    else some ms

/-- R15, R324: whether the partitions of some threads have not issued in this clock. -/
def State.partsFree (s : State) (ts : List TRef) : Bool :=
  ts.all fun t => SMap.get 0 (s.core (s.warp t.warp).core).issued (s.warp t.warp).part != s.clock + 1

/-- R15, R324: the partitions of some threads issue in this clock. -/
def State.useParts (s : State) (ts : List TRef) : State :=
  (ts.map fun t => ((s.warp t.warp).core, (s.warp t.warp).part)).dedup.foldl
    (fun s p => s.setCore p.1 fun c => { c with issued := SMap.set 0 c.issued p.2 (s.clock + 1) }) s

/-- R328: whether an instance is stuck: every member parked, at differing points, and no rendezvous of theirs complete. -/
def State.stuckIn (s : State) (ws : List Nat) : Bool :=
  let ms := s.live ws
  let ps := ms.map fun t => s.point t
  !ms.isEmpty && ps.all Option.isSome && decide (1 < ps.dedup.length) && ms.all fun t => (s.complete t).isNone

/-- The stuck instances of a scope in a block: those of its threads' pending rendezvous. -/
def State.stuckAt (s : State) (b : Nat) (sc : Scope) : List (List Nat) :=
  let ts := s.live (s.block b).warps
  let pending := ts.filter fun t => match (s.thread t).arrival with
    | some a => a.scope == sc
    | none => sc == .block && (s.point t).isSome
  ((pending.map fun t => s.instanceWarps sc t.warp).dedup).filter fun ws => s.stuckIn ws

/-- The narrowest stuck instances of a block: warp before set before block. -/
def State.stuckNarrow (s : State) (b : Nat) : List (List Nat) :=
  match s.stuckAt b .warp, s.stuckAt b .set with
  | w :: ws, _ => w :: ws
  | [], w :: ws => w :: ws
  | [], [] => s.stuckAt b .block

/-- Warps leave the named barriers at which they stand. -/
def State.leaveBarriers (s : State) (b : Nat) (ws : List Nat) : State :=
  s.setBlock b fun bl => { bl with arrivals := bl.arrivals.filter fun a => !ws.contains a.2 }

/-- STUCK_RENDEZVOUS (R328): scope-mismatch with cause 1 in every member of the narrowest stuck instances, each thread at
its own position. -/
def stuckRendezvous (warp : Nat) (s : State) : State :=
  let b := (s.warp warp).block
  (s.stuckNarrow b).foldl (fun s ws =>
    let s1 := s.leaveBarriers b ws
    (s1.live ws).foldl (fun s t => s.raise t (report clsScope 1 0)) s1) s

/-- R328: the fault of a stuck block is on its way, once. -/
def State.judge (s : State) (t : TRef) : State :=
  let b := (s.warp t.warp).block
  let sent := s.net.any fun m => match m with
    | .stuckRendezvous w _ => (s.warp w).block == b
    | _ => false
  if !sent && !(s.stuckNarrow b).isEmpty then s.send (.stuckRendezvous t.warp t.lane) else s

/-! ## Completion (R324, R325, R339) -/

/-- R174, R324, R331: what the members of a gathered rendezvous take on their own: a fault deferred to a flag of their WAIT
mask, or an empty-register trap; none where none has such. At a set-scope instruction the set is suspended (R330). -/
def State.memberFaults (s : State) (ms : List TRef) : Option State :=
  let late := ms.filterMap fun u => match s.fetchOf u with
    | .ok f => if (s.warp u.warp).flagsSet f.waits then
        (s.deferredAt u f.waits).map fun d => (u, d, f.instr.form.g.scope == .set && !reportFatal d.report) else none
    | .error _ => none
  let traps := ms.filterMap fun u => match s.fetchOf u with
    | .ok f => if (s.warp u.warp).flagsSet f.waits && s.guardHolds u f.instr.form.g then
        (s.emptyTrap u f.instr.form).map fun e => (u, e, f.instr.form.g.scope == .set) else none
    | .error _ => none
  match late, traps with
  | [], [] => none
  | [], ts => some (ts.foldl (fun s e =>
      s.raiseAll [e.1] ⟨clsEmpty, 0, e.2.1.1, 0, 0, false, BitVec.ofNat 64 e.2.1.2⟩ e.2.2) s)
  | ds, _ => some (ds.foldl (fun s e =>
      let s1 := s.raiseDeferred e.1 e.2.1
      if e.2.2 then s1.suspend (s.setOf e.1.warp) [e.1] else s1) s)

/-- R324: a complete rendezvous issues: its members are the group, and their partitions give this clock to it. -/
def State.issueRendezvous (s : State) (t : TRef) (ms : List TRef) (again : Msg) : State :=
  if s.issue.isSome || !s.partsFree ms then s.keep again
  else match s.fetchOf t with
    | .error r => s.raiseAll ms r false
    | .ok f => { (s.useParts ms).waited (ms.map TRef.warp) f.waits with issue := some (f.issue (s.thread t).pos ms false) }

/-- RENDEZVOUS_COMPLETE (R324): the rendezvous at which a thread stands; it is looked at again until it completes. -/
def rendezvousComplete (warp lane : Nat) (s : State) : State :=
  let t : TRef := ⟨warp, lane⟩
  let th := s.thread t
  let again : Msg := .rendezvousComplete warp lane
  match th.arrival with
  | none => s
  | some a =>
    if th.exited || th.wait.isSome || a.named.isSome then s
    else match s.complete t with
      | some ms => s.issueRendezvous t ms again
      | none =>
        if !s.gathered t a then (s.judge t).keep again
        else match s.fetchOf t, s.memberFaults (s.members a warp) with
          | .error r, _ => s.raiseAll (s.members a warp) r (a.scope == .set)
          | _, some s' => s'.keep again
          | _, none => (s.judge t).keep again

/-- NAMED_BARRIER_COMPLETE (R339, R325): the first n arrived warps issue their BAR together, their WAIT masks satisfied. Until
then the barrier is looked at again. -/
def namedBarrierComplete (b id : Nat) (s0 : State) : State :=
  let s := s0.barArrive b id (s0.block b).warps
  let again : Msg := .namedBarrierComplete b id
  match (s.live (s.block b).warps).find? fun t => s.atBarrier id t with
  | none => s
  | some u =>
    match s.barReady b id with
    | none => (s.judge u).keep again
    | some ws =>
      match (s.live ws).head? with
      | none => s.keep again
      | some t =>
        match s.complete t with
        | some ms =>
          let s1 := s.issueRendezvous t ms again
          if s1.issue.isSome && s.issue.isNone then
            (s1.setBlock b fun bl => { bl with arrivals := bl.arrivals.filter fun a => !(a.1 == id && ws.contains a.2) }).keep again
          else s1
        | none => ((s.memberFaults (s.live ws)).getD (s.judge t)).keep again

/-! ## The release of stamped requests (R375, R424) -/

/-- The warps of a grid on a core. -/
def State.gridWarps (s : State) (g core : Nat) : List Nat :=
  (s.warps.filter fun e => e.2.grid = g ∧ e.2.core = core ∧ !e.2.freed).map (·.1)

/-- The stamped requests of a grid that wait for their release: record, warp and stamp. -/
def State.stampedOf (s : State) (g : Nat) : List (Nat × WaitRec) :=
  s.waits.filter fun e => (match e.2.kind with | .stamped _ => true | _ => false) && (s.warp e.2.warp).grid == g

/-- R375: the order of stamps. -/
def Warp.stampLt (a b : Warp) : Bool :=
  decide (a.icount.toNat < b.icount.toNat) || (a.icount == b.icount && decide (a.wslot < b.wslot))

/-- R375: whether a warp counts as parked or as waiting for a stamped request of its own: every thread that has not exited
is parked, waits in SETDECL or SETFREE, or waits for its release. -/
def State.outOfWay (s : State) (w : Nat) : Bool :=
  (s.live [w]).all fun t => (s.point t).isSome || match (s.thread t).wait with
    | none => false
    | some k =>
      match Tab.find s.waits k with
      | some r => (match r.kind with | .stamped _ => true | .setdecl _ => true | .setfree => true | _ => false)
      | none => false

/-- R424: whether a stamped request of the grid that has left its core has not yet returned. -/
def State.stampedOut (s : State) (g : Nat) : Bool :=
  let mine (w : Nat) : Bool := (s.warp w).grid == g
  (s.waits.any fun e => mine e.2.warp && (match e.2.kind with
    | .invocation _ => true
    | .fetchTask _ => true
    | _ => false))
  || s.net.any fun m => match m with
    | .routineInvocation v => mine v.warp
    | .routineReturn r => mine r.inv.warp
    | .windowWriteArrival x => mine x.srcWarp
    | .vclassWriteBack wb => mine wb.warp && (match wb.src with | .window .. => true | _ => false)
    | _ => false

/-- STAMPED_REQUEST_RELEASE (R375, R424): the request with the least stamp issues, with the warp's others at its position, once no other warp of the grid on its
core may still reach an earlier one and no earlier request is outstanding. -/
def stampedRequestRelease (g : Nat) (s : State) : State :=
  let again : Msg := .stampedRequestRelease g
  match s.stampedOf g with
  | [] => s
  | e0 :: rest =>
    let least := rest.foldl (fun a e => if (s.warp e.2.warp).stampLt (s.warp a.2.warp) then e else a) e0
    let w := s.warp least.2.warp
    let clear := (s.gridWarps g w.core).all fun v => v == least.2.warp || s.outOfWay v || w.stampLt (s.warp v)
    let ts0 := least.2.members.filter fun t => (s.thread t).wait == some least.1
    if s.issue.isSome || s.stampedOut g || !clear || w.suspended.isSome || (ts0.any fun t => s.stopped t) || !s.partsFree ts0 then
      s.hold again
    else
      let alone := ts0.any fun t => (s.thread t).arrival.isSome
      let same := (s.stampedOf g).filter fun e =>
        e.1 == least.1 || (!alone && e.2.warp == least.2.warp && e.2.pos == least.2.pos)
      let ts := same.flatMap fun e => e.2.members.filter fun t => (s.thread t).wait == some e.1
      let s1 := same.foldl (fun s e => s.unpark e.1) s
      match ts with
      | [] => s1.hold again
      | t :: _ =>
        match s1.fetchOf t with
        | .error r => s1.raiseAll ts r false
        | .ok f => { (s1.useParts ts).waited (ts.map TRef.warp) f.waits with issue := some (f.issue (s1.thread t).pos ts true) }

/-! ## Meanings -/

/-- BAR.named, one word: n = 0 (R338, R339). -/
def execBarNamed (g : Guard) (i : BitVec 4) (s : State) : Host.Outcome State Fault Refusal :=
  .next (barNamedOp (Instr.barNamed g i) s)

/-- BAR (R338, R339). -/
def execBarX (g : Guard) (x : XForm) (s : State) : Host.Outcome State Fault Refusal :=
  .next (if x.sub = 0 then barPlain (Instr.barX g x) s else barNamedOp (Instr.barX g x) s)

/-- NAMED_BARRIER_COMPLETE (R339). -/
def execNamedBarrierComplete (block : Nat) (id : Nat) (s : State) : Host.Outcome State Fault Refusal :=
  .next (Sys2Proof.Machine.namedBarrierComplete block id s)

/-- RENDEZVOUS_COMPLETE (R324). -/
def execRendezvousComplete (warp : Nat) (lane : Nat) (s : State) : Host.Outcome State Fault Refusal :=
  .next (Sys2Proof.Machine.rendezvousComplete warp lane s)

/-- STUCK_RENDEZVOUS (R328). -/
def execStuckRendezvous (warp : Nat) (_lane : Nat) (s : State) : Host.Outcome State Fault Refusal :=
  .next (Sys2Proof.Machine.stuckRendezvous warp s)

/-- STAMPED_REQUEST_RELEASE (R424). -/
def execStampedRequestRelease (grid : Nat) (s : State) : Host.Outcome State Fault Refusal :=
  .next (Sys2Proof.Machine.stampedRequestRelease grid s)

end Sys2Proof.Machine
end

