-- ==== Sys2Proof/Machine/FrontEnd.lean ====
section
/-! DEFINITION. The front end (14, R350 to R362, R373, R374): queue commands, the tail and the acceptance of packets, their
start and order, WAIT-SIGNALS, SIGNAL and CATALOGUE-UPDATE, the hardware queue slots, and the event ring. -/

namespace Sys2Proof.Machine

/-! ## Queues and their status blocks (R350, R374) -/

def State.queue? (s : State) (q : Nat) : Option Queue := Tab.find s.fe.queues q

def State.setQueue (s : State) (q : Nat) (f : Queue → Queue) : State :=
  { s with fe := { s.fe with queues := Tab.upd s.fe.queues q f } }

/-- R374: the bytes of a queue's status block. -/
def Queue.status (q : Queue) : List Byte :=
  let e := q.error.getD ⟨0, 0, 0, 0⟩
  leBytes 4 q.state ++ leBytes 4 e.err ++ leBytes 8 e.index.toNat ++ leBytes 8 e.seq ++ leBytes 8 e.detail.toNat
    ++ leBytes 1 (if q.held.isEmpty then 0 else 1) ++ List.replicate 31 0

/-- R374: the status block written. -/
def State.writeStatus (s : State) (qid : Nat) : State :=
  match s.queue? qid with
  | none => s
  | some q => s.feWrite q.asid q.stat q.status

/-- R374: a queue error: the queue halts, the status block keeps the first one, and each has its event record. -/
def State.queueError (s : State) (qid : Nat) (index : DWord) (err : Nat) (detail : DWord) : State :=
  let (n, s1) := s.takeSeq
  let s2 := s1.setQueue qid fun q =>
    if q.state = 2 then q else { q with state := 2, error := some ⟨n, index, err, detail⟩ }
  (s2.writeStatus qid).send (.eventRecordWrite ⟨1, qid, 1, n, index, BitVec.ofNat 64 (err % 256 + 2 ^ 8 * (detail.toNat % 2 ^ 56))⟩)

/-- R8: whether bytes are zero. -/
def zeros (bs : List Byte) (o n : Nat) : Bool := ((bs.drop o).take n).all (· == 0)

/-- R374: the offset of the first bad field among checks in rising order. -/
def firstBad (checks : List (Nat × Bool)) : Option Nat := (checks.find? fun c => !c.2).map (·.1)

/-! ## Watching (R355, R146) -/

/-- R355, R146: FE arms a monitor on a 64-bit word against the value it reads; whether it is watched so. -/
def State.feWatch (s : State) (asid : Nat) (va : DWord) : Bool × State :=
  match s.fePlace asid va false with
  | some (false, pa) =>
    let key : MonKey := ⟨asid, pa, false, true, .ne, BitVec.ofNat 64 (s.peek false pa 8)⟩
    if s.monitors.any fun m => m.key == key && m.waiters.contains none then (true, s)
    else match s.feReach asid false [(va.toNat, 8)] with
      | (s1, true) => (s1.bringHome (pa / 128) Config.feDie).armKey key 144 none
      | (s1, false) => (false, s1)
  | _ => (false, s)

/-- Whether FE has a monitor on a word. -/
def State.feWatched (s : State) (asid : Nat) (va : DWord) : Bool :=
  match s.fePlace asid va false with
  | some (host, pa) => s.monitors.any fun m => m.key.asid == asid && m.key.host == host && m.key.pa == pa && m.agents.contains 144
  | none => false

/-- R146: FE's monitors on a word are withdrawn. -/
def State.feUnwatch (s : State) (asid : Nat) (va : DWord) : State :=
  match s.fePlace asid va false with
  | some (host, pa) =>
    (s.monitors.filter fun m => m.key.asid == asid && m.key.host == host && m.key.pa == pa && m.waiters.contains none).foldl
      (fun s m => s.withdraw m.key none) s
  | none => s

/-! ## Queue commands (R353) -/

/-- QSTS after a command. -/
def State.qsts (s : State) (code st : Nat) : State := { s with fe := { s.fe with qstsCode := code, qstsSt := st } }
def State.queueOk (s : State) : State := s.qsts 0 2
def State.queueRefused (s : State) (code : Nat) : State := s.qsts code 3

/-- The 64 descriptor bytes of QDESC0 to QDESC7 (R352). -/
def State.qdescBytes (s : State) : List Byte :=
  (List.range 8).flatMap fun n => leBytes 8 (SMap.get 0 s.fe.qdesc n).toNat

/-- R350: a queue as its descriptor gives it. -/
def Queue.ofDesc (d : List Byte) (tail : DWord) (now : Nat) : Queue where
  ring := BitVec.ofNat 64 (field d 0 8)
  ctrl := BitVec.ofNat 64 (field d 8 8)
  stat := BitVec.ofNat 64 (field d 0x10 8)
  asid := field d 0x18 2
  log2n := field d 0x1A 1
  prio := field d 0x1B 1
  msix := field d 0x1C 2
  tail := tail
  rdidx := tail
  state := 0
  error := none
  held := []
  packets := []
  mapped := none
  mappedAt := 0
  pendingSince := 0
  idleSince := now

/-- R350, R8: whether a descriptor keeps its rules. -/
def descOk (d : List Byte) : Bool :=
  field d 0 8 % 128 == 0 && field d 8 8 % 128 == 0 && field d 0x10 8 % 64 == 0 && decide (field d 0x18 2 < 4096)
    && decide (4 ≤ field d 0x1A 1 ∧ field d 0x1A 1 ≤ 16) && decide (field d 0x1B 1 < 8) && decide (field d 0x1C 2 < 2048)
    && zeros d 0x1E 34

/-- R353: whether FE reaches a word with R and W. -/
def State.feBoth (s : State) (asid : Nat) (va : DWord) : Bool := s.feReadable asid va && (s.fePlace asid va true).isSome

/-- R353: a queue created from a descriptor that has passed its checks; its control line has been reached. -/
def State.openQueue (s : State) (qid : Nat) (d : List Byte) : State :=
  let q0 := Queue.ofDesc d 0 s.now
  let t := BitVec.ofNat 64 ((s.feRead q0.asid q0.ctrl 8).getD 0)
  let q := Queue.ofDesc d t s.now
  let s1 := { s with fe := { s.fe with queues := Tab.put s.fe.queues qid q } }
  let s2 := s1.feUpdate q.asid (q.ctrl + 0x40) 8 (.put t.toNat)
  ((s2.writeStatus qid).feWatch q.asid q.ctrl).2.queueOk

/-- QUEUE_CREATE (R353). -/
def queueCreate (qid : Nat) (s : State) : State :=
  let d := s.qdescBytes
  let q0 := Queue.ofDesc d 0 s.now
  if !descOk d || (s.asid q0.asid).st != 1 || !s.feBoth q0.asid q0.ctrl || !s.feBoth q0.asid q0.stat then s.queueRefused 2
  else if (s.queue? qid).isSome then s.queueRefused 5
  else s.feThen q0.asid false [(q0.ctrl.toNat, 8)] (.queueCreate qid) fun s => s.openQueue qid d

/-- QUEUE_DESTROY (R353). Errors still held keep their way to the event ring (R373). -/
def queueDestroy (qid : Nat) (s : State) : State :=
  match s.queue? qid with
  | none => s.queueRefused 4
  | some q =>
    if (s.grids.any fun g => g.2.queue == qid) || !q.packets.isEmpty then s.queueRefused 1
    else
      let s1 := (s.feUnwatch q.asid q.ctrl).feUnwatch q.asid q.slotVa
      let s2 := q.held.foldl (fun (s : State) (e : QueueError) => s.send (.eventRecordWrite
        ⟨1, qid, 1, e.seq, e.index, BitVec.ofNat 64 (e.err % 256 + 2 ^ 8 * (e.detail.toNat % 2 ^ 56))⟩)) s1
      State.queueOk { s2 with fe := { s2.fe with
        queues := Tab.del s2.fe.queues qid, kick := s2.fe.kick.filter (· ≠ qid) } }

/-- QUEUE_HALT (R353). -/
def queueHalt (qid : Nat) (s : State) : State :=
  match s.queue? qid with
  | none => s.queueRefused 4
  | some _ => ((s.setQueue qid fun q => { q with state := if q.state = 2 then 2 else 1 }).writeStatus qid).queueOk

/-- QUEUE_RESUME (R353, R374). -/
def queueResume (qid : Nat) (s : State) : State :=
  match s.queue? qid with
  | none => s.queueRefused 4
  | some q =>
    if !q.held.isEmpty then s.queueRefused 3
    else (((s.setQueue qid fun q => { q with state := 0, error := none }).writeStatus qid).send (.packetAccept qid)).queueOk

/-! ## The tail and acceptance (R354, R355) -/

/-- TAIL_UPDATE (R355, R359): the maximum rule, over the value noticed and the value read as the line is watched again; a
change on an unmapped queue kicks the pair. -/
def tailUpdate (qid : Nat) (value : DWord) (s : State) : State :=
  match s.queue? qid with
  | none => s
  | some q => s.feThen q.asid false [(q.ctrl.toNat, 8)] (.tailUpdate qid value) fun s =>
    let s1 := (s.feWatch q.asid q.ctrl).2
    let v := max value.toNat ((s.feRead q.asid q.ctrl 8).getD 0)
    if v ≤ q.tail.toNat then s1
    else
      let s2 := (s1.setQueue qid fun q => { q with tail := BitVec.ofNat 64 v, idleSince := s.now }).send (.packetAccept qid)
      if q.mapped.isSome then s2
      else ({ s2 with fe := { s2.fe with kick := if s2.fe.kick.contains qid then s2.fe.kick else s2.fe.kick ++ [qid] } }).send .mappingPass

/-- R355: the packet at RDIDX, which has been reached, is read whole and accepted. -/
def State.acceptPacket (s : State) (qid : Nat) (q : Queue) (bs : List Byte) : State :=
  let i := q.rdidx
  let (n, s1) := s.takeSeq
  let waited := q.packets.any fun p => !p.started
  let s2 := s1.setQueue qid fun q =>
    { q with
      rdidx := i + 1
      idleSince := s.now
      pendingSince := if waited then q.pendingSince else s.now
      packets := q.packets ++ [Packet.mk i n bs s.now false false none none] }
  ((s2.feUpdate q.asid (q.ctrl + 0x40) 8 (.put (i + 1).toNat)).send (.packetStart qid n)).send (.packetAccept qid)

/-- PACKET_ACCEPT (R355): FE looks at the packet at RDIDX. -/
def packetAccept (qid : Nat) (s : State) : State :=
  match s.queue? qid with
  | none => s
  | some q =>
    let i := q.rdidx
    if q.state ≠ 0 ∨ q.tail.toNat ≤ i.toNat then s
    else
      match s.feBytes q.asid q.slotVa 128 with
      | none => s.queueError qid i 8 q.slotVa
      | some bs =>
        let d := (field bs 4 4 + 2 ^ 32 - i.toNat % 2 ^ 32) % 2 ^ 32
        if field bs 0 1 ≠ 0 ∧ d = 0 then
          s.feThen q.asid false [(q.slotVa.toNat, 128)] (.packetAccept qid) fun s => s.acceptPacket qid q bs
        else if 2 ^ q.log2n ≤ d ∧ d < 2 ^ 31 then s.queueError qid i 1 0x80
        else
          let w := s.feWatch q.asid q.slotVa
          if w.1 then w.2 else w.2.hold (.packetAccept qid)

/-! ## Starting and completing packets (R356) -/

/-- The packet of a sequence number in its queue. -/
def State.packet? (s : State) (qid seq : Nat) : Option Packet :=
  match s.queue? qid with
  | none => none
  | some q => q.packets.find? fun p => p.seq == seq

def State.setPacket (s : State) (qid seq : Nat) (f : Packet → Packet) : State :=
  s.setQueue qid fun q => { q with packets := q.packets.map fun p => if p.seq = seq then f p else p }

/-- A packet leaves its queue: completed, with its interrupt where IRQ asks for one (R354), or ended by an error (log 22). -/
def State.endPacket (s : State) (qid seq : Nat) (ok : Bool) : State :=
  match s.queue? qid, s.packet? qid seq with
  | some q, some p =>
    let s1 := s.setQueue qid fun q => { q with packets := q.packets.filter fun p => p.seq != seq }
    if ok && p.bytes.getD 1 0 &&& 2 != (0 : Byte) then s1.raiseMsix q.msix else s1
  | _, _ => s

/-- A packet ends by a queue error. -/
def State.failPacket (s : State) (qid seq err : Nat) (detail : DWord) : State :=
  match s.packet? qid seq with
  | some p => (s.queueError qid p.index err detail).endPacket qid seq false
  | none => s

/-- R354: the packet's type. -/
def Packet.type (p : Packet) : Nat := field p.bytes 0 1

/-- R356: whether a packet may start: its queue mapped and running, every earlier packet started, and completed where BAR is
set, for a SIGNAL and after a WAIT-SIGNALS. -/
def Queue.mayStart (q : Queue) (p : Packet) : Bool :=
  let before := q.packets.filter fun e => decide (e.seq < p.seq)
  q.mapped.isSome && q.state == 0 && before.all Packet.started
    && (before.isEmpty || !((p.bytes.getD 1 0).getLsbD 0 || p.type == 3 || before.any fun e => e.type == 2))

/-- PACKET_START (R354, R356): the packet's own work begins; a reserved type or header bit is a bad packet. -/
def packetStart (qid seq : Nat) (s : State) : State :=
  match s.queue? qid, s.packet? qid seq with
  | some q, some p =>
    if p.started then s
    else if !q.mayStart p || (q.packets.any fun e => decide (e.seq < seq) && s.net.contains (.launch qid e.seq)) then
      s.hold (.packetStart qid seq)
    else
      let s1 := (s.setPacket qid seq fun p => { p with started := true }).setQueue qid fun q => { q with idleSince := s.now }
      if field p.bytes 0 4 / 2 ^ 10 ≠ 0 ∨ 5 < p.type then s1.failPacket qid seq 1 0
      else match p.type with
        | 1 => s1.send (.launch qid seq)
        | 2 => s1.send (.waitSignals qid seq)
        | 3 => s1.send (.signal qid seq)
        | 4 => s1.send (.routineLoad qid seq)
        | _ => s1.send (.catalogueUpdate qid seq)
  | _, _ => s

/-! ## WAIT-SIGNALS, SIGNAL and CATALOGUE-UPDATE (R358, R362) -/

/-- The signals a WAIT-SIGNALS packet names. -/
def Packet.signals (p : Packet) : List DWord :=
  (List.range (field p.bytes 8 1)).map fun k => BitVec.ofNat 64 (field p.bytes (0x10 + 8 * k) 8)

/-- R362: whether COUNT of a signal is 0. -/
def State.signalZero (s : State) (asid : Nat) (va : DWord) : Bool :=
  match s.feRead asid va 8 with
  | some v => v % 2 ^ 62 == 0
  | none => false

/-- Whether a WAIT-SIGNALS packet's condition holds. -/
def State.signalsMet (s : State) (asid : Nat) (p : Packet) : Bool :=
  if field p.bytes 9 1 = 0 then p.signals.all fun va => s.signalZero asid va else p.signals.any fun va => s.signalZero asid va

/-- WAIT_SIGNALS (R358). -/
def waitSignals (qid seq : Nat) (s : State) : State :=
  match s.queue? qid, s.packet? qid seq with
  | some q, some p =>
    let count := field p.bytes 8 1
    let bad := firstBad ([(8, decide (1 ≤ count ∧ count ≤ 6)), (9, decide (field p.bytes 9 1 ≤ 1)), (10, zeros p.bytes 10 2)]
      ++ ((List.range 6).map fun k => (0x10 + 8 * k, decide (k < count) || zeros p.bytes (0x10 + 8 * k) 8))
      ++ [(0x40, zeros p.bytes 0x40 64)])
    match bad, p.signals.find? fun va => va.toNat % 8 != 0 || !s.feReadable q.asid va with
    | some o, _ => s.failPacket qid seq 1 (BitVec.ofNat 64 o)
    | none, some va => s.failPacket qid seq 8 va
    | none, none =>
      let tmo := field p.bytes 0x0C 4
      if s.signalsMet q.asid p then
        s.feThen q.asid false (p.signals.map fun va => (va.toNat, 8)) (.waitSignals qid seq) fun s => s.endPacket qid seq true
      else if tmo ≠ 0 ∧ p.deadline.isNone then
        ((s.setPacket qid seq fun p => { p with deadline := some (s.now + 1000 * tmo) }).send (.waitSignalsTimeout qid seq)).hold
          (.waitSignals qid seq)
      else s.hold (.waitSignals qid seq)
  | _, _ => s

/-- WAIT_SIGNALS_TIMEOUT (R358, R374). -/
def waitSignalsTimeout (qid seq : Nat) (s : State) : State :=
  match s.queue? qid, s.packet? qid seq with
  | some q, some p =>
    match p.deadline with
    | none => s
    | some t =>
      if s.now < t then s.hold (.waitSignalsTimeout qid seq)
      else if s.signalsMet q.asid p then s
      else s.failPacket qid seq 7 (BitVec.ofNat 64 (p.signals.findIdx fun va => !s.signalZero q.asid va))
  | _, _ => s

/-- SIGNAL (R358, R362): a decrement of COUNT, or the whole word set. -/
def signal (qid seq : Nat) (s : State) : State :=
  match s.queue? qid, s.packet? qid seq with
  | some q, some p =>
    let va := BitVec.ofNat 64 (field p.bytes 8 8)
    let v := field p.bytes 0x18 8
    let bad := firstBad [(0x10, decide (field p.bytes 0x10 1 ≤ 1)), (0x11, zeros p.bytes 0x11 7), (0x20, zeros p.bytes 0x20 96)]
    match bad with
    | some o => s.failPacket qid seq 1 (BitVec.ofNat 64 o)
    | none =>
      if va.toNat % 8 ≠ 0 ∨ (s.fePlace q.asid va true).isNone then s.failPacket qid seq 8 va
      else s.feThen q.asid true [(va.toNat, 8)] (.signal qid seq) fun s =>
        (s.feUpdate q.asid va 8 (if field p.bytes 0x10 1 = 0 then .signal v false else .put v)).endPacket qid seq true
  | _, _ => s

/-- CATALOGUE_UPDATE (R358, R160): every copy engine drops the address space's entries. -/
def catalogueUpdate (qid seq : Nat) (s : State) : State :=
  match s.queue? qid, s.packet? qid seq with
  | some q, some p =>
    if !zeros p.bytes 8 120 then s.failPacket qid seq 1 8
    else
      State.endPacket { s with cores := s.cores.map fun (e : Nat × Core) =>
        (e.1, { e.2 with catalogue := e.2.catalogue.filter fun c => c.asid != q.asid }) } qid seq true
  | _, _ => s

/-! ## Hardware queue slots (R359, R360) -/

/-- R359: an unmapped queue with an accepted packet that has not started. -/
def Queue.pending (q : Queue) : Bool := q.mapped.isNone && q.packets.any fun p => !p.started

/-- R359: the effective priority. -/
def Queue.ep (q : Queue) (now : Nat) : Nat :=
  if q.mapped.isSome then q.prio else min 7 (q.prio + (now - q.pendingSince) / 100000)

/-- The lowest free slot. -/
def State.freeSlot (s : State) : Option Nat :=
  (List.range Config.queueSlots).find? fun k => !s.fe.queues.any fun e => e.2.mapped == some k

/-- R360: the order of pending queues: descending priority, earlier pending time, lower number. -/
def pendingBefore (now : Nat) (a b : Nat × Queue) : Bool :=
  let (pa, pb) := (a.2.ep now, b.2.ep now)
  decide (pb < pa) || (pa == pb && (decide (a.2.pendingSince < b.2.pendingSince)
    || (a.2.pendingSince == b.2.pendingSince && decide (a.1 < b.1))))

/-- R360: the order of victims: lowest priority, earliest mapping, higher number. -/
def victimBefore (a b : Nat × Queue) : Bool :=
  decide (a.2.prio < b.2.prio) || (a.2.prio == b.2.prio && (decide (a.2.mappedAt < b.2.mappedAt)
    || (a.2.mappedAt == b.2.mappedAt && decide (b.1 < a.1))))

/-- An element placed in an ordered list. -/
def insertBy {α : Type} (lt : α → α → Bool) (x : α) : List α → List α
  | [] => [x]
  | y :: ys => if lt x y then x :: y :: ys else y :: insertBy lt x ys

/-- A list in order. -/
def sortBy {α : Type} (lt : α → α → Bool) (xs : List α) : List α := xs.foldl (fun acc x => insertBy lt x acc) []

/-- R360: one pending queue takes a slot, or the slot of a victim. -/
def State.mapQueue (s : State) (u : Nat × Queue) : State :=
  let take (s : State) (k : Nat) : State := s.setQueue u.1 fun q => { q with mapped := some k, mappedAt := s.now }
  match s.freeSlot with
  | some k => take s k
  | none =>
    let vs := sortBy victimBefore (s.fe.queues.filter fun e => e.2.mapped.isSome && decide (e.2.mappedAt + 20000 ≤ s.now))
    match vs with
    | [] => s
    | v :: _ =>
      if v.2.prio < u.2.ep s.now then
        take (s.setQueue v.1 fun q => { q with mapped := none, pendingSince := s.now }) (v.2.mapped.getD 0)
      else s

/-- MAPPING_PASS (R360). -/
def mappingPass (s : State) : State :=
  let idle (q : Queue) : Bool := q.mapped.isSome && q.state == 0 && q.packets.all Packet.started && q.rdidx == q.tail
    && decide (q.idleSince + 50000 ≤ s.now)
  let some_ := s.fe.queues.any fun e => e.2.pending
  let s1 := { s with fe := { s.fe with
    kick := []
    queues := s.fe.queues.map fun (e : Nat × Queue) => if some_ && idle e.2 then (e.1, { e.2 with mapped := none }) else e } }
  (sortBy (pendingBefore s.now) (s1.fe.queues.filter fun e => e.2.pending)).foldl (fun s u => s.mapQueue u) s1

/-! ## The event ring (R373) -/

/-- R352, R373: whether the ring is enabled. -/
def EventRing.on (e : EventRing) : Bool := decide (4 ≤ e.log2n ∧ e.log2n ≤ 16)

/-- R373: whether the ring has room. -/
def EventRing.room (e : EventRing) : Bool := e.on && e.wr - e.rd != BitVec.ofNat 64 (2 ^ e.log2n)

/-- FE writes at an offset of the ring's control line. -/
def State.evWrite (s : State) (ofs : Nat) (bs : List Byte) : State :=
  let ev := s.fe.ev
  if ev.host then s.poke true (ev.base.toNat + ofs) bs else s.feWrite 0 (ev.base + BitVec.ofNat 64 ofs) bs

def State.setEv (s : State) (f : EventRing → EventRing) : State := { s with fe := { s.fe with ev := f s.fe.ev } }

/-- R373: the 32 bytes of a record. -/
def EventRec.bytes (e : EventRec) : List Byte :=
  leBytes 2 e.type ++ leBytes 2 e.qid ++ leBytes 4 e.count ++ leBytes 8 e.seq ++ leBytes 8 e.d0.toNat ++ leBytes 8 e.d1.toNat

/-- R95: the lines of the ring that the next record is written to; false while FE must wait for one. -/
def State.evReach (s : State) : State × Bool :=
  let ev := s.fe.ev
  if ev.host then (s, true)
  else s.feReach 0 true [(ev.base.toNat, 8), (ev.base.toNat + 128 + 32 * (ev.wr.toNat % 2 ^ ev.log2n), 32)]

/-- R373: a record, then WR, then the interrupt. -/
def State.evPut (s : State) (e : EventRec) : State :=
  let ev := s.fe.ev
  let s1 := s.evWrite (128 + 32 * (ev.wr.toNat % 2 ^ ev.log2n)) (EventRec.bytes e)
  let s2 := s1.evWrite 0 (leBytes 8 (ev.wr + 1).toNat)
  (s2.setEv fun v => { v with wr := v.wr + 1 }).raiseMsix ev.msix

/-- A held queue error as its record. -/
def QueueError.record (q : Nat) (e : QueueError) : EventRec :=
  ⟨1, q, 1, e.seq, e.index, BitVec.ofNat 64 (e.err % 256 + 2 ^ 8 * (e.detail.toNat % 2 ^ 56))⟩

/-- R373: an event that finds the ring full or disabled is held: a queue error with its queue, a loss merged by address
space, a stale write in its buffer or dropped. -/
def State.evHold (s : State) (e : EventRec) : State :=
  if e.type = 1 then
    match s.queue? e.qid with
    | none => s.hold (.eventRecordWrite e)
    | some _ =>
      ((s.setQueue e.qid fun q => { q with held := q.held ++
        [⟨e.seq, e.d0, e.d1.toNat % 256, BitVec.ofNat 64 (e.d1.toNat / 256)⟩] }).setEv fun v => { v with ovf := v.ovf + 1 }).writeStatus e.qid
  else if e.type = 3 then
    let same (r : EventRec) : Bool := r.d1.toNat % 4096 == e.d1.toNat % 4096
    if s.fe.ev.losses.any same then
      s.setEv fun v => { v with losses := v.losses.map fun r => if same r then { r with count := r.count + e.count } else r }
    else if s.fe.ev.losses.length < 64 then s.setEv fun v => { v with losses := v.losses ++ [e] }
    else s.hold (.eventRecordWrite e)
  else if s.fe.ev.stale.length < 512 then s.setEv fun v => { v with stale := v.stale ++ [e] }
  else s.setEv fun v => { v with drop := v.drop + 1 }

/-- EVENT_RECORD_WRITE (R373). -/
def eventRecordWrite (e : EventRec) (s : State) : State :=
  if s.fe.ev.room then
    match s.evReach with
    | (s1, true) => s1.evPut e
    | (s1, false) => s1.hold (.eventRecordWrite e)
  else s.evHold e

/-- The events held, in order of their sequence numbers. -/
def State.heldEvents (s : State) : List EventRec :=
  sortBy (fun (a b : EventRec) => decide (a.seq < b.seq))
    (s.fe.queues.flatMap (fun (e : Nat × Queue) => e.2.held.map fun h => QueueError.record e.1 h) ++ s.fe.ev.losses ++ s.fe.ev.stale)

/-- R373: a held event is written, and held no more. -/
def State.evUnhold (s : State) (e : EventRec) : State :=
  if e.type = 1 then
    ((s.evPut e).setQueue e.qid fun q => { q with held := q.held.filter fun h => h.seq != e.seq }).writeStatus e.qid
  else (s.evPut e).setEv fun v => { v with
    losses := v.losses.filter fun r => r.seq != e.seq, stale := v.stale.filter fun r => r.seq != e.seq }

/-- R373: a held event is written where space is free. -/
def State.evRelease (s : State) (e : EventRec) : State :=
  if !s.fe.ev.room then s
  else match s.evReach with
    | (s1, true) => s1.evUnhold e
    | (s1, false) => s1

/-- R373: held events are written while space is free. -/
def State.evDrain (s : State) : State := s.heldEvents.foldl (fun s e => s.evRelease e) s

/-- EVENT_RING_SPACE (R373): RD by the maximum rule, then the events held. -/
def eventRingSpace (rd : DWord) (s : State) : State :=
  let s1 := (s.setEv fun v => { v with rd := if v.rd.toNat < rd.toNat then rd else v.rd }).evDrain
  if s1.fe.ev.room && !s1.heldEvents.isEmpty then s1.hold (.eventRingSpace rd) else s1

/-- EVENT_RING_RESTART (R373, R352): EVBASE or EVCTL written. -/
def eventRingRestart (ctl : Bool) (value : DWord) (s : State) : State :=
  let s1 := s.setEv fun v =>
    if ctl then { v with host := value.getLsbD 27, msix := (value.extractLsb' 16 11).toNat, log2n := (value.extractLsb' 0 5).toNat,
                         wr := 0, rd := 0 }
    else { v with base := value &&& ~~~127#64, wr := 0, rd := 0 }
  (s1.evWrite 0 (leBytes 8 0)).evDrain

/-! ## Meanings -/

/-- QUEUE_CREATE (R353). -/
def execQueueCreate (qid : Nat) (s : State) : Host.Outcome State Fault Refusal :=
  .next (Sys2Proof.Machine.queueCreate qid s)

/-- QUEUE_DESTROY (R353). -/
def execQueueDestroy (qid : Nat) (s : State) : Host.Outcome State Fault Refusal :=
  .next (Sys2Proof.Machine.queueDestroy qid s)

/-- QUEUE_RESUME (R353). -/
def execQueueResume (qid : Nat) (s : State) : Host.Outcome State Fault Refusal :=
  .next (Sys2Proof.Machine.queueResume qid s)

/-- QUEUE_HALT (R353). -/
def execQueueHalt (qid : Nat) (s : State) : Host.Outcome State Fault Refusal :=
  .next (Sys2Proof.Machine.queueHalt qid s)

/-- TAIL_UPDATE (R355). -/
def execTailUpdate (qid : Nat) (value : DWord) (s : State) : Host.Outcome State Fault Refusal :=
  .next (Sys2Proof.Machine.tailUpdate qid value s)

/-- PACKET_ACCEPT (R355). -/
def execPacketAccept (qid : Nat) (s : State) : Host.Outcome State Fault Refusal :=
  .next (Sys2Proof.Machine.packetAccept qid s)

/-- PACKET_START (R356). -/
def execPacketStart (qid : Nat) (seq : Nat) (s : State) : Host.Outcome State Fault Refusal :=
  .next (Sys2Proof.Machine.packetStart qid seq s)

/-- WAIT_SIGNALS (R358). -/
def execWaitSignals (qid : Nat) (seq : Nat) (s : State) : Host.Outcome State Fault Refusal :=
  .next (Sys2Proof.Machine.waitSignals qid seq s)

/-- WAIT_SIGNALS_TIMEOUT (R374). -/
def execWaitSignalsTimeout (qid : Nat) (seq : Nat) (s : State) : Host.Outcome State Fault Refusal :=
  .next (Sys2Proof.Machine.waitSignalsTimeout qid seq s)

/-- SIGNAL (R358). -/
def execSignal (qid : Nat) (seq : Nat) (s : State) : Host.Outcome State Fault Refusal :=
  .next (Sys2Proof.Machine.signal qid seq s)

/-- CATALOGUE_UPDATE (R160). -/
def execCatalogueUpdate (qid : Nat) (seq : Nat) (s : State) : Host.Outcome State Fault Refusal :=
  .next (Sys2Proof.Machine.catalogueUpdate qid seq s)

/-- EVENT_RECORD_WRITE (R373). -/
def execEventRecordWrite (e : EventRec) (s : State) : Host.Outcome State Fault Refusal :=
  .next (Sys2Proof.Machine.eventRecordWrite e s)

/-- EVENT_RING_SPACE (R373). -/
def execEventRingSpace (rd : DWord) (s : State) : Host.Outcome State Fault Refusal :=
  .next (Sys2Proof.Machine.eventRingSpace rd s)

/-- EVENT_RING_RESTART (R373). -/
def execEventRingRestart (ctl : Bool) (value : DWord) (s : State) : Host.Outcome State Fault Refusal :=
  .next (Sys2Proof.Machine.eventRingRestart ctl value s)

/-- MAPPING_PASS (R360). -/
def execMappingPass (s : State) : Host.Outcome State Fault Refusal :=
  .next (Sys2Proof.Machine.mappingPass s)

end Sys2Proof.Machine
end

