-- ==== Sys2Proof/Machine/Matrix.lean ====
section
/-! DEFINITION. The matrix engine (11, R269 to R295): accumulator tiles and their claim, MMA and MMAS step by step, ACCZ,
ACCLD and ACCST with their drain, ACCK, FMTSET and OPFENCE. -/

namespace Sys2Proof.Machine

/-! ## Tiles (R269, R270) -/

/-- The number of an element in the accumulator file. -/
def accKey (t m c : Nat) : Nat := t * 2 ^ 14 + m * 2 ^ 7 + c

def Core.accGet (co : Core) (t m c : Nat) : Word := SMap.get 0 co.acc (accKey t m c)

/-- A tile's elements replaced. -/
def Core.accSet (co : Core) (t : Nat) (f : Nat → Nat → Word) : Core :=
  let fresh := (List.range (2 ^ 14)).filterMap fun k =>
    let v := f (k / 2 ^ 7) (k % 2 ^ 7)
    if v = 0 then none else some (t * 2 ^ 14 + k, v)
  { co with
    acc := (co.acc.filter fun e => decide (e.1 < t * 2 ^ 14)) ++ fresh ++ co.acc.filter fun e => decide ((t + 1) * 2 ^ 14 ≤ e.1)
    written := SMap.set false co.written t true }

/-- A status word of zeros. -/
def TileStatus.zero : TileStatus := ⟨false, 0, 0, 0⟩

def Core.tile (co : Core) (t : Nat) : TileStatus := (Tab.find co.tiles t).getD TileStatus.zero

def Core.setTile (co : Core) (t : Nat) (f : TileStatus → TileStatus) : Core := { co with tiles := Tab.put co.tiles t (f (co.tile t)) }

/-- R270: BUSY: an accepted operation that names the tile has not completed. -/
def Core.tileBusy (co : Core) (t : Nat) : Bool := (co.arrayQ ++ co.drainQ).any fun o => o.tile == t

/-- R270: the status word. -/
def Core.statusWord (co : Core) (t : Nat) : Word :=
  let st := co.tile t
  BitVec.ofNat 32 (st.kDone % 2 ^ 13 + 2 ^ 13 * (st.kTot % 2 ^ 13) + 2 ^ 26 * st.flags.toNat + (if st.flt then 2 ^ 30 else 0)
    + (if co.tileBusy t then 2 ^ 31 else 0))

/-- R269: the claim of a core's accumulator file: every element +0 and every status word 0. -/
def State.claimAcc (s : State) (core block : Nat) : State :=
  if (s.core core).accClaim = some block then s
  else s.setCore core fun co => { co with accClaim := some block, acc := [], tiles := [], written := [] }

/-- R269: whether a block may issue a matrix instruction on a core. -/
def State.accFree (s : State) (core block : Nat) : Bool :=
  match (s.core core).accClaim with
  | none => true
  | some b => b == block

/-- Flags gathered in a tile's status (R270). -/
def Core.tileFlags (co : Core) (t : Nat) (fl : FFlags) : Core := co.setTile t fun st => { st with flags := st.flags ||| fl }

/-! ## Issue (R271, R278, R279, R287, R288) -/

/-- R271: room in the engine and under the token in every member. -/
def State.matRoom (s : State) (core : Nat) (ms : List Nat) (flag : Nat) : Bool :=
  decide ((s.core core).arrayQ.length + (s.core core).drainQ.length < Config.matrixOps)
    && ms.all fun m => decide (SMap.get 0 (s.warp m).tokens flag < Config.matrixOpsPerToken)

/-- The operation of an issue, before its checks. -/
def matrixOp (f : Form) (kind : Nat) (ld : TRef) (ms : List Nat) (o : Operands) (s : State) : MatrixOp :=
  let wp := s.warp ld.warp
  let b := s.block wp.block
  let sub := f.x.sub
  let mma := decide (kind < 2)
  { id := s.nextId, members := ms, block := wp.block, asid := wp.asid, gen := s.genAt wp.core wp.asid
    token := 8 + sub.toNat % 4, pos := s.cur.pos, kind := kind
    mem := !mma && sub.getLsbD 2, add := !mma && sub.getLsbD 3, planes := !mma && sub.getLsbD 4, c4 := mma && sub.getLsbD 5
    ty := f.x.ty, fmt := f.x.fmt.toNat, fmts := (List.range 8).map b.fmtReg, rnd := f.x.rnd, sat := f.x.sat
    tile := if mma then sub.toNat / 4 % 8 else o.c.toNat % 8
    a := if mma then (o.a.extractLsb' 0 32).setWidth 64 else o.a
    sm := (o.a.extractLsb' 32 32).toNat, b := (o.b.setWidth 32).toNat, stride := (o.b.setWidth 32).toNat
    kDone := 0, kTot := (o.c.setWidth 32).toNat, started := false, opnd := [o.a, o.b, o.c], linesLeft := [], outstanding := 0, gwct := 0, fault := none, raced := false }

/-- R288: the stride's rule. -/
def MatrixOp.strideOk (o : MatrixOp) : Bool :=
  o.stride == 0 || (!o.planes && decide (o.stride < 2 ^ 31) && decide (o.rowSize ≤ o.stride)
    && o.stride % (if o.ty = .fmt then 64 else wideSize o.ty) == 0)

/-- R288: the alignment of the rows. -/
def MatrixOp.align (o : MatrixOp) : Nat := if o.planes then 128 else if o.ty = .fmt then 64 else wideSize o.ty

/-- R162, R163, R186, R279: scratchpad ranges of a set: every range's window first, then ownership. -/
def State.matScratch (s : State) (warp : Nat) (ms : List Nat) (ranges : List (Nat × Nat)) : Option Report :=
  match ranges.findSome? fun r => match s.saPlace warp r.1 r.2 with
    | .error e => some e
    | .ok _ => none with
  | some e => some e
  | none => ranges.findSome? fun r => match s.saCheck warp ms r.1 r.2 with
    | .error e => some e
    | .ok _ => none

/-- R279: the checks of an MMA or MMAS. -/
def State.mmaCheck (s : State) (ld : TRef) (ms : List Nat) (o : MatrixOp) : Option Report :=
  if o.kTot = 0 ∨ 4096 < o.kTot ∨ (o.kind = 0 ∧ o.sm ≠ 0) then some s.illegal
  else match o.images.find? fun r => r.1 % 128 != 0 with
    | some r => some (report clsMisaligned 0 (BitVec.ofNat 64 r.1))
    | none => s.matScratch ld.warp ms o.images

/-- R288: the pages that a memory operand's rows touch. -/
def MatrixOp.pages (o : MatrixOp) : List Nat :=
  ((List.range tileSide).flatMap fun m =>
    let va := o.a.toNat + m * o.rowStep
    let next := (va / 65536 + 1) * 65536
    va :: (if next < va + o.rowSize then [next] else [])).foldl (fun acc va =>
      if acc.any fun v => v / 65536 == va / 65536 then acc else acc ++ [va]) []

/-- R77, R78, R288: the pages translated with the access the operation needs. -/
def State.matPages (s : State) (core : Nat) (o : MatrixOp) : Except Report State :=
  o.pages.foldl (fun (acc : Except Report State) va => match acc with
    | .error r => .error r
    | .ok s =>
      let (e, s1) := s.xlate core o.asid (BitVec.ofNat 64 va)
      match xlateCause e (o.kind == 3 || o.add) (o.kind == 4) false with
      | some c => .error (report clsLease c (BitVec.ofNat 64 va))
      | none => .ok s1) (.ok s)

/-- R288: the checks of ACCLD and ACCST. -/
def State.rowsCheck (s : State) (ld : TRef) (ms : List Nat) (o : MatrixOp) : Except Report State :=
  if !o.strideOk then .error s.illegal
  else if o.a.toNat % o.align ≠ 0 then .error (report clsMisaligned 0 o.a)
  else if o.mem then s.matPages (s.warp ld.warp).core o
  else match s.matScratch ld.warp ms [(o.a.toNat, o.span)] with
    | some r => .error r
    | none => .ok s

/-! ### Operands that are not in place (R285) -/

/-- The scratchpad ranges that an operation reads. -/
def MatrixOp.reads (o : MatrixOp) : List (Nat × Nat) :=
  if o.kind < 2 then o.images else if o.kind = 3 ∧ !o.mem then [(o.a.toNat, o.span)] else []

/-- The scratchpad writes that meet what an operation reads. -/
def State.racesOf (s : State) (core : Nat) (o : MatrixOp) : List Race :=
  (s.block o.block).races.filter fun r => o.reads.any fun g =>
    let p := s.matPlace core o.block g.1
    r.place == p.place && meet p.ofs g.2 r.ofs r.bytes

/-- R284, R285: whether a write is in place for an operation: an engine's has been waited for; another warp's is covered by an
OPFENCE of a member. -/
def Race.inPlace (r : Race) (ms : List Nat) : Bool :=
  r.token.isNone && (r.warps.any ms.contains || ms.any r.fenced.contains)

/-- R285: whether what an operation reads is not in place as it issues: a write, or a copy that has not posted. -/
def State.racedIssue (s : State) (core : Nat) (o : MatrixOp) : Bool :=
  ((s.racesOf core o).any fun r => !r.inPlace o.members)
    || o.reads.any fun g => (s.block o.block).places.any fun c => (s.core c).copies.any fun p =>
        p.block == o.block && s.copyInto p (s.matPlace core o.block g.1) g.2

/-- R285: whether what an operation accumulates is unpredictable: it was so as it issued, or a write has come since. -/
def State.racedNow (s : State) (core : Nat) (o : MatrixOp) : Bool :=
  o.raced || (s.racesOf core o).any fun r => decide (o.id < r.id)

/-- A tile of free values. -/
def State.freeTile (s : State) (core tile : Nat) : State :=
  let base := s.freeCtr
  { s with freeCtr := s.freeCtr + 2 ^ 14 }.setCore core fun co =>
    co.accSet tile fun m c => (Config.freeValue (base + 128 * m + c)).setWidth 32

/-- R271, R272: a checked operation accepted. -/
def State.acceptMatrix (s : State) (core : Nat) (o : MatrixOp) : State :=
  let s1 := o.members.foldl (fun s m => s.takeToken m o.token) ((s.claimAcc core o.block).fresh)
  let s2 := s1.setCore core fun co =>
    if o.kind = 4 then { co with drainQ := co.drainQ ++ [o] } else { co with arrayQ := co.arrayQ ++ [o] }
  if o.kind < 2 then s2.send (.matrixKStep core) else s2.send (.matrixOpComplete core o.id)

/-- MMA, MMAS, ACCZ, ACCLD and ACCST as they issue (R271). -/
def matrixIssue (i : Instr) (kind : Nat) (s : State) : State :=
  let f := i.form
  s.onceFor i fun ld o s =>
    let core := (s.warp ld.warp).core
    let ms := s.setOf ld.warp
    let op := matrixOp f kind ld ms o s
    let checked : Except Report State :=
      if kind < 2 then (match s.mmaCheck ld ms op with
        | some r => .error r
        | none => .ok s)
      else if kind = 2 then .ok s else s.rowsCheck ld ms op
    match checked with
    | .error r => .fault r
    | .ok s1 => if !(s1.accFree core op.block && s1.matRoom core ms op.token) then .retry
      else .done (s1.acceptMatrix core { op with raced := s1.racedIssue core op })

/-! ## A k-step (R273 to R275, R280, R281, R283) -/

/-- A row of a step: none for a zero block, else its elements with their scale. -/
abbrev RowVals := Option (List FVal)

/-- R275, R227, R228: a row's block from a panel: its element values, reading only the format's planes. -/
def blockRow (fmts : List Word) (container : Nat) (b : List Byte) : Except Nat RowVals :=
  let code := (b.getD 0 0).toNat
  let q := (b.getD 1 0).toNat
  if code = 0 then .ok none
  else match codeFormat fmts container code with
    | .error c => .error c
    | .ok f =>
      let n := elemsPerBlock container
      if q = 0xFF then (if f.hasNan then .ok (some (List.replicate n (.nan false))) else .error 3)
      else .ok (some ((List.range n).map fun j => (f.decode (payloadCode container (b.drop 2) j % 2 ^ f.width)).scale ((q : Int) - 127)))

/-- Scratchpad bytes that an operation reads at an SA. -/
def State.matBytes (s : State) (core : Nat) (o : MatrixOp) (sa n : Nat) : List Byte :=
  let p := s.matPlace core o.block sa
  (s.block o.block).read p.place p.ofs n

/-- R273, R274: the 128 rows of panel `j` of an operand at an SA. -/
def State.panelRows (s : State) (core : Nat) (o : MatrixOp) (sa j : Nat) : List (Except Nat RowVals) :=
  let panel := s.matBytes core o (sa + matPanel o.ty * j) (matPanel o.ty)
  (List.range tileSide).map fun r =>
    if o.ty = .fmt then
      let cont := if o.c4 then 4 else 8
      blockRow o.fmts cont (panelBlock cont panel r)
    else .ok (some ((List.range 32).map fun p => (fmtOfTy o.ty).decode (ofLeBytes ((panel.drop (64 * r + 2 * p)).take 2))))

/-- All the rows of a panel, or the first failing row's cause. -/
def goodRows : List (Except Nat RowVals) → Except Nat (List RowVals)
  | [] => .ok []
  | .error c :: _ => .error c
  | .ok r :: rest =>
    match goodRows rest with
    | .error c => .error c
    | .ok rs => .ok (r :: rs)

/-- R281: nibble `g` of a metadata row. -/
def metaNibble (row : List Byte) (g : Nat) : Nat := (row.getD (g / 2) 0).toNat / 2 ^ (4 * (g % 2)) % 16

/-- R281: a metadata row of `groups` groups that keeps its rules. -/
def metaOk (groups : Nat) (row : List Byte) : Bool :=
  (List.range 64).all fun g =>
    let n := metaNibble row g
    if g < groups then decide (n % 4 < n / 4) else n == 0

/-- A product at a position: a zero block's position is a +0 term (R432). -/
def matTerm (a b : Option FVal) : FVal × Bool :=
  match a, b with
  | some x, some y => let p := x.mul y; (p.1, p.2 || p.1.isNan)
  | _, _ => (plusZero, false)

/-- Element `p` of a row, none in a zero block. -/
def rowAt (r : RowVals) (p : Nat) : Option FVal := r.map fun xs => xs.getD p plusZero

/-- R280, R281, R237: the terms of an output position. For MMAS the row's metadata select the B positions, and the positions that
they skip are +0 terms (R432). -/
def stepTerms (kb : Nat) (sparse : Bool) (a : RowVals) (nib : List Byte) (b0 b1 : RowVals) : List (FVal × Bool) :=
  if !sparse then (List.range kb).map fun p => matTerm (rowAt a p) (rowAt b0 p)
  else (plusZero, false) :: (List.range kb).map fun k =>
    let n := metaNibble nib (k / 2)
    let p := 4 * (k / 2) + (if k % 2 = 0 then n % 4 else n / 4)
    matTerm (rowAt a k) (if p < kb then rowAt b0 p else rowAt b1 (p - kb))

/-- R237, R280: an accumulator element after a step, and the flags. -/
def accStep (old : Word) (ts : List (FVal × Bool)) : Word × FFlags :=
  let (v, n1) := sumTerms .rn (ts.map (·.1))
  let (w, n2) := sumTerms .rn [fp32.decode old.toNat, v]
  let r := roundTo fp32 .rn false w
  (BitVec.ofNat 32 r.1, r.2 ||| flagIf (ts.any (·.2) || n1 || n2) nvFlag)

/-- What a step reads: the rows of A, of B's panel or two, and the metadata rows. -/
structure StepData where
  a : List RowVals
  b0 : List RowVals
  b1 : List RowVals
  nib : List (List Byte)

/-- R274, R276: elements of a block, or of a unit. -/
def MatrixOp.kb (o : MatrixOp) : Nat := if o.ty = .fmt then elemsPerBlock (if o.c4 then 4 else 8) else 32

/-- R283: every block and metadata row of step `j` checked: A, then B, then the metadata. -/
def State.stepData (s : State) (core : Nat) (o : MatrixOp) (j : Nat) : Except Nat StepData :=
  let sparse := o.kind == 1
  match goodRows (s.panelRows core o o.a.toNat j) with
  | .error c => .error c
  | .ok a =>
    match goodRows (s.panelRows core o o.b (if sparse then 2 * j else j)), (if sparse then goodRows (s.panelRows core o o.b (2 * j + 1)) else .ok []) with
    | .error c, _ => .error c
    | _, .error c => .error c
    | .ok b0, .ok b1 =>
      let nib := if sparse then (List.range tileSide).map fun m => s.matBytes core o (o.sm + 4096 * j + 32 * m) 32 else []
      if sparse && (List.range tileSide).any fun m => (a.getD m none).isSome && !metaOk (o.kb / 2) (nib.getD m []) then .error 5
      else .ok ⟨a, b0, b1, nib⟩

/-- R280: a step's effect on an element. -/
def stepElem (o : MatrixOp) (d : StepData) (old : Word) (m c : Nat) : Word × FFlags :=
  accStep old (stepTerms o.kb (o.kind == 1) (d.a.getD m none) (d.nib.getD m []) (d.b0.getD c none) (d.b1.getD c none))

/-- R280, R296: a step applied to a tile whole. -/
def Core.applyStep (co : Core) (o : MatrixOp) (d : StepData) : Core :=
  let new (m c : Nat) : Word × FFlags := stepElem o d (co.accGet o.tile m c) m c
  let flags := (List.range (2 ^ 14)).foldl (fun a k => a ||| (new (k / 2 ^ 7) (k % 2 ^ 7)).2) (0 : FFlags)
  (co.accSet o.tile fun m c => (new m c).1).tileFlags o.tile flags

/-! ## Completion (R271, R283, R292) -/

/-- An operation changed in its queue. -/
def State.setMatrix (s : State) (core id : Nat) (f : MatrixOp → MatrixOp) : State :=
  s.setCore core fun co =>
    let g := fun (o : MatrixOp) => if o.id = id then f o else o
    { co with arrayQ := co.arrayQ.map g, drainQ := co.drainQ.map g }

/-- R271, R283, R292: an operation completes: its token in every member, and its fault deferred to their waits. -/
def State.completeMatrix (s : State) (core : Nat) (o : MatrixOp) : State :=
  let s1 := s.setCore core fun co => { co with
    arrayQ := co.arrayQ.filter fun p => p.id != o.id, drainQ := co.drainQ.filter fun p => p.id != o.id }
  o.members.foldl (fun s m =>
    let s2 := s.postToken m o.token o.gwct
    match o.fault with
    | some r => s2.deferFault m o.token o.pos r o.members
    | none => s2) s1

/-- R272: whether an array operation may write its tile: every earlier drain of it has read it all. -/
def Core.arrayMay (co : Core) (o : MatrixOp) : Bool :=
  co.drainQ.all fun d => d.tile != o.tile || decide (o.id < d.id) || (d.started && d.linesLeft.isEmpty)

/-- R272: whether a drain may start: it is the oldest, and every earlier array operation on its tile has completed. -/
def Core.drainMay (co : Core) (o : MatrixOp) : Bool :=
  (co.drainQ.head?.map MatrixOp.id) == some o.id && co.arrayQ.all fun p => p.tile != o.tile || decide (o.id < p.id)

/-- R270, R280: the start of an MMA or MMAS. -/
def State.startMma (s : State) (core : Nat) (o : MatrixOp) : State :=
  (s.setMatrix core o.id fun o => { o with started := true }).setCore core fun co =>
    { co.setTile o.tile fun st => { st with kTot := o.kTot, kDone := 0, flt := false } with written := SMap.set false co.written o.tile true }

/-- A step has been applied: the operation completes, or goes on. -/
def State.stepped (s : State) (core : Nat) (o : MatrixOp) : State :=
  let s1 := s.setCore core fun co => co.setTile o.tile fun st => { st with kDone := o.kDone + 1 }
  if o.kTot ≤ o.kDone + 1 then s1.completeMatrix core o
  else (s1.setMatrix core o.id fun o => { o with kDone := o.kDone + 1 }).send (.matrixKStep core)

/-- One step of the running operation, or its end by a format fault (R283); on operands that are not in place it raises nothing and
accumulates free values (R285). -/
def State.runStep (s : State) (core : Nat) (o : MatrixOp) : State :=
  if s.racedNow core o then (s.freeTile core o.tile).stepped core o
  else match s.stepData core o o.kDone with
  | .error c =>
    let r : Report := ⟨clsFormat, c, 0, 0, o.kDone + 1, true, o.pos⟩
    (s.setCore core fun co => co.setTile o.tile fun st => { st with flt := true }).completeMatrix core { o with fault := some r }
  | .ok d => (s.setCore core fun co => co.applyStep o d).stepped core o

/-- MATRIX_K_STEP (R280, R283): the array applies one step of the operation at its head. -/
def matrixKStep (core : Nat) (s : State) : State :=
  let co := s.core core
  match co.arrayQ with
  | [] => s
  | o :: _ =>
    if 2 ≤ o.kind then (if co.arrayQ.any fun p => decide (p.kind < 2) then s.hold (.matrixKStep core) else s)
    else if !co.arrayMay o then s.hold (.matrixKStep core)
    else (if o.started then s else s.startMma core o).runStep core o

/-! ## ACCLD and ACCST (R288 to R292) -/

/-- A row's bytes as ACCLD reads them; none where a read is rejected. -/
def State.rowBytes (s : State) (core : Nat) (o : MatrixOp) (m : Nat) : Option (List Byte) :=
  let at_ := o.a.toNat + m * o.rowStep
  if !o.mem then some (s.matBytes core o at_ o.rowSize)
  else
    let next := (at_ / 65536 + 1) * 65536
    let first := min o.rowSize (next - at_)
    match s.engineRead o.asid o.gen (dieOfCore core) at_ first, (if first = o.rowSize then some []
        else s.engineRead o.asid o.gen (dieOfCore core) next (o.rowSize - first)) with
    | some a, some b => some (a ++ b)
    | _, _ => none

/-- R289: an element converted exactly to FP32, and its flags. -/
def loadElem (ty : Ty) (bits : Nat) : Word × FFlags :=
  let v := (fmtOfTy ty).decode bits
  if ty = .f32 ∧ !v.isNan then (BitVec.ofNat 32 bits, 0)
  else
    let r := roundTo fp32 .rn false v
    (BitVec.ofNat 32 r.1, r.2)

/-- ACCLD's effect (R289); a tile of free values after a rejected read, or from rows that are not in place (R285). -/
def State.loadTile (s : State) (core : Nat) (o : MatrixOp) : State × Option Report :=
  let free := (s.freeTile core o.tile).setCore core fun co => co.setTile o.tile fun _ => TileStatus.zero
  if s.racedNow core o then (free, none)
  else match (List.range tileSide).mapM (s.rowBytes core o) with
  | none => (free, some (report clsStaleGen 0 0))
  | some rows =>
    let sz := wideSize o.ty
    let elem (m c : Nat) : Word × FFlags := loadElem o.ty (ofLeBytes (((rows.getD m []).drop (sz * c)).take sz))
    let flags := (List.range (2 ^ 14)).foldl (fun a k => a ||| (elem (k / 2 ^ 7) (k % 2 ^ 7)).2) (0 : FFlags)
    (s.setCore core fun co => (co.accSet o.tile fun m c => (elem m c).1).setTile o.tile fun _ => { TileStatus.zero with flags := flags }, none)

/-- R290: an element of a wide type as the drain writes it. -/
def drainElem (o : MatrixOp) (w : Word) : Nat × FFlags :=
  if o.ty = .f32 then (w.toNat, 0) else roundTo (fmtOfTy o.ty) o.rnd o.sat (fp32.decode w.toNat)

/-- R290: the blocks of a row of a TYPE 14 drain. -/
def drainBlocks (o : MatrixOp) (row : List Word) : List (List Byte × FFlags) :=
  let f := Fmt.ofWord (o.fmts.getD o.fmt 0x00007B34)
  let n := elemsPerBlock f.container
  (List.range o.rowBlocks).map fun b =>
    formBlock (0x80 + o.fmt) f o.rnd ((List.range n).map fun j => match row[b * n + j]? with
      | some w => fp32.decode w.toNat
      | none => plusZero)

/-- A tile's row. -/
def Core.accRow (co : Core) (t m : Nat) : List Word := (List.range tileSide).map (co.accGet t m)

/-- R290: a row's bytes, and its flags. -/
def drainRow (o : MatrixOp) (row : List Word) : List Byte × FFlags :=
  if o.ty = .fmt then
    let bs := drainBlocks o row
    (bs.flatMap (·.1), bs.foldl (fun a b => a ||| b.2) 0)
  else
    let es := row.map (drainElem o)
    (es.flatMap fun e => leBytes (wideSize o.ty) e.1, es.foldl (fun a e => a ||| e.2) 0)

/-- R291: an element added to what the destination holds, and its flags. -/
def addElem (o : MatrixOp) (d : Nat) (w : Word) : Nat × FFlags :=
  let f := fmtOfTy o.ty
  let x := f.decode d
  let y := fp32.decode w.toNat
  let (v, nv) := sumTerms o.rnd [x, y]
  let r := roundTo f o.rnd o.sat v
  (r.1, r.2 ||| flagIf nv nvFlag ||| snanFlag [x, y])

/-- Scratchpad bytes that a drain writes. -/
def State.matWrite (s : State) (core : Nat) (o : MatrixOp) (sa : Nat) (bs : List Byte) : State :=
  s.scratchWrite o.block (s.matPlace core o.block sa) bs o.members core (some o.token)

/-- R290: a drain to scratchpad, whole. -/
def State.drainScratch (s : State) (core : Nat) (o : MatrixOp) : State :=
  let co := s.core core
  let rows := (List.range tileSide).map (co.accRow o.tile)
  if o.planes then
    let bs := rows.map (drainBlocks o)
    let fl := (bs.flatMap fun r => r.map (·.2)).foldl (· ||| ·) (0 : FFlags)
    (s.matWrite core o o.a.toNat (imageOfBlocks o.container true (bs.map fun r => r.map (·.1)))).setCore core fun co => co.tileFlags o.tile fl
  else
    let one (row : List Word) (m : Nat) : List Byte × FFlags :=
      if !o.add then drainRow o row
      else
        let sz := wideSize o.ty
        let old := s.matBytes core o (o.a.toNat + m * o.rowStep) o.rowSize
        let es := row.zipIdx.map fun e => addElem o (ofLeBytes ((old.drop (sz * e.2)).take sz)) e.1
        (es.flatMap fun e => leBytes sz e.1, es.foldl (fun a e => a ||| e.2) 0)
    let out := rows.zipIdx.map fun r => one r.1 r.2
    let s1 := (out.zipIdx).foldl (fun s r => s.matWrite core o (o.a.toNat + r.2 * o.rowStep) r.1.1) s
    s1.setCore core fun co => co.tileFlags o.tile (out.foldl (fun a r => a ||| r.2) 0)

/-- R292: one line's piece of a drain to memory. -/
def State.drainPiece (s : State) (core : Nat) (o : MatrixOp) (die va : Nat) (bs : List Byte) : State :=
  let s1 := s.setMatrix core o.id fun o => { o with outstanding := o.outstanding + 1 }
  let (s2, ok) := s1.enginePiece o.asid o.gen die (.drain core o.id) va (fun ofs d => lineWrite ofs bs d) bs
  if ok then s2 else s2.setMatrix core o.id fun o => { o with fault := some (report clsStaleGen 0 0) }

/-- R290, R292: a drain to memory without .add. -/
def State.drainMem (s : State) (core : Nat) (o : MatrixOp) : State :=
  let co := s.core core
  let out := (List.range tileSide).map fun m => drainRow o (co.accRow o.tile m)
  let s1 := (out.zipIdx).foldl (fun s r =>
    (linePieces (o.a.toNat + r.2 * o.rowStep) r.1.1).foldl (fun s p =>
      if p.2.isEmpty then s else s.drainPiece core o (dieOfCore core) p.1 p.2) s) s
  s1.setCore core fun co => co.tileFlags o.tile (out.foldl (fun a r => a ||| r.2) 0)

/-- R291: the lines that an adding drain updates. -/
def MatrixOp.lines (o : MatrixOp) : List Nat :=
  ((List.range tileSide).flatMap fun m =>
    let va := o.a.toNat + m * o.rowStep
    (List.range ((va % 128 + o.rowSize + 127) / 128)).map fun i => va / 128 + i).dedup

/-- The start of a drain. -/
def State.startDrain (s : State) (core : Nat) (o : MatrixOp) : State :=
  let s1 := s.setMatrix core o.id fun o => { o with started := true }
  if !o.mem then s1.drainScratch core o
  else if !o.add then s1.drainMem core o
  else o.lines.foldl (fun s l => s.send (.accstAddLineUpdate core o.id l))
    (s1.setMatrix core o.id fun p => { p with linesLeft := o.lines })

/-- The elements of a tile that stand in a line: offset in the line, row and column. -/
def MatrixOp.inLine (o : MatrixOp) (line : Nat) : List (Nat × Nat × Nat) :=
  let sz := wideSize o.ty
  (List.range tileSide).flatMap fun m =>
    let va := o.a.toNat + m * o.rowStep
    (List.range tileSide).filterMap fun c =>
      let e := va + sz * c
      if e / 128 = line then some (e % 128, m, c) else none

/-- R291: a line after its share of an adding drain, and the flags. -/
def addLine (o : MatrixOp) (co : Core) (line : Nat) (d : LineData) : LineData × FFlags :=
  (o.inLine line).foldl (fun acc e =>
    let sz := wideSize o.ty
    let r := addElem o (lineGet acc.1 e.1 sz) (co.accGet o.tile e.2.1 e.2.2)
    (linePut acc.1 e.1 sz r.1, acc.2 ||| r.2)) (d, 0)

/-- The bytes of a line that an adding drain changes, at the line's address. -/
def addCells (o : MatrixOp) (line pa : Nat) (d : LineData) : List Host.Cell :=
  (o.inLine line).flatMap fun e => cellsAt (pa + e.1) (wideSize o.ty) (lineGet d e.1 (wideSize o.ty))

/-- ACCST_ADD_LINE_UPDATE (R291, R292, R433): one line's share, as one update at its home, or by FE for a host page. -/
def accstAddLineUpdate (core op line : Nat) (s : State) : State :=
  let co := s.core core
  match co.drainQ.find? fun o => o.id == op with
  | none => s
  | some o =>
    let waiter : Waiter := .drain core op
    match s.reachSpans o.asid o.gen Config.feDie true [(128 * line, 128)] with
    | (s0, false) => s0.hold (.accstAddLineUpdate core op line)
    | (s0, true) =>
      let s1 := s0.setMatrix core op fun o => { o with linesLeft := o.linesLeft.filter (· ≠ line), outstanding := o.outstanding + 1 }
      match s1.enginePlace o.asid o.gen (128 * line) true with
      | none => (s1.engineStale o.asid o.gen (128 * line) waiter).setMatrix core op fun o => { o with fault := some (report clsStaleGen 0 0) }
      | some (true, pa) =>
        let new := addLine o co line (s1.hostLine pa)
        ((s1.engineDrop waiter (dieOfCore core) true (pa / 128)).hostUpdate (addCells o line pa new.1) waiter).setCore core fun co =>
          co.tileFlags o.tile new.2
      | some (false, pa) =>
        let s2 := s1.engineDrop waiter (dieOfCore core) false (pa / 128)
        let new := addLine o co line (s2.homeLine (pa / 128)).value
        ((s2.enginePiece o.asid o.gen Config.feDie waiter (128 * line) (fun _ d => (addLine o co line d).1) []).1).setCore core fun co =>
          co.tileFlags o.tile new.2

/-- R80, R95, R102: the rows of an operation in memory as the engine reaches them; false while a line must be waited for. An adding
drain reaches its lines one by one. -/
def State.rowsReach (s : State) (core : Nat) (o : MatrixOp) (write : Bool) : State × Bool :=
  if o.mem && !o.add then
    s.reachSpans o.asid o.gen (dieOfCore core) write ((List.range tileSide).map fun m => (o.a.toNat + m * o.rowStep, o.rowSize))
  else (s, true)

/-- MATRIX_OP_COMPLETE (R271, R272, R289, R290): ACCZ, ACCLD and ACCST act in their turn and complete. -/
def matrixOpComplete (core op : Nat) (s : State) : State :=
  let co := s.core core
  match (co.arrayQ ++ co.drainQ).find? fun o => o.id == op with
  | none => s
  | some o =>
    if o.kind = 4 then
      let go := !o.started && co.drainMay o && s.writtenBefore o.members o.id
      let (s0, here) := if go then s.rowsReach core o true else (s, false)
      let s1 := if here then s0.startDrain core o else s0
      match (s1.core core).drainQ.find? fun p => p.id == op with
      | none => s1
      | some p =>
        if p.started && p.linesLeft.isEmpty && p.outstanding == 0 then s1.completeMatrix core p
        else s1.hold (.matrixOpComplete core op)
    else if (co.arrayQ.head?.map MatrixOp.id) ≠ some op ∨ !co.arrayMay o then s.hold (.matrixOpComplete core op)
    else if o.kind = 2 then
      (s.setCore core fun co => (co.accSet o.tile fun _ _ => 0).setTile o.tile fun _ => TileStatus.zero).completeMatrix core o
    else if !s.writtenBefore o.members o.id then s.hold (.matrixOpComplete core op)
    else match s.rowsReach core o false with
      | (s0, false) => s0.hold (.matrixOpComplete core op)
      | (s0, true) =>
        let (s1, r) := s0.loadTile core o
        s1.completeMatrix core { o with fault := r }

/-! ## ACCK, FMTSET, OPFENCE (R284, R293 to R295) -/

/-- ACCK (R293): the status word, or 0 in a block that does not hold the claim. -/
def acckOp : AluOp := fun _ o t s =>
  let wp := s.warp t.warp
  let co := s.core wp.core
  .ok (if co.accClaim = some wp.block then (co.statusWord (o.c.toNat % 8)).setWidth 64 else 0) false 0

/-- R295: the old value goes to the destination in every member warp. -/
def State.putUniforms (s : State) (d : Dst) (v : DWord) : State := s.groupWarps.foldl (fun s w => s.putUniform w d v) s

/-- FMTSET (R294, R295). -/
def fmtsetOp (i : Instr) (s : State) : State :=
  let f := i.form
  s.onceFor i fun ld o s =>
    let b := (s.warp ld.warp).block
    let n := f.x.sub.toNat % 8
    let v : Word := o.a.setWidth 32
    if v.extractLsb' 20 12 ≠ 0 ∨ v.getLsbD 3 ∨ !(Fmt.ofWord v).valid then .fault (report clsFormat 4 (v.setWidth 64))
    else .done ((s.putUniforms f.x.dst (((s.block b).fmtReg n).setWidth 64)).setBlock b fun bl =>
      { bl with fmts := SMap.set 0x00007B34 bl.fmts n v })

/-- R284: whether an OPFENCE of some warps on a core covers a write: it was made on that core, or its warp has released it and
one of them has acquired that release. -/
def Race.covered (r : Race) (core : Nat) (ws : List Nat) : Bool :=
  r.token.isNone && (r.core == core || (r.released && r.acquired.any ws.contains))

/-- OPFENCE (R284): every scratchpad write issued before has been applied when it issues (log 9); the matrix operations of its warps
see those that it covers. -/
def opfenceOp (i : Instr) (s : State) : State :=
  s.onceFor i fun ld _ s =>
    let wp := s.warp ld.warp
    let ws := s.groupWarps
    .done (s.mapRaces wp.block fun r => if r.covered wp.core ws then { r with fenced := (r.fenced ++ ws).dedup } else r)

/-! ## Meanings -/

/-- MMA (R280). -/
def execMma (g : Guard) (x : XForm) (s : State) : Host.Outcome State Fault Refusal :=
  .next (matrixIssue (Instr.mma g x) 0 s)

/-- MMAS (R281). -/
def execMmas (g : Guard) (x : XForm) (s : State) : Host.Outcome State Fault Refusal :=
  .next (matrixIssue (Instr.mmas g x) 1 s)

/-- ACCZ (R289). -/
def execAccz (g : Guard) (x : XForm) (s : State) : Host.Outcome State Fault Refusal :=
  .next (matrixIssue (Instr.accz g x) 2 s)

/-- ACCLD (R289). -/
def execAccld (g : Guard) (x : XForm) (s : State) : Host.Outcome State Fault Refusal :=
  .next (matrixIssue (Instr.accld g x) 3 s)

/-- ACCST (R290). -/
def execAccst (g : Guard) (x : XForm) (s : State) : Host.Outcome State Fault Refusal :=
  .next (matrixIssue (Instr.accst g x) 4 s)

/-- MATRIX_K_STEP (R280). -/
def execMatrixKStep (core : Nat) (s : State) : Host.Outcome State Fault Refusal :=
  .next (Sys2Proof.Machine.matrixKStep core s)

/-- ACCST_ADD_LINE_UPDATE (R291). -/
def execAccstAddLineUpdate (core : Nat) (op : Nat) (line : Nat) (s : State) : Host.Outcome State Fault Refusal :=
  .next (Sys2Proof.Machine.accstAddLineUpdate core op line s)

/-- MATRIX_OP_COMPLETE (R271). -/
def execMatrixOpComplete (core : Nat) (op : Nat) (s : State) : Host.Outcome State Fault Refusal :=
  .next (Sys2Proof.Machine.matrixOpComplete core op s)

/-- ACCK (R293). -/
def execAcck (g : Guard) (x : XForm) (s : State) : Host.Outcome State Fault Refusal :=
  .next (s.alu (Instr.acck g x) latF4 acckOp)

/-- FMTSET (R295). -/
def execFmtset (g : Guard) (x : XForm) (s : State) : Host.Outcome State Fault Refusal :=
  .next (fmtsetOp (Instr.fmtset g x) s)

/-- OPFENCE (R284). -/
def execOpfence (g : Guard) (s : State) : Host.Outcome State Fault Refusal :=
  .next (opfenceOp (Instr.opfence g) s)

end Sys2Proof.Machine
end

