-- ==== Sys2Proof/Machine/Loader.lean ====
section
/-! DEFINITION. ROUTINE-LOAD (14, R358): the loader's parse and checks of a code object (02 R51; 03 R66 to R69; 06 R133,
R136), its placement and relocation, and the result record. -/

namespace Sys2Proof.Machine

/-! ## The parse of a code section (R25, R26, R51) -/

/-- An instruction of a parsed clause: its offset in the section and its words. -/
structure CodeInstr where
  ofs : Nat
  words : List Word
  deriving DecidableEq, Repr

/-- A parsed clause. -/
structure Clause where
  ofs : Nat
  hdr : Header
  instrs : List CodeInstr
  deriving DecidableEq, Repr

/-- The first word of an instruction. -/
def CodeInstr.word (i : CodeInstr) : Word := i.words.headD 0
def CodeInstr.opc (i : CodeInstr) : Nat := (i.word.extractLsb' 8 7).toNat
def CodeInstr.len (i : CodeInstr) : Nat := (i.word.setWidth 2 : BitVec 2).toNat

/-- The offset of the instruction's literal, where it has one (R35). -/
def CodeInstr.literal (i : CodeInstr) : Option Nat :=
  if i.len = 2 then some (i.ofs + 4) else if i.len = 3 then some (i.ofs + 12) else none

/-- A word of a section. -/
def wordAt (bs : List Byte) (o : Nat) : Word := BitVec.ofNat 32 (field bs o 4)

/-- Instructions from an offset on, and the offset after them; or the offset of the doubleword that fails. -/
def parseInstrs (bs : List Byte) : Nat → Nat → Except Nat (List CodeInstr × Nat)
  | 0, o => .ok ([], o)
  | k + 1, o =>
    let n := wordsOfLen ((wordAt bs o).setWidth 2)
    if bs.length < o + 4 ∨ bs.length < o + 4 * n then .error (o / 8 * 8)
    else
      match parseInstrs bs k (o + 4 * n) with
      | .error e => .error e
      | .ok (is, last) => .ok (⟨o, (List.range n).map fun j => wordAt bs (o + 4 * j)⟩ :: is, last)

/-- R51, check 0x01: the clauses of a section as far as they parse, and the offset that fails. -/
def parseClauses (bs : List Byte) : Nat → Nat → List Clause × Option Nat
  | 0, o => ([], if o = bs.length then none else some o)
  | k + 1, o =>
    if o = bs.length then ([], none)
    else if bs.length < o + 8 then ([], some o)
    else
      let h := Header.ofDWord (BitVec.ofNat 64 (field bs o 8))
      if !h.ok then ([], some o)
      else
        match parseInstrs bs (h.cnt + 1) (o + 8) with
        | .error e => ([], some e)
        | .ok (is, e) =>
          if e % 8 = 0 then
            let r := parseClauses bs k e
            (⟨o, h, is⟩ :: r.1, r.2)
          else if bs.length < e + 4 ∨ wordAt bs e ≠ 0 then ([⟨o, h, is⟩], some (e / 8 * 8))
          else
            let r := parseClauses bs k (e + 4)
            (⟨o, h, is⟩ :: r.1, r.2)

def parseCode (bs : List Byte) : List Clause × Option Nat := parseClauses bs (bs.length / 8 + 1) 0

/-- The direct target of a BRA or CALL, as an offset of the section (R49). -/
def CodeInstr.target (c : Clause) (i : CodeInstr) : Option Int :=
  if i.opc ≠ 1 ∧ i.opc ≠ 3 then none
  else if i.len = 0 then some (c.ofs + 8 * (i.word.extractLsb' 15 17).toInt)
  else if i.len = 2 then some (BitVec.toInt (BitVec.ofNat 64 c.ofs + 8 * (i.words.getD 2 0 ++ i.words.getD 1 0)))
  else none

/-- R51, checks 0x02 to 0x05 of a parsed section: code and offset of the first that fails. -/
def codeChecks (bs : List Byte) (cs : List Clause) : Option (Nat × Nat) :=
  let early := cs.findSome? fun c => (c.instrs.take (c.instrs.length - 1)).findSome? fun i =>
    if 1 ≤ i.opc ∧ i.opc ≤ 8 then some (i.ofs / 8 * 8) else none
  let wrong := cs.findSome? fun c => c.instrs.findSome? fun i =>
    match i.target c with
    | some t => if cs.any fun d => (d.ofs : Int) == t then none else some (i.ofs / 8 * 8)
    | none => none
  let lastOk : Option Nat := match cs.getLast? with
    | none => some 0
    | some c => match c.instrs.getLast? with
      | none => some c.ofs
      | some i => if [1, 2, 5, 6].contains i.opc && i.word.extractLsb' 4 4 == (7 : BitVec 4) then none else some (i.ofs / 8 * 8)
  let entry := (List.range (bs.length / 8)).findSome? fun k =>
    if field bs (8 * k) 8 % 2 ^ 13 = 0x1E5A ∧ !(cs.any fun c => c.ofs == 8 * k) then some (8 * k) else none
  match early, wrong, lastOk, entry with
  | some o, _, _, _ => some (2, o)
  | none, some o, _, _ => some (3, o)
  | none, none, some o, _ => some (4, o)
  | none, none, none, some o => some (5, o)
  | none, none, none, none => none

/-! ## The code object (R66 to R69) -/

/-- A section entry of an object, by its place in the section table. -/
structure Section where
  kind : Nat
  ofs : Nat
  size : Nat
  align : Nat
  deriving DecidableEq, Repr

/-- R66: the sections of an object. -/
def objSections (obj : List Byte) : List Section :=
  (List.range (field obj 6 2)).map fun i =>
    let o := field obj 8 8 + 32 * i
    ⟨field obj o 4, field obj (o + 8) 8, field obj (o + 0x10) 8, field obj (o + 0x18) 8⟩

/-- Whether a number is a power of two, or 0. -/
def powerOfTwo (n : Nat) : Bool := n &&& (n - 1) == 0

/-- R69, check 0x07: the offset at which the header, the section table or a section's bounds are malformed; the table's own offset
where the code or the kernel descriptors are absent (log 34). -/
def objCheck (obj : List Byte) : Option Nat :=
  let n := field obj 6 2
  let tab := field obj 8 8
  if obj.length < 64 ∨ field obj 0 4 ≠ 0x4C41494E then some 0
  else if field obj 4 2 ≠ 1 then some 4
  else if n = 0 ∨ 16 < n then some 6
  else if obj.length < tab + 32 * n then some 8
  else
    let ss := objSections obj
    if !(ss.any (fun c => c.kind == 1) && ss.any (fun c => c.kind == 4)) then some tab
    else (List.range n).findSome? fun i =>
      match ss[i]? with
      | none => none
      | some c =>
        let o := tab + 32 * i
        if c.kind = 0 ∨ 9 < c.kind ∨ ((ss.take i).any fun d => d.kind == c.kind) then some o
        else if obj.length < c.ofs then some (o + 8)
        else if obj.length < c.ofs + c.size then some (o + 0x10)
        else if !powerOfTwo c.align then some (o + 0x18)
        else none

/-- A section placed: its kind, its offset in the object, its address and its bytes. -/
structure Placed where
  kind : Nat
  ofs : Nat
  addr : Nat
  bytes : List Byte
  deriving DecidableEq, Repr

/-- R358: the rights of a kind's pages: whether they grant W and X. -/
def kindRights (kind : Nat) : Bool × Bool := (kind == 3, kind == 1)

/-- R358: the sections placed from DEST on in order of their kinds; sections of different rights share no page (log 22). -/
def placeSections (obj : List Byte) (dest : Nat) : List Placed :=
  let ss := sortBy (fun (a b : Section) => decide (a.kind < b.kind)) (objSections obj)
  (ss.foldl (fun (acc : List Placed × Nat) c =>
    let same := match acc.1.getLast? with
      | some p => kindRights p.kind == kindRights c.kind
      | none => false
    let a := max (if same then 8 else 65536) c.align
    let at_ := (acc.2 + a - 1) / a * a
    (acc.1 ++ [⟨c.kind, c.ofs, at_, (obj.drop c.ofs).take c.size⟩], at_ + c.size)) ([], dest)).1

/-- The end of the placed sections. -/
def placedEnd (ps : List Placed) (dest : Nat) : Nat :=
  ps.foldl (fun e p => max e ((p.addr + p.bytes.length + 65535) / 65536 * 65536)) dest

def placedOf (ps : List Placed) (kind : Nat) : Option Placed := ps.find? fun p => p.kind == kind
def sizeOf (ps : List Placed) (kind : Nat) : Nat := ((placedOf ps kind).map fun p => p.bytes.length).getD 0

/-- Bytes put into a list at an offset. -/
def putBytes (bs : List Byte) (o : Nat) (vs : List Byte) : List Byte := bs.take o ++ vs ++ bs.drop (o + vs.length)

/-- R69, check 0x08: whether a relocation entry is sound; code takes whole literals only (R68). A KIND that R68 does not give fails it
(log 34). -/
def relocOk (ps : List Placed) (lits : List Nat) (e : List Byte) : Bool :=
  let place := field e 0 8
  let kind := field e 8 1
  let psect := field e 9 1
  let w := if kind = 1 then 8 else 4
  decide (1 ≤ kind ∧ kind ≤ 2) && place % 4 == 0
    && (placedOf ps psect).isSome && (placedOf ps (field e 0x0A 1)).isSome
    && decide (place + w ≤ sizeOf ps psect) && (psect != 1 || (kind == 1 && lits.contains place))

/-- R68: a relocation carried out. -/
def relocate (ps : List Placed) (e : List Byte) : List Placed :=
  let base := ((placedOf ps (field e 0x0A 1)).map Placed.addr).getD 0
  let w := if field e 8 1 = 1 then 8 else 4
  ps.map fun p => if p.kind = field e 9 1 then { p with bytes := putBytes p.bytes (field e 0 8) (leBytes w (base + field e 0x0C 4)) } else p

/-- R67, check 0x09: the offset in a descriptor that breaks its limits. -/
def descriptorBad (d : List Byte) : Option Nat :=
  firstBad [(0x10, field d 0x10 2 % 8 == 0 && decide (8 ≤ field d 0x10 2 ∧ field d 0x10 2 ≤ 320)),
    (0x12, decide (field d 0x12 2 ≤ 8)), (0x14, field d 0x14 4 % 128 == 0), (0x18, field d 0x18 4 % 8 == 0),
    (0x1C, decide (field d 0x1C 4 < 4)), (0x3C, zeros d 0x3C 4),
    (0x46, zeros d 0x46 2), (0x4E, zeros d 0x4E 2), (0x56, zeros d 0x56 2), (0x5E, zeros d 0x5E 2),
    (0x66, zeros d 0x66 2), (0x6E, zeros d 0x6E 2), (0x76, zeros d 0x76 2), (0x7E, zeros d 0x7E 2)]

/-- The slot positions of a parsed section in order (R68). -/
def positions (cs : List Clause) : List Nat := cs.flatMap fun c => (List.range c.instrs.length).map fun k => c.ofs + k

/-- The instruction at a position. -/
def instrAt (cs : List Clause) (pos : Nat) : Option CodeInstr :=
  (cs.find? fun c => c.ofs == pos / 8 * 8).bind fun c => c.instrs[pos % 8]?

/-- R343: whether a position holds an IDEMB (sub 0) or IDEME (sub 1). -/
def isIdem (cs : List Clause) (pos sub : Nat) : Bool :=
  match instrAt cs pos with
  | some i => i.opc == 0x0C && i.len == 0 && (i.word.extractLsb' 27 5).toNat == sub
  | none => false

/-- R69, checks 0x06 and 0x0A of a kernel descriptor: the offset in the object of the first failure. -/
def entriesBad (cs : List Clause) (d : List Byte) (at_ : Nat) : Option Nat :=
  let entry (o : Nat) : Bool := cs.any fun c => c.ofs == o && c.hdr.ent
  if !entry (field d 0 8) then some at_
  else if field d 0x1C 4 % 2 = 1 ∧ !entry (field d 8 8) then some (at_ + 8)
  else none

/-- The lowest of some offsets. -/
def lowest (os : List Nat) : Option Nat :=
  match os with
  | [] => none
  | o :: rest => some (rest.foldl min o)

/-- The bytes of a section, and its offset in the object. -/
def sectBytes (ps : List Placed) (kind : Nat) : List Byte := ((placedOf ps kind).map Placed.bytes).getD []
def sectOfs (ps : List Placed) (kind : Nat) : Nat := ((placedOf ps kind).map Placed.ofs).getD 0

/-- R69, check 0x0A: the offsets at which a kernel's liveness and idempotence entries fail: its own fields where they name entries
outside the section or another number of them than the code has slot positions (log 34), and the entries. -/
def tablesBad (cs : List Clause) (ps : List Placed) (d : List Byte) (at_ : Nat) : List Nat :=
  let liv := sectBytes ps 5
  let idm := sectBytes ps 6
  let want := positions cs
  let n := field d 0x28 4
  let inLiv (i : Nat) : Bool := decide (field d 0x20 8 + 64 * i + 64 ≤ liv.length)
  let inIdm (i : Nat) : Bool := decide (field d 0x30 8 + 16 * i + 16 ≤ idm.length)
  let m := field d 0x38 4
  (if liv.length < field d 0x20 8 + 64 * n ∨ n ≠ want.length then [at_ + 0x20] else [])
    ++ (if idm.length < field d 0x30 8 + 16 * m then [at_ + 0x30] else [])
    ++ ((List.range n).findSome? fun i =>
        let o := field d 0x20 8 + 64 * i
        if !inLiv i ∨ (i < want.length ∧ field liv o 8 = want.getD i 0) then none else some (sectOfs ps 5 + o)).toList
    ++ ((List.range m).findSome? fun i =>
        let o := field d 0x30 8 + 16 * i
        if !inIdm i then none
        else if !isIdem cs (field idm o 8) 0 then some (sectOfs ps 6 + o)
        else if !isIdem cs (field idm (o + 8) 8) 1 then some (sectOfs ps 6 + o + 8) else none).toList

/-- R136: the entries of the index of routine images, by number; none where the index is not whole. -/
def imageIndex (bs : List Byte) : List Nat :=
  let n := field bs 0 4
  if bs.length < 16 ∨ 4096 < n ∨ bs.length < 16 + 16 * n then [] else List.range n

/-- R69, check 0x0B (R133, R136): the lowest offset at which the routine images section is malformed: an entry's field, or the first
byte of an image that fails R133 (log 34). -/
def imagesBad (ps : List Placed) : Option Nat :=
  match placedOf ps 8 with
  | none => none
  | some p =>
    let bs := p.bytes
    let n := field bs 0 4
    if bs.length < 16 ∨ 4096 < n ∨ bs.length < 16 + 16 * n then some p.ofs
    else
      let ofs (i : Nat) : Nat := field bs (0x14 + 16 * i) 4
      let size (i : Nat) : Nat := 16 + 4 * field bs (ofs i) 2
      lowest (((imageIndex bs).filterMap fun i =>
        let e := 0x10 + 16 * i
        if sizeOf ps 9 ≤ field bs e 4 then some e
        else if ofs i % 16 ≠ 0 ∨ bs.length < ofs i + 16 ∨ bs.length < ofs i + size i ∨ ofs i < 16 + 16 * n
          ∨ ((List.range i).any fun j => decide (ofs j < ofs i + size i ∧ ofs i < ofs j + size j)) then some (e + 4)
        else if (imageCheck ((bs.drop (ofs i)).take 144)).1 ≠ 0 then some (ofs i)
        else none).map (p.ofs + ·))

/-- R69, check 0x09: the offsets in the object of reserved fields that are not zero, outside the kernel descriptors: of the header, the
section table, the relocations, the liveness entries and the index of routine images (log 34). -/
def reservedBad (obj : List Byte) (ps : List Placed) (descs : List (Nat × List Byte)) : List Nat :=
  let tab := field obj 8 8
  let at_ (o n : Nat) : List Nat := if zeros obj o n then [] else [o]
  let rel := (List.range ((sectBytes ps 7).length / 16)).flatMap fun i => at_ (sectOfs ps 7 + 16 * i + 0x0B) 1
  let liv := (descs.flatMap fun d => (List.range (field d.2 0x28 4)).flatMap fun i =>
    let o := field d.2 0x20 8 + 64 * i
    if (sectBytes ps 5).length < o + 64 then []
    else at_ (sectOfs ps 5 + o + 0x0D) 3 ++ at_ (sectOfs ps 5 + o + 0x38) 8
      ++ (if field (sectBytes ps 5) (o + 0x0C) 1 < 128 then [] else [sectOfs ps 5 + o + 0x0C])).dedup
  let img := (if (imageIndex (sectBytes ps 8)).isEmpty then [] else at_ (sectOfs ps 8 + 4) 12)
    ++ (imageIndex (sectBytes ps 8)).flatMap fun i =>
      let o := field (sectBytes ps 8) (0x14 + 16 * i) 4
      at_ (sectOfs ps 8 + 0x18 + 16 * i) 8 ++ (if (sectBytes ps 8).length < o + 16 then [] else at_ (sectOfs ps 8 + o + 2) 14)
  at_ 0x10 48 ++ ((List.range (field obj 6 2)).flatMap fun i => at_ (tab + 32 * i + 4) 4) ++ rel ++ liv ++ img

/-- R69, R51: the checks after 0x07 in their order, on sections placed: the image to map, or code and offset. The literals of code that
does not parse are those of the clauses before the first that fails, and bytes after the last whole entry of a section are ignored
(log 34). -/
def loadChecks (obj : List Byte) (ps : List Placed) : Except (Nat × Nat) (List Placed) :=
  let code := ((placedOf ps 1).map Placed.bytes).getD []
  let lits := (parseCode code).1.flatMap fun c => c.instrs.filterMap CodeInstr.literal
  let rels := ((placedOf ps 7).map Placed.bytes).getD []
  let relOfs := ((placedOf ps 7).map Placed.ofs).getD 0
  let entries := (List.range (rels.length / 16)).map fun i => (i, (rels.drop (16 * i)).take 16)
  match entries.find? fun e => !relocOk ps lits e.2 with
  | some e => .error (8, relOfs + 16 * e.1)
  | none =>
    let qs := entries.foldl (fun ps e => relocate ps e.2) ps
    let img := ((placedOf qs 1).map Placed.bytes).getD []
    let base := ((placedOf qs 1).map Placed.ofs).getD 0
    let parsed := parseCode img
    let kd := ((placedOf qs 4).map Placed.bytes).getD []
    let kofs := ((placedOf qs 4).map Placed.ofs).getD 0
    let descs := (List.range (kd.length / 128)).map fun i => (kofs + 128 * i, (kd.drop (128 * i)).take 128)
    match parsed.2, codeChecks img parsed.1 with
    | some o, _ => .error (1, base + o)
    | none, some (c, o) => .error (c, base + o)
    | none, none =>
      match lowest ((descs.filterMap fun d => (descriptorBad d.2).map fun o => d.1 + o) ++ reservedBad obj qs descs) with
      | some o => .error (9, o)
      | none =>
        match descs.findSome? fun d => entriesBad parsed.1 d.2 d.1 with
        | some o => .error (6, o)
        | none =>
          match lowest (descs.flatMap fun d => tablesBad parsed.1 qs d.2 d.1) with
          | some o => .error (0xA, o)
          | none =>
            match imagesBad qs with
            | some o => .error (0xB, o)
            | none => .ok qs

/-! ## Mapping the sections (R358, R51) -/

/-- Fresh pages mapped from an address on, with their rights; a page already mapped stays. -/
def State.mapFresh (s : State) (asid va pages : Nat) (r w x pin : Bool) : State :=
  (List.range pages).foldl (fun s i =>
    let f := s.freeRun 1
    if (s.leaf asid (va + 65536 * i)).isSome then s
    else (s.bindFrame f asid (s.asid asid).gen (va + 65536 * i) pin false).setPte asid (BitVec.ofNat 64 (va + 65536 * i)) 16
      (mkPte true true r w x false 0 (65536 * f))) s

/-- Firmware's write of bytes into a space it has just mapped. -/
def State.fillBytes (s : State) (asid va : Nat) : List Byte → State
  | [] => s
  | b :: rest =>
    match s.leaf asid va with
    | some l => State.fillBytes (s.poke false (pteAddr l.e + va % 65536) [b]) asid (va + 1) rest
    | none => s

/-- A section mapped and filled. -/
def State.mapSection (s : State) (asid : Nat) (p : Placed) : State :=
  let first := p.addr / 65536
  let pages := (p.addr + p.bytes.length + 65535) / 65536 - first
  (s.mapFresh asid (65536 * first) pages true (kindRights p.kind).1 (kindRights p.kind).2 false).fillBytes asid p.addr p.bytes

/-- R358: the result record. -/
def loadResult (status code ofs : Nat) (ps : List Placed) : List Byte :=
  leBytes 4 status ++ leBytes 1 code ++ leBytes 3 0 ++ leBytes 8 ofs
    ++ ((List.range 9).flatMap fun k => leBytes 8 (((placedOf ps (k + 1)).map Placed.addr).getD 0)) ++ List.replicate 40 0

/-- R75: whether an address range holds a mapped page, or one that is moving. -/
def State.rangeMapped (s : State) (asid va len : Nat) : Option Nat :=
  (pageList va len).find? fun p => (s.leaf asid p).isSome
    || (let e := s.rawPte asid p; !pteV e && pteAddr e != 0 && (s.frame (pteAddr e / 65536)).state == 5)

/-- The placement of an object whose header is sound: NOSPACE causes, refusals, or the mapping (log 22). -/
def State.loadObject (s : State) (asid : Nat) (obj : List Byte) (dest dlen : Nat) : List Byte × State :=
  match objCheck obj with
  | some o => (loadResult 1 7 o [], s)
  | none =>
    let ps := placeSections obj dest
    let pages := (placedEnd ps dest - dest) / 65536
    if dest + dlen < placedEnd ps dest then (loadResult 2 1 0 [], s)
    else if (s.rangeMapped asid dest dlen).isSome then (loadResult 2 2 0 [], s)
    else if !s.spare pages || !(ps.foldl (fun s p => s.mapSection asid p) s).fits then (loadResult 2 3 0 [], s)
    else match loadChecks obj ps with
      | .error (c, o) => (loadResult 1 c o [], s)
      | .ok qs =>
        let s1 := qs.foldl (fun s p => s.mapSection asid p) s
        let m : Module := ⟨asid, dest, dlen, qs.map fun p => (p.kind, p.addr, p.bytes.length)⟩
        let keep := s1.fe.modules.filter fun o => !(o.asid == asid && decide (o.base < dest + dlen) && decide (dest < o.base + o.length))
        (loadResult 0 0 0 qs, { s1 with fe := { s1.fe with modules := keep ++ [m] } })

/-- ROUTINE_LOAD (R358). -/
def routineLoad (qid seq : Nat) (s : State) : State :=
  match s.queue? qid, s.packet? qid seq with
  | some q, some p =>
    let obj := BitVec.ofNat 64 (field p.bytes 8 8)
    let dest := field p.bytes 0x18 8
    let dlen := field p.bytes 0x20 8
    let res := BitVec.ofNat 64 (field p.bytes 0x28 8)
    let bad := firstBad [(0x18, dest % 65536 == 0),
      (0x20, decide (0 < dlen) && dlen % 65536 == 0 && decide (dest + dlen ≤ 2 ^ 48)), (0x30, zeros p.bytes 0x30 80)]
    match bad with
    | some o => s.failPacket qid seq 1 (BitVec.ofNat 64 o)
    | none =>
      match s.feBytes q.asid obj (field p.bytes 0x10 8) with
      | none => s.failPacket qid seq 8 obj
      | some bs =>
        if (s.fePlace q.asid res true).isNone || (s.fePlace q.asid (res + 127) true).isNone then s.failPacket qid seq 8 res
        else s.feThen q.asid false [(obj.toNat, field p.bytes 0x10 8)] (.routineLoad qid seq) fun s =>
          let r := s.loadObject q.asid bs dest dlen
          (r.2.feWrite q.asid res r.1).endPacket qid seq true
  | _, _ => s

/-! ## Meanings -/

/-- ROUTINE_LOAD (R358). -/
def execRoutineLoad (qid : Nat) (seq : Nat) (s : State) : Host.Outcome State Fault Refusal :=
  .next (Sys2Proof.Machine.routineLoad qid seq s)

end Sys2Proof.Machine
end

