-- ==== Sys2Proof/Machine/Launch.lean ====
section
/-! DEFINITION. Grids (14): LAUNCH with its stack range and residency leases (R357, R363; 04 R86; 13 R334), the order of
waiting grids (R363), placement (R364, R375), the tile dispenser (R365 to R367) and the completion of a grid (R368). -/

namespace Sys2Proof.Machine

/-! ## What a block needs of a core (R364, R16, R196) -/

/-- The share of a core: warps and granules by partition, and scratchpad bytes. -/
structure Need where
  slots : List Nat
  granules : List Nat
  scratch : Nat
  deriving DecidableEq, Repr

/-- R364: the need of `wpc` warps of a kernel, `k` times. -/
def needOf (k : Kernel) (wpc times : Nat) : Need :=
  let per := (List.range 8).map fun p => times * ((wpc + 7 - p) / 8)
  ⟨per, per.map fun n => n * (k.regs / 8), times * k.scratch⟩

/-- Whether an empty core can take a need. -/
def Need.fitsEmpty (n : Need) : Bool :=
  (n.slots.all fun x => decide (x ≤ 12)) && (n.granules.all fun x => decide (x ≤ Config.partitionGranules))
    && decide (n.scratch ≤ Config.scratchBytes)

/-- The core, partition and slot that a warp holds on its block's die: its own, or its origin's (R399). -/
def Warp.home (w : Warp) : Nat × Nat × Nat := w.origin.getD (w.core, w.part, w.slot)

/-- The warps that hold a slot of a partition of a core. -/
def State.holders (s : State) (core part : Nat) : List Warp :=
  (s.warps.filter fun e => !e.2.freed && e.2.home.1 == core && e.2.home.2.1 == part && e.2.home.2.2 != 12).map (·.2)

/-- R16, R205: the granules of a partition that warps and pools hold. -/
def State.heldGranules (s : State) (core part : Nat) : Nat :=
  ((s.holders core part).map fun w => w.alloc / 8).foldl (· + ·) 0
    + ((s.blocks.filter fun b => b.2.places.contains core).map fun b =>
        SMap.get 0 b.2.pools (poolKey (b.2.placeOf core) part)).foldl (· + ·) 0

/-- R196: the allocations on a core: base and bytes. -/
def State.allocations (s : State) (core : Nat) : List (Nat × Nat) :=
  (s.blocks.filter fun b => b.2.places.contains core).map fun b => (b.2.scratchBase.getD (b.2.placeOf core) 0, b.2.scratch)

/-- R196: the lowest base at which bytes fit on a core. -/
def State.scratchRoom (s : State) (core n : Nat) : Option Nat :=
  let as := s.allocations core
  ((0 :: as.map fun a => a.1 + a.2).filter fun b => decide (b + n ≤ Config.scratchBytes)
    && as.all fun a => decide (b + n ≤ a.1) || decide (a.1 + a.2 ≤ b)).foldl
      (fun (m : Option Nat) b => match m with
        | none => some b
        | some c => some (min b c)) none

/-- R364: whether a core can take a need now. -/
def State.coreTakes (s : State) (core : Nat) (n : Need) : Bool :=
  ((List.range 8).all fun p => decide ((s.holders core p).length + n.slots.getD p 0 ≤ 12)
      && decide (s.heldGranules core p + n.granules.getD p 0 ≤ Config.partitionGranules))
    && (s.scratchRoom core n.scratch).isSome

/-- R115, R116: whether a core's die runs. -/
def State.coreUp (s : State) (core : Nat) : Bool := let d := s.die (dieOfCore core); !d.lost && !d.resetting

/-- The blocks on a core. -/
def State.blocksHere (s : State) (core : Nat) : List (Nat × Block) := s.blocks.filter fun b => b.2.places.contains core

/-- R375: whether a core holds a block of a deterministic grid. -/
def State.detOn (s : State) (core : Nat) : Bool := (s.blocksHere core).any fun b => (s.grid b.2.grid).det

/-- R378: whether a core is kept for another grid's placement. -/
def State.reservedFor (s : State) (core g : Nat) : Bool :=
  s.grids.any fun e => e.1 != g && e.2.reserve.any fun cs => cs.contains core

/-- R364: the die with the most cores of a kind, ties to the lower die, and its first `n` such cores in ascending order. -/
def chooseCores (n : Nat) (ok : Nat → Bool) : Option (List Nat) :=
  let per := (List.range Config.shaderDies).map fun d =>
    ((List.range Config.coresPerDie).map fun c => d * Config.coresPerDie + c).filter ok
  let best := per.foldl (fun (b : List Nat) cs => if b.length < cs.length then cs else b) []
  if n ≤ best.length then some (best.take n) else none

/-! ## Waiting for placement (R363) -/

/-- R359: a priority that ages from a time. -/
def aged (prio since now : Nat) : Nat := min 7 (prio + (now - since) / 100000)

/-- The cores for the next block of a grid (R364), or for the whole of a deterministic one (R375). -/
def State.coresFor (s : State) (g : Nat) : Option (List Nat) :=
  let gr := s.grid g
  let wpc := (gr.wpb + gr.cpb - 1) / gr.cpb
  let times := if gr.det then gr.toPlace.length else 1
  match gr.reserve with
  | cs :: _ =>
    -- R378: the cores kept for the grid, once all of them are free
    if gr.reserve.all fun ds => ds.all fun c => s.coreUp c && s.coreTakes c (needOf gr.kernel wpc times) then some cs else none
  | [] =>
    chooseCores gr.cpb fun c => s.coreUp c && s.coreTakes c (needOf gr.kernel wpc times) && !s.detOn c && !s.reservedFor c g
      && (if gr.det then (s.blocksHere c).isEmpty else (s.blocksHere c).all fun b => b.2.grid != g)

/-- An entry of the order of R363: a waiting grid, or a saved block waiting for restore. -/
structure Entry where
  ep : Nat
  saved : Bool
  seq : Nat
  block : Nat
  grid : Nat
  record : Option Nat
  deriving DecidableEq, Repr

/-- R363, R383: descending priority; then saved blocks, by grid and block; then grids by sequence number. -/
def Entry.before (a b : Entry) : Bool :=
  decide (b.ep < a.ep) || (a.ep == b.ep && ((a.saved && !b.saved) || (a.saved == b.saved
    && (decide (a.seq < b.seq) || (a.seq == b.seq && decide (a.block < b.block))))))

/-- R150, R383: whether a saved block is queued for restore: a yielded one once a wait of it has completed. -/
def Saved.queued (v : Saved) : Bool := !v.byYield || !v.woken.isEmpty

/-- The order of R363. -/
def State.waitOrder (s : State) : List Entry :=
  let gs := (s.grids.filter fun e => e.2.waits).map fun e =>
    Entry.mk (aged e.2.prio e.2.waitingSince s.now) false e.2.seq (e.2.toPlace.headD 0) e.1 none
  let vs := (s.fe.saved.filter fun e => e.2.queued).map fun e =>
    Entry.mk (aged (s.grid e.2.grid).prio e.2.savedAt s.now) true (s.grid e.2.grid).seq e.2.blk.index e.2.grid (some e.1)
  sortBy Entry.before (gs ++ vs)

/-- R383: what place `i` of a saved block needs: its warps in their partitions, their registers and the pools. -/
def Saved.need (v : Saved) (i : Nat) : Need :=
  let at_ (p : Nat) : List Warp := (v.warps.filter fun e => !e.2.freed && v.blk.placeOf e.2.home.1 == i && e.2.home.2.1 == p).map (·.2)
  ⟨(List.range 8).map fun p => (at_ p).length,
   (List.range 8).map fun p => ((at_ p).map fun w => w.alloc / 8).foldl (· + ·) 0 + SMap.get 0 v.blk.pools (poolKey i p),
   v.blk.scratch⟩

/-- The sum of two needs. -/
def Need.add (a b : Need) : Need :=
  ⟨(List.range 8).map fun p => a.slots.getD p 0 + b.slots.getD p 0,
   (List.range 8).map fun p => a.granules.getD p 0 + b.granules.getD p 0, a.scratch + b.scratch⟩

/-- R383: whether a core can take place `i` of a saved block: its share, its buffer entries and its accumulator claim. -/
def State.takesSaved (s : State) (core : Nat) (v : Saved) (i : Nat) (n : Need) : Bool :=
  let co := s.core core
  s.coreUp core && s.coreTakes core n && !s.reservedFor core v.grid
    && (v.buffers.all fun b => b.1 != i || ((Tab.find co.buffers b.2.1).map Buffer.state).getD 0 == 0)
    && (v.accs.all (fun a => a.place != i) || (co.accClaim.isNone && co.arrayQ.isEmpty && co.drainQ.isEmpty))

/-- The records of a saved grid that stand together: a deterministic grid's group, else the record alone (R385). -/
def State.savedGroup (s : State) (k : Nat) : List (Nat × Saved) :=
  match Tab.find s.fe.saved k with
  | none => []
  | some v =>
    if (s.grid v.grid).det then
      sortBy (fun (a b : Nat × Saved) => decide (a.2.blk.index < b.2.blk.index)) (s.fe.saved.filter fun e => e.2.grid == v.grid)
    else [(k, v)]

/-- Cores of a die that take the places 0 to n-1, the lowest for each place with which the places after it can be taken too. -/
def takePlaces (ok : Nat → Nat → Bool) : Nat → Nat → List Nat → Option (List Nat)
  | 0, _, _ => some []
  | n + 1, i, cores =>
    cores.findSome? fun c => if ok c i then (takePlaces ok n (i + 1) (cores.filter (· ≠ c))).map (c :: ·) else none

/-- R383, R385: the cores of a restore: any die that can take every place; the lowest such die (log 23). -/
def State.coresForSaved (s : State) (k : Nat) : Option (List Nat) :=
  let group := s.savedGroup k
  match group with
  | [] => none
  | (_, v) :: rest =>
    let det := (s.grid v.grid).det
    let all := group.map (·.2)
    let ok (c i : Nat) : Bool :=
      let n := rest.foldl (fun (n : Need) e => n.add (e.2.need i)) (v.need i)
      (all.all fun u => s.takesSaved c u i n) && !s.detOn c
        && (if det then (s.blocksHere c).isEmpty
            && (all.all fun u => u.warps.all fun e => e.2.freed || (s.holders c e.2.home.2.1).all fun w => w.home.2.2 != e.2.home.2.2)
          else true)
    (List.range Config.shaderDies).findSome? fun d =>
      takePlaces ok v.blk.places.length 0 ((List.range Config.coresPerDie).map fun c => d * Config.coresPerDie + c)

/-- Whether an entry could be placed now. -/
def State.entryFits (s : State) (e : Entry) : Bool :=
  match e.record with
  | some k => (s.coresForSaved k).isSome
  | none => (s.coresFor e.grid).isSome

/-- R363: whether an entry's turn has come: nothing before it fits, and the head does not hold it back. -/
def State.turnOf (s : State) (mine : Entry → Bool) : Bool :=
  let rec go : List Entry → Bool
    | [] => false
    | e :: rest => if mine e then true else !s.entryFits e && go rest
  match s.waitOrder with
  | [] => false
  | h :: rest => mine h || (decide (h.ep < 7) && !s.entryFits h && go rest)

/-! ## Placing a block (R364, R375, R200) -/

/-- R112: RMCTL.FRZ is 1 while a deterministic grid is resident. -/
def State.refreshFrz (s : State) : State :=
  { s with mem := { s.mem with frz := s.blocks.any fun b => (s.grid b.2.grid).det } }

/-- R67: %role of a warp index; of the first range that holds it, where ranges overlap (log 34). -/
def Kernel.roleOf (k : Kernel) (i : Nat) : Word :=
  ((k.roles.find? fun r => decide (r.1 ≤ i ∧ i ≤ r.2.1)).map fun r => r.2.2).getD 0

/-- The lowest free slot of a partition. -/
def State.slotFor (s : State) (core part : Nat) : Nat :=
  ((List.range 12).find? fun k => (s.holders core part).all fun w => w.home.2.2 != k).getD 0

/-- R334: bytes of a block's call-stack areas. -/
def Grid.stackBlock (g : Grid) : Nat := (g.wpb * 32 * g.kernel.stack + 65535) / 65536 * 65536

/-- R200, R364: a warp as it is created. -/
def Grid.newWarp (g : Grid) (id b blockNo i core part slot : Nat) : Warp :=
  let area (l : Nat) : DWord :=
    g.stkva + BitVec.ofNat 64 (blockNo * g.stackBlock + (32 * i + l) * g.kernel.stack + g.kernel.stack)
  { Warp.none with
    grid := id, block := b, index := i, role := g.kernel.roleOf i, asid := g.asid, core := core, part := part, slot := slot
    alloc := g.kernel.regs, freed := false
    uregs := [(0, BitVec.ofNat 64 (field g.packet 0x10 8)),
      (1, BitVec.ofNat 64 (2 ^ 32 * field g.packet 0x1C 4 + field g.packet 0x18 4)),
      (2, BitVec.ofNat 64 (2 ^ 32 * g.blocks + field g.packet 0x20 4)),
      (3, BitVec.ofNat 64 (field g.packet 0x48 8))].filter fun e => e.2 != 0
    threads := (List.range 32).map fun l => Thread.start g.kernel.entry (area l) }

/-- R364, R309: a block placed on cores in place-index order; its warps start as after FENCE.acq.sys. -/
def State.placeOne (s : State) (g blockNo : Nat) (cores : List Nat) : State :=
  let gr := s.grid g
  let b := s.nextId
  let wpc := (gr.wpb + gr.cpb - 1) / gr.cpb
  let blk : Block := { Block.none with
    grid := g, index := blockNo, die := dieOfCore (cores.headD 0), places := cores, wpc := wpc
    warps := (List.range gr.wpb).map fun i => b + 1 + i
    scratchBase := cores.map fun c => (s.scratchRoom c gr.kernel.scratch).getD 0
    scratch := gr.kernel.scratch, placedAt := s.now }
  let s1 := { s with nextId := b + 1 + gr.wpb, blocks := Tab.put s.blocks b blk }
  let s2 := (List.range gr.wpb).foldl (fun (s : State) i =>
    let c := cores.getD (i / wpc) 0
    let p := i % wpc % 8
    { s with warps := Tab.put s.warps (b + 1 + i) (gr.newWarp g b blockNo i c p (s.slotFor c p)) }) s1
  (s2.setGrid g fun gr => { gr with
    toPlace := gr.toPlace.filter (· ≠ blockNo), state := .running, reserve := gr.reserve.drop 1 }).acquire blk.warps .sys

/-- PLACEMENT (R363, R364, R375): the next block of a grid, or every block of a deterministic grid, once its turn comes. -/
def placement (g : Nat) (s : State) : State :=
  let gr := s.grid g
  if !gr.waits then s
  else if !s.turnOf fun e => e.record.isNone && e.grid == g then s.hold (.placement g)
  else match s.coresFor g with
    | none => s.hold (.placement g)
    | some cs =>
      let bs := if gr.det then gr.toPlace else gr.toPlace.take 1
      let s1 := (bs.foldl (fun s b => s.placeOne g b cs) s).refreshFrz
      if (s1.grid g).toPlace.isEmpty then s1 else s1.send (.placement g)

/-! ## Residency leases (R86, R87) -/

/-- Where a page stands: unmapped, in host memory, in a device frame, or out of HBM or on its way (R79, R96). -/
inductive PageAt where
  | unmapped | host | frame (n : Nat) | away
  deriving DecidableEq, Repr

def State.pageAt (s : State) (asid p : Nat) : PageAt :=
  match s.leaf asid p with
  | some l =>
    if pteV l.e then
      if pteTgt l.e = 0 then .frame ((pteAddr l.e + (p - l.va)) / 65536) else .host
    else .away
  | none =>
    let e := s.rawPte asid p
    let f := s.frame (pteAddr e / 65536)
    if !pteV e && pteAddr e != 0 && f.state == 5 && f.owner == asid then .away else .unmapped

/-- R86: the residency ranges of a packet: address, pages and FLAGS; or the address of the first malformed entry. -/
def State.ranges (s : State) (asid : Nat) (bs : List Byte) : Except DWord (List (Nat × Nat × Bool)) :=
  let tab := field bs 0x30 8
  (List.range (field bs 0x38 1)).foldl (fun (acc : Except DWord (List (Nat × Nat × Bool))) i =>
    match acc with
    | .error e => .error e
    | .ok rs =>
      let a := BitVec.ofNat 64 (tab + 16 * i)
      match s.feBytes asid a 16 with
      | none => .error (BitVec.ofNat 64 tab)
      | some e =>
        if field e 0 8 % 65536 ≠ 0 ∨ field e 8 4 = 0 ∨ 1 < field e 0x0C 4 then .error a
        else .ok (rs ++ [(field e 0 8, field e 8 4, field e 0x0C 4 == 1)])) (.ok [])

/-- Whether a page is held by a grid's leases. -/
def Grid.holds (g : Grid) (p : Nat) : Bool := g.leases.any fun r => decide (r.1.toNat ≤ p ∧ p < r.1.toNat + r.2)

/-- A page added to a grid's leases. -/
def Grid.addLease (g : Grid) (p : Nat) : Grid :=
  match g.leases.getLast? with
  | some r => if r.1.toNat + r.2 = p then { g with leases := g.leases.dropLast ++ [(r.1, r.2 + 65536)] }
    else { g with leases := g.leases ++ [(BitVec.ofNat 64 p, 65536)] }
  | Option.none => { g with leases := [(BitVec.ofNat 64 p, 65536)] }

/-- R86, R97: a device move-in of a page, unless one is under way; one that has lost a race is issued again once the winner has
completed. -/
def State.bringIn (s : State) (asid p seq : Nat) (first : Bool) : State :=
  if s.mreqs.any fun e => e.2.op == 6 && e.2.fromDevice && e.2.req.asid == asid && e.2.pages.contains p then s
  else if !first && s.opposed asid p 6 then s
  else
    let (n, s1) := if first then (seq, s) else s.takeSeq
    let r : MemRequest := ⟨0, asid, BitVec.ofNat 64 p, 65536, 0, 0, n, 0, none⟩
    (s1.claim r none 6).send (.migin r)

/-- R86: one page of a residency range: leased at once, expanded where asked for, or brought in first. -/
def State.leasePage (s : State) (g p : Nat) (expand first : Bool) : State :=
  let gr := s.grid g
  if gr.holds p then
    match s.pageAt gr.asid p with
    | .frame n => if expand && (s.frame n).state == 2 && !s.net.contains (.expansion n) then s.send (.expansion n) else s
    | _ => s
  else match s.pageAt gr.asid p with
    | .host => s.setGrid g fun gr => gr.addLease p
    | .frame n =>
      let f := s.frame n
      if f.state = 4 ∨ f.state = 5 then s.bringIn gr.asid p gr.seq first
      else if f.lease < 255 then (s.setFrame n fun f => { f with lease := f.lease + 1 }).setGrid g fun gr => gr.addLease p
      else s
    | .away => s.bringIn gr.asid p gr.seq first
    | .unmapped => s

/-- The pages of ranges. -/
def rangePages (rs : List (Nat × Nat × Bool)) : List (Nat × Bool) :=
  rs.flatMap fun r => (List.range r.2.1).map fun i => (r.1 + 65536 * i, r.2.2)

/-- R86: whether every page is leased, and expanded where asked for. -/
def State.allLeased (s : State) (g : Nat) (ps : List (Nat × Bool)) : Bool :=
  let gr := s.grid g
  ps.all fun p => gr.holds p.1 && (!p.2 || match s.pageAt gr.asid p.1 with
    | .frame n => (s.frame n).state != 2 && (s.frame n).state != 3
    | _ => true)

/-- R86: a grid's leases are released. -/
def State.releaseLeases (s : State) (g : Nat) : State :=
  let gr := s.grid g
  let pages := gr.leases.flatMap fun r => pageList r.1.toNat r.2
  (pages.foldl (fun (s : State) p => match s.pageAt gr.asid p with
    | .frame n => s.setFrame n fun f => { f with lease := f.lease - 1 }
    | _ => s) s).setGrid g fun gr => { gr with leases := [] }

/-- R334: the stack pages of a grid: unmapped at its end, with the bump that unmapping makes (R81); in an address space whose
generation can rise no further its frames go at once (log 22). -/
def State.unmapStack (s : State) (g : Nat) : State :=
  let gr := s.grid g
  let n := gr.blocks * gr.stackBlock / 65536
  if n = 0 then s
  else
    let ps := pageList gr.stkva.toNat (65536 * n)
    let fs := ps.flatMap fun p => match s.pageAt gr.asid p with
      | .frame k => [k]
      | _ => []
    let s1 := ps.foldl (fun s p => s.setPte gr.asid (BitVec.ofNat 64 p) 16 0) s
    let s2 := fs.foldl (fun s k => s.setFrame k fun f => { f with lease := 0 }) s1
    if s.canBump gr.asid then s2.bump gr.asid fs [] else fs.foldl (fun s k => s.releaseFrame k) s2

/-! ## LAUNCH (R357, R363) -/

/-- R363: the kernel that a descriptor placed by ROUTINE-LOAD describes, or the DETAIL of BADDESC: the offset in a descriptor that
breaks R67's limits, else that of KDESC in the packet (R8, R374). -/
def State.kernelAt (s : State) (asid : Nat) (va : DWord) : Except Nat Kernel :=
  match s.fe.modules.find? fun m => m.asid == asid && m.sects.any fun c => c.1 == 4 && decide (c.2.1 ≤ va.toNat)
      && (va.toNat - c.2.1) % 128 == 0 && decide (va.toNat + 128 ≤ c.2.1 + c.2.2) with
  | none => .error 8
  | some m =>
    let sect (k : Nat) : Nat × Nat := ((m.sects.find? fun c => c.1 == k).map fun c => c.2).getD (0, 0)
    let code := (sect 1).1
    let live := match s.walk asid (BitVec.ofNat 64 code) with
      | some e => e.x
      | none => false
    match live, s.feBytes asid va 128 with
    | true, some d =>
      match descriptorBad d with
      | some o => .error o
      | none =>
      let tab (k o n : Nat) : List Byte := (s.feBytes asid (BitVec.ofNat 64 ((sect k).1 + o)) n).getD []
      let liv := tab 5 (field d 0x20 8) (64 * field d 0x28 4)
      let idm := tab 6 (field d 0x30 8) (16 * field d 0x38 4)
      .ok {
        entry := BitVec.ofNat 64 (code + field d 0 8)
        traph := if field d 0x1C 4 % 2 = 1 then some (BitVec.ofNat 64 (code + field d 8 8)) else none
        regs := field d 0x10 2
        roles := (List.range (field d 0x12 2)).map fun i =>
          (field d (0x40 + 8 * i) 2, field d (0x42 + 8 * i) 2, BitVec.ofNat 32 (field d (0x44 + 8 * i) 2))
        scratch := field d 0x14 4
        stack := field d 0x18 4
        flush := field d 0x1C 4 / 2 % 2 == 1
        constBase := BitVec.ofNat 64 (sect 2).1
        constSize := (sect 2).2
        liveness := (List.range (field d 0x28 4)).map fun i =>
          (BitVec.ofNat 64 (code + field liv (64 * i) 8), BitVec.ofNat 32 (field liv (64 * i + 8) 4),
            BitVec.ofNat 8 (field liv (64 * i + 0x0C) 1), BitVec.ofNat 320 (field liv (64 * i + 0x10) 40))
        idems := (List.range (field d 0x38 4)).map fun i =>
          (BitVec.ofNat 64 (code + field idm (16 * i) 8), BitVec.ofNat 64 (code + field idm (16 * i + 8) 8)) }
    | _, _ => .error 8

/-- R357, R8: the offset of the packet's first bad field. -/
def launchBad (bs : List Byte) : Option Nat :=
  let pos (o : Nat) : Nat × Bool := (o, decide (0 < field bs o 4))
  let deq := field bs 0x48 8
  let n := field bs 0x50 4
  firstBad [pos 0x18, pos 0x1C, pos 0x20, (0x24, decide (1 ≤ field bs 0x24 2 ∧ field bs 0x24 2 ≤ 512)),
    (0x26, decide (field bs 0x26 1 ≤ 144)), (0x27, decide (field bs 0x27 1 < 8)), (0x2C, decide (field bs 0x2C 4 < 4)),
    (0x38, decide (1 ≤ field bs 0x38 1 ∧ field bs 0x38 1 ≤ 16)), (0x39, zeros bs 0x39 7),
    (0x50, if deq = 0 then n == 0 else powerOfTwo n && decide (16 ≤ n ∧ n ≤ 65536)), (0x54, zeros bs 0x54 4),
    (0x68, zeros bs 0x68 24)]

/-- R364: cpb, or none where no core count up to 8 will do. -/
def coresPerBlock (k : Kernel) (warps : Nat) : Option Nat :=
  ((List.range 8).map (· + 1)).find? fun c => (needOf k ((warps + c - 1) / c) 1).fitsEmpty

/-- R369: bytes of a deque area of DEQN records a deque. -/
def dequeBytes (n : Nat) : Nat := Config.cores * 2 * (128 + 64 * n)

/-- What a LAUNCH has found: its kernel, cores per block, blocks and residency ranges. -/
structure Plan where
  kernel : Kernel
  cpb : Nat
  blocks : Nat
  ranges : List (Nat × Nat × Bool)
  deriving DecidableEq, Repr

/-- R334, R357: the first offending address of a stack range, if any. -/
def State.stackBad (s : State) (asid : Nat) (bs : List Byte) (k : Kernel) (warps : Nat) : Option Nat :=
  let va := field bs 0x58 8
  let len := field bs 0x60 8
  let sb := (warps * 32 * k.stack + 65535) / 65536 * 65536
  let c := if field bs 0x26 1 = 0 then 144 else field bs 0x26 1
  if k.stack = 0 then (if va = 0 ∧ len = 0 then none else some va)
  else if va % 65536 ≠ 0 ∨ len % 65536 ≠ 0 ∨ len < c * sb ∨ 2 ^ 48 < va + len then some va
  else s.rangeMapped asid va len

/-- R363: the checks of a LAUNCH: its plan, or the queue error and its detail. -/
def State.launchCheck (s : State) (asid : Nat) (bs : List Byte) : Except (Nat × DWord) Plan :=
  let d (n : Nat) : DWord := BitVec.ofNat 64 n
  let warps := field bs 0x24 2
  let clim := if field bs 0x26 1 = 0 then 144 else field bs 0x26 1
  let det := field bs 0x2C 4 % 2 == 1
  match launchBad bs with
  | some o => .error (1, d o)
  | none =>
    if field bs 0x30 8 % 16 ≠ 0 then .error (8, d (field bs 0x30 8))
    else if field bs 0x40 8 % 8 ≠ 0 ∨ (field bs 0x40 8 ≠ 0 ∧ (s.fePlace asid (d (field bs 0x40 8)) true).isNone) then
      .error (8, d (field bs 0x40 8))
    else if field bs 0x48 8 % 128 ≠ 0 then .error (8, d (field bs 0x48 8))
    else match s.kernelAt asid (d (field bs 8 8)), s.ranges asid bs with
      | .error o, _ => .error (2, d o)
      | .ok _, .error va => .error (8, va)
      | .ok k, .ok rs =>
        let inside (p : Nat) : Bool := rs.any fun r => decide (r.1 ≤ p ∧ p < r.1 + 65536 * r.2.1)
        let deq := field bs 0x48 8
        let area := (List.range ((deq % 65536 + dequeBytes (field bs 0x50 4) + 65535) / 65536)).map fun i => deq / 65536 * 65536 + 65536 * i
        if deq ≠ 0 ∧ !(area.all inside) then .error (2, d 0x48)
        else match coresPerBlock k warps with
          | none => .error (5, d 9)
          | some c =>
            let nb := clim / c
            if det && (c != 1 || !(needOf k warps clim).fitsEmpty) then .error (5, d (if c = 1 then 1 else c))
            else if nb = 0 then .error (5, d c)
            else match s.stackBad asid bs k warps with
              | some va => .error (8, d va)
              | none =>
                match (rangePages rs).find? fun p => s.pageAt asid p.1 == .unmapped with
                | some p => .error (3, d p.1)
                | none => .ok ⟨k, c, nb, rs⟩

/-- R363: the leases of a launched grid: taken as far as they can be; then the grid waits for placement. -/
def State.leaseGrid (s : State) (qid seq g : Nat) (first : Bool) : State :=
  let gr := s.grid g
  match s.ranges gr.asid gr.packet with
  | .error va =>
    let s1 := (s.releaseLeases g).unmapStack g
    State.failPacket { s1 with grids := Tab.del s1.grids g } qid seq 8 va
  | .ok rs =>
    let ps := rangePages rs
    let s1 := ps.foldl (fun s p => s.leasePage g p.1 p.2 first) s
    if s1.allLeased g ps then
      ((s1.setGrid g fun gr => { gr with state := .waitingPlacement, waitingSince := s.now }).send (.placement g)).askEstimator g
    else if (ps.any fun p => s1.pageAt gr.asid p.1 == .away) && !s1.spare 1 then
      -- R86: a shortage of storage fails the launch
      let s2 := (s1.releaseLeases g).unmapStack g
      State.failPacket { s2 with grids := Tab.del s2.grids g } qid seq 4 0
    else s1.hold (.launch qid seq)

/-- R363, R334: a launched packet's grid, with its stack pages mapped and leased. -/
def State.newGrid (s : State) (asid qid seq : Nat) (p : Packet) (plan : Plan) : State :=
  let g := s.nextId
  let bs := p.bytes
  let gr : Grid := { Grid.none with
    asid := asid, queue := qid, seq := seq, kernel := plan.kernel, packet := bs, state := .waitingLeases
    blocks := plan.blocks, wpb := field bs 0x24 2, cpb := plan.cpb, toPlace := List.range plan.blocks
    prio := field bs 0x27 1, det := field bs 0x2C 4 % 2 == 1
    stkva := BitVec.ofNat 64 (field bs 0x58 8), accepted := p.accepted, waitingSince := s.now }
  let n := plan.blocks * gr.stackBlock / 65536
  let s1 := { s.fresh with grids := Tab.put s.grids g gr }
  let s2 := s1.mapFresh asid gr.stkva.toNat n true true false true
  let s3 := (pageList gr.stkva.toNat (65536 * n)).foldl (fun (s : State) p => match s.pageAt asid p with
    | .frame k => s.setFrame k fun f => { f with lease := 1 }
    | _ => s) s2
  s3.setPacket qid seq fun p => { p with grid := some g }

/-- R363: a launch whose records have been reached: its checks, its stack range and its leases. A shortage of storage for the
stack, its page tables and the pages to be brought in fails it (R86, R89). -/
def State.startLaunch (s : State) (q : Queue) (qid seq : Nat) (p : Packet) : State :=
  match s.launchCheck q.asid p.bytes with
  | .error (err, detail) => s.failPacket qid seq err detail
  | .ok plan =>
    let s1 := s.newGrid q.asid qid seq p plan
    let away := ((rangePages plan.ranges).filter fun r => s.pageAt q.asid r.1 == .away).length
    if s1.fits && s1.spare away then s1.leaseGrid qid seq s.nextId true else s.failPacket qid seq 4 0

/-- LAUNCH (R363): the checks, the stack range, the leases. -/
def launch (qid seq : Nat) (s : State) : State :=
  match s.queue? qid, s.packet? qid seq with
  | some q, some p =>
    match p.grid with
    | some g => if (s.grid g).state == .waitingLeases then s.leaseGrid qid seq g false else s
    | none =>
      s.feThen q.asid false [(field p.bytes 8 8, 128), (field p.bytes 0x30 8, 16 * field p.bytes 0x38 1)] (.launch qid seq)
        fun s => s.startLaunch q qid seq p
  | _, _ => s

/-! ## The completion of a grid (R368) -/

/-- GRID_COMPLETION (R368, R396): once every write of the grid is visible (R309), the leases, the stack range, the signal, its
interrupt, and the packet; a grid that ended by a fault reports it. -/
def gridCompletion (g : Nat) (s : State) : State :=
  match Tab.find s.grids g with
  | none => s
  | some gr =>
    if !s.gridDone g then s.setGrid g fun gr => { gr with state := .running }
    else if gr.gw ≠ 0 ∧ s.now < gr.gw.toNat + s.pkskew then s.hold (.gridCompletion g)
    else
      let s1 := (s.releaseLeases g).unmapStack g
      let msix := if field gr.packet 0x2C 4 / 2 % 2 = 1 then some (((s.queue? gr.queue).map Queue.msix).getD 0) else none
      let s3 := s1.gridSignal gr.asid (BitVec.ofNat 64 (field gr.packet 0x40 8)) gr.fault.isSome msix
      let s4 := match gr.fault, s.packet? gr.queue gr.seq with
        | some (r, pos), some p => s3.queueError gr.queue p.index 6
            (BitVec.ofNat 64 (r.cls % 16 + 2 ^ 4 * (r.cause % 16) + 2 ^ 8 * (pos.toNat % 2 ^ 48)))
        | _, _ => s3
      State.refreshFrz { (s4.endPacket gr.queue gr.seq true) with grids := Tab.del s4.grids g }

/-! ## FETCHT.tile (R365 to R367) -/

/-- R365: a coordinate of the index space. -/
def Grid.coordOf (g : Grid) (n : Nat) : Word × Word × Word :=
  let gx := field g.packet 0x18 4
  let gy := field g.packet 0x1C 4
  (BitVec.ofNat 32 (n % gx), BitVec.ofNat 32 (n / gx % gy), BitVec.ofNat 32 (n / (gx * gy)))

/-- R365: the next coordinate: one handed back, else a fresh one; none where the space is exhausted. -/
def Grid.nextTile (g : Grid) : Option (Nat × Grid) :=
  match g.handedBack with
  | n :: rest => some (n, { g with handedBack := rest, held := g.held ++ [n] })
  | [] =>
    if g.nextCoord < field g.packet 0x18 4 * field g.packet 0x1C 4 * field g.packet 0x20 4 then
      some (g.nextCoord, { g with nextCoord := g.nextCoord + 1, held := g.held ++ [g.nextCoord] })
    else Option.none

/-- FETCHT.tile (R367): once for the warp or the block. -/
def fetchTileOp (i : Instr) (s : State) : State :=
  let f := i.form
  s.onceFor i fun ld _ s =>
    let w := s.warp ld.warp
    let d := f.x.dst.num.toNat % 32
    let byBlock := f.g.scope == .block
    let had := if byBlock then (s.block w.block).heldCoord else w.heldCoord
    let s1 := s.dropCoord w.grid had
    let hold (s : State) (n : Option Nat) : State :=
      if byBlock then s.setBlock w.block fun b => { b with heldCoord := n } else s.setWarp ld.warp fun w => { w with heldCoord := n }
    let ws := s.groupWarps
    match (s1.grid w.grid).nextTile with
    | some (n, gr) =>
      let c := gr.coordOf n
      let s2 := hold (s1.setGrid w.grid fun _ => gr) (some n)
      .done (ws.foldl (fun s v => (s.writeNow v [(.uni d, c.2.1 ++ c.1), (.uni (d + 1), (c.2.2).setWidth 64)]).setWarp v fun w =>
        { w with coord := c }) s2)
    | none =>
      .done (ws.foldl (fun s v => s.writeNow v [(.uni d, 0), (.uni (d + 1), 2 ^ 32)]) (hold s1 none))

/-! ## Meanings -/

/-- LAUNCH (R363). -/
def execLaunch (qid : Nat) (seq : Nat) (s : State) : Host.Outcome State Fault Refusal :=
  .next (Sys2Proof.Machine.launch qid seq s)

/-- PLACEMENT (R364). -/
def execPlacement (grid : Nat) (s : State) : Host.Outcome State Fault Refusal :=
  .next (Sys2Proof.Machine.placement grid s)

/-- GRID_COMPLETION (R368). -/
def execGridCompletion (grid : Nat) (s : State) : Host.Outcome State Fault Refusal :=
  .next (Sys2Proof.Machine.gridCompletion grid s)

/-- FETCHT_TILE (R367). -/
def execFetchtTile (g : Guard) (x : XForm) (s : State) : Host.Outcome State Fault Refusal :=
  .next (fetchTileOp (Instr.fetchtTile g x) s)

end Sys2Proof.Machine
end

