-- ==== Sys2Proof/Machine/Tasks.lean ====
section
/-! DEFINITION. The task dispatcher (14, R366, R367, R369 to R372): deques, FETCHT.task, lends, the end of a task, and ENQT. -/

namespace Sys2Proof.Machine

/-! ## Deques (R369) -/

/-- R369: records of a deque of a grid. -/
def Grid.deqn (g : Grid) : Nat := field g.packet 0x50 4

/-- R369: the header of a core's compute deque or data queue. -/
def Grid.deque (g : Grid) (core : Nat) (data : Bool) : DWord :=
  let sz := 128 + 64 * g.deqn
  BitVec.ofNat 64 (field g.packet 0x48 8 + core * 2 * sz + (if data then sz else 0))

/-- The address of the record of an index. -/
def Grid.recordVa (g : Grid) (core : Nat) (data : Bool) (i : Nat) : DWord :=
  g.deque core data + BitVec.ofNat 64 (128 + 64 * (i % g.deqn))

/-- The byte that FE still owes to an address (R433), where it owes one. -/
def State.owedByte (s : State) (asid : Nat) (va : DWord) : Option Byte :=
  s.fe.owed.reverse.findSome? fun o => match o with
    | .update a _ u n (.put v) _ =>
      if a = asid ∧ u.toNat ≤ va.toNat ∧ va.toNat < u.toNat + n then some ((leBytes n v).getD (va.toNat - u.toNat) 0) else none
    | _ => none

/-- What the dispatcher reads of a deque: its own updates come first. -/
def State.dequeBytes (s : State) (asid : Nat) (va : DWord) (n : Nat) : List Byte :=
  (List.range n).map fun i =>
    let a := va + BitVec.ofNat 64 i
    (s.owedByte asid a).getD (s.feByte asid a)

/-- A header's TOP, BOT and LENT. -/
structure DequeHead where
  top : Nat
  bot : Nat
  lent : Bool
  deriving DecidableEq, Repr

def State.dequeHead (s : State) (g core : Nat) (data : Bool) : DequeHead :=
  let gr := s.grid g
  let rd (o n : Nat) : Nat := ofLeBytes (s.dequeBytes gr.asid (gr.deque core data + BitVec.ofNat 64 o) n)
  ⟨rd 0 8, rd 8 8, rd 0x10 1 % 2 == 1⟩

/-- The 64 bytes of a record. -/
def State.taskRecord (s : State) (g core : Nat) (data : Bool) (i : Nat) : List Byte :=
  let gr := s.grid g
  s.dequeBytes gr.asid (gr.recordVa core data i) 64

/-- A header field written. -/
def State.setDeque (s : State) (g core : Nat) (data : Bool) (o n v : Nat) : State :=
  let gr := s.grid g
  s.feUpdate gr.asid (gr.deque core data + BitVec.ofNat 64 o) n (.put v)

/-- A byte of a record written. -/
def State.setRecord (s : State) (g core : Nat) (data : Bool) (i o v : Nat) : State :=
  let gr := s.grid g
  s.feUpdate gr.asid (gr.recordVa core data i + BitVec.ofNat 64 o) 1 (.put v)

/-- R370: TOP past the leading taken records of a data queue. -/
def State.skipTaken (s : State) (g core : Nat) : Nat → State
  | 0 => s
  | n + 1 =>
    let h := s.dequeHead g core true
    if h.top < h.bot ∧ field (s.taskRecord g core true h.top) 0x1E 1 = 2 then
      (s.setDeque g core true 0 8 (h.top + 1)).skipTaken g core n
    else s

/-! ## Serving a FETCHT.task (R367, R370) -/

/-- R367: a record given to a warp that waits: its registers, %coord, FENCE.acq.dev, and the warp goes on. -/
def State.giveTask (s : State) (wait warp : Nat) (bytes : List Byte) : State :=
  match Tab.find s.waits wait with
  | none => s
  | some r =>
    let d := match r.kind with
      | .fetchTask d => d
      | _ => 0
    let w32 (o : Nat) : Word := BitVec.ofNat 32 (field bytes o 4)
    let s1 := s.writeNow warp [(.uni d, BitVec.ofNat 64 (field bytes 0 8)), (.uni (d + 1), BitVec.ofNat 64 (field bytes 8 8))]
    let s2 := s1.setWarp warp fun w => { w with coord := (w32 0x10, w32 0x14, w32 0x18), task := some ⟨bytes, w.core⟩ }
    let s3 := s2.setGrid (s.warp warp).grid fun g => { g with tasksPushed := g.tasksPushed - 1, tasksRunning := g.tasksRunning + 1 }
    (s3.acquire [warp] .dev).completeWait wait

/-- R367: no record is left: EXHAUSTED. -/
def State.noTask (s : State) (wait warp : Nat) : State :=
  match Tab.find s.waits wait with
  | none => s
  | some r =>
    let d := match r.kind with
      | .fetchTask d => d
      | _ => 0
    (s.writeNow warp [(.uni d, 0), (.uni (d + 1), 0)]).completeWait wait

/-- R370: whether a data record's operand line is near: at its home slice or as a copy on the die. -/
def State.operandNear (s : State) (asid die : Nat) (rec : List Byte) : Bool :=
  match s.fePlace asid (BitVec.ofNat 64 (field rec 8 8)) false with
  | some (false, pa) => (Tab.find s.lines (pa / 128)).isSome || (s.copyAt die (pa / 128)).isSome
  | _ => false

/-- R370, source 2: the index the dispatcher takes from a core's own data queue, and those it passes over. -/
def State.dataChoice (s : State) (g core : Nat) : Option (Nat × List Nat) :=
  let h := s.dequeHead g core true
  let idx := ((List.range (h.bot - h.top)).map fun k => h.top + k).filter fun i =>
    field (s.taskRecord g core true i) 0x1E 1 == 0 && !(h.lent && i == h.top)
  let first := idx.take 9
  match first with
  | [] => none
  | o :: _ =>
    let near := first.find? fun i => s.operandNear (s.grid g).asid (dieOfCore core) (s.taskRecord g core true i)
    match near with
    | some i =>
      if field (s.taskRecord g core true o) 0x1F 1 = 8 then some (o, []) else some (i, first.filter fun j => decide (j < i))
    | none => some (o, [])

/-- R370: the victims of a core in order. -/
def victims (core : Nat) : List Nat :=
  let n := Config.coresPerDie
  let d := core / n
  ((List.range (n - 1)).map fun k => d * n + (core % n + 1 + k) % n)
    ++ ((List.range (Config.shaderDies - 1)).flatMap fun k =>
      (List.range n).map fun c => (d + 1 + k) % Config.shaderDies * n + c)

/-- R370: whether a victim's deque has a record to lend. -/
def State.lendable (s : State) (g core : Nat) (data : Bool) : Bool :=
  let h := s.dequeHead g core data
  let r := s.taskRecord g core data h.top
  decide (h.top < h.bot) && !h.lent && field r 0x1D 1 % 2 == 0 && field r 0x1E 1 == 0

/-- R370: a lend to a thief: the header's fields, and a copy of the record on its way. -/
def State.lendTask (s : State) (g victim : Nat) (data : Bool) (thief wait : Nat) : State :=
  let h := s.dequeHead g victim data
  let gr := s.grid g
  let home := match s.fePlace gr.asid (gr.deque victim data) false with
    | some (false, pa) => (s.homeTime (pa / 128))
    | _ => s.now
  let id := s.nextId
  let l : Lend := ⟨victim, data, thief, g, wait, home + 5000, s.taskRecord g victim data h.top⟩
  let s1 := (((s.fresh).setDeque g victim data 0x10 1 1).setDeque g victim data 0x12 2 thief).setDeque g victim data 0x18 8 (home + 5000)
  (({ s1 with fe := { s1.fe with lends := Tab.put s1.fe.lends id l } }).send (.lendAccept id)).send (.lendExpiry id)

/-- R370: the dispatcher serves a waiting FETCHT.task by the first source that yields a record; where none does it waits for
a push or a resolution, or there is no record left. -/
def State.dispatch (s : State) (wait : Nat) : State :=
  match Tab.find s.waits wait with
  | none => s
  | some r =>
    match r.kind with
    | .fetchTask _ =>
      let w := s.warp r.warp
      let g := w.grid
      let c := w.core
      if w.task.isSome ∨ s.fe.lends.any (fun l => l.2.wait == wait) then s
      else
        let h := s.dequeHead g c false
        if h.top < h.bot then
          if h.lent ∧ h.bot = h.top + 1 then s
          else (s.setDeque g c false 8 8 (h.bot - 1)).giveTask wait r.warp (s.taskRecord g c false (h.bot - 1))
        else match s.dataChoice g c with
          | some (i, passed) =>
            let s1 := passed.foldl (fun s j => s.setRecord g c true j 0x1F (field (s.taskRecord g c true j) 0x1F 1 + 1)) s
            let s2 := (s1.setRecord g c true i 0x1E 2).skipTaken g c ((s.grid g).deqn)
            s2.giveTask wait r.warp (s.taskRecord g c true i)
          | none =>
            match (victims c).find? fun v => s.lendable g v false, (victims c).find? fun v => s.lendable g v true with
            | some v, _ => s.lendTask g v false c wait
            | none, some v => s.lendTask g v true c wait
            | none, none =>
              if (s.grid g).tasksRunning = 0 ∧ s.fe.lends.all (fun l => l.2.grid != g) then s.noTask wait r.warp
              else if (s.grid g).det then
                -- R375: a failed evaluation, which is repeated as a stamped request of its own
                let s1 := (s.unpark wait).setWarp r.warp fun w => { w with icount := w.icount + 1 }
                let id := s1.nextId
                let s2 := { s1.fresh with waits := Tab.put s1.waits id { r with kind := .stamped none, order := id } }
                (r.members.foldl (fun s t => s.setThread t fun th => { th with wait := some id }) s2).send (.stampedRequestRelease g)
              else s
    | _ => s

/-- R370: every waiting FETCHT.task of a grid tries again. -/
def State.dispatchAll (s : State) (g : Nat) : State :=
  let ws := (s.waits.filter fun e => (match e.2.kind with | .fetchTask _ => true | _ => false) && (s.warp e.2.warp).grid == g).map (·.1)
  ws.foldl (fun s k => s.dispatch k) s

/-- FETCHT.task (R367): the warp's task ends, and the dispatcher serves the warp. -/
def fetchTaskOp (i : Instr) (s : State) : State :=
  let f := i.form
  s.onceFor i fun ld _ s =>
    let w := s.warp ld.warp
    if field (s.grid w.grid).packet 0x48 8 = 0 then .fault s.illegal
    else if !s.loadsDone ld.warp none then .retry
    else
      let id := s.nextId
      let s1 := s.park (.fetchTask (f.x.dst.num.toNat % 32)) ld.warp s.cur.group
      if w.task.isSome then .held (s1.send (.taskEnd ld.warp)) else .held (s1.dispatch id)

/-! ## Lends (R370) -/

/-- LEND_ACCEPT (R370): the thief's update at the header's home; refused, its copy is discarded and it searches on. -/
def lendAccept (id : Nat) (s : State) : State :=
  match Tab.find s.fe.lends id with
  | none => s
  | some l =>
    let gr := s.grid l.grid
    let rd (o n : Nat) : Nat := ofLeBytes (s.dequeBytes gr.asid (gr.deque l.victim l.data + BitVec.ofNat 64 o) n)
    let (home, die) := match s.fePlace gr.asid (gr.deque l.victim l.data) false with
      | some (false, pa) => (s.homeTime (pa / 128), homeDie (pa / 128))
      | _ => (s.now, Config.feDie)
    let g := s.skew2 die (dieOfCore l.thief)
    let waits := match Tab.find s.waits l.wait with
      | some r => (match r.kind with | .fetchTask _ => (s.warp r.warp).core == l.thief | _ => false)
      | none => false
    if !waits then s
    else
      let warp := ((Tab.find s.waits l.wait).map WaitRec.warp).getD 0
      if rd 0x10 1 % 2 = 1 ∧ rd 0x12 2 = l.thief ∧ home + g < l.expiry then
        let h := s.dequeHead l.grid l.victim l.data
        let s1 := (s.setDeque l.grid l.victim l.data 0 8 (h.top + 1)).setDeque l.grid l.victim l.data 0x10 1 0
        let s2 := if l.data then s1.skipTaken l.grid l.victim gr.deqn else s1
        let s3 := { s2 with fe := { s2.fe with lends := Tab.del s2.fe.lends id } }
        ((s3.giveTask l.wait warp l.record).dispatchAll l.grid).checkGrid l.grid
      else
        -- the lend stays until its expiry; the thief's wait goes on without it
        let s1 := { s with fe := { s.fe with lends := Tab.upd s.fe.lends id fun l => { l with wait := s.nextId } } }
        (s1.fresh).dispatch l.wait

/-- LEND_EXPIRY (R370): the record is queued again at TOP. -/
def lendExpiry (id : Nat) (s : State) : State :=
  match Tab.find s.fe.lends id with
  | none => s
  | some l =>
    let gr := s.grid l.grid
    let (home, die) := match s.fePlace gr.asid (gr.deque l.victim l.data) false with
      | some (false, pa) => (s.homeTime (pa / 128), homeDie (pa / 128))
      | _ => (s.now, Config.feDie)
    if home < l.expiry + s.skew2 die (dieOfCore l.thief) then s.hold (.lendExpiry id)
    else
      let s1 := if gr.fault.isSome then s else s.setDeque l.grid l.victim l.data 0x10 1 0
      let s2 := { s1 with fe := { s1.fe with lends := Tab.del s1.fe.lends id } }
      (s2.dispatchAll l.grid).checkGrid l.grid

/-! ## The end of a task (R371) -/

/-- R315, R371: whether FENCE.rel.dev of a warp has ended, counting every write it has issued. -/
def State.warpReleased (s : State) (w : Nat) : Bool :=
  s.writesBack w s.nextId .dev
    && decide (s.fenceTime [w] .dev + s.pkskew ≤ (s.common (dieOfCore (s.warp w).core)).toNat)

/-- R371: the successor counter decremented: routine 1 with a0 = 1 at .dev, as LATOMS does; FE does so on a host page
(R433). -/
def State.decSuccessor (s : State) (warp : Nat) (va : DWord) : State :=
  let w := s.warp warp
  match s.look w.core w.asid va with
  | none => s.send (.fatalFault w.grid (report clsLease 1 va) 0)
  | some e =>
    if !e.r || !e.w then s.send (.fatalFault w.grid (report clsLease 2 va) 0)
    else if e.tgt = 1 then s.feUpdate w.asid va 4 .dec
    else
      let n := s.nextId
      let gen := s.genAt w.core w.asid
      let v : Invocation := ⟨n, warp, 0, w.core, w.asid, gen, SMap.get 0 s.rtVers w.asid, va, e.at va, 1, 1,
        1, 0, 0, 0, (s.grid w.grid).det, none, .dev, 0, 0⟩
      ((s.fresh).setWarp warp fun w => { w with stores := w.stores ++ [⟨n, 0, false, e.at va / 128 * 128, 128, .dev, gen, true, false⟩] }).send
        (.routineInvocation v)

/-- TASK_END (R371). -/
def taskEnd (warp : Nat) (s : State) : State :=
  let w := s.warp warp
  match w.task with
  | none => s
  | some t =>
    if !s.warpReleased warp then s.hold (.taskEnd warp)
    else
      let succ := BitVec.ofNat 64 (field t.bytes 0x20 8)
      let s1 := if succ = 0 then s else s.decSuccessor warp succ
      let s2 := (s1.setWarp warp fun w => { w with task := none }).setGrid w.grid fun g => { g with tasksRunning := g.tasksRunning - 1 }
      ((s2.dispatchAll w.grid).reap warp).checkGrid w.grid

/-! ## ENQT (R372) -/

/-- R369: whether a record that ENQT reads keeps its rules. -/
def recordOk (bs : List Byte) : Bool :=
  field bs 0 8 != 0 && decide (field bs 0x1C 1 ≤ 1) && decide (field bs 0x1D 1 ≤ 1) && zeros bs 0x1E 2
    && field bs 0x20 8 % 4 == 0 && zeros bs 0x28 24

/-- R372: the record that a lane names, as its core reads it; none where the read is rejected (R80). -/
def State.sourceRecord? (s : State) (t : TRef) (va : DWord) : Option (List Byte) :=
  let w := s.warp t.warp
  s.engineRead w.asid (s.genAt w.core w.asid) (dieOfCore w.core) va.toNat 64

def State.sourceRecord (s : State) (t : TRef) (va : DWord) : List Byte := (s.sourceRecord? t va).getD []

/-- R80, R95, R102: the record that a lane names as its core reaches it; false while its line must be waited for. -/
def State.recordReach (s : State) (t : TRef) (va : DWord) : State × Bool :=
  let w := s.warp t.warp
  s.reachSpans w.asid (s.genAt w.core w.asid) (dieOfCore w.core) false [(va.toNat, 64)]

/-- R372: the core a lane pushes to. -/
def enqCore (f : Form) (s : State) (t : TRef) (o : Operands) : Nat :=
  if f.x.sub = 0 then (s.warp t.warp).core else (o.b.setWidth 32).toNat

/-- R372: a lane's checks; the record's contents are judged once the release has ended, so that the warp's own stores are
in it. -/
def enqtCheck (f : Form) (full : Bool) (t : TRef) (o : Operands) (s : State) : Except Report State :=
  let w := s.warp t.warp
  let gr := s.grid w.grid
  let ill : Report := report clsIllegal 0 o.a
  if field gr.packet 0x48 8 = 0 then .error s.illegal
  else match s.accessCheck t o.a 64 true false with
    | .error r => .error r
    | .ok s1 =>
      let c := enqCore f s t o
      if full && (s.sourceRecord? t o.a).isNone then .error (report clsStaleGen 0 o.a)
      else if full && (!recordOk (s.sourceRecord t o.a) || decide (143 < c) || (gr.det && c != w.core)) then .error ill else .ok s1

/-- R372: a record pushed. -/
def State.pushTask (s : State) (g core : Nat) (bytes : List Byte) : State :=
  let data := field bytes 0x1C 1 == 1
  let h := s.dequeHead g core data
  let gr := s.grid g
  let s1 := (s.feWrite gr.asid (gr.recordVa core data h.bot) bytes).setDeque g core data 8 8 (h.bot + 1)
  s1.setGrid g fun g => { g with tasksPushed := g.tasksPushed + 1 }

/-- R372: whether every lane's record has room in its deque. -/
def State.roomFor (s : State) (g : Nat) (targets : List (Nat × Bool)) : Bool :=
  targets.all fun t =>
    let h := s.dequeHead g t.1 t.2
    decide (h.bot - h.top + (targets.filter (· == t)).length ≤ (s.grid g).deqn)

/-- ENQT (R372): every check of every lane, the release, room for every record, then the pushes in lane order. -/
def enqtOp (i : Instr) (s0 : State) : State :=
  let f := i.form
  let acting := s0.cur.group.filter fun t => s0.guardHolds t f.g && (s0.gate t f).isNone
  let (s, here) := acting.foldl (fun (acc : State × Bool) t =>
    let r := acc.1.recordReach t (s0.operands t f).a
    (r.1, acc.2 && r.2)) (s0, true)
  let done := here && s.groupWarps.all fun w => s.warpReleased w
  let room := s.groupWarps.all fun w =>
    let g := (s.warp w).grid
    s.roomFor g ((acting.filter fun t => (s.warp t.warp).grid == g && (f.g.scope == .lane || t == acting.headD t)).map fun t =>
      let o := s.operands t f
      (enqCore f s t o, field (s.sourceRecord t o.a) 0x1C 1 == 1))
  let eff (t : TRef) (o : Operands) (s : State) : Eff :=
    if !done || !room then .retry
    else
      let g := (s.warp t.warp).grid
      .done ((s.pushTask g (enqCore f s t o) (s.sourceRecord t o.a)).dispatchAll g)
  if f.g.scope = .lane then s.eachChecked i (enqtCheck f done) eff
  else s.onceFor i fun ld o s =>
    match enqtCheck f done ld o s with
    | .error r => .fault r
    | .ok s1 => eff ld o s1

/-! ## Meanings -/

/-- FETCHT_TASK (R367). -/
def execFetchtTask (g : Guard) (x : XForm) (s : State) : Host.Outcome State Fault Refusal :=
  .next (fetchTaskOp (Instr.fetchtTask g x) s)

/-- LEND_ACCEPT (R370). -/
def execLendAccept (lend : Nat) (s : State) : Host.Outcome State Fault Refusal :=
  .next (Sys2Proof.Machine.lendAccept lend s)

/-- LEND_EXPIRY (R370). -/
def execLendExpiry (lend : Nat) (s : State) : Host.Outcome State Fault Refusal :=
  .next (Sys2Proof.Machine.lendExpiry lend s)

/-- TASK_END (R371). -/
def execTaskEnd (warp : Nat) (s : State) : Host.Outcome State Fault Refusal :=
  .next (Sys2Proof.Machine.taskEnd warp s)

/-- ENQT (R372). -/
def execEnqt (g : Guard) (x : XForm) (s : State) : Host.Outcome State Fault Refusal :=
  .next (enqtOp (Instr.enqt g x) s)

end Sys2Proof.Machine
end

