-- ==== Sys2Proof/Machine/Firn.lean ====
section
/-! DEFINITION. The saved record of a block as its bytes in the firn heap (15, R384 to R391; log 24). -/

namespace Sys2Proof.Machine

/-! ## Groups, tags and padding (R388) -/

/-- Zero bytes up to a multiple of `n`. -/
def padTo (n : Nat) (bs : List Byte) : List Byte := bs ++ List.replicate ((n - bs.length % n) % n) 0

/-- The tag of a group of 32 words; every saved group has tag 2 where it is stored whole (R377). -/
def groupTag (whole : Bool) (ws : List Word) : Nat :=
  if whole then 2 else if ws.all (fun v => v == 0) then 0 else if ws.all (fun v => v == ws.headD 0) then 1 else 2

/-- The data stored for a group. -/
def groupData (tag : Nat) (ws : List Word) : List Byte :=
  match tag with
  | 1 => leBytes 4 (ws.headD 0).toNat
  | 2 => ws.flatMap fun w => leBytes 4 w.toNat
  | _ => []

/-- Tags of two bits, four in a byte, the first lowest. -/
def packTags : List Nat → List Byte
  | a :: b :: c :: d :: rest => BitVec.ofNat 8 (a + 4 * b + 16 * c + 64 * d) :: packTags rest
  | [] => []
  | [a] => [BitVec.ofNat 8 a]
  | [a, b] => [BitVec.ofNat 8 (a + 4 * b)]
  | [a, b, c] => [BitVec.ofNat 8 (a + 4 * b + 16 * c)]

/-- The tags and the data of groups, none for a group that is not saved. -/
def groupsOf (whole : Bool) (gs : List (Option (List Word))) : List Nat × List Byte :=
  let one (g : Option (List Word)) : Nat × List Byte := match g with
    | none => (3, [])
    | some ws => (groupTag whole ws, groupData (groupTag whole ws) ws)
  ((gs.map one).map (·.1), (gs.map one).flatMap (·.2))

/-! ## The saved set of a warp (R388) -/

/-- R68: the VLIVE of a position in a kernel's liveness table. -/
def Kernel.vlive (k : Kernel) (pos : DWord) : Option (BitVec 320) := (k.liveness.find? fun e => e.1 == pos).map fun e => e.2.2.2

/-- Whether a lane of a register is empty. -/
def Warp.anyEmpty (w : Warp) (n : Nat) : Bool := (List.range 32).any fun l => w.isEmpty l n

/-- R388: whether every allocated register is saved. -/
def Warp.savesAll (w : Warp) (k : Kernel) : Bool :=
  let live := w.threads.filter fun t => !t.exited
  (k.traph.isSome && (live.any Thread.inHandler || !w.deferred.isEmpty)) || live.any fun t => (k.vlive t.pos).isNone

/-- R388: the saved set of a warp, below its allocation. -/
def Warp.saves (w : Warp) (k : Kernel) (n : Nat) : Bool :=
  let live := w.threads.filter fun t => !t.exited
  decide (n < w.alloc) && (w.savesAll k || w.winMap.getLsbD n || w.anyEmpty n
    || live.any fun t => ((k.vlive t.pos).getD 0).getLsbD n)

/-- R383: a warp with the registers outside its saved set 0 and full. -/
def Warp.pack (w : Warp) (k : Kernel) : Warp :=
  let keep := (List.range 320).map fun n => w.saves k n
  { w with
    regs := w.regs.filter fun e => keep.getD (e.1 / 32) false
    empty := w.empty.filter fun e => keep.getD (e.1 / 32) false }

/-! ## Threads and warps (R386, R387) -/

def bit (b : Bool) (k : Nat) : Nat := if b then 2 ^ k else 0

/-- R387: a thread entry of 64 bytes. -/
def threadBytes (w : Warp) (lane : Nat) : List Byte :=
  let t := w.thread lane
  leBytes 8 t.pos.toNat ++ leBytes 8 t.sp.toNat ++ leBytes 8 t.tcause.toNat ++ leBytes 8 t.tpos.toNat ++ leBytes 8 t.tval.toNat
    ++ leBytes 8 t.tscr.toNat ++ leBytes 1 t.fflags.toNat
    ++ leBytes 1 ((List.range 7).foldl (fun a q => a + bit (w.pred lane q) q) 0)
    ++ leBytes 1 (bit t.exited 0 + bit t.inHandler 1) ++ leBytes 5 0 ++ leBytes 8 t.waitRem.toNat

/-- Three words of a coordinate. -/
def coordBytes (c : Word × Word × Word) : List Byte := leBytes 4 c.1.toNat ++ leBytes 4 c.2.1.toNat ++ leBytes 4 c.2.2.toNat

/-- A bitmap of 320 registers. -/
def mapBytes (p : Nat → Bool) : List Byte := leBytes 40 ((List.range 320).foldl (fun a n => a + bit (p n) n) 0)

/-- R386: a warp record. -/
def warpBytes (whole : Bool) (g : Grid) (b : Block) (w : Warp) : List Byte :=
  let regs := List.range 320
  let groups := groupsOf whole (regs.map fun n =>
    if w.saves g.kernel n then some ((List.range 32).map fun l => w.vreg l n) else Option.none)
  let empties := regs.filter fun n => w.anyEmpty n
  let feWords := empties.flatMap fun n => leBytes 4 ((List.range 32).foldl (fun a l => a + bit (!w.isEmpty l n) l) 0)
  let head := leBytes 1 w.home.2.1 ++ leBytes 1 (b.placeOf w.home.1) ++ leBytes 1 w.lp ++ leBytes 1 w.home.2.2
    ++ leBytes 8 w.icount.toNat
    ++ leBytes 8 w.gwBlk.toNat ++ leBytes 8 w.gwDev.toNat ++ leBytes 8 w.gwSys.toNat ++ leBytes 8 w.obs.toNat
    ++ leBytes 8 w.setReg.toNat
    ++ (match w.heldCoord with
      | some n => coordBytes (g.coordOf n) ++ leBytes 4 0
      | Option.none => leBytes 16 0)
    ++ (match w.task with
      | some t => t.bytes
      | Option.none => leBytes 64 0)
    ++ leBytes 8 0
    ++ ((List.range 32).flatMap fun n => leBytes 8 (w.ureg n).toNat)
    ++ ((List.range 32).flatMap fun l => threadBytes w l)
    ++ leBytes 40 w.winMap.toNat ++ mapBytes w.anyEmpty ++ packTags groups.1
  let body := head ++ feWords ++ groups.2
  let len := (12 + body.length + 7) / 8 * 8
  let flags := bit w.idem 0 + bit w.origin.isSome 1 + bit w.task.isSome 2 + bit w.heldCoord.isSome 3 + bit (w.savesAll g.kernel) 4
  leBytes 2 w.index ++ leBytes 2 w.alloc ++ leBytes 2 flags ++ leBytes 2 w.cf.toNat ++ leBytes 4 len ++ body
    ++ List.replicate (len - 12 - body.length) 0

/-! ## Scratchpad and buffers (R389) -/

/-- R389: the scratchpad section of a place. -/
def scratchBytes (whole : Bool) (b : Block) (place : Nat) : List Byte :=
  let n := b.scratch / 128
  let groups := groupsOf whole ((List.range n).map fun l =>
    if SMap.get false b.touched (place * 2 ^ 14 + l) then
      some ((List.range 32).map fun i => BitVec.ofNat 32 (b.get place (128 * l + 4 * i) 4))
    else Option.none)
  let body := padTo 8 (packTags groups.1) ++ padTo 8 groups.2
  leBytes 4 n ++ leBytes 4 (8 + body.length) ++ body

/-- R389: a buffer table entry. -/
def bufferBytes (s : State) (e : Nat × Nat × Buffer) : List Byte :=
  let bf := e.2.2
  leBytes 1 e.2.1 ++ leBytes 1 e.1 ++ leBytes 1 bf.state ++ leBytes 1 0 ++ leBytes 2 (s.warp bf.warp).index ++ leBytes 2 0
    ++ leBytes 4 bf.gen.toNat ++ leBytes 4 0 ++ leBytes 4 bf.offset ++ leBytes 4 bf.length ++ leBytes 8 0

/-! ## Pending entries (R391) -/

/-- The words of the instruction at a position, in 20 bytes. -/
def State.insnBytes (s : State) (core asid : Nat) (pos : DWord) : List Byte :=
  let ws := match s.fetchAt core asid pos with
    | .ok f => encode f.instr
    | .error _ => []
  ((ws.flatMap fun w => leBytes 4 w.toNat) ++ List.replicate 20 0).take 20

/-- R391: a pending entry. -/
def pendBytes (kind lane widx : Nat) (insn : List Byte) (opnd : List DWord) (fmts : List Word) : List Byte :=
  leBytes 1 kind ++ leBytes 1 lane ++ leBytes 2 widx ++ leBytes 4 0 ++ insn ++ leBytes 4 0
    ++ ((opnd.flatMap fun (v : DWord) => leBytes 8 v.toNat) ++ List.replicate 64 0).take 64
    ++ ((fmts.flatMap fun (v : Word) => leBytes 4 v.toNat) ++ List.replicate 32 0).take 32

/-- R214: a register-window address. -/
def rwaOf (index reg lane : Nat) : DWord := BitVec.ofNat 64 (index * 2 ^ 20 + reg * 2 ^ 11 + lane)

/-- R162: the scratchpad address of an offset at a place. -/
def saOf (place ofs : Nat) : DWord := BitVec.ofNat 64 (2 ^ 24 + place * 2 ^ 21 + ofs)

/-- The pending entries of a saved block but for those of kind 5: warp index, issue number, and bytes. -/
def State.pendings (s : State) (v : Saved) : List (Nat × Nat × List Byte) :=
  let idx (w : Nat) : Nat := (s.warp w).index
  let insn (w : Nat) (pos : DWord) : List Byte := s.insnBytes (s.warp w).core (s.warp w).asid pos
  (v.held.map fun h => (idx h.1.srcWarp, h.1.id, pendBytes 1 h.1.srcLane (idx h.1.srcWarp) (insn h.1.srcWarp h.1.insn)
      [rwaOf (idx h.1.warp) h.1.reg h.1.lane, h.1.data.setWidth 64] []))
    ++ (v.loads.map fun wb => match wb.src with
      | .window tw reg lane _ => (idx wb.warp, wb.id, pendBytes 3 wb.lane (idx wb.warp) (insn wb.warp wb.insn) [rwaOf (idx tw) reg lane] [])
      | .ring place ofs => (idx wb.warp, wb.id, pendBytes 2 wb.lane (idx wb.warp) (insn wb.warp wb.insn) [saOf place ofs] [])
      | .value _ => (idx wb.warp, wb.id, []))
    ++ (v.copies.map fun c => (idx c.2.warp, c.2.id, pendBytes 4 0 (idx c.2.warp) (insn c.2.warp c.2.pos) c.2.opnd c.2.fmts))
    ++ v.warps.flatMap fun w => w.2.deferred.map fun d =>
      let faultBytes := leBytes 8 (reportTcause d.report).toNat ++ leBytes 8 d.report.tval.toNat ++ leBytes 1 d.flag ++ leBytes 3 0
      (w.2.index, s.nextId, pendBytes 6 0 w.2.index faultBytes [] [])

/-- R391: a matrix operation as a pending entry. -/
def State.opBytes (s : State) (o : MatrixOp) : List Byte :=
  let w := o.members.headD 0
  pendBytes 5 0 (s.warp w).index (s.insnBytes (s.warp w).core (s.warp w).asid o.pos) o.opnd o.fmts

/-! ## Matrix sections (R390) -/

/-- R390: the matrix section of a place. -/
def State.matrixBytes (s : State) (whole : Bool) (v : Saved) (place : Nat) : List Byte :=
  let run := (v.ops.find? fun o => o.1 == place && o.2.started).map (·.2)
  let iop := match run with
    | some o => s.opBytes o
    | none => leBytes 128 0
  match v.accs.find? fun a => a.place == place with
  | none => leBytes 8 0 ++ leBytes 4 176 ++ leBytes 4 0 ++ leBytes 32 0 ++ leBytes 128 0
  | some a =>
    let co : Core := { Core.reset with
      acc := a.acc, tiles := a.tiles, arrayQ := (v.ops.filter fun o => o.1 == place).map (·.2) }
    let tiles := (List.range 8).filter fun t => SMap.get false a.written t
    let body := padTo 8 (a.image.getD []) ++ tiles.flatMap fun t =>
      let groups := groupsOf whole ((List.range 512).map fun k => some ((List.range 32).map fun i =>
        SMap.get 0 a.acc (t * 2 ^ 14 + 32 * k + i)))
      packTags groups.1 ++ groups.2
    leBytes 1 1 ++ leBytes 1 (tiles.foldl (fun m t => m + 2 ^ t) 0) ++ leBytes 1 (bit run.isSome 0) ++ leBytes 1 0
      ++ leBytes 4 (a.image.getD []).length ++ leBytes 4 (176 + (padTo 8 body).length) ++ leBytes 4 0
      ++ ((List.range 8).flatMap fun t => leBytes 4 (co.statusWord t).toNat) ++ iop ++ padTo 8 body

/-! ## The record (R384) -/

/-- R377: RUN of a resident block. -/
def Block.ran (b : Block) (now : Nat) : Nat := b.run + (now - b.placedAt)

/-- R384: the record of a saved block. `first` marks the first record of a deterministic grid's group. -/
def State.firnBytes (s : State) (whole first : Bool) (v : Saved) : List Byte :=
  let g := s.grid v.grid
  let b := v.blk
  let n := b.places.length
  let warps := v.warps.filter fun w => !w.2.freed
  let ws := warps.flatMap fun w => warpBytes whole g b w.2
  let ss := (List.range n).flatMap fun i => padTo 8 (scratchBytes whole b i)
  let bs := v.buffers.flatMap fun e => bufferBytes s e
  let ms := if v.accs.isEmpty then [] else (List.range n).flatMap fun i => s.matrixBytes whole v i
  let others := sortBy (fun (a b : Nat × Nat × List Byte) => decide (a.1 < b.1) || (a.1 == b.1 && decide (a.2.1 < b.2.1))) (s.pendings v)
  let ops := (v.ops.filter fun o => !o.2.started).map (·.2)
  let ps := (others.flatMap fun e => e.2.2) ++ ops.flatMap fun o => s.opBytes o
  let npend := others.length + ops.length
  let at1 := 256 + ws.length
  let at2 := at1 + ss.length
  let at3 := at2 + bs.length
  let at4 := at3 + ms.length
  let size := (at4 + ps.length + 127) / 128 * 128
  let hold := match b.heldCoord with
    | some k => coordBytes (g.coordOf k) ++ leBytes 4 1
    | none => leBytes 16 0
  let flags := bit g.det 0 + bit v.byYield 1 + bit (warps.any fun w => w.2.suspended.isSome) 2
  padTo 128 (leBytes 4 0x4E524946 ++ leBytes 2 1 ++ leBytes 2 flags ++ leBytes 8 size ++ leBytes 8 v.seq ++ leBytes 4 b.index
    ++ leBytes 2 warps.length ++ leBytes 1 n ++ leBytes 1 (if g.det then g.blocks else 0) ++ leBytes 4 b.prog ++ leBytes 4 b.scratch
    ++ leBytes 8 b.run ++ leBytes 8 v.savedAt
    ++ ((List.range 8).flatMap fun k => leBytes 4 (b.fmtReg k).toNat)
    ++ ((List.range 64).flatMap fun k => leBytes 1 (SMap.get 0 b.pools k))
    ++ hold ++ leBytes 8 256 ++ leBytes 8 at1 ++ leBytes 8 (if bs.isEmpty then 0 else at2) ++ leBytes 8 (if ms.isEmpty then 0 else at3)
    ++ leBytes 8 (if ps.isEmpty then 0 else at4) ++ leBytes 2 v.buffers.length ++ leBytes 2 npend
    ++ ((List.range 8).flatMap fun p => leBytes 1 (if g.det && first then v.rps.getD p 0 else 0)) ++ leBytes 36 0
    ++ ws ++ ss ++ bs ++ ms ++ ps)

end Sys2Proof.Machine
end

