-- ==== Sys2Proof/Machine/Preempt.lean ====
section
/-! DEFINITION. Pre-emption (15): stopping a block (R28), the save and the restore (R381 to R383, R297, R298), yields
(R150), the flush (R380), the estimator (R376 to R379), the end of a grid by a fault (R396) and MIGRATE (R397 to R399). -/

namespace Sys2Proof.Machine

/-! ## Stopping (R28, R382) -/

/-- Whether a V-class result of a wait comes from a ring (R182). -/
def State.fromRing (s : State) (id : Nat) : Bool :=
  s.net.any fun m => match m with
    | .vclassWriteBack wb => wb.id == id && (match wb.src with | .ring .. => true | _ => false)
    | _ => false

/-- R382: whether a waiting instruction is abandoned by a save: the others complete first. -/
def State.abandonable (s : State) (k : Nat) : Bool :=
  match Tab.find s.waits k with
  | none => true
  | some r => match r.kind with
    | .fence .. | .moncan _ | .routineReq .. | .invocation _ => false
    | .uniform id => s.fromRing id
    | _ => true

/-- R382: the opcodes whose instruction, not ready at its issue, is abandoned by a save: WAITF, REGCLAIM, the copies that wait for
room (log 24), ring and buffer operations, ENQT and MIGRATE. -/
def abandonedUnready (opc : Nat) : Bool := [0x0E, 0x0F, 0x68, 0x69, 0x6A, 0x6D, 0x6E, 0x6F, 0x79, 0x7A].contains opc

/-- R28: whether a thread stands where a stop takes it: at slot 0, or where it is blocked inside a clause, by a completion flag, an
empty source of an instruction whose predicate holds, a rendezvous, or an instruction that a save abandons (R382). -/
def State.atStop (s : State) (t : TRef) : Bool :=
  let th := s.thread t
  let w := s.warp t.warp
  let blocked : Bool := match s.fetchOf t with
    | .ok f => !w.flagsSet f.waits || (s.guardHolds t f.instr.form.g && !s.sourcesFull t f.instr.form)
        || (th.unready && abandonedUnready f.instr.form.opc)
    | .error _ => false
  if th.exited || !s.mayIssue t then true
  else match th.wait with
    | some k => s.abandonable k
    | none => (th.pos.setWidth 2 : BitVec 2) == 0 || th.arrival.isSome || blocked

/-- The warps of a block that have not been freed. -/
def State.blockWarps (s : State) (b : Nat) : List Nat := (s.block b).warps.filter fun w => !(s.warp w).freed

/-- R28, R381: whether every thread of a block has stopped. -/
def State.allStopped (s : State) (b : Nat) : Bool :=
  s.issue.isNone && (s.live (s.blockWarps b)).all fun t => s.atStop t && !(s.thread t).dead

/-- The write-backs of a warp that wait for a window or a ring (R382). -/
def State.waitingLoads (s : State) (w : Nat) : List WriteBack :=
  s.net.filterMap fun m => match m with
    | .vclassWriteBack wb => if wb.warp == w && (match wb.src with | .value _ => false | _ => true) then some wb else none
    | _ => none

/-- The write-backs that a record keeps: an RPOP into a uniform register is abandoned instead (DEDUCED, log 24). -/
def State.keptLoads (s : State) (w : Nat) : List WriteBack :=
  (s.waitingLoads w).filter fun wb => match wb.dst with
    | .vec .. => true
    | .uni _ => false

/-- Whether a copy-engine operation may be recorded (R183, R195): a push without a slot, or a QCWSET behind one. -/
def CopyOp.pendable (o : CopyOp) : Bool := !o.started && !o.done && ((o.ring && o.slot.isNone) || o.kind == 5)

/-- R381, R195, R216, R297: whether everything a save waits for has completed. -/
def State.drained (s : State) (b : Nat) : Bool :=
  let ws := s.blockWarps b
  (ws.all fun w =>
    let wp := s.warp w
    wp.stores.isEmpty && wp.pend.isEmpty && wp.inFlight == (s.waitingLoads w).length)
  && (s.cores.all fun e => (e.2.copies.all fun o => o.block != b || o.pendable)
    && (e.2.arrayQ ++ e.2.drainQ).all fun o => o.block != b || decide (o.kind < 2) || !o.started)
  && s.net.all fun m => match m with
    | .windowWriteArrival x => !ws.contains x.srcWarp || s.writeBefore x
    | .taskEnd w => !ws.contains w
    | _ => true

/-! ## The context heap (R392) -/

/-- R401: bytes of the heap. -/
def State.heapBytes (s : State) : Nat := s.fe.peHeapSize * 2 ^ 20

/-- The free runs of the heap: base and bytes. -/
def State.heapFree (s : State) : List (Nat × Nat) :=
  let used := sortBy (fun (a b : Nat × Nat) => decide (a.1 < b.1)) s.fe.heap
  let starts := 0 :: used.map fun r => r.1 + r.2
  let ends := (used.map (·.1)) ++ [s.heapBytes]
  (starts.zip ends).map fun p => (p.1, p.2 - p.1)

/-- R377: the length of the largest free run. -/
def State.heapRoom (s : State) : Nat := s.heapFree.foldl (fun m r => max m r.2) 0

/-- The heap's runs replaced, and PEHEAP.USED with them. -/
def State.setHeap (s : State) (runs : List (Nat × Nat)) : State :=
  { s with fe := { s.fe with heap := runs, peHeapUsed := (runs.foldl (fun n r => n + r.2) 0 + 1023) / 1024 } }

/-! ## The save (R381, R384 to R391) -/

/-- Common time that is left until a deadline, at least 1. -/
def remaining (deadline now : Nat) : Nat := max 1 (deadline - now)

/-- A thread as a save keeps it (R382, R387): no arrival, no wait, and the timeout left of a WAITCMP. -/
def State.packThread (s : State) (t : TRef) : Thread :=
  let th := s.thread t
  let left := match th.wait with
    | some k => match Tab.find s.waits k with
      | some r => (match r.kind with
        | .cmp _ _ (some dl) _ _ => remaining dl s.now
        | _ => 0)
      | none => 0
    | none => th.waitRem.toNat
  { th with arrival := none, wait := none, unready := false, distMet := true, yielded := false, passed := 0, waitRem := BitVec.ofNat 64 left }

/-- R382, R388: a warp as a save keeps it. -/
def State.packWarp (s : State) (w : Nat) : Warp :=
  let wp := s.warp w
  let wp1 := { wp with
    threads := (List.range wp.threads.length).map fun l => s.packThread ⟨w, l⟩
    inFlight := (s.keptLoads w).length }
  wp1.pack (s.grid wp.grid).kernel

/-- R297: the accumulator file of a block on a core, with the image where the engine freezes an interrupted step. -/
def State.packAcc (s : State) (b core : Nat) : Option SavedAcc :=
  let co := s.core core
  if co.accClaim = some b then
    let die := dieOfCore core
    let image := if (co.arrayQ.any fun o => o.block == b && o.started) && Config.freezes s.nextId then
      some (leBytes 8 (Config.imageVersion die)) else none
    some ⟨(s.block b).placeOf core, co.acc, co.tiles, co.written, image⟩
  else none

/-- A block as a save would record it now; the record's place in the heap and its bytes come later. -/
def State.snapshot (s : State) (b : Nat) : Saved :=
  let blk := s.block b
  let ws := s.blockWarps b
  let onPlaces {α : Type} (f : Core → List α) : List (Nat × α) :=
    (List.range blk.places.length).flatMap fun i => (f (s.core (blk.places.getD i 0))).map fun o => (i, o)
  { grid := blk.grid, block := b, blk := { blk with run := blk.ran s.now }
    warps := blk.warps.map fun w => (w, s.packWarp w)
    buffers := (onPlaces fun co => co.buffers.filter fun e => e.2.state != 0 && e.2.block == b).map fun e => (e.1, e.2.1, e.2.2)
    accs := blk.places.filterMap fun c => s.packAcc b c
    copies := onPlaces fun co => co.copies.filter fun o => o.block == b
    ops := onPlaces fun co => sortBy (fun (x y : MatrixOp) => decide (x.id < y.id)) ((co.arrayQ ++ co.drainQ).filter fun o => o.block == b)
    loads := ws.flatMap fun w => s.keptLoads w
    held := ((s.heldWrites.filter fun h => ws.contains h.srcWarp).map fun h => (h, true))
      ++ s.net.filterMap fun m => match m with
        | .windowWriteArrival x => if ws.contains x.srcWarp then some (x, false) else none
        | _ => none
    rps := (List.range 8).map fun p => SMap.get 0 (s.core (blk.places.headD 0)).rp p
    byYield := blk.stopping == some 2
    waits := s.waits.filter fun e => ws.contains e.2.warp && (match e.2.kind with | .cmp .. => true | _ => false)
    woken := [], heapBase := 0, bytes := 0, seq := (s.grid blk.grid).seq, savedAt := s.now, firn := [] }

/-- R146, R150: an armed entry's waiters move from a core to the FE bit. -/
def State.moveToFe (s : State) (id : Nat) : State :=
  match Tab.find s.waits id with
  | none => s
  | some r => match r.kind with
    | .cmp key _ _ _ _ =>
      { s with monitors := s.monitors.map fun m =>
          if m.key = key ∧ m.waiters.contains (some id) then
            { m with agents := (m.agents.filter fun a => a != 144 && (m.waiters.erase (some id)).any fun x => s.agentOf x == a) ++ [144] }
          else m }
    | _ => s

/-- What a block leaves on its way is dropped: it stands in its record, or it is discarded. -/
def State.dropMessages (s : State) (b : Nat) : State :=
  let ws := (s.block b).warps
  { s with net := s.net.filter fun m => match m with
      | .vclassWriteBack wb => !ws.contains wb.warp
      | .windowWriteArrival x => !ws.contains x.srcWarp
      | .stwWaitLand x => !ws.contains x.srcWarp
      | _ => true }

/-- The blocks that are saved together: a deterministic grid's, in %block order (R385); else the block alone. -/
def State.unit (s : State) (b : Nat) : List Nat :=
  let g := (s.block b).grid
  if (s.grid g).det then
    (sortBy (fun (x y : Nat × Block) => decide (x.2.index < y.2.index)) (s.blocks.filter fun e => e.2.grid == g)).map (·.1)
  else [b]

/-- Whether every thread of a block that has not exited waits in WAITCMP (R150). -/
def State.allWaiting (s : State) (b : Nat) : Bool :=
  let ts := s.live (s.blockWarps b)
  !ts.isEmpty && ts.all fun t => match (s.thread t).wait with
    | some k => (match Tab.find s.waits k with
      | some r => (match r.kind with | .cmp .. => true | _ => false)
      | none => false)
    | none => false

/-- The records of blocks put away at a base of the heap, one after another (R385, R392), and the blocks freed. -/
def State.putAway (s : State) (bs : List Nat) (vs : List Saved) (base : Nat) : State :=
  let first := s.nextId
  let placed := (List.range vs.length).map fun i =>
    let before := (vs.take i).foldl (fun n v => n + v.bytes) 0
    (first + i, { vs.getD i (s.snapshot 0) with heapBase := base + before })
  let total := vs.foldl (fun n v => n + v.bytes) 0
  let s1 := (s.setHeap (s.fe.heap ++ [(base, total)]))
  let s2 := { s1 with nextId := first + vs.length, fe := { s1.fe with saved := s1.fe.saved ++ placed } }
  let s3 := bs.foldl (fun s b => (((s.block b).warps.flatMap fun w => (s.waits.filter fun e => e.2.warp == w).map (·.1)).foldl
    (fun s k => s.moveToFe k) s)) s2
  let s4 := bs.foldl (fun s b => (s.dropMessages b).freeBlock b) s3
  let s5 := if (vs.any Saved.byYield) then s4.countRoutine (dieOfCore (((vs.head?.map fun v => v.blk.places).getD []).headD 0)) 7 else s4
  (match placed with
    | (k, v) :: _ => if v.byYield then s5 else s5.send (.restore k)
    | [] => s5).refreshFrz

/-- SAVE (R381, R385, R150): once every warp has stopped and everything outstanding is back, the records go to the heap. A
yield whose block no longer waits, or that finds no room, is not taken; any other save waits for room. -/
def save (b : Nat) (s : State) : State :=
  match Tab.find s.blocks b with
  | none => s
  | some blk =>
    if blk.stopping = some 0 ∨ (s.grid blk.grid).fault.isSome then s
    else
      let bs := s.unit b
      let s1 := bs.foldl (fun s k => s.setBlock k fun x => { x with stopping := some (x.stopping.getD 1) }) s
      if blk.stopping = some 2 ∧ !s1.allWaiting b then s1.setBlock b fun x => { x with stopping := none, idleSince := none }
      else if !(bs.all fun k => s1.allStopped k && s1.drained k) then s1.hold (.save b)
      else
        let vs := (List.range bs.length).map fun i =>
          let v := s1.snapshot (bs.getD i 0)
          let bytes := s1.firnBytes false (i == 0) v
          { v with firn := bytes, bytes := bytes.length }
        let total := vs.foldl (fun n v => n + v.bytes) 0
        match s1.heapFree.find? fun r => decide (total ≤ r.2) with
        | some r => s1.putAway bs vs r.1
        | none =>
          if blk.stopping = some 2 then s1.setBlock b fun x => { x with stopping := none, idleSince := none }
          else s1.hold (.save b)

/-- BLOCK_YIELD (R150): a block all of whose threads have waited in WAITCMP for YLDT ticks is saved. -/
def blockYield (b : Nat) (s : State) : State :=
  match Tab.find s.blocks b with
  | none => s
  | some blk =>
    let long := match blk.idleSince with
      | some t => decide (t + s.mem.yldt ≤ s.now)
      | none => false
    if s.mem.yldt = 0 ∨ (s.grid blk.grid).det ∨ blk.stopping.isSome ∨ !long ∨ !s.allWaiting b then s
    else (s.setBlock b fun x => { x with stopping := some 2 }).send (.save b)

/-- YIELD_WAKE (R150): the first completion of a wait of a yielded block queues it for restore. -/
def yieldWake (k : Nat) (s : State) : State :=
  if (Tab.find s.fe.saved k).isSome && !s.net.contains (.restore k) then s.send (.restore k) else s

/-! ## The restore (R383, R298) -/

/-- R150: FE's waiter of a saved wait is withdrawn, if it is armed. -/
def State.withdrawSaved (s : State) (w : Nat × WaitRec) : State :=
  match w.2.kind with
  | .cmp key _ _ _ _ => s.withdraw key (some w.1)
  | _ => s

/-- R147, R150: whether the wake of a wait that has fired is still on its way to a saved block; it completes the wait. -/
def State.wakeComing (s : State) (v : Saved) : Bool :=
  v.waits.any fun w => !(v.woken.any fun x => x.1 == w.1) && match w.2.kind with
    | .cmp key _ _ _ _ => s.net.any fun m => match m with
      | .monitorWake k _ _ => k == key
      | _ => false
    | _ => false

/-- R150: a waiting thread of a restored block: it completes with the recorded result, or it arms anew with the time left. -/
def State.resumeWait (s : State) (v : Saved) (w : Nat × WaitRec) : State :=
  let mine := w.2.members.filter fun t => !(s.thread t).exited
  match w.2.kind, v.woken.find? fun x => x.1 == w.1 with
  | .cmp _ _ _ dst _, some (_, b) =>
    mine.foldl (fun s t => s.setThread t fun th => { th with pos := w.2.next, waitRem := 0 }) (s.writeWait mine dst b)
  | .cmp _ _ (some dl) _ _, none =>
    mine.foldl (fun s t => s.setThread t fun th => { th with waitRem := BitVec.ofNat 64 (remaining dl s.now) }) s
  | _, _ => s

/-- A warp of a restored block at its place (R383, R424). -/
def State.placeWarp (s : State) (det : Bool) (v : Saved) (cores : List Nat) (e : Nat × Warp) : State :=
  let c := cores.getD (v.blk.placeOf e.2.home.1) 0
  let p := e.2.home.2.1
  let slot := if det then e.2.home.2.2 else s.slotFor c p
  { s with warps := Tab.put s.warps e.1 { e.2 with
      core := c, part := p, slot := slot, origin := none
      threads := e.2.threads.map fun th => { th with lastIssue := s.clock } } }

/-- R298: the matrix state and the operations of a place reissued in their order. -/
def State.restoreMatrix (s : State) (v : Saved) (cores : List Nat) : State :=
  let s1 := v.accs.foldl (fun s a => s.setCore (cores.getD a.place 0) fun co =>
    { co with accClaim := some v.block, acc := a.acc, tiles := a.tiles, written := a.written }) s
  v.ops.foldl (fun s o =>
    let c := cores.getD o.1 0
    let s2 := s.setCore c fun co =>
      if o.2.kind = 4 then { co with drainQ := co.drainQ ++ [o.2] } else { co with arrayQ := co.arrayQ ++ [o.2] }
    if o.2.kind < 2 then s2.send (.matrixKStep c) else s2.send (.matrixOpComplete c o.2.id)) s1

/-- R383: one block put back on its cores. -/
def State.restoreOne (s : State) (v : Saved) (cores : List Nat) : State :=
  let det := (s.grid v.grid).det
  let blk := { v.blk with
    die := dieOfCore (cores.headD 0), places := cores, scratchBase := cores.map fun c => (s.scratchRoom c v.blk.scratch).getD 0
    placedAt := s.now, mark := none, drain := none, stopping := none, idleSince := none, arrivals := []
    yielded := v.blk.yielded || v.byYield }
  let s1 := { s with blocks := Tab.put s.blocks v.block blk }
  let s2 := v.warps.foldl (fun s e => if e.2.freed then { s with warps := Tab.put s.warps e.1 e.2 } else s.placeWarp det v cores e) s1
  let s3 := cores.foldl (fun s c => s.setCore c fun co => { co with l1 := [] }) s2
  let s4 := v.buffers.foldl (fun s e => s.setBuffer (cores.getD e.1 0) e.2.1 e.2.2) s3
  let s5 := s4.restoreMatrix v cores
  let s6 := { s5 with heldWrites := s5.heldWrites ++ (v.held.filter fun h => h.2).map (·.1) }
  let s7 := v.held.foldl (fun s h => if h.2 then s.send (.stwWaitLand h.1) else s.send (.windowWriteArrival h.1)) s6
  let s8 := v.loads.foldl (fun s wb => s.send (.vclassWriteBack wb)) s7
  let s9 := v.copies.foldl (fun s o =>
    let c := cores.getD o.1 0
    (s.setCore c fun co => { co with copies := co.copies ++ [o.2] }).send
      (if o.2.kind = 5 then .copyPost c o.2.id else .ringReserve c o.2.id)) s8
  let s10 := v.waits.foldl (fun s w => if v.woken.any (fun x => x.1 == w.1) then s else s.withdrawSaved w) s9
  let s11 := v.waits.foldl (fun s w => s.resumeWait v w) s10
  if det then s11.setCore (cores.headD 0) fun co =>
    { co with rp := (List.range 8).foldl (fun m p => SMap.set 0 m p (v.rps.getD p 0)) co.rp }
  else s11

/-- RESTORE (R383, R385): a saved block, or a deterministic grid's group, once its turn comes and cores take it. -/
def restore (k : Nat) (s : State) : State :=
  match Tab.find s.fe.saved k with
  | none => s
  | some v =>
    if !v.queued then s
    else if (s.savedGroup k).any fun e => s.wakeComing e.2 then s.hold (.restore k)
    else if !s.turnOf fun e => e.record == some k || (e.record.isSome && e.grid == v.grid && (s.grid v.grid).det) then s.hold (.restore k)
    else match s.coresForSaved k with
      | none => s.hold (.restore k)
      | some cores =>
        let group := s.savedGroup k
        let total := group.foldl (fun n e => n + e.2.bytes) 0
        let base := group.foldl (fun n e => min n e.2.heapBase) v.heapBase
        let s1 := group.foldl (fun s e => s.restoreOne e.2 cores) s
        let s2 := s1.setHeap (s1.fe.heap.filter fun r => !(r.1 == base && r.2 == total))
        let s3 := { s2 with fe := { s2.fe with
          saved := s2.fe.saved.filter fun e => !(group.any fun x => x.1 == e.1)
          peRest := s2.fe.peRest + BitVec.ofNat 64 group.length } }
        s3.refreshFrz

/-! ## The flush (R380) -/

/-- R380: whether every store, invocation and started copy of a block has completed. -/
def State.flushed (s : State) (b : Nat) : Bool :=
  ((s.blockWarps b).all fun w => (s.warp w).stores.isEmpty)
    && s.cores.all fun e => (e.2.copies.all fun o => o.block != b || !o.started || o.done)
      && e.2.drainQ.all fun o => o.block != b || !o.started

/-- A block index in its place among those waiting to be placed (R364). -/
def insertIndex (n : Nat) : List Nat → List Nat
  | [] => [n]
  | m :: rest => if n < m then n :: m :: rest else m :: insertIndex n rest

/-- A coordinate handed back to the dispenser (R365). -/
def Grid.handBack (g : Grid) (n : Option Nat) : Grid :=
  match n with
  | some k => { g with held := g.held.filter (· ≠ k), handedBack := g.handedBack ++ [k] }
  | Option.none => g

/-- The monitor waits of a block's warps withdrawn. -/
def State.withdrawBlock (s : State) (b : Nat) : State :=
  let ids := (s.waits.filter fun e => (s.warp e.2.warp).block == b).map (·.1)
  ids.foldl (fun s k => { s.withdrawWait k with waits := Tab.del (s.withdrawWait k).waits k }) s

/-- R380: a block to be flushed stops: a running MMA or MMAS stops, and what has not started is discarded. -/
def State.startFlush (s : State) (b : Nat) : State :=
  let s1 := (s.setBlock b fun x => { x with stopping := some 0 })
  { s1 with cores := s1.cores.map fun (e : Nat × Core) => (e.1, { e.2 with
    arrayQ := e.2.arrayQ.filter fun o => o.block ≠ b
    drainQ := e.2.drainQ.filter fun o => o.block ≠ b ∨ o.started = true
    copies := e.2.copies.filter fun o => o.block ≠ b ∨ o.started = true ∨ o.done = true }) }

/-- FLUSH (R380). -/
def flush (b : Nat) (s : State) : State :=
  match Tab.find s.blocks b with
  | none => s
  | some blk =>
    if (s.grid blk.grid).fault.isSome then s
    else
      let s2 := s.startFlush b
      if !s2.allStopped b ∨ !s2.flushed b then s2.hold (.flush b)
      else
        let ws := sortBy (fun (x y : Nat) => decide ((s.warp x).index < (s.warp y).index)) blk.warps
        let s3 := s2.setGrid blk.grid fun g => ws.foldl (fun g w => g.handBack (s.warp w).heldCoord) (g.handBack blk.heldCoord)
        let s4 := ((s3.withdrawBlock b).dropMessages b).freeBlock b
        let s5 := s4.setGrid blk.grid fun g => { g with toPlace := insertIndex blk.index g.toPlace, waitingSince := s.now }
        (if s5.net.contains (.placement blk.grid) then s5 else s5.send (.placement blk.grid)).askEstimator blk.grid

/-! ## The estimator (R376 to R379) -/

/-- R363: a grid's effective priority while it waits. -/
def State.gridEp (s : State) (g : Nat) : Nat := aged (s.grid g).prio (s.grid g).waitingSince s.now

/-- Whether a core can take a block of a grid now, before any eviction (R364, R375). -/
def State.freeFor (s : State) (g core : Nat) : Bool :=
  let gr := s.grid g
  let wpc := (gr.wpb + gr.cpb - 1) / gr.cpb
  s.coreUp core && s.coreTakes core (needOf gr.kernel wpc (if gr.det then gr.toPlace.length else 1)) && !s.detOn core
    && !s.reservedFor core g && (if gr.det then (s.blocksHere core).isEmpty else (s.blocksHere core).all fun b => b.2.grid != g)

/-- R376: whether a core counts as free because every block on it may be evicted for a grid. -/
def State.evictable (s : State) (g core : Nat) : Bool :=
  let bs := s.blocksHere core
  s.coreUp core && !s.reservedFor core g && !bs.isEmpty && bs.all fun b =>
    b.2.grid != g && decide ((s.grid b.2.grid).prio < s.gridEp g) && b.2.mark.isNone && b.2.stopping.isNone

/-- R376, R364: the cores of one block: the die with the most that count, then with the most that are free, then the lower;
free ones first, each in ascending number. -/
def State.oneProvisional (s : State) (g n : Nat) (used : List Nat) : Option (List Nat) :=
  let per := (List.range Config.shaderDies).map fun d =>
    let cs := ((List.range Config.coresPerDie).map fun c => d * Config.coresPerDie + c).filter fun c => !used.contains c
    let fr := cs.filter fun c => s.freeFor g c
    let ev := cs.filter fun c => !s.freeFor g c && s.evictable g c
    (fr.length, fr ++ ev)
  let best := per.foldl (fun (b : Nat × List Nat) c =>
    if b.2.length < c.2.length ∨ (b.2.length = c.2.length ∧ min n b.1 < min n c.1) then c else b) (0, [])
  if n ≤ best.2.length then some (best.2.take n) else none

/-- R376: the provisional placement of every block that a grid waits to place. -/
def State.provisional (s : State) (g : Nat) : Option (List (List Nat)) :=
  let gr := s.grid g
  let n := if gr.det then 1 else gr.toPlace.length
  (List.range n).foldl (fun (acc : Option (List (List Nat))) _ =>
    match acc with
    | none => none
    | some done => (s.oneProvisional g gr.cpb done.flatten).map fun cs => done ++ [cs]) (some [])

/-- R378: whether a block may be flushed. -/
def State.flushable (s : State) (b : Nat) : Bool :=
  let blk := s.block b
  !(s.grid blk.grid).det && !blk.yielded && blk.warps.all fun w =>
    let wp := s.warp w
    (wp.threads.any fun t => !t.exited) && wp.idem && wp.task.isNone && wp.threads.all fun t => t.exited || !t.inHandler

/-- R377: L, RUN, PROG and NCORE of a victim: a block, or a whole deterministic grid (R376). -/
structure Victim where
  l : Nat
  run : Nat
  prog : Nat
  ncore : Nat
  deriving DecidableEq, Repr

def State.victim (s : State) (bs : List Nat) : Victim :=
  ⟨(bs.map fun b => (s.firnBytes true false (s.snapshot b)).length).foldl (· + ·) 0,
   (bs.map fun b => (s.block b).ran s.now).foldl max 0,
   (bs.map fun b => (s.block b).prog).foldl min 65536,
   if bs.length = 1 then (s.block (bs.headD 0)).places.length else 1⟩

/-- R378: the time to the end of a victim; none where it has made no progress. -/
def Victim.rem (v : Victim) : Option Nat :=
  if v.prog = 0 then none else some ((v.run * (65536 - v.prog) + v.prog - 1) / v.prog)

/-- R378: ts. -/
def Victim.ts (v : Victim) : Nat := (v.l + 200 * v.ncore - 1) / (200 * v.ncore)

/-- R378: the decision for a victim: 0 drain, 1 flush, 2 save. `drains` says whether the drain branch is taken. -/
def State.decision (s : State) (bs : List Nat) (bav : Int) (drains : Bool) : Nat :=
  let v := s.victim bs
  let fast := match v.rem with
    | some r => decide ((r : Int) ≤ max bav v.ts)
    | none => false
  if drains && fast then 0
  else if (bs.all fun b => s.flushable b) && decide (v.run ≤ s.fe.peFlushLim) then 1
  else if v.l ≤ s.heapRoom then 2
  else 0

/-- R378, R379: a victim marked with its decision, which applies at once. -/
def State.markVictim (s : State) (bs : List Nat) (bav : Int) (drains : Bool) : State :=
  let d := s.decision bs bav drains
  let dl := if d = 0 ∧ drains then (s.victim bs).rem.map (s.now + ·) else none
  let stop := if d = 0 then none else some (d - 1)
  let s1 := bs.foldl (fun s b => s.setBlock b fun x => { x with mark := some d, drain := dl, stopping := stop }) s
  let b := bs.headD 0
  match d with
  | 0 =>
    let s2 := { s1 with fe := { s1.fe with peDrain := s1.fe.peDrain + 1 } }
    if dl.isSome then s2.send (.drainRecheck b) else s2
  | 1 => State.send { s1 with fe := { s1.fe with peFlush := s1.fe.peFlush + 1 } } (.flush b)
  | _ => State.send { s1 with fe := { s1.fe with peSave := s1.fe.peSave + 1 } } (.save b)

/-- R378: the victims on cores, a deterministic grid as one, by die and then by the core of place index 0. -/
def State.victimsOn (s : State) (cores : List Nat) : List (List Nat) :=
  let bs := (s.blocks.filter fun e => e.2.mark.isNone && e.2.places.any fun c => cores.contains c)
  let first (e : Nat × Block) : Nat := e.2.places.headD 0
  ((sortBy (fun (a b : Nat × Block) => decide (first a < first b) || (first a == first b && decide (a.1 < b.1))) bs).map
    fun e => s.unit e.1).dedup

/-- ESTIMATOR_RUN (R376, R378). -/
def estimatorRun (g : Nat) (s : State) : State :=
  let gr := s.grid g
  let earlier := s.grids.any fun e => e.1 != g && s.net.contains (.estimatorRun e.1)
    && (decide (s.gridEp g < s.gridEp e.1) || (s.gridEp g == s.gridEp e.1 && decide (e.2.seq < gr.seq)))
  if !gr.waits ∨ gr.latb = 0 ∨ !s.fe.peEn ∨ gr.fault.isSome then s
  else if earlier then s.hold (.estimatorRun g)
  else match s.provisional g with
    | none => s
    | some cs =>
      let taken := cs.flatten.filter fun c => !s.freeFor g c
      if taken.isEmpty then s
      else
        let bav : Int := (gr.accepted : Int) + 1000 * (gr.latb : Int) - (s.now : Int) - (s.fe.peResv : Int)
        (s.victimsOn taken).foldl (fun s u => s.markVictim u bav true) (s.setGrid g fun x => { x with reserve := cs })

/-- DRAIN_RECHECK (R379): a drained block still resident at its deadline is decided for again without the drain branch. -/
def drainRecheck (b : Nat) (s : State) : State :=
  match Tab.find s.blocks b with
  | none => s
  | some blk =>
    match blk.drain with
    | none => s
    | some dl =>
      if s.now < dl then s.hold (.drainRecheck b)
      else if blk.stopping.isSome then s
      else s.markVictim (s.unit b) 0 false

/-! ## The end of a grid by a fault (R396) -/

/-- R396: whether a grid's started stores, invocations, copies and drains have completed. -/
def State.enginesDone (s : State) (g : Nat) : Bool :=
  let mine (b : Nat) : Bool := (s.block b).grid == g
  s.cores.all fun e => (e.2.copies.all fun o => !mine o.block || !o.started || o.done)
    && (e.2.drainQ.all fun o => !mine o.block || !o.started)
    && s.warps.all fun w => w.2.grid != g || w.2.stores.isEmpty

/-- R396: every resource of a grid freed, its saved records and its tasks dropped. -/
def State.endGrid (s : State) (g : Nat) : State :=
  let bs := (s.blocks.filter fun e => e.2.grid == g).map (·.1)
  let recs := s.fe.saved.filter fun e => e.2.grid == g
  let s1 := recs.foldl (fun s e => e.2.waits.foldl (fun s w =>
    if e.2.woken.any (fun x => x.1 == w.1) then s else s.withdrawSaved w) s) s
  let runs := recs.map fun e => (e.2.heapBase, e.2.bytes)
  let inRun (r : Nat × Nat) : Bool := runs.any fun x => decide (r.1 ≤ x.1 ∧ x.1 < r.1 + r.2)
  let s2 := { s1 with fe := { s1.fe with saved := s1.fe.saved.filter fun e => e.2.grid != g } }
  let s3 := s2.setHeap (s2.fe.heap.filter fun r => !inRun r)
  let s4 := bs.foldl (fun s b => ((s.withdrawBlock b).dropMessages b).freeBlock b)
    (s3.gridWrote g (recs.flatMap fun e => e.2.warps.map (·.2)))
  let s5 := s4.setGrid g fun gr => { gr with
    toPlace := [], doneBlocks := gr.blocks, tasksPushed := 0, tasksRunning := 0, reserve := [], state := .running }
  (s5.refreshFrz).checkGrid g

/-- FATAL_FAULT (R396): the first report is recorded and issue stops; once the started copies and drains are done, the grid's
resources are freed and it completes. -/
def fatalFault (g : Nat) (r : Report) (pos : DWord) (s : State) : State :=
  match Tab.find s.grids g with
  | none => s
  | some gr =>
    if gr.state = .ending then s
    else
      let s1 := if gr.fault.isSome then s else s.setGrid g fun x => { x with fault := some (r, pos) }
      if s1.enginesDone g then s1.endGrid g else s1.hold (.fatalFault g r pos)

/-! ## MIGRATE (R397 to R399) -/

/-- R398: whether a held STW.wait targets a warp, or a window write of it is in flight. -/
def State.windowBusy (s : State) (w : Nat) : Bool :=
  (s.heldWrites.any fun h => h.warp == w || h.srcWarp == w)
    || s.net.any fun m => match m with
      | .windowWriteArrival x => x.srcWarp == w || x.warp == w
      | _ => false

/-- PEMIGR or PEMIGF counts (R398). -/
def State.countMigrate (s : State) (moved : Bool) : State :=
  { s with fe := if moved then { s.fe with peMigr := s.fe.peMigr + 1 } else { s.fe with peMigF := s.fe.peMigF + 1 } }

/-- R269: the accumulator file is released when a block's last warp leaves a core. -/
def State.leaveCore (s : State) (b core : Nat) : State :=
  if (s.core core).accClaim = some b ∧ (s.blockWarps b).all (fun w => (s.warp w).core != core) then
    s.setCore core fun co => { co with accClaim := none }
  else s

/-- R398: a warp moved, packed as its positions stand. -/
def State.moveWarp (s : State) (w core part slot : Nat) (origin : Option (Nat × Nat × Nat)) : State :=
  let wp := s.warp w
  let k := (s.grid wp.grid).kernel
  ((s.setWarp w fun x => { x.pack k with core := core, part := part, slot := slot, origin := origin }).leaveCore wp.block wp.core).countMigrate true

/-- MIGRATE (R398). -/
def migrateOp (i : Instr) (s : State) : State :=
  let f := i.form
  let dst := f.x.dst.num.toNat % 8
  s.onceFor i fun ld o s =>
    let w := s.warp ld.warp
    let va := o.a
    let answer (s : State) (b : Bool) : State := s.writeWait s.cur.group dst b
    let no (s : State) : Eff := .done ((answer s false).countMigrate false)
    if w.setReg ≠ 0 then .fault (report clsScope 5 0)
    else if (s.grid w.grid).det then no s
    else match s.accessCheck ld va 1 true false with
      | .error r => .fault r
      | .ok s1 => match s.look w.core w.asid va with
        | none => .fault (report clsLease 1 va)
        | some e =>
          let h := homeDie (e.at va / 128)
          if e.tgt = 1 then no s1
          else if h = dieOfCore w.core then .done (answer s1 true)
          else if s.windowBusy ld.warp then no s1
          else if w.cf != 0xFFF || w.inFlight != 0 then .retry
          else if h = (s.block w.block).die then
            match w.origin with
            | some (c, p, k) =>
              let s2 := s.cur.group.foldl (fun s' t => s'.moveTo t s.cur.next) (answer s1 true)
              .stay ((s2.moveWarp ld.warp c p k none))
            | none => .done (answer s1 true)
          else
            let id := s1.nextId
            let now := (s.common (dieOfCore w.core)).toNat
            .held (((s1.park (.migrate dst va h (some (now + 2000))) ld.warp s.cur.group).send (.cairnGrant id)).send (.cairnTimeout id))

/-- R398: the first free cairn slot of a die, from the core that the line's slice gives, cyclically. -/
def State.cairnFor (s : State) (die slice : Nat) : Option (Nat × Nat) :=
  let n := Config.coresPerDie
  ((List.range n).flatMap fun k => [(die * n + (slice % Config.slicesPerDie + k) % n, 0), (die * n + (slice % Config.slicesPerDie + k) % n, 4)]).find?
    fun c => s.coreUp c.1 && s.warps.all fun e => !(e.2.core == c.1 && e.2.slot == 12 && e.2.part == c.2 && !e.2.freed)

/-- CAIRN_GRANT (R398): the request is granted a cairn slot once one is free, and the warp moves. -/
def cairnGrant (wait : Nat) (s : State) : State :=
  match Tab.find s.waits wait with
  | none => s
  | some r =>
    match r.kind with
    | .migrate dst va die _ =>
      let w := s.warp r.warp
      let slice := match s.look w.core w.asid va with
        | some e => homeSlice (e.at va / 128)
        | none => 0
      match s.cairnFor die slice with
      | none => s.hold (.cairnGrant wait)
      | some (c, p) =>
        let mine := r.members.filter fun t => (s.thread t).wait == some wait
        ((s.writeWait mine dst true).completeWait wait).moveWarp r.warp c p 12 (some w.home)
    | _ => s

/-- CAIRN_TIMEOUT (R398): no slot was granted within 2,000 ticks. -/
def cairnTimeout (wait : Nat) (s : State) : State :=
  match Tab.find s.waits wait with
  | none => s
  | some r =>
    match r.kind with
    | .migrate dst _ _ dl =>
      let w := s.warp r.warp
      if (s.common (dieOfCore w.core)).toNat < dl.getD 0 then s.hold (.cairnTimeout wait)
      else
        let mine := r.members.filter fun t => (s.thread t).wait == some wait
        ((s.writeWait mine dst false).completeWait wait).countMigrate false
    | _ => s

/-! ## Meanings -/

/-- BLOCK_YIELD (R150). -/
def execBlockYield (block : Nat) (s : State) : Host.Outcome State Fault Refusal :=
  .next (Sys2Proof.Machine.blockYield block s)

/-- YIELD_WAKE (R150). -/
def execYieldWake (block : Nat) (s : State) : Host.Outcome State Fault Refusal :=
  .next (Sys2Proof.Machine.yieldWake block s)

/-- CAIRN_GRANT (R398). -/
def execCairnGrant (wait : Nat) (s : State) : Host.Outcome State Fault Refusal :=
  .next (Sys2Proof.Machine.cairnGrant wait s)

/-- CAIRN_TIMEOUT (R398). -/
def execCairnTimeout (wait : Nat) (s : State) : Host.Outcome State Fault Refusal :=
  .next (Sys2Proof.Machine.cairnTimeout wait s)

/-- FATAL_FAULT (R396). -/
def execFatalFault (grid : Nat) (report : Report) (pos : DWord) (s : State) : Host.Outcome State Fault Refusal :=
  .next (Sys2Proof.Machine.fatalFault grid report pos s)

/-- ESTIMATOR_RUN (R378). -/
def execEstimatorRun (grid : Nat) (s : State) : Host.Outcome State Fault Refusal :=
  .next (Sys2Proof.Machine.estimatorRun grid s)

/-- DRAIN_RECHECK (R379). -/
def execDrainRecheck (block : Nat) (s : State) : Host.Outcome State Fault Refusal :=
  .next (Sys2Proof.Machine.drainRecheck block s)

/-- FLUSH (R380). -/
def execFlush (block : Nat) (s : State) : Host.Outcome State Fault Refusal :=
  .next (Sys2Proof.Machine.flush block s)

/-- SAVE (R381). -/
def execSave (block : Nat) (s : State) : Host.Outcome State Fault Refusal :=
  .next (Sys2Proof.Machine.save block s)

/-- RESTORE (R383). -/
def execRestore (record : Nat) (s : State) : Host.Outcome State Fault Refusal :=
  .next (Sys2Proof.Machine.restore record s)

/-- MIGRATE (R398). -/
def execMigrate (g : Guard) (x : XForm) (s : State) : Host.Outcome State Fault Refusal :=
  .next (migrateOp (Instr.migrate g x) s)

end Sys2Proof.Machine
end

