-- ==== Sys2Proof/Machine/House.lean ====
section
/-! DEFINITION. The device register window as the host reads and writes it (04 R90, R91; 05 R113, R114; 06 R156, R157;
07 R192; 14 R351, R352; 15 R400, R401; 16 R409, R410; 01 R21), attestation and flash (R411 to R414), bring-up and function-level
reset (R415) and the governor (R416). -/

namespace Sys2Proof.Machine

/-! ## Fields of registers -/

/-- A field of a 64-bit value. -/
def bits (v : DWord) (lo n : Nat) : Nat := v.toNat / 2 ^ lo % 2 ^ n

/-- Fields laid at their places. -/
def fields (fs : List (Nat × Nat)) : DWord := BitVec.ofNat 64 (fs.foldl (fun a f => a + 2 ^ f.1 * f.2) 0)

/-! ## Reading the window (R7) -/

/-- R90, R91: the memory block. -/
def State.readMemory (s : State) (o : Nat) : DWord :=
  let m := s.mem
  match o with
  | 0x00 => fields [(0, bit m.swEn 0), (4, m.swRate)]
  | 0x08 => fields [(0, m.swHand)]
  | 0x10 => fields [(0, m.swLow), (32, m.swHigh)]
  | 0x18 => fields [(0, m.swQ.length)]
  | 0x20 => fields [(0, m.swFree)]
  | 0x40 => m.mrBase
  | 0x48 => fields [(0, m.mrLog2n)]
  | _ => 0

/-- R113, R114, R156, R157: the slice block. -/
def State.readSlice (s : State) (o : Nat) : DWord :=
  let m := s.mem
  if 0x100 ≤ o ∧ o < 0x300 then SMap.get 0 (s.die ((o - 0x100) / 0x40)).counters.slice ((o - 0x100) % 0x40 / 8)
  else if 0x300 ≤ o ∧ o < 0x500 then SMap.get 0 (s.die ((o - 0x300) / 0x40)).counters.routine ((o - 0x300) % 0x40 / 8)
  else match o with
    | 0x00 => fields [(0, m.lease), (16, bit m.nocp 0), (17, bit m.frz 0)]
    | 0x08 => m.dgpin
    | 0x10 => fields [(0, m.dgSts)]
    | 0x18 => fields [(0, m.yldt), (16, m.poll)]
    | 0x20 => fields [(0, m.ppwin), (16, bit m.far 0)]
    | _ => 0

/-- R351, R352, R192, R400, R401: the front-end block. -/
def State.readFrontEnd (s : State) (o : Nat) : DWord :=
  let f := s.fe
  if 0x40 ≤ o ∧ o < 0x80 then SMap.get 0 f.qdesc ((o - 0x40) / 8)
  else if 0x140 ≤ o ∧ o < 0x180 then SMap.get 0 f.nvdesc ((o - 0x140) / 8)
  else match o with
    | 0x000 => fields [(0, f.qcmdQid), (56, f.qcmdOp)]
    | 0x008 => fields [(0, f.qstsSt), (8, f.qstsCode)]
    | 0x080 => f.ev.base
    | 0x088 => fields [(0, f.ev.log2n), (16, f.ev.msix), (27, bit f.ev.host 0)]
    | 0x090 => f.ev.ovf
    | 0x098 => f.ev.drop
    | 0x0A0 => fields [(0, (f.queues.filter fun q => q.2.mapped.isSome).length),
        (32, (f.queues.filter fun q => q.2.mapped.isNone && q.2.pending).length)]
    | 0x0C0 => fields [(16, f.peFlushLim), (32, f.peResv), (48, bit f.peEn 0)]
    | 0x0C8 => fields [(0, f.peHeapUsed), (32, f.peHeapSize)]
    | 0x0D0 => f.peDrain
    | 0x0D8 => f.peFlush
    | 0x0E0 => f.peSave
    | 0x0E8 => f.peRest
    | 0x0F0 => f.peMigr
    | 0x0F8 => f.peMigF
    | 0x100 => fields [(0, f.nvcmdIdx), (4, f.nvcmdOp)]
    | 0x108 => fields [(0, f.nvstsSt), (8, f.nvstsCode)]
    | _ => 0

/-- R410: DEVSTS. -/
def Housekeeping.devsts (h : Housekeeping) : Nat := bit h.ready 0 + bit h.recov 3 + 16 * h.stage

/-- R409, R410: the housekeeping block. -/
def State.readHouse (s : State) (o : Nat) : DWord :=
  let h := s.hk
  if 0x40 ≤ o ∧ o < 0xA0 then
    let p := s.port ((o - 0x40) / 8)
    fields [(0, p.st), (2, p.roll), (4, p.rport), (12, p.keygen % 2 ^ 20), (32, p.replay)]
  else if 0x100 ≤ o ∧ o < 0x900 then s.kwexp ((o - 0x100) / 32) ((o - 0x100) % 32 / 8)
  else match o with
    | 0x000 => BitVec.ofNat 64 h.devsts
    | 0x008 => fields [(0, h.cause.toNat), (16, h.mhz), (32, h.power.toNat), (48, h.temp.toNat)]
    | 0x010 => fields [(0, h.lkPort), (4, h.lkOp)]
    | 0x018 => fields [(0, h.atSt), (8, h.atCode)]
    | 0x020 => h.atBuf
    | 0x028 => fields [(0, h.flLen), (32, h.flSt), (40, h.flCode), (60, h.flOp)]
    | 0x030 => h.flBuf
    | _ => 0

/-- R21, R22: the timer block. -/
def State.readTimer (s : State) (o : Nat) : DWord :=
  if 0x240 ≤ o then 0
  else
    let d := s.die (o / 0x40)
    match o % 0x40 with
    | 0x00 => d.cnt
    | 0x08 => d.ofs
    | 0x10 => d.rate.setWidth 64
    | 0x18 => d.gen
    | 0x20 => d.skew.setWidth 64
    | _ => 0

/-- R7, R8, R411: a host read of 64 bits at an offset of the window: reserved and write-only fields read as zero, and in
the recovery state every block but the housekeeping one does. -/
def State.readRegister (s : State) (offset : Nat) : DWord :=
  let o := offset % 2 ^ 16
  if s.hk.recov && offset / 2 ^ 16 != 7 then 0
  else match offset / 2 ^ 16 with
    | 4 => s.readMemory o
    | 5 => s.readSlice o
    | 6 => s.readFrontEnd o
    | 7 => s.readHouse o
    | 8 => s.readTimer o
    | _ => 0

/-- R402: a read of BAR2 returns all ones. -/
def readPeerWindow (n : Nat) : List Byte := List.replicate n 0xFF

/-! ## Writing the window (R7) -/

/-- R91, R92: the memory block; MRBASE and MRCTL by their own step. -/
def State.writeMemory (s : State) (o : Nat) (v : DWord) : State :=
  match o with
  | 0x00 => { s with mem := { s.mem with swEn := v.getLsbD 0, swRate := bits v 4 13 } }
  | 0x10 => { s with mem := { s.mem with swLow := bits v 0 24, swHigh := bits v 32 24 } }
  | 0x40 => s.send (.mrbaseWrite false v)
  | 0x48 => s.send (.mrbaseWrite true v)
  | _ => s

/-- R114, R157: the slice block; DGPIN with GO by its own step, unless one is under way. -/
def State.writeSlice (s : State) (o : Nat) (v : DWord) : State :=
  match o with
  | 0x00 => { s with mem := { s.mem with lease := bits v 0 16, nocp := v.getLsbD 16 } }
  | 0x08 =>
    let kept := v &&& 0x7FFFFFFFFFF00000#64
    if v.getLsbD 63 then
      if s.mem.dgSts = 1 then s
      else State.send { s with mem := { s.mem with dgpin := kept, dgSts := 1 } } (.dgpin kept)
    else { s with mem := { s.mem with dgpin := kept } }
  | 0x18 => { s with mem := { s.mem with yldt := bits v 0 16, poll := bits v 16 16 } }
  | 0x20 => { s with mem := { s.mem with ppwin := bits v 0 16, far := v.getLsbD 16 } }
  | _ => s

/-- R352: QCMD. -/
def State.writeQcmd (s : State) (v : DWord) : State :=
  let qid := bits v 0 12
  let op := bits v 56 3
  let s1 := { s with fe := { s.fe with qcmdOp := op, qcmdQid := qid } }
  if !v.getLsbD 63 || !s.hk.ready || s.fe.qstsSt == 1 then s1
  else match op with
    | 1 => (s1.qsts 0 1).send (.queueCreate qid)
    | 2 => (s1.qsts 0 1).send (.queueDestroy qid)
    | 3 => (s1.qsts 0 1).send (.queueResume qid)
    | 4 => (s1.qsts 0 1).send (.queueHalt qid)
    | _ => s1.queueRefused 2

/-- R192: NVCMD. -/
def State.writeNvcmd (s : State) (v : DWord) : State :=
  let idx := bits v 0 4
  let op := bits v 4 4
  let s1 := { s with fe := { s.fe with nvcmdOp := op, nvcmdIdx := idx } }
  let busy := { s1 with fe := { s1.fe with nvstsSt := 1, nvstsCode := 0 } }
  if !v.getLsbD 63 || !s.hk.ready || s.fe.nvstsSt == 1 then s1
  else match op with
    | 1 => busy.send (.nvcmdAttach idx)
    | 2 => busy.send (.nvcmdDetach idx)
    | _ => s1.nvDone 2

/-- R352, R373, R401: the front-end block. -/
def State.writeFrontEnd (s : State) (o : Nat) (v : DWord) : State :=
  if 0x40 ≤ o ∧ o < 0x80 then { s with fe := { s.fe with qdesc := SMap.set 0 s.fe.qdesc ((o - 0x40) / 8) v } }
  else if 0x140 ≤ o ∧ o < 0x180 then { s with fe := { s.fe with nvdesc := SMap.set 0 s.fe.nvdesc ((o - 0x140) / 8) v } }
  else match o with
    | 0x000 => s.writeQcmd v
    | 0x080 => s.send (.eventRingRestart false v)
    | 0x088 => s.send (.eventRingRestart true v)
    | 0x0C0 => { s with fe := { s.fe with peFlushLim := bits v 16 16, peResv := bits v 32 16, peEn := v.getLsbD 48 } }
    | 0x100 => s.writeNvcmd v
    | _ => s

/-- R410: LKCMD. -/
def State.writeLkcmd (s : State) (v : DWord) : State :=
  let p := bits v 0 4
  let s1 := { s with hk := { s.hk with lkOp := bits v 4 4, lkPort := p } }
  if !v.getLsbD 63 then s1
  else match bits v 4 4 with
    | 1 => s1.send (.linkRollover p)
    | 2 => s1.send (.portDown p)
    | 3 => s1.send (.portUp p)
    | _ => s1

/-- R410: FLCTL. -/
def State.writeFlctl (s : State) (v : DWord) : State :=
  let s1 := { s with hk := { s.hk with flOp := bits v 60 3, flLen := bits v 0 26 } }
  let busy := { s1 with hk := { s1.hk with flSt := 1, flCode := 0 } }
  if !v.getLsbD 63 || s.hk.flSt == 1 then s1
  else match bits v 60 3 with
    | 1 => busy.send .flashStage
    | 2 => busy.send .flashActivate
    | 3 => busy.send .flashAbandon
    | _ => { s1 with hk := { s1.hk with flSt := 3, flCode := 2 } }

/-- R410: the fields of a KWEXP word: ASID, port mask and VALID; base; length; the last word is reserved. -/
def kwexpMask (k : Nat) : DWord :=
  match k with
  | 0 => 0x8FFF0FFF#64
  | 1 => BitVec.allOnes 64
  | 2 => BitVec.allOnes 64
  | _ => 0

/-- R410: the housekeeping block. -/
def State.writeHouse (s : State) (o : Nat) (v : DWord) : State :=
  if 0x100 ≤ o ∧ o < 0x900 then
    { s with hk := { s.hk with kwexp := SMap.set 0 s.hk.kwexp ((o - 0x100) / 8) (v &&& kwexpMask ((o - 0x100) % 32 / 8)) } }
  else match o with
    | 0x010 => s.writeLkcmd v
    | 0x018 =>
      if v.getLsbD 63 && s.hk.atSt != 1 then State.send { s with hk := { s.hk with atSt := 1, atCode := 0 } } .attestation else s
    | 0x020 => { s with hk := { s.hk with atBuf := v &&& ~~~0xFFF#64 } }
    | 0x028 => s.writeFlctl v
    | 0x030 => { s with hk := { s.hk with flBuf := v &&& ~~~0xFFF#64 } }
    | _ => s

/-- REGISTER_WRITE (R7, R8, R411): a host write of 64 bits at an offset of the window: read-only and reserved fields keep
their value, and a command with GO starts its own step. -/
def registerWrite (offset : Nat) (v : DWord) (s : State) : State :=
  let o := offset % 2 ^ 16
  if offset % 8 ≠ 0 ∨ (s.hk.recov ∧ offset / 2 ^ 16 ≠ 7) then s
  else match offset / 2 ^ 16 with
    | 4 => s.writeMemory o v
    | 5 => s.writeSlice o v
    | 6 => s.writeFrontEnd o v
    | 7 => s.writeHouse o v
    | _ => s

/-! ## The capability list (R404) -/

/-- The entries of a list of words: ID, VER and body; ID 0 ends it, and an entry of unknown kind is skipped by its LEN. -/
def capEntries : Nat → List Word → List (Nat × Nat × List Word)
  | 0, _ => []
  | _ + 1, [] => []
  | fuel + 1, w :: ws =>
    let id := (w.extractLsb' 0 16).toNat
    let len := (w.extractLsb' 20 12).toNat
    if id = 0 ∨ len = 0 then [] else (id, (w.extractLsb' 16 4).toNat, ws.take (len - 1)) :: capEntries fuel (ws.drop (len - 1))

/-! ## Attestation (R412, R413) -/

/-- The slot of a pair marked active. -/
def activeSlot (slots : List FlashSlot) (kind image : Nat) : Option FlashSlot :=
  slots.find? fun f => f.kind == kind && f.image == image && f.active

/-- The firmware images of the flash, in slot order. -/
def images (slots : List FlashSlot) : List Nat := ((slots.filter fun f => f.kind == 1).map FlashSlot.image).dedup

/-- `n` bytes exactly. -/
def fitBytes (n : Nat) (bs : List Byte) : List Byte := (bs ++ List.replicate n 0).take n

/-- R413: the report over a nonce. -/
def Housekeeping.report (h : Housekeeping) (nonce : List Byte) : List Byte :=
  let digest (f : Option FlashSlot) : List Byte := fitBytes 64 (Config.shake256 64 ((f.map FlashSlot.payload).getD []))
  let imgs := (images h.slots).take 16
  let cert := Config.certificate.take 2048
  let body := leBytes 4 h.devsts ++ nonce ++ digest (activeSlot h.slots 2 0)
    ++ (imgs.flatMap fun i => leBytes 4 i ++ leBytes 4 (((activeSlot h.slots 1 i).map FlashSlot.version).getD 0)
        ++ digest (activeSlot h.slots 1 i))
    ++ leBytes 2 cert.length ++ leBytes 6 0 ++ padTo 8 cert
  let len := 12 + body.length + 114
  let signed := leBytes 4 0x52544154 ++ leBytes 2 1 ++ leBytes 2 imgs.length ++ leBytes 4 len ++ body
  signed ++ fitBytes 114 (Config.deviceSign (Config.shake256 64 signed))

/-- ATTESTATION (R413, R410). -/
def attestation (s : State) : State :=
  let h := s.hk
  let a := h.atBuf.toNat
  if !h.ready && !h.recov then { s with hk := { h with atSt := 3, atCode := 1 } }
  else if !Config.hostReachable a then { s with hk := { h with atSt := 3, atCode := 2 } }
  else
    let nonce := leBytes 64 (s.peek true a 64)
    let s1 := s.poke true (a + 64) (h.report nonce)
    { s1 with hk := { s1.hk with atSt := 2, atCode := 0 } }

/-! ## Flash (R414) -/

/-- FLCTL after a command. -/
def State.flashDone (s : State) (code : Nat) : State :=
  { s with hk := { s.hk with flCode := code, flSt := if code = 0 then 2 else 3 } }

/-- R414: the code of a container's first failing check; 0 where it passes. -/
def State.containerCheck (s : State) (c : List Byte) : Nat :=
  let kind := field c 6 2
  let img := field c 8 4
  let plen := field c 0x10 8
  let len := s.hk.flLen
  let old := match activeSlot s.hk.slots kind img with
    | some f => f.version
    | none => 0
  if len < 256 ∨ 33554432 < len ∨ field c 0 4 ≠ 0x44464C48 ∨ field c 4 2 ≠ 1 ∨ (kind ≠ 1 ∧ kind ≠ 2) ∨ (kind = 2 ∧ img ≠ 0)
      ∨ !zeros c 0x18 40 ∨ len ≠ 0x40 + plen + 114 then 2
  else if Config.slotBytes kind img < plen then 3
  else if !Config.signatureOk kind img (field c 0x0C 4) c then 1
  else if field c 0x0C 4 < old then 5 else 0

/-- FLASH_STAGE (R414). -/
def flashStage (s : State) : State :=
  let c := leBytes s.hk.flLen (s.peek true s.hk.flBuf.toNat s.hk.flLen)
  let code := s.containerCheck c
  if code ≠ 0 then s.flashDone code
  else
    let kind := field c 6 2
    let img := field c 8 4
    let new : FlashSlot := ⟨kind, img, field c 0x0C 4, (c.drop 0x40).take (field c 0x10 8), false, true⟩
    let others := (s.hk.slots.filter fun f => !(f.kind == kind && f.image == img && !f.active)).map fun f => { f with staged := false }
    State.flashDone { s with hk := { s.hk with slots := others ++ [new] } } 0

/-- FLASH_ACTIVATE (R414): the staged slot becomes the active one of its pair, which counts at the next cold reset. -/
def flashActivate (s : State) : State :=
  match s.hk.slots.find? FlashSlot.staged with
  | none => s.flashDone 4
  | some f =>
    State.flashDone { s with hk := { s.hk with slots := s.hk.slots.map fun g =>
      if g.kind = f.kind ∧ g.image = f.image then { g with active := g.staged, staged := false } else g } } 0

/-- FLASH_ABANDON (R414). -/
def flashAbandon (s : State) : State :=
  State.flashDone { s with hk := { s.hk with slots := s.hk.slots.map fun g => { g with staged := false } } } 0

/-! ## Bring-up (R411, R415) -/

/-- R411: the boot ROM's check of a slot. -/
def FlashSlot.ok (f : FlashSlot) : Bool := Config.signatureOk f.kind f.image f.version f.payload

/-- R411: one pair checked: the active slot, else the other one, which becomes active; none where both fail. -/
def checkPair (slots : List FlashSlot) (kind image : Nat) : Option (List FlashSlot) :=
  let mine (f : FlashSlot) : Bool := f.kind == kind && f.image == image
  match activeSlot slots kind image with
  | some f =>
    if f.ok then some slots
    else if slots.any fun g => mine g && !g.active && g.ok then
      some (slots.map fun g => if mine g then { g with active := !g.active } else g)
    else none
  | none => none

/-- R411: every firmware image checked in turn. -/
def checkImages : List Nat → List FlashSlot → Option (List FlashSlot)
  | [], slots => some slots
  | i :: is, slots =>
    match checkPair slots 1 i with
    | none => none
    | some slots' => checkImages is slots'

/-- R71: a size in GiB kept within its limits. -/
def clampGib (lo hi n : Nat) : Nat := max lo (min hi n)

/-- R415, step 2, and R71: the moraine zone and the firn heap as the configuration record sizes them; the rest of HBM backs device
frames. -/
def State.sized (s : State) : State :=
  let m := clampGib 8 128 Config.moraineGib
  let h := clampGib 4 64 Config.firnGib
  { s with
    mem := { s.mem with moraine := m * 2 ^ 19, swFree := (767 - m - h) * 2 ^ 14 }
    fe := { s.fe with peHeapSize := h * 2 ^ 10 } }

/-- R415, steps 5 to 8: the timers calibrated, the links trained, READY. -/
def State.bringUp (s : State) : State :=
  let s1 := (List.range Config.shaderDies).foldl (fun s d => s.calibrate d ⟨0, 0, 8⟩) s
  let s2 := (List.range 12).foldl (fun s p => portUp p (portDown p s)) s1
  { s2 with hk := { s2.hk with stage := 8, ready := true, cxl := Config.cxlCache } }

/-- COLD_RESET (R411, R415): everything but the flash, the host's memory and the scheduling of the model is as after
power-on; the boot ROM checks the images and the record, and the bring-up runs to READY, or the device is in recovery. -/
def coldReset (s : State) : State :=
  let s0 := { State.reset with
    net := [], agenda := s.agenda, turn := s.turn, freeCtr := s.freeCtr, nextId := s.nextId, hostMem := s.hostMem
    hk := { Housekeeping.reset with slots := s.hk.slots } }
  match checkImages (images s.hk.slots) s.hk.slots with
  | none => { s0 with hk := { s0.hk with recov := true } }
  | some slots =>
    match checkPair slots 2 0 with
    | none => { s0 with hk := { s0.hk with recov := true, stage := 1, slots := slots } }
    | some slots' => (State.sized { s0 with hk := { s0.hk with slots := slots' } }).bringUp

/-- FUNCTION_LEVEL_RESET (R415): every grid ends with class 6; then bring-up goes on from step 5. -/
def functionLevelReset (s : State) : State :=
  if s.hk.recov then s
  else if s.grids.isEmpty then s.bringUp
  else
    let s1 := { s with hk := { s.hk with ready := false, stage := 4 } }
    ((s1.grids.filter fun e => e.2.fault.isNone && !(s1.net.any fun m => match m with
        | .fatalFault g _ _ => g == e.1
        | _ => false)).foldl
      (fun (s : State) (e : Nat × Grid) => s.send (.fatalFault e.1 (report clsStaleGen 0 0) 0)) s1).hold .functionLevelReset

/-! ## The governor (R416) -/

/-- R416: whether a clock is one the governor can set. -/
def clockOk (mhz : Nat) : Bool := decide (500 ≤ mhz ∧ mhz ≤ 1050) && mhz % 50 == 0

/-- GOVERNOR (R416, R410): the sensors' readings and the clock the governor chooses; above a limit it is at least one step
lower than before, down to 500 MHz. -/
def governor (temp power : BitVec 16) (mhz : Nat) (cause : BitVec 3) (s : State) : State :=
  let hot := decide (1050 < temp.toNat) || decide (min 2800 Config.powerLimit < power.toNat)
  let next := if hot then min mhz (max 500 (s.hk.mhz - 50)) else mhz
  if !clockOk mhz || decide (3 < cause.toNat) then s
  else { s with hk := { s.hk with temp := temp, power := power, mhz := next, cause := cause } }

/-- THERMAL_DIE_RESET (R416): a die at 115 °C resets. -/
def thermalDieReset (die : Nat) (s : State) : State := if die < Config.shaderDies then s.send (.dieReset die) else s

/-! ## Meanings -/

/-- ATTESTATION (R413). -/
def execAttestation (s : State) : Host.Outcome State Fault Refusal :=
  .next (Sys2Proof.Machine.attestation  s)

/-- FLASH_STAGE (R414). -/
def execFlashStage (s : State) : Host.Outcome State Fault Refusal :=
  .next (Sys2Proof.Machine.flashStage  s)

/-- FLASH_ACTIVATE (R414). -/
def execFlashActivate (s : State) : Host.Outcome State Fault Refusal :=
  .next (Sys2Proof.Machine.flashActivate  s)

/-- FLASH_ABANDON (R414). -/
def execFlashAbandon (s : State) : Host.Outcome State Fault Refusal :=
  .next (Sys2Proof.Machine.flashAbandon  s)

/-- COLD_RESET (R415). -/
def execColdReset (s : State) : Host.Outcome State Fault Refusal :=
  .next (Sys2Proof.Machine.coldReset  s)

/-- FUNCTION_LEVEL_RESET (R415). -/
def execFunctionLevelReset (s : State) : Host.Outcome State Fault Refusal :=
  .next (Sys2Proof.Machine.functionLevelReset  s)

/-- GOVERNOR (R416). -/
def execGovernor (temp power : BitVec 16) (mhz : Nat) (cause : BitVec 3) (s : State) : Host.Outcome State Fault Refusal :=
  .next (Sys2Proof.Machine.governor temp power mhz cause s)

/-- THERMAL_DIE_RESET (R416). -/
def execThermalDieReset (die : Nat) (s : State) : Host.Outcome State Fault Refusal :=
  .next (Sys2Proof.Machine.thermalDieReset die s)

/-- REGISTER_WRITE (R7). -/
def execRegisterWrite (offset : Nat) (value : DWord) (s : State) : Host.Outcome State Fault Refusal :=
  .next (Sys2Proof.Machine.registerWrite offset value s)

end Sys2Proof.Machine
end

