-- ==== Sys2Proof/Machine/Deliver.lean ====
section
/-! DEFINITION. The delivery of a message or of an outside step: the same meanings that `exec` calls for these steps. -/

namespace Sys2Proof.Machine

/-- What a device step does when it is delivered. -/
def deliver (m : Msg) (s : State) : Host.Outcome State Fault Refusal :=
  match m with
  | .regclaimGrant wait => execRegclaimGrant wait s
  | .windowWriteArrival m => execWindowWriteArrival m s
  | .stwWaitLand m => execStwWaitLand m s
  | .scOrderGrant wait => execScOrderGrant wait s
  | .routineInvocation v => execRoutineInvocation v s
  | .routineReturn r => execRoutineReturn r s
  | .rtinstExecution req => execRtinstExecution req s
  | .monitorWake key agent result => execMonitorWake key agent result s
  | .monitorPoll wait => execMonitorPoll wait s
  | .waitTimeout wait => execWaitTimeout wait s
  | .monitorCancel wait asid pa block agent => execMonitorCancel wait asid pa block agent s
  | .blockYield block => execBlockYield block s
  | .yieldWake block => execYieldWake block s
  | .copyPost core op => execCopyPost core op s
  | .ringReserve core op => execRingReserve core op s
  | .xreadEngineStart x => execXreadEngineStart x s
  | .nvmeCompletion x cmd status => execNvmeCompletion x cmd status s
  | .xreadTimeout x => execXreadTimeout x s
  | .xreadCompletionWord x => execXreadCompletionWord x s
  | .peerWindowWrite offset data => execPeerWindowWrite offset data s
  | .remoteReadServe port asid va len => execRemoteReadServe port asid va len s
  | .matrixKStep core => execMatrixKStep core s
  | .accstAddLineUpdate core op line => execAccstAddLineUpdate core op line s
  | .matrixOpComplete core op => execMatrixOpComplete core op s
  | .lendAccept lend => execLendAccept lend s
  | .lendExpiry lend => execLendExpiry lend s
  | .taskEnd warp => execTaskEnd warp s
  | .cairnGrant wait => execCairnGrant wait s
  | .cairnTimeout wait => execCairnTimeout wait s
  | .vclassWriteBack wb => execVclassWriteBack wb s
  | .storeAcknowledgement ack => execStoreAcknowledgement ack s
  | .rendezvousComplete warp lane => execRendezvousComplete warp lane s
  | .namedBarrierComplete block id => execNamedBarrierComplete block id s
  | .stuckRendezvous warp lane => execStuckRendezvous warp lane s
  | .fatalFault grid report pos => execFatalFault grid report pos s
  | .stampedRequestRelease grid => execStampedRequestRelease grid s
  | .sliceRead r => execSliceRead r s
  | .sliceWrite r => execSliceWrite r s
  | .collapseReceipt die line => execCollapseReceipt die line s
  | .collapseAck die line => execCollapseAck die line s
  | .leaseExpiry line => execLeaseExpiry line s
  | .copyExpiry die line => execCopyExpiry die line s
  | .recall line byDie => execRecall line byDie s
  | .degreeCount asid region rr wr coll => execDegreeCount asid region rr wr coll s
  | .keeperUpdate => execKeeperUpdate s
  | .dgpin value => execDgpin value s
  | .softError stage die line corrected => execSoftError stage die line corrected s
  | .lineLoss line cause => execLineLoss line cause s
  | .dieReset die => execDieReset die s
  | .dieLoss die => execDieLoss die s
  | .mrAccept tail => execMrAccept tail s
  | .ascreate r => execAscreate r s
  | .asdestroy r => execAsdestroy r s
  | .mapPages r => execMapPages r s
  | .unmap r => execUnmap r s
  | .protect r => execProtect r s
  | .migin r => execMigin r s
  | .migout r => execMigout r s
  | .setcold r => execSetcold r s
  | .setpin r => execSetpin r s
  | .generationAck asid agent => execGenerationAck asid agent s
  | .mrbaseWrite ctl value => execMrbaseWrite ctl value s
  | .sweeperVisit => execSweeperVisit s
  | .compression frame => execCompression frame s
  | .compressionCommit frame granules => execCompressionCommit frame granules s
  | .expansion frame => execExpansion frame s
  | .eviction frame => execEviction frame s
  | .dieTimerCalibration die cal => execDieTimerCalibration die cal s
  | .queueCreate qid => execQueueCreate qid s
  | .queueDestroy qid => execQueueDestroy qid s
  | .queueResume qid => execQueueResume qid s
  | .queueHalt qid => execQueueHalt qid s
  | .tailUpdate qid value => execTailUpdate qid value s
  | .packetAccept qid => execPacketAccept qid s
  | .packetStart qid seq => execPacketStart qid seq s
  | .launch qid seq => execLaunch qid seq s
  | .waitSignals qid seq => execWaitSignals qid seq s
  | .waitSignalsTimeout qid seq => execWaitSignalsTimeout qid seq s
  | .signal qid seq => execSignal qid seq s
  | .routineLoad qid seq => execRoutineLoad qid seq s
  | .catalogueUpdate qid seq => execCatalogueUpdate qid seq s
  | .mappingPass => execMappingPass s
  | .placement grid => execPlacement grid s
  | .gridCompletion grid => execGridCompletion grid s
  | .eventRecordWrite e => execEventRecordWrite e s
  | .eventRingSpace rd => execEventRingSpace rd s
  | .eventRingRestart ctl value => execEventRingRestart ctl value s
  | .estimatorRun grid => execEstimatorRun grid s
  | .drainRecheck block => execDrainRecheck block s
  | .flush block => execFlush block s
  | .save block => execSave block s
  | .restore record => execRestore record s
  | .nvcmdAttach index => execNvcmdAttach index s
  | .nvcmdDetach index => execNvcmdDetach index s
  | .flitReceive port f => execFlitReceive port f s
  | .flitAck port seq => execFlitAck port seq s
  | .linkRollover port => execLinkRollover port s
  | .forcedRollover port => execForcedRollover port s
  | .portDown port => execPortDown port s
  | .portUp port => execPortUp port s
  | .attestation => execAttestation s
  | .flashStage => execFlashStage s
  | .flashActivate => execFlashActivate s
  | .flashAbandon => execFlashAbandon s
  | .coldReset => execColdReset s
  | .functionLevelReset => execFunctionLevelReset s
  | .governor temp power mhz cause => execGovernor temp power mhz cause s
  | .thermalDieReset die => execThermalDieReset die s
  | .registerWrite offset value => execRegisterWrite offset value s
  | .fenceReleaseCompletion wait => execFenceReleaseCompletion wait s

end Sys2Proof.Machine
end

