-- ==== Sys2Proof/Machine/Dispatch.lean ====
section
/-! DEFINITION. The meaning of every instruction and device step: one arm per constructor of `Instr`, each a direct call. -/

namespace Sys2Proof.Machine

def exec (i : Instr) (s : State) : Host.Outcome State Fault Refusal :=
  match i with
  | .nop g => Sys2Proof.Machine.execNop g s
  | .yield g => Sys2Proof.Machine.execYield g s
  | .bra g o => Sys2Proof.Machine.execBra g o s
  | .braLit g lit => Sys2Proof.Machine.execBraLit g lit s
  | .brx g a => Sys2Proof.Machine.execBrx g a s
  | .brxX g x => Sys2Proof.Machine.execBrxX g x s
  | .call g o => Sys2Proof.Machine.execCall g o s
  | .callLit g lit => Sys2Proof.Machine.execCallLit g lit s
  | .callx g a => Sys2Proof.Machine.execCallx g a s
  | .callxX g x => Sys2Proof.Machine.execCallxX g x s
  | .ret g => Sys2Proof.Machine.execRet g s
  | .exit g => Sys2Proof.Machine.execExit g s
  | .trap g c => Sys2Proof.Machine.execTrap g c s
  | .brk g c => Sys2Proof.Machine.execBrk g c s
  | .trapret g k => Sys2Proof.Machine.execTrapret g k s
  | .bar g => Sys2Proof.Machine.execBar g s
  | .barNamed g n => Sys2Proof.Machine.execBarNamed g n s
  | .barX g x => Sys2Proof.Machine.execBarX g x s
  | .setdecl g x => Sys2Proof.Machine.execSetdecl g x s
  | .setfree g x => Sys2Proof.Machine.execSetfree g x s
  | .rdsr g a d => Sys2Proof.Machine.execRdsr g a d s
  | .rdsrX g x => Sys2Proof.Machine.execRdsrX g x s
  | .idemb g => Sys2Proof.Machine.execIdemb g s
  | .ideme g => Sys2Proof.Machine.execIdeme g s
  | .prog g v => Sys2Proof.Machine.execProg g v s
  | .progX g x => Sys2Proof.Machine.execProgX g x s
  | .waitf g a d => Sys2Proof.Machine.execWaitf g a d s
  | .waitfX g x => Sys2Proof.Machine.execWaitfX g x s
  | .reggive g x => Sys2Proof.Machine.execReggive g x s
  | .regclaim g x => Sys2Proof.Machine.execRegclaim g x s
  | .regclaimGrant wait => Sys2Proof.Machine.execRegclaimGrant wait s
  | .iadd g b a d => Sys2Proof.Machine.execIadd g b a d s
  | .iaddX g x => Sys2Proof.Machine.execIaddX g x s
  | .isub g b a d => Sys2Proof.Machine.execIsub g b a d s
  | .isubX g x => Sys2Proof.Machine.execIsubX g x s
  | .iadd3 g x => Sys2Proof.Machine.execIadd3 g x s
  | .imul g b a d => Sys2Proof.Machine.execImul g b a d s
  | .imulX g x => Sys2Proof.Machine.execImulX g x s
  | .imulh g b a d => Sys2Proof.Machine.execImulh g b a d s
  | .imulhX g x => Sys2Proof.Machine.execImulhX g x s
  | .imad g b a d => Sys2Proof.Machine.execImad g b a d s
  | .imadX g x => Sys2Proof.Machine.execImadX g x s
  | .imadw g x => Sys2Proof.Machine.execImadw g x s
  | .shl g j a d => Sys2Proof.Machine.execShl g j a d s
  | .shlX g x => Sys2Proof.Machine.execShlX g x s
  | .shr g j a d => Sys2Proof.Machine.execShr g j a d s
  | .shrX g x => Sys2Proof.Machine.execShrX g x s
  | .sar g j a d => Sys2Proof.Machine.execSar g j a d s
  | .sarX g x => Sys2Proof.Machine.execSarX g x s
  | .shf g x => Sys2Proof.Machine.execShf g x s
  | .and g b a d => Sys2Proof.Machine.execAnd g b a d s
  | .andX g x => Sys2Proof.Machine.execAndX g x s
  | .or g b a d => Sys2Proof.Machine.execOr g b a d s
  | .orX g x => Sys2Proof.Machine.execOrX g x s
  | .xor g b a d => Sys2Proof.Machine.execXor g b a d s
  | .xorX g x => Sys2Proof.Machine.execXorX g x s
  | .bfn g x => Sys2Proof.Machine.execBfn g x s
  | .popc g a d => Sys2Proof.Machine.execPopc g a d s
  | .popcX g x => Sys2Proof.Machine.execPopcX g x s
  | .clz g a d => Sys2Proof.Machine.execClz g a d s
  | .clzX g x => Sys2Proof.Machine.execClzX g x s
  | .brev g a d => Sys2Proof.Machine.execBrev g a d s
  | .brevX g x => Sys2Proof.Machine.execBrevX g x s
  | .bfx g x => Sys2Proof.Machine.execBfx g x s
  | .bfi g x => Sys2Proof.Machine.execBfi g x s
  | .bpack g x => Sys2Proof.Machine.execBpack g x s
  | .imin g b a d => Sys2Proof.Machine.execImin g b a d s
  | .iminX g x => Sys2Proof.Machine.execIminX g x s
  | .imax g b a d => Sys2Proof.Machine.execImax g b a d s
  | .imaxX g x => Sys2Proof.Machine.execImaxX g x s
  | .iabs g a d => Sys2Proof.Machine.execIabs g a d s
  | .iabsX g x => Sys2Proof.Machine.execIabsX g x s
  | .isel g x => Sys2Proof.Machine.execIsel g x s
  | .icmp g b a d => Sys2Proof.Machine.execIcmp g b a d s
  | .icmpX g x => Sys2Proof.Machine.execIcmpX g x s
  | .iaddmin g x => Sys2Proof.Machine.execIaddmin g x s
  | .iaddmax g x => Sys2Proof.Machine.execIaddmax g x s
  | .lea g x => Sys2Proof.Machine.execLea g x s
  | .mov g a d => Sys2Proof.Machine.execMov g a d s
  | .movX g x => Sys2Proof.Machine.execMovX g x s
  | .movi g j d => Sys2Proof.Machine.execMovi g j d s
  | .moviX g x => Sys2Proof.Machine.execMoviX g x s
  | .movqPack g d => Sys2Proof.Machine.execMovqPack g d s
  | .movqUnpack g a => Sys2Proof.Machine.execMovqUnpack g a s
  | .movqX g x => Sys2Proof.Machine.execMovqX g x s
  | .qop g x => Sys2Proof.Machine.execQop g x s
  | .cvti g t a d => Sys2Proof.Machine.execCvti g t a d s
  | .cvtiX g x => Sys2Proof.Machine.execCvtiX g x s
  | .fadd g b a d => Sys2Proof.Machine.execFadd g b a d s
  | .faddX g x => Sys2Proof.Machine.execFaddX g x s
  | .fmul g b a d => Sys2Proof.Machine.execFmul g b a d s
  | .fmulX g x => Sys2Proof.Machine.execFmulX g x s
  | .ffma g b a d => Sys2Proof.Machine.execFfma g b a d s
  | .ffmaX g x => Sys2Proof.Machine.execFfmaX g x s
  | .fmin g b a d => Sys2Proof.Machine.execFmin g b a d s
  | .fminX g x => Sys2Proof.Machine.execFminX g x s
  | .fmax g b a d => Sys2Proof.Machine.execFmax g b a d s
  | .fmaxX g x => Sys2Proof.Machine.execFmaxX g x s
  | .fcmp g b a d => Sys2Proof.Machine.execFcmp g b a d s
  | .fcmpX g x => Sys2Proof.Machine.execFcmpX g x s
  | .faddmin g x => Sys2Proof.Machine.execFaddmin g x s
  | .fclass g a d => Sys2Proof.Machine.execFclass g a d s
  | .fclassX g x => Sys2Proof.Machine.execFclassX g x s
  | .frnd g a d => Sys2Proof.Machine.execFrnd g a d s
  | .frndX g x => Sys2Proof.Machine.execFrndX g x s
  | .rcp g a d => Sys2Proof.Machine.execRcp g a d s
  | .rsq g a d => Sys2Proof.Machine.execRsq g a d s
  | .sqrt g a d => Sys2Proof.Machine.execSqrt g a d s
  | .rcpRsqSqrtX g x => Sys2Proof.Machine.execRcpRsqSqrtX g x s
  | .exp2 g a d => Sys2Proof.Machine.execExp2 g a d s
  | .log2 g a d => Sys2Proof.Machine.execLog2 g a d s
  | .exp2Log2X g x => Sys2Proof.Machine.execExp2Log2X g x s
  | .sin g a d => Sys2Proof.Machine.execSin g a d s
  | .cos g a d => Sys2Proof.Machine.execCos g a d s
  | .tanh g a d => Sys2Proof.Machine.execTanh g a d s
  | .sinCosTanhX g x => Sys2Proof.Machine.execSinCosTanhX g x s
  | .hadd2 g b a d => Sys2Proof.Machine.execHadd2 g b a d s
  | .hadd2X g x => Sys2Proof.Machine.execHadd2X g x s
  | .hmul2 g b a d => Sys2Proof.Machine.execHmul2 g b a d s
  | .hmul2X g x => Sys2Proof.Machine.execHmul2X g x s
  | .hfma2 g b a d => Sys2Proof.Machine.execHfma2 g b a d s
  | .hfma2X g x => Sys2Proof.Machine.execHfma2X g x s
  | .dot4 g b a d => Sys2Proof.Machine.execDot4 g b a d s
  | .dot4X g x => Sys2Proof.Machine.execDot4X g x s
  | .cvtf g t a d => Sys2Proof.Machine.execCvtf g t a d s
  | .cvtfX g x => Sys2Proof.Machine.execCvtfX g x s
  | .cvtfi g t a d => Sys2Proof.Machine.execCvtfi g t a d s
  | .cvtfiX g x => Sys2Proof.Machine.execCvtfiX g x s
  | .cvtif g t a d => Sys2Proof.Machine.execCvtif g t a d s
  | .cvtifX g x => Sys2Proof.Machine.execCvtifX g x s
  | .quant g x => Sys2Proof.Machine.execQuant g x s
  | .deq g x => Sys2Proof.Machine.execDeq g x s
  | .blkmax g x => Sys2Proof.Machine.execBlkmax g x s
  | .shfl g b a d => Sys2Proof.Machine.execShfl g b a d s
  | .shflX g x => Sys2Proof.Machine.execShflX g x s
  | .vote g a d => Sys2Proof.Machine.execVote g a d s
  | .voteX g x => Sys2Proof.Machine.execVoteX g x s
  | .redux g a d => Sys2Proof.Machine.execRedux g a d s
  | .reduxX g x => Sys2Proof.Machine.execReduxX g x s
  | .matchAny g a d => Sys2Proof.Machine.execMatchAny g a d s
  | .matchX g x => Sys2Proof.Machine.execMatchX g x s
  | .scan g a d => Sys2Proof.Machine.execScan g a d s
  | .scanX g x => Sys2Proof.Machine.execScanX g x s
  | .ld g o a d => Sys2Proof.Machine.execLd g o a d s
  | .ldX g x => Sys2Proof.Machine.execLdX g x s
  | .st g o a d => Sys2Proof.Machine.execSt g o a d s
  | .stX g x => Sys2Proof.Machine.execStX g x s
  | .lds g o a d => Sys2Proof.Machine.execLds g o a d s
  | .ldsX g x => Sys2Proof.Machine.execLdsX g x s
  | .sts g o a d => Sys2Proof.Machine.execSts g o a d s
  | .stsX g x => Sys2Proof.Machine.execStsX g x s
  | .ldc g o a d => Sys2Proof.Machine.execLdc g o a d s
  | .ldcX g x => Sys2Proof.Machine.execLdcX g x s
  | .ldw g k a d => Sys2Proof.Machine.execLdw g k a d s
  | .ldwX g x => Sys2Proof.Machine.execLdwX g x s
  | .stw g b a => Sys2Proof.Machine.execStw g b a s
  | .stwX g x => Sys2Proof.Machine.execStwX g x s
  | .windowWriteArrival m => Sys2Proof.Machine.execWindowWriteArrival m s
  | .stwWaitLand m => Sys2Proof.Machine.execStwWaitLand m s
  | .pref g c a => Sys2Proof.Machine.execPref g c a s
  | .prefX g x => Sys2Proof.Machine.execPrefX g x s
  | .cinv g c a => Sys2Proof.Machine.execCinv g c a s
  | .cinvX g x => Sys2Proof.Machine.execCinvX g x s
  | .fence g k => Sys2Proof.Machine.execFence g k s
  | .fenceX g x => Sys2Proof.Machine.execFenceX g x s
  | .scOrderGrant wait => Sys2Proof.Machine.execScOrderGrant wait s
  | .opfence g => Sys2Proof.Machine.execOpfence g s
  | .rdeg g x => Sys2Proof.Machine.execRdeg g x s
  | .latom g j a d => Sys2Proof.Machine.execLatom g j a d s
  | .latomX g x => Sys2Proof.Machine.execLatomX g x s
  | .latoms g x => Sys2Proof.Machine.execLatoms g x s
  | .routineInvocation v => Sys2Proof.Machine.execRoutineInvocation v s
  | .routineReturn r => Sys2Proof.Machine.execRoutineReturn r s
  | .rtinst g x => Sys2Proof.Machine.execRtinst g x s
  | .rtrem g x => Sys2Proof.Machine.execRtrem g x s
  | .rtinstExecution req => Sys2Proof.Machine.execRtinstExecution req s
  | .waitcmp g b a d => Sys2Proof.Machine.execWaitcmp g b a d s
  | .waitcmpX g x => Sys2Proof.Machine.execWaitcmpX g x s
  | .monitorWake key agent result => Sys2Proof.Machine.execMonitorWake key agent result s
  | .monitorPoll wait => Sys2Proof.Machine.execMonitorPoll wait s
  | .waitTimeout wait => Sys2Proof.Machine.execWaitTimeout wait s
  | .moncan g a => Sys2Proof.Machine.execMoncan g a s
  | .moncanX g x => Sys2Proof.Machine.execMoncanX g x s
  | .monitorCancel wait asid pa block agent => Sys2Proof.Machine.execMonitorCancel wait asid pa block agent s
  | .blockYield block => Sys2Proof.Machine.execBlockYield block s
  | .yieldWake block => Sys2Proof.Machine.execYieldWake block s
  | .xcopy g x => Sys2Proof.Machine.execXcopy g x s
  | .xgather g x => Sys2Proof.Machine.execXgather g x s
  | .xscat g x => Sys2Proof.Machine.execXscat g x s
  | .xfill g x => Sys2Proof.Machine.execXfill g x s
  | .copyPost core op => Sys2Proof.Machine.execCopyPost core op s
  | .ringReserve core op => Sys2Proof.Machine.execRingReserve core op s
  | .xread g x => Sys2Proof.Machine.execXread g x s
  | .xreadEngineStart x => Sys2Proof.Machine.execXreadEngineStart x s
  | .nvmeCompletion x cmd status => Sys2Proof.Machine.execNvmeCompletion x cmd status s
  | .xreadTimeout x => Sys2Proof.Machine.execXreadTimeout x s
  | .xreadCompletionWord x => Sys2Proof.Machine.execXreadCompletionWord x s
  | .peerWindowWrite offset data => Sys2Proof.Machine.execPeerWindowWrite offset data s
  | .remoteReadServe port asid va len => Sys2Proof.Machine.execRemoteReadServe port asid va len s
  | .qcwset g x => Sys2Proof.Machine.execQcwset g x s
  | .rpush g q a c => Sys2Proof.Machine.execRpush g q a c s
  | .rpushX g x => Sys2Proof.Machine.execRpushX g x s
  | .rpop g q d => Sys2Proof.Machine.execRpop g q d s
  | .rpopX g x => Sys2Proof.Machine.execRpopX g x s
  | .bgive g x => Sys2Proof.Machine.execBgive g x s
  | .bgiveFree g x => Sys2Proof.Machine.execBgiveFree g x s
  | .btake g x => Sys2Proof.Machine.execBtake g x s
  | .btakeNew g x => Sys2Proof.Machine.execBtakeNew g x s
  | .fmtset g x => Sys2Proof.Machine.execFmtset g x s
  | .mma g x => Sys2Proof.Machine.execMma g x s
  | .mmas g x => Sys2Proof.Machine.execMmas g x s
  | .matrixKStep core => Sys2Proof.Machine.execMatrixKStep core s
  | .accz g x => Sys2Proof.Machine.execAccz g x s
  | .accld g x => Sys2Proof.Machine.execAccld g x s
  | .accst g x => Sys2Proof.Machine.execAccst g x s
  | .accstAddLineUpdate core op line => Sys2Proof.Machine.execAccstAddLineUpdate core op line s
  | .matrixOpComplete core op => Sys2Proof.Machine.execMatrixOpComplete core op s
  | .acck g x => Sys2Proof.Machine.execAcck g x s
  | .fetchtTile g x => Sys2Proof.Machine.execFetchtTile g x s
  | .fetchtTask g x => Sys2Proof.Machine.execFetchtTask g x s
  | .lendAccept lend => Sys2Proof.Machine.execLendAccept lend s
  | .lendExpiry lend => Sys2Proof.Machine.execLendExpiry lend s
  | .taskEnd warp => Sys2Proof.Machine.execTaskEnd warp s
  | .enqt g x => Sys2Proof.Machine.execEnqt g x s
  | .migrate g x => Sys2Proof.Machine.execMigrate g x s
  | .cairnGrant wait => Sys2Proof.Machine.execCairnGrant wait s
  | .cairnTimeout wait => Sys2Proof.Machine.execCairnTimeout wait s
  | .csrr g a d => Sys2Proof.Machine.execCsrr g a d s
  | .csrrX g x => Sys2Proof.Machine.execCsrrX g x s
  | .csrw g b a => Sys2Proof.Machine.execCsrw g b a s
  | .csrwX g x => Sys2Proof.Machine.execCsrwX g x s
  | .time g c d => Sys2Proof.Machine.execTime g c d s
  | .timeX g x => Sys2Proof.Machine.execTimeX g x s
  | .vclassWriteBack wb => Sys2Proof.Machine.execVclassWriteBack wb s
  | .storeAcknowledgement ack => Sys2Proof.Machine.execStoreAcknowledgement ack s
  | .rendezvousComplete warp lane => Sys2Proof.Machine.execRendezvousComplete warp lane s
  | .namedBarrierComplete block id => Sys2Proof.Machine.execNamedBarrierComplete block id s
  | .stuckRendezvous warp lane => Sys2Proof.Machine.execStuckRendezvous warp lane s
  | .fatalFault grid report pos => Sys2Proof.Machine.execFatalFault grid report pos s
  | .stampedRequestRelease grid => Sys2Proof.Machine.execStampedRequestRelease grid s
  | .sliceRead r => Sys2Proof.Machine.execSliceRead r s
  | .sliceWrite r => Sys2Proof.Machine.execSliceWrite r s
  | .collapseReceipt die line => Sys2Proof.Machine.execCollapseReceipt die line s
  | .collapseAck die line => Sys2Proof.Machine.execCollapseAck die line s
  | .leaseExpiry line => Sys2Proof.Machine.execLeaseExpiry line s
  | .copyExpiry die line => Sys2Proof.Machine.execCopyExpiry die line s
  | .recall line byDie => Sys2Proof.Machine.execRecall line byDie s
  | .degreeCount asid region rr wr coll => Sys2Proof.Machine.execDegreeCount asid region rr wr coll s
  | .keeperUpdate => Sys2Proof.Machine.execKeeperUpdate s
  | .dgpin value => Sys2Proof.Machine.execDgpin value s
  | .softError stage die line corrected => Sys2Proof.Machine.execSoftError stage die line corrected s
  | .lineLoss line cause => Sys2Proof.Machine.execLineLoss line cause s
  | .dieReset die => Sys2Proof.Machine.execDieReset die s
  | .dieLoss die => Sys2Proof.Machine.execDieLoss die s
  | .mrAccept tail => Sys2Proof.Machine.execMrAccept tail s
  | .ascreate r => Sys2Proof.Machine.execAscreate r s
  | .asdestroy r => Sys2Proof.Machine.execAsdestroy r s
  | .mapPages r => Sys2Proof.Machine.execMapPages r s
  | .unmap r => Sys2Proof.Machine.execUnmap r s
  | .protect r => Sys2Proof.Machine.execProtect r s
  | .migin r => Sys2Proof.Machine.execMigin r s
  | .migout r => Sys2Proof.Machine.execMigout r s
  | .setcold r => Sys2Proof.Machine.execSetcold r s
  | .setpin r => Sys2Proof.Machine.execSetpin r s
  | .generationAck asid agent => Sys2Proof.Machine.execGenerationAck asid agent s
  | .mrbaseWrite ctl value => Sys2Proof.Machine.execMrbaseWrite ctl value s
  | .sweeperVisit => Sys2Proof.Machine.execSweeperVisit s
  | .compression frame => Sys2Proof.Machine.execCompression frame s
  | .compressionCommit frame granules => Sys2Proof.Machine.execCompressionCommit frame granules s
  | .expansion frame => Sys2Proof.Machine.execExpansion frame s
  | .eviction frame => Sys2Proof.Machine.execEviction frame s
  | .dieTimerCalibration die cal => Sys2Proof.Machine.execDieTimerCalibration die cal s
  | .queueCreate qid => Sys2Proof.Machine.execQueueCreate qid s
  | .queueDestroy qid => Sys2Proof.Machine.execQueueDestroy qid s
  | .queueResume qid => Sys2Proof.Machine.execQueueResume qid s
  | .queueHalt qid => Sys2Proof.Machine.execQueueHalt qid s
  | .tailUpdate qid value => Sys2Proof.Machine.execTailUpdate qid value s
  | .packetAccept qid => Sys2Proof.Machine.execPacketAccept qid s
  | .packetStart qid seq => Sys2Proof.Machine.execPacketStart qid seq s
  | .launch qid seq => Sys2Proof.Machine.execLaunch qid seq s
  | .waitSignals qid seq => Sys2Proof.Machine.execWaitSignals qid seq s
  | .waitSignalsTimeout qid seq => Sys2Proof.Machine.execWaitSignalsTimeout qid seq s
  | .signal qid seq => Sys2Proof.Machine.execSignal qid seq s
  | .routineLoad qid seq => Sys2Proof.Machine.execRoutineLoad qid seq s
  | .catalogueUpdate qid seq => Sys2Proof.Machine.execCatalogueUpdate qid seq s
  | .mappingPass => Sys2Proof.Machine.execMappingPass s
  | .placement grid => Sys2Proof.Machine.execPlacement grid s
  | .gridCompletion grid => Sys2Proof.Machine.execGridCompletion grid s
  | .eventRecordWrite e => Sys2Proof.Machine.execEventRecordWrite e s
  | .eventRingSpace rd => Sys2Proof.Machine.execEventRingSpace rd s
  | .eventRingRestart ctl value => Sys2Proof.Machine.execEventRingRestart ctl value s
  | .estimatorRun grid => Sys2Proof.Machine.execEstimatorRun grid s
  | .drainRecheck block => Sys2Proof.Machine.execDrainRecheck block s
  | .flush block => Sys2Proof.Machine.execFlush block s
  | .save block => Sys2Proof.Machine.execSave block s
  | .restore record => Sys2Proof.Machine.execRestore record s
  | .nvcmdAttach index => Sys2Proof.Machine.execNvcmdAttach index s
  | .nvcmdDetach index => Sys2Proof.Machine.execNvcmdDetach index s
  | .flitReceive port f => Sys2Proof.Machine.execFlitReceive port f s
  | .flitAck port seq => Sys2Proof.Machine.execFlitAck port seq s
  | .linkRollover port => Sys2Proof.Machine.execLinkRollover port s
  | .forcedRollover port => Sys2Proof.Machine.execForcedRollover port s
  | .portDown port => Sys2Proof.Machine.execPortDown port s
  | .portUp port => Sys2Proof.Machine.execPortUp port s
  | .attestation => Sys2Proof.Machine.execAttestation s
  | .flashStage => Sys2Proof.Machine.execFlashStage s
  | .flashActivate => Sys2Proof.Machine.execFlashActivate s
  | .flashAbandon => Sys2Proof.Machine.execFlashAbandon s
  | .coldReset => Sys2Proof.Machine.execColdReset s
  | .functionLevelReset => Sys2Proof.Machine.execFunctionLevelReset s
  | .governor temp power mhz cause => Sys2Proof.Machine.execGovernor temp power mhz cause s
  | .thermalDieReset die => Sys2Proof.Machine.execThermalDieReset die s
  | .registerWrite offset value => Sys2Proof.Machine.execRegisterWrite offset value s
  | .fenceReleaseCompletion wait => Sys2Proof.Machine.execFenceReleaseCompletion wait s

end Sys2Proof.Machine
end

