-- ==== Sys2Proof/Machine/Sched.lean ====
section
/-! DEFINITION. Which agent moves and what its move does (log 1): the picker (R322, R323, R29 to R31), the delivery of messages
in flight, the passing of a clock with FE's and firmware's periodic work (R6, R21, R33, R88, R111, R355, R360, R416), and the
issue in progress. -/

namespace Sys2Proof.Machine

/-! ## Readiness (R30, R31, R34, R48, R324) -/

/-- What a thread can do now. -/
inductive Ready where
  /-- Nothing. -/
  | no
  /-- Take the fault of a fetch. -/
  | fault (r : Report)
  /-- Take a fault deferred to a flag of its slot's WAIT mask (R174). -/
  | late (d : Deferred)
  /-- Arrive at a scoped instruction (R324). -/
  | arrive (f : Fetched)
  /-- Issue. -/
  | issue (f : Fetched)

/-- Whether a thread has an instruction, a store or an invocation under way that it has issued (R9, R28). -/
def State.laneBusy (s : State) (t : TRef) : Bool :=
  ((s.warp t.warp).stores.any fun p => p.lane == t.lane)
    || (s.heldWrites.any fun x => x.srcWarp == t.warp && x.srcLane == t.lane)
    || s.net.any fun m => match m with
      | .sliceRead r => r.warp == t.warp && r.lane == t.lane
      | .vclassWriteBack wb => wb.warp == t.warp && wb.lane == t.lane
      | .routineInvocation v => v.warp == t.warp && v.lane == t.lane
      | .routineReturn r => r.inv.warp == t.warp && r.inv.lane == t.lane
      | .windowWriteArrival x => x.srcWarp == t.warp && x.srcLane == t.lane
      | _ => false

/-- R30, R31, R34, R48, R324: what a thread of a warp can do. Its encoding is checked when it reaches the instruction (R48), and
after a fault it issues nothing until what it had issued has completed (R9). -/
def State.ready (s : State) (t : TRef) : Ready :=
  let th := s.thread t
  if th.exited || th.dead || th.wait.isSome || th.arrival.isSome || !s.mayIssue t || s.stopped t
    || (th.entering && s.laneBusy t) || !s.codeHere (s.warp t.warp).core (s.warp t.warp).asid th.pos then .no
  else match s.fetchOf t with
    | .error r => .fault r
    | .ok f =>
      let form := f.instr.form
      if !s.legal t form then .fault (report clsIllegal 0 (f.word0.setWidth 64))
      else if !s.distPassed t f.dist then .no
      else if form.g.scope != .lane then .arrive f
      else if !(s.warp t.warp).flagsSet f.waits then .no
      else match s.deferredAt t f.waits with
        | some d => .late d
        | none => if !s.guardHolds t form.g || (s.emptyTrap t form).isSome || s.full t form then .issue f else .no

/-- The threads of a warp. -/
def State.threadsOf (s : State) (w : Nat) : List TRef := (List.range (s.warp w).threads.length).map fun l => TRef.mk w l

/-- The warps that issue through a partition, cairn slots included (R17, R322). -/
def State.partWarps (s : State) (core part : Nat) : List Nat :=
  (s.warps.filter fun e => e.2.core == core && e.2.part == part && !e.2.freed).map (·.1)

/-! ## The picker (R322) -/

/-- R322: the number of rotation positions of a partition. -/
def rotation (part : Nat) : Nat := if part = 0 ∨ part = 4 then 13 else 12

/-- The warp in each position of a partition, in rotation order from RP. -/
def State.rotated (s : State) (core part : Nat) : List Nat :=
  let rp := SMap.get 0 (s.core core).rp part
  (List.range (rotation part)).filterMap fun k =>
    (s.partWarps core part).find? fun w => (s.warp w).slot == (rp + k) % rotation part

/-- The instruction that a thread is ready to issue. -/
def State.readyIssue (s : State) (t : TRef) : Option Fetched :=
  match s.ready t with
  | .issue f => some f
  | _ => none

/-- R322: the ready threads of the warps of a partition, in rotation order of the warps and in lane order from LP in each. -/
def State.readyOrder (s : State) (ws : List Nat) : List (TRef × Fetched) :=
  ws.flatMap fun w => (List.range 32).filterMap fun k =>
    let t : TRef := ⟨w, ((s.warp w).lp + k) % 32⟩
    (s.readyIssue t).map fun f => (t, f)

/-- R323: whether a thread that is passed over for a leader still issues within the bound: the issues it has waited for, and those
that the rotation of R322 may make before it leads, its pointers standing as after that leader's issue. -/
def State.mayPass (s : State) (part : Nat) (t lead : TRef) : Bool :=
  let ns := rotation part
  let lp := if t.warp = lead.warp then (lead.lane + 1) % 32 else (s.warp t.warp).lp
  let rp := ((s.warp lead.warp).slot + 1) % ns
  let lanes := (t.lane + 32 - lp) % 32
  let turns := ((s.warp t.warp).slot + ns - rp) % ns
  decide ((s.thread t).passed + 1 + (lanes * ns + turns + 1) ≤ 416)

/-- R322, R29, R337: the leader: the first ready thread in order, or the first that no hint holds back, where every thread passed
over for it still issues within R323's bound; in deterministic mode hints are ignored. -/
def State.leaderOf (s : State) (part : Nat) (order : List (TRef × Fetched)) : Option (TRef × Fetched) :=
  let hinted (t : TRef) : Bool := (s.thread t).yielded && !(s.grid (s.warp t.warp).grid).det
  match order.find? fun e => !hinted e.1 with
  | some l => if (order.takeWhile fun e => hinted e.1).all fun e => s.mayPass part e.1 l.1 then some l else order.head?
  | none => order.head?

/-- R322, R375: the threads that issue with a leader, in lane order (R124, R210). -/
def State.groupOf (s : State) (ws : List Nat) (lead : TRef) : List TRef :=
  let lw := s.warp lead.warp
  let pos := (s.thread lead).pos
  let joins (w : Nat) : Bool :=
    (s.warp w).asid == lw.asid && (!(s.grid lw.grid).det || (s.warp w).block == lw.block)
  sortBy (fun (a b : TRef) => decide (a.lane < b.lane)) ((ws.filter joins).foldl (fun g w =>
    g ++ (s.threadsOf w).filter fun t =>
      (s.thread t).pos == pos && (s.readyIssue t).isSome && !(g.any fun u => u.lane == t.lane)) [])

/-- R27: a thread at a clause whose header fails its checks stands at the clause's slot 0. -/
def State.atHeader (s : State) (t : TRef) : State :=
  match s.header (s.warp t.warp).core (s.warp t.warp).asid (headerOf (s.thread t).pos) with
  | .ok h => if h.ok then s else s.setThread t fun th => { th with pos := headerOf th.pos }
  | .error _ => s

/-- R330: whether the word at a thread's position is of set scope, in a warp that has a set. -/
def State.setScoped (s : State) (t : TRef) : Bool :=
  let w := s.warp t.warp
  let pos := (s.thread t).pos
  match s.header w.core w.asid (headerOf pos), s.slotAddr w.core w.asid (headerOf pos) (pos.setWidth 2 : BitVec 2).toNat with
  | .ok h, .ok a => h.ok && (match s.codeWord w.core w.asid a with
    | .ok x => x.extractLsb' 2 2 == 2
    | .error _ => false)
  | _, _ => false

/-- R80, R95: the positions whose code cannot be read yet are reached for, each once. -/
def State.awaitCode (s : State) (ws : List Nat) : State :=
  let place (t : TRef) : Nat × Nat × DWord := ((s.warp t.warp).core, (s.warp t.warp).asid, (s.thread t).pos)
  let away (p : Nat × Nat × DWord) : Bool := !s.codeHere p.1 p.2.1 p.2.2
  let live := (ws.flatMap fun w => s.threadsOf w).filter fun t => !(s.thread t).exited && !(s.thread t).dead
  ((live.map place).filter away).dedup.foldl (fun s p => s.fetchReach p.1 p.2.1 p.2.2) s

/-- Arrivals and faults at the positions that threads of a partition have reached (R48, R174, R324). -/
def State.reach (s : State) (ws : List Nat) : State :=
  (ws.flatMap fun w => s.threadsOf w).foldl (fun s t =>
    match s.ready t with
    | .fault r => (s.atHeader t).raiseAll [t] r (s.setScoped t)
    | .late d => s.raiseDeferred t d
    | .arrive f => (s.arrive t f.instr.form f.word0).getD s
    | _ => s) s

/-- R322, R324: the complete rendezvous with a member in a partition, the one whose last member arrived first (log 33). -/
def State.completedHere (s : State) (ws : List Nat) : Option (TRef × List TRef) :=
  let order (ms : List TRef) : Nat := (ms.map fun u => ((s.thread u).arrival.map Arrival.order).getD 0).foldl max 0
  ((ws.flatMap fun w => s.threadsOf w).filterMap fun t => (s.complete t).map fun ms => (t, ms)).foldl
    (fun best e => match best with
      | some b => if order e.2 < order b.2 then some e else best
      | none => some e) none

/-- R323: the threads of a partition count an issue of it: those ready that did not issue. -/
def State.countPassed (s : State) (ws : List Nat) (order : List (TRef × Fetched)) (group : List TRef) : State :=
  (ws.flatMap fun w => s.threadsOf w).foldl (fun s t => s.setThread t fun th =>
    { th with passed := if (order.any fun e => e.1 == t) && !group.contains t then th.passed + 1 else 0 }) s

/-- R322: one turn of a partition's picker, which issues at most once a clock (R15): a complete rendezvous first; else the group
chosen is to issue, its code is read (R80), and the pointers move on. -/
def State.pick (s0 : State) (core part : Nat) : State :=
  let s := (s0.awaitCode (s0.partWarps core part)).reach (s0.partWarps core part)
  if SMap.get 0 (s.core core).issued part == s.clock + 1 then s
  else match s.completedHere (s.partWarps core part) with
  | some (t, _) => match (s.thread t).arrival.bind Arrival.named with
    | some id => namedBarrierComplete (s.warp t.warp).block id s
    | none => rendezvousComplete t.warp t.lane s
  | none =>
    let ws := s.rotated core part
    let order := s.readyOrder ws
    match s.leaderOf part order with
    | none => s
    | some (t, f) =>
      let group := s.groupOf ws t
      let s1 := s.setCore core fun co => { co with
        rp := SMap.set 0 co.rp part (((s.warp t.warp).slot + 1) % rotation part)
        issued := SMap.set 0 co.issued part (s.clock + 1) }
      let s2 := s1.setWarp t.warp fun w => { w with lp := (t.lane + 1) % 32 }
      let s3 := s2.countPassed ws order group
      let s4 := (group.foldl (fun s u => s.setThread u fun th => { th with yielded := false }) s3).fetchReach core
        (s.warp t.warp).asid (s.thread t).pos
      { s4.waited (group.map TRef.warp) f.waits with issue := some (f.issue (s.thread t).pos group false) }

/-! ## The issue in progress -/

/-- A group whose rendezvous stays open is looked at again. -/
def State.lookAgain (s : State) (group : List TRef) : State :=
  match group.find? fun t => (s.thread t).arrival.isSome && (s.thread t).wait.isNone with
  | some t => s.sendOnce (.rendezvousComplete t.warp t.lane)
  | none => s

/-- Exited warps whose operations have completed are freed (R327); SETDECLs that name them fault, and SETFREEs that waited for
them complete (R341). -/
def State.settle (s : State) : State :=
  (s.warps.filter fun e => !e.2.freed && e.2.threads.all Thread.exited).foldl
    (fun (s : State) (e : Nat × Warp) => ((s.setdeclExit e.1).setfreeExit e.1).reap e.1) s

/-- The issue in progress: the instruction at its position is fetched and executed for its group. -/
def State.runIssue (s : State) (i : Issue) : Host.Outcome State Fault Refusal :=
  match i.group with
  | [] => .next { s with issue := none }
  | t :: _ =>
    let w := s.warp t.warp
    match s.fetchAt w.core w.asid i.pos with
    | .error r => .next ((i.group.foldl State.atHeader { s with issue := none }).raiseAll i.group r (s.setScoped t))
    | .ok f =>
      match exec f.instr { s with issue := some { f.issue i.pos i.group i.released with num := s.nextId + 1 } } with
      | .next s' => .next (State.lookAgain { s' with issue := none } i.group).settle
      | .fault r => .fault r
      | .refused r => .refused r

/-! ## Messages in flight -/

/-- The thread and line of an access to memory on its way. -/
def msgLine (m : Msg) : Option (Nat × Nat × Nat × Bool) :=
  match m with
  | .sliceWrite w =>
    match w.waiter with
    | .store warp lane _ => some (warp, lane, w.pa / 128, w.host)
    | _ => none
  | .sliceRead r => some (r.warp, r.lane, r.pa / 128, r.host)
  | .routineInvocation v => some (v.warp, v.lane, v.pa / 128, false)
  | _ => none

/-- The thread, the issue and the target of a window access on its way. -/
def msgWindow (m : Msg) : Option ((Nat × Nat) × Nat × Nat × Nat × Nat) :=
  match m with
  | .windowWriteArrival x => some ((x.srcWarp, x.srcLane), x.batch, x.warp, x.reg, x.lane)
  | .vclassWriteBack wb =>
    match wb.src with
    | .window w reg lane _ => some ((wb.warp, wb.lane), wb.batch, w, reg, lane)
    | _ => none
  | _ => none

/-- Two lanes' writes of one ST that overlap, their reads of one line (R211), or their invocations of one line (R124). -/
def sameIssue (a b : Msg) : Bool :=
  match a, b with
  | .sliceWrite x, .sliceWrite y =>
    x.batch == y.batch && x.batch != 0 && x.host == y.host && decide (x.pa < y.pa + y.bytes) && decide (y.pa < x.pa + x.bytes)
  | .sliceRead x, .sliceRead y =>
    x.batch == y.batch && x.batch != 0 && x.core == y.core && x.host == y.host && x.pa / 128 == y.pa / 128
  | .routineInvocation x, .routineInvocation y =>
    x.batch == y.batch && x.batch != 0 && x.core == y.core && x.pa / 128 == y.pa / 128
  | _, _ => false

/-- Whether a message must not overtake another: one thread's accesses to one line, the lanes of one issue in lane order where
they meet, window accesses of one thread or one issue to one target, takes of one warp from one ring (R183), event records, fault
reports of one grid (R78), grants of registers (R205), and writes of the memory request ring's registers (R92). -/
def ordered (a b : Msg) : Bool :=
  (match msgLine a, msgLine b with
    | some x, some y => x == y
    | _, _ => false)
  || sameIssue a b
  || (match msgWindow a, msgWindow b with
    | some x, some y => (x.1 == y.1 || (x.2.1 == y.2.1 && x.2.1 != 0)) && x.2.2 == y.2.2
    | _, _ => false)
  || (match a, b with
    | .eventRecordWrite _, .eventRecordWrite _ => true
    | .fatalFault g _ _, .fatalFault h _ _ => g == h
    | .regclaimGrant _, .regclaimGrant _ => true
    | .mrbaseWrite _ _, .mrbaseWrite _ _ => true
    | .vclassWriteBack x, .vclassWriteBack y => (match x.src, y.src with
      | .ring p q, .ring p' q' => x.warp == y.warp && p == p' && q == q'
      | _, _ => false)
    | _, _ => false)

/-- R124, R211: whether two invocations or reads are served together, with nothing between them. -/
def together (a b : Msg) : Bool :=
  match a, b with
  | .routineInvocation _, .routineInvocation _ | .sliceRead _, .sliceRead _ => sameIssue a b
  | _, _ => false

/-- R108: the line whose home a request of a core reaches, and its place among those of one clock: the cores of the home's own die,
then the other dies. -/
def homeRank (m : Msg) : Option (Nat × Nat) :=
  let rank (core line : Nat) : Nat × Nat :=
    (line, if dieOfCore core = homeDie line then core % Config.coresPerDie else 32 + dieOfCore core)
  match m with
  | .sliceRead r => if r.host then none else some (rank r.core (r.pa / 128))
  | .sliceWrite r => if r.host then none else some (rank r.core (r.pa / 128))
  | .routineInvocation v => some (rank v.core (v.pa / 128))
  | _ => none

/-- R108: whether no request that comes after a message in the home's order has reached its line in this clock. -/
def State.inHomeOrder (s : State) (m : Msg) : Bool :=
  match homeRank m with
  | some (l, k) => s.reached.all fun e => e.1 != l || decide (e.2 ≤ k)
  | none => true

/-- R108: a request that has been served has reached its line in this clock. -/
def State.noteReached (s : State) (m : Msg) : State :=
  match homeRank m with
  | some e => if s.net.contains m || s.reached.contains e then s else { s with reached := s.reached ++ [e] }
  | none => s

/-- Whether nothing that must come first precedes a message, or one of those that its delivery runs with it (R124). -/
def State.firstOf (s : State) (m : Msg) : Nat → Msg → Bool := fun n e =>
  (s.net.take n).all fun b => !ordered b e || (together b m && together m e)

/-- Whether the message at an index may be delivered. -/
def State.mayDeliver (s : State) (n : Nat) : Bool :=
  match s.net[n]? with
  | none => false
  | some m => s.inHomeOrder m && (s.net.take n).all (fun e => !ordered e m)
    && (s.net.zipIdx.all fun e => !together m e.1 || s.firstOf m e.2 e.1)

/-- The message at an index delivered; no other step where there is none, or an earlier one must come first. -/
def State.deliverAt (s : State) (n : Nat) : Host.Outcome State Fault Refusal :=
  match s.net[n]? with
  | none => .next s
  | some m =>
    if !s.mayDeliver n then .next s
    else match deliver m { s with net := s.net.eraseIdx n } with
      | .next s' => .next (s'.noteReached m).settle
      | .fault r => .fault r
      | .refused r => .refused r

/-- The steps that the outside world or the package's physics can make at any time. -/
def outsideMsg (m : Msg) : Bool :=
  match m with
  | .nvmeCompletion .. | .peerWindowWrite .. | .flitReceive .. | .softError .. | .dieReset _ | .dieLoss _ | .dieTimerCalibration ..
  | .portDown _ | .coldReset | .functionLevelReset | .governor .. | .thermalDieReset _ | .registerWrite .. => true
  | _ => false

/-- R23: whether an outside step may happen: a calibration comes from firmware, which keeps SKEW's bound. -/
def State.mayHappen (s : State) (m : Msg) : Bool :=
  match m with
  | .dieTimerCalibration die cal => s.calibrated die cal
  | _ => outsideMsg m

/-! ## The passing of a clock -/

/-- How many multiples of `n` lie after `a` and up to `b`. -/
def crossed (n a b : Nat) : Nat := b / n - a / n

/-- R88: how many frames the sweeper examines between two times. -/
def State.sweepVisits (s : State) (a b : Nat) : Nat :=
  if s.hk.ready && s.sweepOn then b * max 1 s.mem.swRate / 1000 - a * max 1 s.mem.swRate / 1000 else 0

/-- R352: the event ring's RD as FE reads it. -/
def State.evRead (s : State) : Nat :=
  let e := s.fe.ev
  if e.host then s.peek true (e.base.toNat + 0x40) 8 else (s.feRead 0 (e.base + 0x40) 8).getD 0

/-- R355: FE's reading of a control word: it has what a monitor or the shared line shows it, and else reads it. -/
def State.pollWord (s : State) (asid : Nat) (va : DWord) : State × Option Nat :=
  let (s1, here) := if s.feWatched asid va then (s, true) else s.feReach asid false [(va.toNat, 8)]
  (s1, if here then s1.feRead asid va 8 else none)

/-- R355, R403, R373: FE reads the control lines again. -/
def State.poll (s : State) : State :=
  let s1 := s.fe.queues.foldl (fun (s : State) (e : Nat × Queue) =>
    match s.pollWord e.2.asid e.2.ctrl with
    | (s1, some v) => if e.2.tail.toNat < v then s1.send (.tailUpdate e.1 (BitVec.ofNat 64 v)) else s1
    | (s1, none) => s1) s
  let tail := s1.peek s1.mrInHost s1.mem.mrBase.toNat 8
  let s2 := if s1.mrOn && decide (s1.mem.mrTail.toNat < tail) && !s1.net.contains (.mrAccept (BitVec.ofNat 64 tail)) then
      s1.send (.mrAccept (BitVec.ofNat 64 tail)) else s1
  if s2.fe.ev.on && decide (s2.fe.ev.rd.toNat < s2.evRead) then s2.send (.eventRingSpace (BitVec.ofNat 64 s2.evRead)) else s2

/-- What a tick boundary completes: calibrations move from their shadows (R21), counts reach their keepers (R110), collapses whose
leases have run out end (R106), then the releases that are due (R315), and FE's updates that could not be made before. -/
def State.boundary (s : State) : State :=
  let s1 := s.net.foldl (fun s m => match m with
    | .degreeCount asid region rr wr coll => degreeCount asid region rr wr coll { s with net := s.net.erase m }
    | .dieTimerCalibration die cal => dieTimerCalibration die cal { s with net := s.net.erase m }
    | _ => s) s
  let s2 := (s1.lines.filter fun e => e.2.cpend).foldl (fun s e => s.expireCollapse e.1) s1
  s2.endReleases.payOwed

/-- FE's and firmware's work that falls due between two common times: keepers and mapping passes every 10,000 ticks, new
calibrations every 1 ms, the sweeper, and the control lines every 2 µs. -/
def State.duties (s : State) (a b : Nat) : State :=
  let s1 := if crossed 10000 a b ≠ 0 then (keeperUpdate s).send .mappingPass else s
  let s2 := if crossed 1000000 a b ≠ 0 ∧ s.hk.ready then
      (List.range Config.shaderDies).foldl (fun s d => s.calibrate d (s.nextCalibration d)) s1 else s1
  let s3 := (List.range (s2.sweepVisits a b)).foldl (fun s _ => s.send .sweeperVisit) s2
  if crossed 2000 a b ≠ 0 ∧ s.hk.ready then s3.poll else s3

/-- R150: since when every thread of a block has waited; a block that has waited long enough yields. -/
def State.idleBlock (s : State) (b : Nat) : State :=
  let blk := s.block b
  if !s.allWaiting b then s.setBlock b fun x => { x with idleSince := none }
  else match blk.idleSince with
    | none => s.setBlock b fun x => { x with idleSince := some s.now }
    | some t =>
      if s.mem.yldt ≠ 0 ∧ t + s.mem.yldt ≤ s.now ∧ blk.stopping.isNone ∧ !(s.grid blk.grid).det ∧ !s.net.contains (.blockYield b) then
        s.send (.blockYield b)
      else s

/-- One arithmetic clock: the writes that land (R33), the ticks (R6, R20, R416), and the work that falls due. -/
def State.passClock (s : State) : State :=
  let c := s.clock + 1
  let acc := s.tickAcc + 1000
  let n := acc / max 1 s.hk.mhz
  let before := s.now
  let s1 := { s with
    clock := c, tickAcc := acc % max 1 s.hk.mhz, reached := []
    warps := s.warps.map fun (e : Nat × Warp) => (e.1, e.2.land c)
    dies := s.dies.map fun (e : Nat × Die) => (e.1, { e.2 with cnt := e.2.cnt + BitVec.ofNat 64 n }) }
  let s2 := s1.boundary
  s2.blocks.foldl (fun (s : State) (e : Nat × Block) => s.idleBlock e.1) (s2.duties before s1.now)

/-- R70, R83: the memory request ring lies in device memory, which has no address above PA[39:0], and part of it beyond (log 16). -/
def State.mrBeyond (s : State) : Bool :=
  s.mrOn && !s.mrInHost && decide (2 ^ 40 < s.mem.mrBase.toNat + 128 + 64 * 2 ^ s.mem.mrLog2n)

/-- One clock passes; FE reads a ring at no address of the package where it is due to read it (log 16). -/
def State.clockMove (s : State) : Host.Outcome State Fault Refusal :=
  let s' := s.passClock
  if s.hk.ready && s.mrBeyond && crossed 2000 s.now s'.now != 0 then .fault .noSuchPhysicalAddress else .next s'

/-! ## One move -/

/-- The move of an agent. -/
def State.take (s : State) (c : Choice) : Host.Outcome State Fault Refusal :=
  match c with
  | .deliver n => s.deliverAt n
  | .pick core part => .next (s.pick core part)
  | .act m =>
    if s.mayHappen m then
      match deliver m s with
      | .next s' => .next s'.settle
      | .fault r => .fault r
      | .refused r => .refused r
    else .next s
  | .hostWrite pa bytes => .next (s.hostStore pa bytes)
  | .clock => s.clockMove

/-- The partitions that hold warps. -/
def State.partitions (s : State) : List (Nat × Nat) :=
  ((s.warps.filter fun e => !e.2.freed).map fun e => (e.2.core, e.2.part)).dedup

/-- The default order of moves: messages and pickers in turn, and a clock after each round (log 1). -/
def State.defaultChoice (s : State) : Choice :=
  let k := s.turn / 2
  if s.turn % 2 = 0 ∧ !s.net.isEmpty then
    let n := k % s.net.length
    .deliver (if s.mayDeliver n then n else 0)
  else
    let ps := s.partitions
    let j := k % (ps.length + 1)
    match ps[j]? with
    | some p => .pick p.1 p.2
    | none => .clock

/-! ## Placing an instruction (log 2) -/

/-- The code address and the frame of a placed instruction. -/
def placedAt : Nat := 0x10000

/-- R25, R26: a clause of one instruction that waits for nothing, and its words. -/
def clauseBytes (w : Nat) : List Byte := leBytes 8 (0xE5A + 2 ^ 12) ++ leBytes 20 w

/-- The bytes of an instruction stored as a clause on a page of its own, executable in address space 1, and a warp of a
one-block grid on core 0 whose 32 threads stand there, their issue in progress. -/
def State.placeCode (s : State) (w : Nat) : State :=
  let pos : DWord := BitVec.ofNat 64 placedAt
  let g := s.nextId
  let k : Kernel := { Kernel.none with entry := pos, regs := 320 }
  let grid : Grid := { Grid.none with asid := 1, kernel := k, state := .running, blocks := 1 }
  let block : Block := { Block.none with grid := g, places := [0], warps := [g + 2], scratchBase := [0] }
  let warp : Warp := { Warp.none with
    grid := g, block := g + 1, asid := 1, alloc := 320, freed := false, threads := List.replicate 32 (Thread.start pos 0) }
  let e : TlbEntry := ⟨1, placedAt / 65536, 16, (s.asid 1).gen, 0, placedAt, true, false, true⟩
  let s1 := (s.setAsid 1 fun a => { a with st := 1 }).setFrame (placedAt / 65536) fun f => { f with owner := 1, state := 1, sfn := 0 }
  let s2 := s1.setCore 0 fun c => { c with tlb := e :: c.tlb }
  { s2 with
    hbm := Memory.write s2.hbm placedAt (clauseBytes w)
    nextId := g + 3
    grids := Tab.put s2.grids g grid
    blocks := Tab.put s2.blocks (g + 1) block
    warps := Tab.put s2.warps (g + 2) warp
    issue := some ⟨pos, (List.range 32).map fun l => TRef.mk (g + 2) l, 0, 0, 0, false, false, 0⟩ }

end Sys2Proof.Machine
end

