-- ==== Sys2Proof/Machine/Step.lean ====
section
/-! DEFINITION. One step of the machine, and the placing of an instruction where the next step fetches it. -/

namespace Sys2Proof.Machine

/-- One step: the issue in progress; else the next move of the agenda; else the default order's (log 1). -/
def step (s : State) : Host.Outcome State Fault Refusal :=
  match s.issue with
  | some i => s.runIssue i
  | none =>
    match s.agenda with
    | c :: rest => State.take { s with agenda := rest } c
    | [] => State.take { s with turn := s.turn + 1 } s.defaultChoice

/-- An instruction of `nbits` bits numbered as the opcode table numbers them stored at the code address of a warp made for it,
with the issue of its 32 threads in progress (log 2): the next step fetches it there and executes it. -/
def State.withFetchWord (s : State) (nbits w : Nat) : State := s.placeCode (w % 2 ^ nbits)

end Sys2Proof.Machine
end

