-- ==== Sys2Proof/WellFormed.lean ====
section
/-! DEFINITION. Well-formed instructions: every operand within the numbers its field can carry, in a form the opcode's
shape lists (R35 to R45), and every field rule of the description obeyed (R48). -/

namespace Sys2Proof

/-- R39, R41, R42: the number is one its class can carry. -/
def Src.inRange : Src → Bool
  | .vec n _ => decide (n.toNat < 320)
  | .uni n => decide (n.toNat < 64)
  | .special c => decide (c.toNat < 0x13)
  | .imm v => v != 0x100
  | .lit _ => true

/-- R36, R39: the number is one its class can carry. -/
def Dst.inRange : Dst → Bool
  | .vec n => decide (n.toNat < 320)
  | .uni n => decide (n.toNat < 32)
  | .pred n => decide (n.toNat < 7)

/-- The low six bits of a number, as a one-word field carries them. -/
def low6 (n : BitVec 9) : BitVec 6 := n.setWidth 6

/-- The operands are those of a form that the opcode's shape lists: with LEN = 10 they are exactly what R37 gives. -/
def XForm.encodable (opc : BitVec 7) (x : XForm) : Bool :=
  if x.short then
    (match shapeOf opc with
      | some .r2 | some .i2 => true
      | some .s2 => low6 x.a.num == 0
      | _ => false)
    && x == XForm.ofShort opc (low6 x.a.num) (low6 x.dst.num) (x.literal.getD 0)
    && (!predDst opc || decide ((low6 x.dst.num).toNat < 7))
  else
    x.a.inRange && x.b.inRange && x.c.inRange && x.dst.inRange && decide (x.literals ≤ 1)
      && match shapeOf opc with
        | some s => s.allows (if x.literals = 1 then 3 else 1)
        | none => false

/-- The SUB value selects the constructor, where SUB selects among several (R46). -/
def Instr.subSelects (i : Instr) : Bool :=
  match i.xform?, i.guard? with
  | some (opc, x), some g => threeWord g opc x == .ok i
  | _, _ => true

/-- A well-formed instruction. The device's own steps have no words and no field rules. -/
def Instr.wellFormed (i : Instr) : Bool :=
  match i.form? with
  | none => true
  | some f =>
    f.ok && i.subSelects &&
      match i.xform? with
      | some (opc, x) => x.encodable opc
      | none => true

end Sys2Proof
end

