-- ==== Sys2Proof/Laws/Encoding.lean ====
section
/-! SUPPORT. The encoder and the decoder field by field, and over each layout of words. -/

namespace Sys2Proof

@[simp] theorem Scope.ofBits_toBits (s : Scope) : Scope.ofBits s.toBits = s := by cases s <;> rfl

@[simp] theorem Ty.ofBits_toBits (t : Ty) : Ty.ofBits t.toBits = some t := by cases t <;> rfl

@[simp] theorem Rnd.ofBits_toBits (r : Rnd) : Rnd.ofBits r.toBits = some r := by cases r <;> rfl

/-- A field above the low part of two joined parts. -/
theorem extract_high {n m k : Nat} (x : BitVec n) (y : BitVec m) (i : Nat) (h : m ≤ i) :
    (x ++ y).extractLsb' i k = x.extractLsb' (i - m) k := by
  apply BitVec.eq_of_getLsbD_eq; intro j hj
  simp only [BitVec.getLsbD_extractLsb', BitVec.getLsbD_append, hj, decide_true, Bool.true_and]
  rw [if_neg (by omega)]; congr 1; omega

/-- A field within the low part of two joined parts. -/
theorem extract_low {n m k : Nat} (x : BitVec n) (y : BitVec m) (i : Nat) (h : i + k ≤ m) :
    (x ++ y).extractLsb' i k = y.extractLsb' i k := by
  apply BitVec.eq_of_getLsbD_eq; intro j hj
  simp only [BitVec.getLsbD_extractLsb', BitVec.getLsbD_append, hj, decide_true, Bool.true_and]
  rw [if_pos (by omega)]

theorem bit_high {n m : Nat} (x : BitVec n) (y : BitVec m) (i : Nat) (h : m ≤ i) :
    (x ++ y).getLsbD i = x.getLsbD (i - m) := by
  rw [BitVec.getLsbD_append, if_neg (by omega)]

theorem bit_low {n m : Nat} (x : BitVec n) (y : BitVec m) (i : Nat) (h : i < m) :
    (x ++ y).getLsbD i = y.getLsbD i := by
  rw [BitVec.getLsbD_append, if_pos h]

/-- R35: every field of a first word is where the encoder puts it. -/
@[simp] theorem First.ofWord_toWord (f : First) : First.ofWord f.toWord = f := by
  obtain ⟨b, a, d, opc, pneg, pred, scope, len⟩ := f
  simp (disch := decide) only [First.ofWord, First.toWord, extract_high, extract_low, bit_high, bit_low]
  simp

/-- R38: every field of an extension is where the encoder puts it. -/
@[simp] theorem Ext.ofBits_toBits (e : Ext) : Ext.ofBits e.toBits = e := by
  obtain ⟨dcl, fmt, sat, rnd, sub, ty, ctrp, btrp, atrp, ccl, bcl, acl, c, b, a, d⟩ := e
  simp (disch := decide) only [Ext.ofBits, Ext.toBits, extract_high, extract_low, bit_high, bit_low]
  simp

/-- R35: a literal's two words, low first. -/
@[simp] theorem join_extracts (v : DWord) : v.extractLsb' 32 32 ++ v.extractLsb' 0 32 = v := by
  apply BitVec.eq_of_getLsbD_eq; intro i hi
  simp only [BitVec.getLsbD_append, BitVec.getLsbD_extractLsb']
  split
  · simp_all
  · simp_all; omega

/-! ## The layouts of R35 -/

/-- A one-word form decodes as its opcode, B, A and D. -/
theorem decode_one (g : Guard) (opc : BitVec 7) (b : BitVec 5) (a d : BitVec 6) (sh : Shape) (i : Instr)
    (hs : shapeOf opc = some sh) (hl : sh.allows 0#2 = true) (hi : oneWord g opc b a d = .ok i) (rest : List Word) :
    decodeWords (one g opc b a d ++ rest) = .ok (i, rest) := by
  obtain ⟨pneg, pred, scope⟩ := g
  simp [decodeWords, one, First.guard, hs, hl, hi, bind, Except.bind, pure, Except.pure]

/-- A three-word form with a literal offset decodes as a branch or a call (R49). -/
theorem decode_offset (g : Guard) (opc : BitVec 7) (v : DWord) (hs : shapeOf opc = some .j) (rest : List Word) :
    decodeWords (litOffsetWords opc g v ++ rest)
      = .ok (if opc = 0x01#7 then .braLit g v else .callLit g v, rest) := by
  obtain ⟨pneg, pred, scope⟩ := g
  simp [decodeWords, litOffsetWords, litWords, First.guard, hs, Shape.allows]
  split <;> rfl

theorem Src.ofFields_self (x : Src) (lit : Option DWord) (h : x.inRange = true)
    (hl : ∀ v, x = .lit v → lit = some v) : Src.ofFields x.cls x.num x.trapBit lit = .ok x := by
  cases x with
  | vec n t => simp_all [Src.ofFields, Src.cls, Src.num, Src.trapBit, Src.inRange]
  | uni n => simp_all [Src.ofFields, Src.cls, Src.num, Src.trapBit, Src.inRange]
  | special n => simp_all [Src.ofFields, Src.cls, Src.num, Src.trapBit, Src.inRange]
  | imm n => simp_all [Src.ofFields, Src.cls, Src.num, Src.trapBit, Src.inRange]
  | lit v => simp [Src.ofFields, Src.cls, Src.num, Src.trapBit, hl v rfl]

theorem Dst.ofFields_self (x : Dst) (h : x.inRange = true) : Dst.ofFields x.cls x.num = .ok x := by
  cases x <;> simp_all [Dst.ofFields, Dst.cls, Dst.num, Dst.inRange]

/-- The literal of an operand list with at most one literal is that of each of its literal sources. -/
theorem XForm.literal_of_src (x : XForm) (h : x.literals ≤ 1) (v : DWord)
    (hv : x.a = .lit v ∨ x.b = .lit v ∨ x.c = .lit v) : x.literal = some v := by
  obtain ⟨short, dst, a, b, c, sub, ty, rnd, sat, fmt⟩ := x
  cases a <;> cases b <;> cases c <;> simp_all [XForm.literals, XForm.literal, Src.isLit]

theorem XForm.literals_eq (x : XForm) (h : x.literals ≤ 1) :
    x.literals = if x.literal.isSome then 1 else 0 := by
  obtain ⟨short, dst, a, b, c, sub, ty, rnd, sat, fmt⟩ := x
  cases a <;> cases b <;> cases c <;> simp_all [XForm.literals, XForm.literal, Src.isLit]

/-- R38 to R44: the operands of an extension are those that it was made of. -/
theorem XForm.ofExt_toExt (x : XForm) (hshort : x.short = false) (ha : x.a.inRange = true) (hb : x.b.inRange = true)
    (hc : x.c.inRange = true) (hd : x.dst.inRange = true) (hl : x.literals ≤ 1) :
    XForm.ofExt x.toExt x.literal = .ok x := by
  have la : ∀ v, x.a = .lit v → x.literal = some v := fun v h => x.literal_of_src hl v (.inl h)
  have lb : ∀ v, x.b = .lit v → x.literal = some v := fun v h => x.literal_of_src hl v (.inr (.inl h))
  have lc : ∀ v, x.c = .lit v → x.literal = some v := fun v h => x.literal_of_src hl v (.inr (.inr h))
  have e : (⟨false, x.dst, x.a, x.b, x.c, x.sub, x.ty, x.rnd, x.sat, x.fmt⟩ : XForm) = x := by
    rw [← hshort]
  simp only [XForm.ofExt, XForm.toExt, Dst.ofFields_self _ hd, Src.ofFields_self _ _ ha la, Src.ofFields_self _ _ hb lb,
    Src.ofFields_self _ _ hc lc, bind, Except.bind, Ty.ofBits_toBits, Rnd.ofBits_toBits, e]
  rw [if_pos (x.literals_eq hl)]

/-- A one-word form with a literal for B decodes as the operands R37 gives. -/
theorem decode_short (g : Guard) (opc : BitVec 7) (a d : BitVec 6) (v : DWord) (sh : Shape) (i : Instr)
    (hs : shapeOf opc = some sh) (hj : sh ≠ .j) (h2 : sh.allows 2#2 = true) (ha : sh = .s2 → a = 0)
    (hd : predDst opc = true → d.toNat < 7) (hi : threeWord g opc (XForm.ofShort opc a d v) = .ok i)
    (rest : List Word) :
    decodeWords (First.toWord ⟨0, a, d, opc, g.pneg, g.pred, g.scope.toBits, 2⟩ :: (litWords v ++ rest)) = .ok (i, rest) := by
  obtain ⟨pneg, pred, scope⟩ := g
  have ha' : ¬ (sh = .s2 ∧ ¬ a = 0#6) := fun e => e.2 (ha e.1)
  have hd' : ¬ (predDst opc = true ∧ 7 ≤ d.toNat) := fun e => absurd (hd e.1) (Nat.not_lt.mpr e.2)
  simp [decodeWords, litWords, First.guard, hs, h2, hj, ha', hd', hi, bind, Except.bind, pure, Except.pure]

/-- The words of an encodable operand list decode as its opcode and the operands. -/
theorem decode_xWords (g : Guard) (opc : BitVec 7) (x : XForm) (i : Instr) (h : x.encodable opc = true)
    (hi : threeWord g opc x = .ok i) (rest : List Word) :
    decodeWords (xWords opc g x ++ rest) = .ok (i, rest) := by
  obtain ⟨pneg, pred, scope⟩ := g
  unfold XForm.encodable at h
  by_cases hsh : x.short = true
  · rw [if_pos hsh] at h
    simp only [Bool.and_eq_true, beq_iff_eq, Bool.or_eq_true, Bool.not_eq_eq_eq_not, Bool.not_true, decide_eq_true_eq] at h
    obtain ⟨⟨hs, hx⟩, hp⟩ := h
    have hx' : XForm.ofShort opc (BitVec.setWidth 6 x.a.num) (BitVec.setWidth 6 x.dst.num) (x.literal.getD 0) = x :=
      hx.symm
    clear hx
    cases hso : shapeOf opc with
    | none => simp [hso] at hs
    | some sh =>
      have hw : xWords opc ⟨pneg, pred, scope⟩ x ++ rest = First.toWord ⟨0, x.a.num.setWidth 6, x.dst.num.setWidth 6, opc,
          pneg, pred, scope.toBits, 2⟩ :: (litWords (x.literal.getD 0) ++ rest) := by
        simp [xWords, hsh]
      rw [hw]
      rw [← hx'] at hi
      refine decode_short _ opc _ _ _ sh i hso ?_ ?_ ?_ ?_ hi rest
      · rintro rfl; simp [hso] at hs
      · rw [hso] at hs; cases sh <;> first | rfl | simp at hs
      · rintro rfl; simpa [hso, low6] using hs
      · intro e
        rcases hp with h | h
        · simp [h] at e
        · exact h
  · rw [if_neg hsh] at h
    simp only [Bool.not_eq_true] at hsh
    simp only [Bool.and_eq_true, decide_eq_true_eq] at h
    obtain ⟨⟨⟨⟨⟨ha, hb⟩, hc⟩, hd⟩, hl⟩, hs⟩ := h
    have hx := x.ofExt_toExt hsh ha hb hc hd hl
    have hle := x.literals_eq hl
    cases hso : shapeOf opc with
    | none => simp [hso] at hs
    | some sh =>
      simp only [hso] at hs
      cases hlit : x.literal with
      | none =>
        rw [hlit] at hx hle
        simp only [hle, Option.isSome_none] at hs
        have hs' : sh.allows 1#2 = true := by simpa using hs
        simp only [xWords, hsh, hlit, litWords, decodeWords,
          First.guard, List.append_nil]
        simp [hso, hs', hx, hi, bind, Except.bind, pure, Except.pure]
      | some v =>
        rw [hlit] at hx hle
        simp only [hle, Option.isSome_some, if_true] at hs
        have hs' : sh.allows 3#2 = true := by simpa using hs
        simp only [xWords, hsh, hlit, litWords, decodeWords,
          First.guard]
        simp [hso, hs', hx, hi, bind, Except.bind, pure, Except.pure]

end Sys2Proof
end

