-- ==== Sys2Proof/Laws/PerInstr.lean ====
section
/-! SUPPORT. For every instruction: the words it encodes to decode to it. -/

namespace Sys2Proof.Laws.Encoding

/-- The words of a well-formed instruction, with any words after them, decode to that instruction and leave those words. -/
def Statement (i : Instr) : Prop :=
  i.wellFormed = true → ∀ ws, encode? i = some ws → ∀ rest, decodeWords (ws ++ rest) = .ok (i, rest)

/-- An instruction with no words has nothing to decode. -/
theorem of_none {i : Instr} (h : encode? i = none) : Statement i := by
  intro _ ws hw
  rw [h] at hw
  cases hw

/-- A one-word form. -/
theorem of_one {i : Instr} {g : Guard} {opc : BitVec 7} {b : BitVec 5} {a d : BitVec 6} (sh : Shape)
    (he : encode? i = some (one g opc b a d)) (hs : shapeOf opc = some sh) (hl : sh.allows 0#2 = true)
    (hi : oneWord g opc b a d = .ok i) : Statement i := by
  intro _ ws hw rest
  rw [he] at hw
  cases hw
  exact decode_one g opc b a d sh i hs hl hi rest

@[simp] theorem top_trapret : ∀ k : BitVec 1, BitVec.extractLsb' (n := 6) 1 5 (0#5 ++ k) = 0#5 := by decide
@[simp] theorem low_trapret : ∀ k : BitVec 1, BitVec.extractLsb' (n := 6) 0 1 (0#5 ++ k) = k := by decide
@[simp] theorem ne_named : ∀ i : BitVec 4, ((1#1 ++ i : BitVec 5) = 0#5) = False := by decide
@[simp] theorem top_named : ∀ i : BitVec 4, BitVec.extractLsb' (n := 5) 4 1 (1#1 ++ i) = 1#1 := by decide
@[simp] theorem low_named : ∀ i : BitVec 4, BitVec.extractLsb' (n := 5) 0 4 (1#1 ++ i) = i := by decide
@[simp] theorem top_fence : ∀ k : BitVec 4, BitVec.extractLsb' (n := 5) 4 1 (0#1 ++ k) = 0#1 := by decide
@[simp] theorem low_fence : ∀ k : BitVec 4, BitVec.extractLsb' (n := 5) 0 4 (0#1 ++ k) = k := by decide
@[simp] theorem top_pred : ∀ d : BitVec 3, BitVec.extractLsb' (n := 6) 3 3 (0#3 ++ d) = 0#3 := by decide
@[simp] theorem low_pred : ∀ d : BitVec 3, BitVec.extractLsb' (n := 6) 0 3 (0#3 ++ d) = d := by decide
@[simp] theorem top_bit : ∀ c : BitVec 1, BitVec.extractLsb' (n := 5) 1 4 (0#4 ++ c) = 0#4 := by decide
@[simp] theorem low_bit : ∀ c : BitVec 1, BitVec.extractLsb' (n := 5) 0 1 (0#4 ++ c) = c := by decide

/-- The offset of BRA and CALL in three parts. -/
@[simp] theorem part_join (o : BitVec 17) : o.extractLsb' 12 5 ++ o.extractLsb' 6 6 ++ o.extractLsb' 0 6 = o := by
  apply BitVec.eq_of_getLsbD_eq; intro i hi
  simp only [BitVec.getLsbD_append, BitVec.getLsbD_extractLsb']
  split
  · simp_all
  · split
    · have : i - 6 < 6 := by omega
      have : 6 + (i - 6) = i := by omega
      simp_all
    · have : i - 6 - 6 < 5 := by omega
      have : 12 + (i - 6 - 6) = i := by omega
      simp_all

/-- A form with operands of its own. -/
theorem of_x {i : Instr} {g : Guard} {opc : BitVec 7} {x : XForm} (he : encode? i = some (xWords opc g x))
    (hx : i.xform? = some (opc, x)) (hg : i.guard? = some g) (hf : (i.form?).isSome = true) : Statement i := by
  intro hw ws hws rest
  rw [he] at hws
  cases hws
  unfold Instr.wellFormed at hw
  cases hfo : i.form? with
  | none => simp [hfo] at hf
  | some f =>
    simp only [hfo, hx, Instr.subSelects, hg, Bool.and_eq_true] at hw
    have hi : threeWord g opc x = .ok i := eq_of_beq hw.1.2
    exact decode_xWords g opc x i hw.2 hi rest

/-- A branch or call with a literal offset. -/
theorem of_offset {i : Instr} {g : Guard} {opc : BitVec 7} {v : DWord} (he : encode? i = some (litOffsetWords opc g v))
    (hs : shapeOf opc = some .j) (hi : (if opc = 0x01#7 then Instr.braLit g v else Instr.callLit g v) = i) : Statement i := by
  intro _ ws hws rest
  rw [he] at hws
  cases hws
  rw [decode_offset g opc v hs rest, hi]

theorem nop (g : Guard) : Statement (.nop g) := of_one .n rfl rfl rfl rfl
theorem yield (g : Guard) : Statement (.yield g) := of_one .n rfl rfl rfl rfl
theorem bra (g : Guard) (o : BitVec 17) : Statement (.bra g o) := of_one .j rfl rfl rfl (by simp [oneWord])
theorem braLit (g : Guard) (lit : DWord) : Statement (.braLit g lit) := of_offset rfl rfl rfl
theorem brx (g : Guard) (a : BitVec 6) : Statement (.brx g a) := of_one .m rfl rfl rfl rfl
theorem brxX (g : Guard) (x : XForm) : Statement (.brxX g x) := of_x rfl rfl rfl rfl
theorem call (g : Guard) (o : BitVec 17) : Statement (.call g o) := of_one .j rfl rfl rfl (by simp [oneWord])
theorem callLit (g : Guard) (lit : DWord) : Statement (.callLit g lit) := of_offset rfl rfl rfl
theorem callx (g : Guard) (a : BitVec 6) : Statement (.callx g a) := of_one .m rfl rfl rfl rfl
theorem callxX (g : Guard) (x : XForm) : Statement (.callxX g x) := of_x rfl rfl rfl rfl
theorem ret (g : Guard) : Statement (.ret g) := of_one .n rfl rfl rfl rfl
theorem exit (g : Guard) : Statement (.exit g) := of_one .n rfl rfl rfl rfl
theorem trap (g : Guard) (c : BitVec 6) : Statement (.trap g c) := of_one .n rfl rfl rfl rfl
theorem brk (g : Guard) (c : BitVec 6) : Statement (.brk g c) := of_one .n rfl rfl rfl rfl
theorem trapret (g : Guard) (k : BitVec 1) : Statement (.trapret g k) := of_one .n rfl rfl rfl (by simp [oneWord])
theorem bar (g : Guard) : Statement (.bar g) := of_one .m rfl rfl rfl rfl
theorem barNamed (g : Guard) (i : BitVec 4) : Statement (.barNamed g i) := of_one .m rfl rfl rfl (by simp [oneWord])
theorem barX (g : Guard) (x : XForm) : Statement (.barX g x) := of_x rfl rfl rfl rfl
theorem setdecl (g : Guard) (x : XForm) : Statement (.setdecl g x) := of_x rfl rfl rfl rfl
theorem setfree (g : Guard) (x : XForm) : Statement (.setfree g x) := of_x rfl rfl rfl rfl
theorem rdsr (g : Guard) (a : BitVec 6) (d : BitVec 6) : Statement (.rdsr g a d) := of_one .m rfl rfl rfl rfl
theorem rdsrX (g : Guard) (x : XForm) : Statement (.rdsrX g x) := of_x rfl rfl rfl rfl
theorem idemb (g : Guard) : Statement (.idemb g) := of_one .n rfl rfl rfl rfl
theorem ideme (g : Guard) : Statement (.ideme g) := of_one .n rfl rfl rfl rfl
theorem prog (g : Guard) (v : BitVec 5) : Statement (.prog g v) := of_one .m rfl rfl rfl rfl
theorem progX (g : Guard) (x : XForm) : Statement (.progX g x) := of_x rfl rfl rfl rfl
theorem waitf (g : Guard) (a : BitVec 6) (d : BitVec 6) : Statement (.waitf g a d) := of_one .m rfl rfl rfl rfl
theorem waitfX (g : Guard) (x : XForm) : Statement (.waitfX g x) := of_x rfl rfl rfl rfl
theorem reggive (g : Guard) (x : XForm) : Statement (.reggive g x) := of_x rfl rfl rfl rfl
theorem regclaim (g : Guard) (x : XForm) : Statement (.regclaim g x) := of_x rfl rfl rfl rfl
theorem regclaimGrant (wait : Nat) : Statement (.regclaimGrant wait) := of_none rfl
theorem iadd (g : Guard) (b : BitVec 5) (a : BitVec 6) (d : BitVec 6) : Statement (.iadd g b a d) := of_one .r2 rfl rfl rfl rfl
theorem iaddX (g : Guard) (x : XForm) : Statement (.iaddX g x) := of_x rfl rfl rfl rfl
theorem isub (g : Guard) (b : BitVec 5) (a : BitVec 6) (d : BitVec 6) : Statement (.isub g b a d) := of_one .r2 rfl rfl rfl rfl
theorem isubX (g : Guard) (x : XForm) : Statement (.isubX g x) := of_x rfl rfl rfl rfl
theorem iadd3 (g : Guard) (x : XForm) : Statement (.iadd3 g x) := of_x rfl rfl rfl rfl
theorem imul (g : Guard) (b : BitVec 5) (a : BitVec 6) (d : BitVec 6) : Statement (.imul g b a d) := of_one .r2 rfl rfl rfl rfl
theorem imulX (g : Guard) (x : XForm) : Statement (.imulX g x) := of_x rfl rfl rfl rfl
theorem imulh (g : Guard) (b : BitVec 5) (a : BitVec 6) (d : BitVec 6) : Statement (.imulh g b a d) := of_one .r2 rfl rfl rfl rfl
theorem imulhX (g : Guard) (x : XForm) : Statement (.imulhX g x) := of_x rfl rfl rfl rfl
theorem imad (g : Guard) (b : BitVec 5) (a : BitVec 6) (d : BitVec 6) : Statement (.imad g b a d) := of_one .f3 rfl rfl rfl rfl
theorem imadX (g : Guard) (x : XForm) : Statement (.imadX g x) := of_x rfl rfl rfl rfl
theorem imadw (g : Guard) (x : XForm) : Statement (.imadw g x) := of_x rfl rfl rfl rfl
theorem shl (g : Guard) (i : BitVec 5) (a : BitVec 6) (d : BitVec 6) : Statement (.shl g i a d) := of_one .i2 rfl rfl rfl rfl
theorem shlX (g : Guard) (x : XForm) : Statement (.shlX g x) := of_x rfl rfl rfl rfl
theorem shr (g : Guard) (i : BitVec 5) (a : BitVec 6) (d : BitVec 6) : Statement (.shr g i a d) := of_one .i2 rfl rfl rfl rfl
theorem shrX (g : Guard) (x : XForm) : Statement (.shrX g x) := of_x rfl rfl rfl rfl
theorem sar (g : Guard) (i : BitVec 5) (a : BitVec 6) (d : BitVec 6) : Statement (.sar g i a d) := of_one .i2 rfl rfl rfl rfl
theorem sarX (g : Guard) (x : XForm) : Statement (.sarX g x) := of_x rfl rfl rfl rfl
theorem shf (g : Guard) (x : XForm) : Statement (.shf g x) := of_x rfl rfl rfl rfl
theorem and (g : Guard) (b : BitVec 5) (a : BitVec 6) (d : BitVec 6) : Statement (.and g b a d) := of_one .r2 rfl rfl rfl rfl
theorem andX (g : Guard) (x : XForm) : Statement (.andX g x) := of_x rfl rfl rfl rfl
theorem or (g : Guard) (b : BitVec 5) (a : BitVec 6) (d : BitVec 6) : Statement (.or g b a d) := of_one .r2 rfl rfl rfl rfl
theorem orX (g : Guard) (x : XForm) : Statement (.orX g x) := of_x rfl rfl rfl rfl
theorem xor (g : Guard) (b : BitVec 5) (a : BitVec 6) (d : BitVec 6) : Statement (.xor g b a d) := of_one .r2 rfl rfl rfl rfl
theorem xorX (g : Guard) (x : XForm) : Statement (.xorX g x) := of_x rfl rfl rfl rfl
theorem bfn (g : Guard) (x : XForm) : Statement (.bfn g x) := of_x rfl rfl rfl rfl
theorem popc (g : Guard) (a : BitVec 6) (d : BitVec 6) : Statement (.popc g a d) := of_one .u1 rfl rfl rfl rfl
theorem popcX (g : Guard) (x : XForm) : Statement (.popcX g x) := of_x rfl rfl rfl rfl
theorem clz (g : Guard) (a : BitVec 6) (d : BitVec 6) : Statement (.clz g a d) := of_one .u1 rfl rfl rfl rfl
theorem clzX (g : Guard) (x : XForm) : Statement (.clzX g x) := of_x rfl rfl rfl rfl
theorem brev (g : Guard) (a : BitVec 6) (d : BitVec 6) : Statement (.brev g a d) := of_one .u1 rfl rfl rfl rfl
theorem brevX (g : Guard) (x : XForm) : Statement (.brevX g x) := of_x rfl rfl rfl rfl
theorem bfx (g : Guard) (x : XForm) : Statement (.bfx g x) := of_x rfl rfl rfl rfl
theorem bfi (g : Guard) (x : XForm) : Statement (.bfi g x) := of_x rfl rfl rfl rfl
theorem bpack (g : Guard) (x : XForm) : Statement (.bpack g x) := of_x rfl rfl rfl rfl
theorem imin (g : Guard) (b : BitVec 5) (a : BitVec 6) (d : BitVec 6) : Statement (.imin g b a d) := of_one .r2 rfl rfl rfl rfl
theorem iminX (g : Guard) (x : XForm) : Statement (.iminX g x) := of_x rfl rfl rfl rfl
theorem imax (g : Guard) (b : BitVec 5) (a : BitVec 6) (d : BitVec 6) : Statement (.imax g b a d) := of_one .r2 rfl rfl rfl rfl
theorem imaxX (g : Guard) (x : XForm) : Statement (.imaxX g x) := of_x rfl rfl rfl rfl
theorem iabs (g : Guard) (a : BitVec 6) (d : BitVec 6) : Statement (.iabs g a d) := of_one .u1 rfl rfl rfl rfl
theorem iabsX (g : Guard) (x : XForm) : Statement (.iabsX g x) := of_x rfl rfl rfl rfl
theorem isel (g : Guard) (x : XForm) : Statement (.isel g x) := of_x rfl rfl rfl rfl
theorem icmp (g : Guard) (b : BitVec 5) (a : BitVec 6) (d : BitVec 3) : Statement (.icmp g b a d) := of_one .r2 rfl rfl rfl (by simp [oneWord])
theorem icmpX (g : Guard) (x : XForm) : Statement (.icmpX g x) := of_x rfl rfl rfl rfl
theorem iaddmin (g : Guard) (x : XForm) : Statement (.iaddmin g x) := of_x rfl rfl rfl rfl
theorem iaddmax (g : Guard) (x : XForm) : Statement (.iaddmax g x) := of_x rfl rfl rfl rfl
theorem lea (g : Guard) (x : XForm) : Statement (.lea g x) := of_x rfl rfl rfl rfl
theorem mov (g : Guard) (a : BitVec 6) (d : BitVec 6) : Statement (.mov g a d) := of_one .u1 rfl rfl rfl rfl
theorem movX (g : Guard) (x : XForm) : Statement (.movX g x) := of_x rfl rfl rfl rfl
theorem movi (g : Guard) (i : BitVec 5) (d : BitVec 6) : Statement (.movi g i d) := of_one .s2 rfl rfl rfl rfl
theorem moviX (g : Guard) (x : XForm) : Statement (.moviX g x) := of_x rfl rfl rfl rfl
theorem movqPack (g : Guard) (d : BitVec 6) : Statement (.movqPack g d) := of_one .u1 rfl rfl rfl rfl
theorem movqUnpack (g : Guard) (a : BitVec 6) : Statement (.movqUnpack g a) := of_one .u1 rfl rfl rfl rfl
theorem movqX (g : Guard) (x : XForm) : Statement (.movqX g x) := of_x rfl rfl rfl rfl
theorem qop (g : Guard) (x : XForm) : Statement (.qop g x) := of_x rfl rfl rfl rfl
theorem cvti (g : Guard) (t : BitVec 5) (a : BitVec 6) (d : BitVec 6) : Statement (.cvti g t a d) := of_one .u1 rfl rfl rfl rfl
theorem cvtiX (g : Guard) (x : XForm) : Statement (.cvtiX g x) := of_x rfl rfl rfl rfl
theorem fadd (g : Guard) (b : BitVec 5) (a : BitVec 6) (d : BitVec 6) : Statement (.fadd g b a d) := of_one .r2 rfl rfl rfl rfl
theorem faddX (g : Guard) (x : XForm) : Statement (.faddX g x) := of_x rfl rfl rfl rfl
theorem fmul (g : Guard) (b : BitVec 5) (a : BitVec 6) (d : BitVec 6) : Statement (.fmul g b a d) := of_one .r2 rfl rfl rfl rfl
theorem fmulX (g : Guard) (x : XForm) : Statement (.fmulX g x) := of_x rfl rfl rfl rfl
theorem ffma (g : Guard) (b : BitVec 5) (a : BitVec 6) (d : BitVec 6) : Statement (.ffma g b a d) := of_one .f3 rfl rfl rfl rfl
theorem ffmaX (g : Guard) (x : XForm) : Statement (.ffmaX g x) := of_x rfl rfl rfl rfl
theorem fmin (g : Guard) (b : BitVec 5) (a : BitVec 6) (d : BitVec 6) : Statement (.fmin g b a d) := of_one .r2 rfl rfl rfl rfl
theorem fminX (g : Guard) (x : XForm) : Statement (.fminX g x) := of_x rfl rfl rfl rfl
theorem fmax (g : Guard) (b : BitVec 5) (a : BitVec 6) (d : BitVec 6) : Statement (.fmax g b a d) := of_one .r2 rfl rfl rfl rfl
theorem fmaxX (g : Guard) (x : XForm) : Statement (.fmaxX g x) := of_x rfl rfl rfl rfl
theorem fcmp (g : Guard) (b : BitVec 5) (a : BitVec 6) (d : BitVec 3) : Statement (.fcmp g b a d) := of_one .r2 rfl rfl rfl (by simp [oneWord])
theorem fcmpX (g : Guard) (x : XForm) : Statement (.fcmpX g x) := of_x rfl rfl rfl rfl
theorem faddmin (g : Guard) (x : XForm) : Statement (.faddmin g x) := of_x rfl rfl rfl rfl
theorem fclass (g : Guard) (a : BitVec 6) (d : BitVec 6) : Statement (.fclass g a d) := of_one .u1 rfl rfl rfl rfl
theorem fclassX (g : Guard) (x : XForm) : Statement (.fclassX g x) := of_x rfl rfl rfl rfl
theorem frnd (g : Guard) (a : BitVec 6) (d : BitVec 6) : Statement (.frnd g a d) := of_one .u1 rfl rfl rfl rfl
theorem frndX (g : Guard) (x : XForm) : Statement (.frndX g x) := of_x rfl rfl rfl rfl
theorem rcp (g : Guard) (a : BitVec 6) (d : BitVec 6) : Statement (.rcp g a d) := of_one .u1 rfl rfl rfl rfl
theorem rsq (g : Guard) (a : BitVec 6) (d : BitVec 6) : Statement (.rsq g a d) := of_one .u1 rfl rfl rfl rfl
theorem sqrt (g : Guard) (a : BitVec 6) (d : BitVec 6) : Statement (.sqrt g a d) := of_one .u1 rfl rfl rfl rfl
theorem rcpRsqSqrtX (g : Guard) (x : XForm) : Statement (.rcpRsqSqrtX g x) := of_x rfl rfl rfl rfl
theorem exp2 (g : Guard) (a : BitVec 6) (d : BitVec 6) : Statement (.exp2 g a d) := of_one .u1 rfl rfl rfl rfl
theorem log2 (g : Guard) (a : BitVec 6) (d : BitVec 6) : Statement (.log2 g a d) := of_one .u1 rfl rfl rfl rfl
theorem exp2Log2X (g : Guard) (x : XForm) : Statement (.exp2Log2X g x) := of_x rfl rfl rfl rfl
theorem sin (g : Guard) (a : BitVec 6) (d : BitVec 6) : Statement (.sin g a d) := of_one .u1 rfl rfl rfl rfl
theorem cos (g : Guard) (a : BitVec 6) (d : BitVec 6) : Statement (.cos g a d) := of_one .u1 rfl rfl rfl rfl
theorem tanh (g : Guard) (a : BitVec 6) (d : BitVec 6) : Statement (.tanh g a d) := of_one .u1 rfl rfl rfl rfl
theorem sinCosTanhX (g : Guard) (x : XForm) : Statement (.sinCosTanhX g x) := of_x rfl rfl rfl rfl
theorem hadd2 (g : Guard) (b : BitVec 5) (a : BitVec 6) (d : BitVec 6) : Statement (.hadd2 g b a d) := of_one .r2 rfl rfl rfl rfl
theorem hadd2X (g : Guard) (x : XForm) : Statement (.hadd2X g x) := of_x rfl rfl rfl rfl
theorem hmul2 (g : Guard) (b : BitVec 5) (a : BitVec 6) (d : BitVec 6) : Statement (.hmul2 g b a d) := of_one .r2 rfl rfl rfl rfl
theorem hmul2X (g : Guard) (x : XForm) : Statement (.hmul2X g x) := of_x rfl rfl rfl rfl
theorem hfma2 (g : Guard) (b : BitVec 5) (a : BitVec 6) (d : BitVec 6) : Statement (.hfma2 g b a d) := of_one .f3 rfl rfl rfl rfl
theorem hfma2X (g : Guard) (x : XForm) : Statement (.hfma2X g x) := of_x rfl rfl rfl rfl
theorem dot4 (g : Guard) (b : BitVec 5) (a : BitVec 6) (d : BitVec 6) : Statement (.dot4 g b a d) := of_one .f3 rfl rfl rfl rfl
theorem dot4X (g : Guard) (x : XForm) : Statement (.dot4X g x) := of_x rfl rfl rfl rfl
theorem cvtf (g : Guard) (t : BitVec 5) (a : BitVec 6) (d : BitVec 6) : Statement (.cvtf g t a d) := of_one .u1 rfl rfl rfl rfl
theorem cvtfX (g : Guard) (x : XForm) : Statement (.cvtfX g x) := of_x rfl rfl rfl rfl
theorem cvtfi (g : Guard) (t : BitVec 5) (a : BitVec 6) (d : BitVec 6) : Statement (.cvtfi g t a d) := of_one .u1 rfl rfl rfl rfl
theorem cvtfiX (g : Guard) (x : XForm) : Statement (.cvtfiX g x) := of_x rfl rfl rfl rfl
theorem cvtif (g : Guard) (t : BitVec 5) (a : BitVec 6) (d : BitVec 6) : Statement (.cvtif g t a d) := of_one .u1 rfl rfl rfl rfl
theorem cvtifX (g : Guard) (x : XForm) : Statement (.cvtifX g x) := of_x rfl rfl rfl rfl
theorem quant (g : Guard) (x : XForm) : Statement (.quant g x) := of_x rfl rfl rfl rfl
theorem deq (g : Guard) (x : XForm) : Statement (.deq g x) := of_x rfl rfl rfl rfl
theorem blkmax (g : Guard) (x : XForm) : Statement (.blkmax g x) := of_x rfl rfl rfl rfl
theorem shfl (g : Guard) (b : BitVec 5) (a : BitVec 6) (d : BitVec 6) : Statement (.shfl g b a d) := of_one .m rfl rfl rfl rfl
theorem shflX (g : Guard) (x : XForm) : Statement (.shflX g x) := of_x rfl rfl rfl rfl
theorem vote (g : Guard) (a : BitVec 6) (d : BitVec 3) : Statement (.vote g a d) := of_one .m rfl rfl rfl (by simp [oneWord])
theorem voteX (g : Guard) (x : XForm) : Statement (.voteX g x) := of_x rfl rfl rfl rfl
theorem redux (g : Guard) (a : BitVec 6) (d : BitVec 6) : Statement (.redux g a d) := of_one .m rfl rfl rfl rfl
theorem reduxX (g : Guard) (x : XForm) : Statement (.reduxX g x) := of_x rfl rfl rfl rfl
theorem matchAny (g : Guard) (a : BitVec 6) (d : BitVec 6) : Statement (.matchAny g a d) := of_one .m rfl rfl rfl rfl
theorem matchX (g : Guard) (x : XForm) : Statement (.matchX g x) := of_x rfl rfl rfl rfl
theorem scan (g : Guard) (a : BitVec 6) (d : BitVec 6) : Statement (.scan g a d) := of_one .m rfl rfl rfl rfl
theorem scanX (g : Guard) (x : XForm) : Statement (.scanX g x) := of_x rfl rfl rfl rfl
theorem ld (g : Guard) (o : BitVec 5) (a : BitVec 6) (d : BitVec 6) : Statement (.ld g o a d) := of_one .m rfl rfl rfl rfl
theorem ldX (g : Guard) (x : XForm) : Statement (.ldX g x) := of_x rfl rfl rfl rfl
theorem st (g : Guard) (o : BitVec 5) (a : BitVec 6) (d : BitVec 6) : Statement (.st g o a d) := of_one .m rfl rfl rfl rfl
theorem stX (g : Guard) (x : XForm) : Statement (.stX g x) := of_x rfl rfl rfl rfl
theorem lds (g : Guard) (o : BitVec 5) (a : BitVec 6) (d : BitVec 6) : Statement (.lds g o a d) := of_one .m rfl rfl rfl rfl
theorem ldsX (g : Guard) (x : XForm) : Statement (.ldsX g x) := of_x rfl rfl rfl rfl
theorem sts (g : Guard) (o : BitVec 5) (a : BitVec 6) (d : BitVec 6) : Statement (.sts g o a d) := of_one .m rfl rfl rfl rfl
theorem stsX (g : Guard) (x : XForm) : Statement (.stsX g x) := of_x rfl rfl rfl rfl
theorem ldc (g : Guard) (o : BitVec 5) (a : BitVec 6) (d : BitVec 6) : Statement (.ldc g o a d) := of_one .m rfl rfl rfl rfl
theorem ldcX (g : Guard) (x : XForm) : Statement (.ldcX g x) := of_x rfl rfl rfl rfl
theorem ldw (g : Guard) (k : BitVec 1) (a : BitVec 6) (d : BitVec 6) : Statement (.ldw g k a d) := of_one .m rfl rfl rfl (by simp [oneWord])
theorem ldwX (g : Guard) (x : XForm) : Statement (.ldwX g x) := of_x rfl rfl rfl rfl
theorem stw (g : Guard) (b : BitVec 5) (a : BitVec 6) : Statement (.stw g b a) := of_one .m rfl rfl rfl rfl
theorem stwX (g : Guard) (x : XForm) : Statement (.stwX g x) := of_x rfl rfl rfl rfl
theorem windowWriteArrival (m : WinWrite) : Statement (.windowWriteArrival m) := of_none rfl
theorem stwWaitLand (m : WinWrite) : Statement (.stwWaitLand m) := of_none rfl
theorem pref (g : Guard) (c : BitVec 1) (a : BitVec 6) : Statement (.pref g c a) := of_one .m rfl rfl rfl (by simp [oneWord])
theorem prefX (g : Guard) (x : XForm) : Statement (.prefX g x) := of_x rfl rfl rfl rfl
theorem cinv (g : Guard) (c : BitVec 1) (a : BitVec 6) : Statement (.cinv g c a) := of_one .m rfl rfl rfl (by simp [oneWord])
theorem cinvX (g : Guard) (x : XForm) : Statement (.cinvX g x) := of_x rfl rfl rfl rfl
theorem fence (g : Guard) (k : BitVec 4) : Statement (.fence g k) := of_one .m rfl rfl rfl (by simp [oneWord])
theorem fenceX (g : Guard) (x : XForm) : Statement (.fenceX g x) := of_x rfl rfl rfl rfl
theorem scOrderGrant (wait : Nat) : Statement (.scOrderGrant wait) := of_none rfl
theorem opfence (g : Guard) : Statement (.opfence g) := of_one .n rfl rfl rfl rfl
theorem rdeg (g : Guard) (x : XForm) : Statement (.rdeg g x) := of_x rfl rfl rfl rfl
theorem latom (g : Guard) (i : BitVec 5) (a : BitVec 6) (d : BitVec 6) : Statement (.latom g i a d) := of_one .m rfl rfl rfl rfl
theorem latomX (g : Guard) (x : XForm) : Statement (.latomX g x) := of_x rfl rfl rfl rfl
theorem latoms (g : Guard) (x : XForm) : Statement (.latoms g x) := of_x rfl rfl rfl rfl
theorem routineInvocation (v : Invocation) : Statement (.routineInvocation v) := of_none rfl
theorem routineReturn (r : RtReturn) : Statement (.routineReturn r) := of_none rfl
theorem rtinst (g : Guard) (x : XForm) : Statement (.rtinst g x) := of_x rfl rfl rfl rfl
theorem rtrem (g : Guard) (x : XForm) : Statement (.rtrem g x) := of_x rfl rfl rfl rfl
theorem rtinstExecution (req : Nat) : Statement (.rtinstExecution req) := of_none rfl
theorem waitcmp (g : Guard) (b : BitVec 5) (a : BitVec 6) (d : BitVec 3) : Statement (.waitcmp g b a d) := of_one .m rfl rfl rfl (by simp [oneWord])
theorem waitcmpX (g : Guard) (x : XForm) : Statement (.waitcmpX g x) := of_x rfl rfl rfl rfl
theorem monitorWake (key : MonKey) (agent : Nat) (result : Bool) : Statement (.monitorWake key agent result) := of_none rfl
theorem monitorPoll (wait : Nat) : Statement (.monitorPoll wait) := of_none rfl
theorem waitTimeout (wait : Nat) : Statement (.waitTimeout wait) := of_none rfl
theorem moncan (g : Guard) (a : BitVec 6) : Statement (.moncan g a) := of_one .m rfl rfl rfl rfl
theorem moncanX (g : Guard) (x : XForm) : Statement (.moncanX g x) := of_x rfl rfl rfl rfl
theorem monitorCancel (wait : Nat) (asid : Nat) (pa : Nat) (block : Option Nat) (agent : Nat) : Statement (.monitorCancel wait asid pa block agent) := of_none rfl
theorem blockYield (block : Nat) : Statement (.blockYield block) := of_none rfl
theorem yieldWake (block : Nat) : Statement (.yieldWake block) := of_none rfl
theorem xcopy (g : Guard) (x : XForm) : Statement (.xcopy g x) := of_x rfl rfl rfl rfl
theorem xgather (g : Guard) (x : XForm) : Statement (.xgather g x) := of_x rfl rfl rfl rfl
theorem xscat (g : Guard) (x : XForm) : Statement (.xscat g x) := of_x rfl rfl rfl rfl
theorem xfill (g : Guard) (x : XForm) : Statement (.xfill g x) := of_x rfl rfl rfl rfl
theorem copyPost (core : Nat) (op : Nat) : Statement (.copyPost core op) := of_none rfl
theorem ringReserve (core : Nat) (op : Nat) : Statement (.ringReserve core op) := of_none rfl
theorem xread (g : Guard) (x : XForm) : Statement (.xread g x) := of_x rfl rfl rfl rfl
theorem xreadEngineStart (x : Nat) : Statement (.xreadEngineStart x) := of_none rfl
theorem nvmeCompletion (x : Nat) (cmd : Nat) (status : BitVec 16) : Statement (.nvmeCompletion x cmd status) := of_none rfl
theorem xreadTimeout (x : Nat) : Statement (.xreadTimeout x) := of_none rfl
theorem xreadCompletionWord (x : Nat) : Statement (.xreadCompletionWord x) := of_none rfl
theorem peerWindowWrite (offset : Nat) (data : List Byte) : Statement (.peerWindowWrite offset data) := of_none rfl
theorem remoteReadServe (port : Nat) (asid : Nat) (va : DWord) (len : Nat) : Statement (.remoteReadServe port asid va len) := of_none rfl
theorem qcwset (g : Guard) (x : XForm) : Statement (.qcwset g x) := of_x rfl rfl rfl rfl
theorem rpush (g : Guard) (q : BitVec 5) (a : BitVec 6) (c : BitVec 3) : Statement (.rpush g q a c) := of_one .m rfl rfl rfl (by simp [oneWord])
theorem rpushX (g : Guard) (x : XForm) : Statement (.rpushX g x) := of_x rfl rfl rfl rfl
theorem rpop (g : Guard) (q : BitVec 5) (d : BitVec 6) : Statement (.rpop g q d) := of_one .m rfl rfl rfl rfl
theorem rpopX (g : Guard) (x : XForm) : Statement (.rpopX g x) := of_x rfl rfl rfl rfl
theorem bgive (g : Guard) (x : XForm) : Statement (.bgive g x) := of_x rfl rfl rfl rfl
theorem bgiveFree (g : Guard) (x : XForm) : Statement (.bgiveFree g x) := of_x rfl rfl rfl rfl
theorem btake (g : Guard) (x : XForm) : Statement (.btake g x) := of_x rfl rfl rfl rfl
theorem btakeNew (g : Guard) (x : XForm) : Statement (.btakeNew g x) := of_x rfl rfl rfl rfl
theorem fmtset (g : Guard) (x : XForm) : Statement (.fmtset g x) := of_x rfl rfl rfl rfl
theorem mma (g : Guard) (x : XForm) : Statement (.mma g x) := of_x rfl rfl rfl rfl
theorem mmas (g : Guard) (x : XForm) : Statement (.mmas g x) := of_x rfl rfl rfl rfl
theorem matrixKStep (core : Nat) : Statement (.matrixKStep core) := of_none rfl
theorem accz (g : Guard) (x : XForm) : Statement (.accz g x) := of_x rfl rfl rfl rfl
theorem accld (g : Guard) (x : XForm) : Statement (.accld g x) := of_x rfl rfl rfl rfl
theorem accst (g : Guard) (x : XForm) : Statement (.accst g x) := of_x rfl rfl rfl rfl
theorem accstAddLineUpdate (core : Nat) (op : Nat) (line : Nat) : Statement (.accstAddLineUpdate core op line) := of_none rfl
theorem matrixOpComplete (core : Nat) (op : Nat) : Statement (.matrixOpComplete core op) := of_none rfl
theorem acck (g : Guard) (x : XForm) : Statement (.acck g x) := of_x rfl rfl rfl rfl
theorem fetchtTile (g : Guard) (x : XForm) : Statement (.fetchtTile g x) := of_x rfl rfl rfl rfl
theorem fetchtTask (g : Guard) (x : XForm) : Statement (.fetchtTask g x) := of_x rfl rfl rfl rfl
theorem lendAccept (lend : Nat) : Statement (.lendAccept lend) := of_none rfl
theorem lendExpiry (lend : Nat) : Statement (.lendExpiry lend) := of_none rfl
theorem taskEnd (warp : Nat) : Statement (.taskEnd warp) := of_none rfl
theorem enqt (g : Guard) (x : XForm) : Statement (.enqt g x) := of_x rfl rfl rfl rfl
theorem migrate (g : Guard) (x : XForm) : Statement (.migrate g x) := of_x rfl rfl rfl rfl
theorem cairnGrant (wait : Nat) : Statement (.cairnGrant wait) := of_none rfl
theorem cairnTimeout (wait : Nat) : Statement (.cairnTimeout wait) := of_none rfl
theorem csrr (g : Guard) (a : BitVec 6) (d : BitVec 6) : Statement (.csrr g a d) := of_one .m rfl rfl rfl rfl
theorem csrrX (g : Guard) (x : XForm) : Statement (.csrrX g x) := of_x rfl rfl rfl rfl
theorem csrw (g : Guard) (b : BitVec 5) (a : BitVec 6) : Statement (.csrw g b a) := of_one .m rfl rfl rfl rfl
theorem csrwX (g : Guard) (x : XForm) : Statement (.csrwX g x) := of_x rfl rfl rfl rfl
theorem time (g : Guard) (c : BitVec 1) (d : BitVec 6) : Statement (.time g c d) := of_one .u1 rfl rfl rfl (by simp [oneWord])
theorem timeX (g : Guard) (x : XForm) : Statement (.timeX g x) := of_x rfl rfl rfl rfl
theorem vclassWriteBack (wb : WriteBack) : Statement (.vclassWriteBack wb) := of_none rfl
theorem storeAcknowledgement (ack : StoreAck) : Statement (.storeAcknowledgement ack) := of_none rfl
theorem rendezvousComplete (warp : Nat) (lane : Nat) : Statement (.rendezvousComplete warp lane) := of_none rfl
theorem namedBarrierComplete (block : Nat) (id : Nat) : Statement (.namedBarrierComplete block id) := of_none rfl
theorem stuckRendezvous (warp : Nat) (lane : Nat) : Statement (.stuckRendezvous warp lane) := of_none rfl
theorem fatalFault (grid : Nat) (report : Report) (pos : DWord) : Statement (.fatalFault grid report pos) := of_none rfl
theorem stampedRequestRelease (grid : Nat) : Statement (.stampedRequestRelease grid) := of_none rfl
theorem sliceRead (r : ReadReq) : Statement (.sliceRead r) := of_none rfl
theorem sliceWrite (r : WriteReq) : Statement (.sliceWrite r) := of_none rfl
theorem collapseReceipt (die : Nat) (line : Nat) : Statement (.collapseReceipt die line) := of_none rfl
theorem collapseAck (die : Nat) (line : Nat) : Statement (.collapseAck die line) := of_none rfl
theorem leaseExpiry (line : Nat) : Statement (.leaseExpiry line) := of_none rfl
theorem copyExpiry (die : Nat) (line : Nat) : Statement (.copyExpiry die line) := of_none rfl
theorem degreeCount (asid : Nat) (region : Nat) (rr : Nat) (wr : Nat) (coll : Nat) : Statement (.degreeCount asid region rr wr coll) := of_none rfl
theorem keeperUpdate  : Statement (.keeperUpdate ) := of_none rfl
theorem dgpin (value : DWord) : Statement (.dgpin value) := of_none rfl
theorem softError (stage : ErrorStage) (die : Nat) (line : Nat) (corrected : Bool) : Statement (.softError stage die line corrected) := of_none rfl
theorem lineLoss (line : Nat) (cause : Nat) : Statement (.lineLoss line cause) := of_none rfl
theorem dieReset (die : Nat) : Statement (.dieReset die) := of_none rfl
theorem dieLoss (die : Nat) : Statement (.dieLoss die) := of_none rfl
theorem mrAccept (tail : DWord) : Statement (.mrAccept tail) := of_none rfl
theorem ascreate (r : MemRequest) : Statement (.ascreate r) := of_none rfl
theorem asdestroy (r : MemRequest) : Statement (.asdestroy r) := of_none rfl
theorem mapPages (r : MemRequest) : Statement (.mapPages r) := of_none rfl
theorem unmap (r : MemRequest) : Statement (.unmap r) := of_none rfl
theorem protect (r : MemRequest) : Statement (.protect r) := of_none rfl
theorem migin (r : MemRequest) : Statement (.migin r) := of_none rfl
theorem migout (r : MemRequest) : Statement (.migout r) := of_none rfl
theorem setcold (r : MemRequest) : Statement (.setcold r) := of_none rfl
theorem setpin (r : MemRequest) : Statement (.setpin r) := of_none rfl
theorem generationAck (asid : Nat) (agent : Nat) : Statement (.generationAck asid agent) := of_none rfl
theorem mrbaseWrite (ctl : Bool) (value : DWord) : Statement (.mrbaseWrite ctl value) := of_none rfl
theorem sweeperVisit  : Statement (.sweeperVisit ) := of_none rfl
theorem compression (frame : Nat) : Statement (.compression frame) := of_none rfl
theorem compressionCommit (frame : Nat) (granules : Nat) : Statement (.compressionCommit frame granules) := of_none rfl
theorem expansion (frame : Nat) : Statement (.expansion frame) := of_none rfl
theorem eviction (frame : Nat) : Statement (.eviction frame) := of_none rfl
theorem dieTimerCalibration (die : Nat) (cal : Calibration) : Statement (.dieTimerCalibration die cal) := of_none rfl
theorem queueCreate (qid : Nat) : Statement (.queueCreate qid) := of_none rfl
theorem queueDestroy (qid : Nat) : Statement (.queueDestroy qid) := of_none rfl
theorem queueResume (qid : Nat) : Statement (.queueResume qid) := of_none rfl
theorem queueHalt (qid : Nat) : Statement (.queueHalt qid) := of_none rfl
theorem tailUpdate (qid : Nat) (value : DWord) : Statement (.tailUpdate qid value) := of_none rfl
theorem packetAccept (qid : Nat) : Statement (.packetAccept qid) := of_none rfl
theorem packetStart (qid : Nat) (seq : Nat) : Statement (.packetStart qid seq) := of_none rfl
theorem launch (qid : Nat) (seq : Nat) : Statement (.launch qid seq) := of_none rfl
theorem waitSignals (qid : Nat) (seq : Nat) : Statement (.waitSignals qid seq) := of_none rfl
theorem waitSignalsTimeout (qid : Nat) (seq : Nat) : Statement (.waitSignalsTimeout qid seq) := of_none rfl
theorem signal (qid : Nat) (seq : Nat) : Statement (.signal qid seq) := of_none rfl
theorem routineLoad (qid : Nat) (seq : Nat) : Statement (.routineLoad qid seq) := of_none rfl
theorem catalogueUpdate (qid : Nat) (seq : Nat) : Statement (.catalogueUpdate qid seq) := of_none rfl
theorem mappingPass  : Statement (.mappingPass ) := of_none rfl
theorem placement (grid : Nat) : Statement (.placement grid) := of_none rfl
theorem gridCompletion (grid : Nat) : Statement (.gridCompletion grid) := of_none rfl
theorem eventRecordWrite (e : EventRec) : Statement (.eventRecordWrite e) := of_none rfl
theorem eventRingSpace (rd : DWord) : Statement (.eventRingSpace rd) := of_none rfl
theorem eventRingRestart (ctl : Bool) (value : DWord) : Statement (.eventRingRestart ctl value) := of_none rfl
theorem estimatorRun (grid : Nat) : Statement (.estimatorRun grid) := of_none rfl
theorem drainRecheck (block : Nat) : Statement (.drainRecheck block) := of_none rfl
theorem flush (block : Nat) : Statement (.flush block) := of_none rfl
theorem save (block : Nat) : Statement (.save block) := of_none rfl
theorem restore (record : Nat) : Statement (.restore record) := of_none rfl
theorem nvcmdAttach (index : Nat) : Statement (.nvcmdAttach index) := of_none rfl
theorem nvcmdDetach (index : Nat) : Statement (.nvcmdDetach index) := of_none rfl
theorem flitReceive (port : Nat) (f : Flit) : Statement (.flitReceive port f) := of_none rfl
theorem flitAck (port : Nat) (seq : Nat) : Statement (.flitAck port seq) := of_none rfl
theorem linkRollover (port : Nat) : Statement (.linkRollover port) := of_none rfl
theorem forcedRollover (port : Nat) : Statement (.forcedRollover port) := of_none rfl
theorem portDown (port : Nat) : Statement (.portDown port) := of_none rfl
theorem portUp (port : Nat) : Statement (.portUp port) := of_none rfl
theorem attestation  : Statement (.attestation ) := of_none rfl
theorem flashStage  : Statement (.flashStage ) := of_none rfl
theorem flashActivate  : Statement (.flashActivate ) := of_none rfl
theorem flashAbandon  : Statement (.flashAbandon ) := of_none rfl
theorem coldReset  : Statement (.coldReset ) := of_none rfl
theorem functionLevelReset  : Statement (.functionLevelReset ) := of_none rfl
theorem governor (temp : BitVec 16) (power : BitVec 16) (mhz : Nat) (cause : BitVec 3) : Statement (.governor temp power mhz cause) := of_none rfl
theorem thermalDieReset (die : Nat) : Statement (.thermalDieReset die) := of_none rfl
theorem registerWrite (offset : Nat) (value : DWord) : Statement (.registerWrite offset value) := of_none rfl
theorem fenceReleaseCompletion (wait : Nat) : Statement (.fenceReleaseCompletion wait) := of_none rfl

end Sys2Proof.Laws.Encoding
theorem Sys2Proof.Laws.Encoding.recall (line : Nat) (byDie : Nat) : Sys2Proof.Laws.Encoding.Statement (.recall line byDie) := Sys2Proof.Laws.Encoding.of_none rfl
end

