-- ==== Sys2Proof/Safety.lean ====
section
/-! DEFINITION. The terms in which claims about the machine are made: what a thread needs for an instruction to have its
effect, how a thread leaves an instruction, and what holds in every state that a claim speaks of. -/

namespace Sys2Proof.Machine

/-- The memories are in their one form: addresses rising, no byte listed that an unlisted address reads as. -/
abbrev State.Canonical (s : State) : Prop := s.hbm.wf = true ∧ s.hostMem.wf = true

/-- A thread is there: its warp is in the machine and has its lane. -/
abbrev State.Holds (s : State) (t : TRef) : Prop := ∃ w, Tab.find s.warps t.warp = some w ∧ t.lane < w.threads.length

/-- What an instruction needs in a thread to have its effect there: its encoding is legal in the thread's warp (R48), its
predicate holds (R35), and no register that it reads or writes is empty, nor a set missing (R34, R38, R326). -/
structure State.Passes (s : State) (t : TRef) (i : Instr) : Prop where
  holds : s.Holds t
  legal : s.legal t i.form = true
  guard : s.guardHolds t i.form.g = true
  gate : s.gate t i.form = none

/-- One thread issues an instruction on its own (R322), and the instruction has its effect; in a deterministic grid it is no
stamped request, or one that has been released (R375). -/
structure State.Runs (s : State) (t : TRef) (i : Instr) : Prop where
  alone : s.cur.group = [t]
  passes : s.Passes t i
  free : s.mustStamp i.form = false

/-- A group of threads issues an instruction at lane scope or with a result in each thread: it has its effect in each of them
whose predicate holds, and the others move on (R35, R322). -/
structure State.RunsAll (s : State) (ts : List TRef) (i : Instr) : Prop where
  group : s.cur.group = ts
  some : ts ≠ []
  nodup : ts.Nodup
  holds : ∀ t ∈ ts, s.Holds t
  legal : ∀ t ∈ ts, s.legal t i.form = true
  gate : ∀ t ∈ ts, s.guardHolds t i.form.g = true → s.gate t i.form = none
  free : s.mustStamp i.form = false

/-- A thread of an issue whose predicate is false (R35). -/
structure State.Skips (s : State) (t : TRef) (i : Instr) : Prop where
  alone : s.cur.group = [t]
  holds : s.Holds t
  legal : s.legal t i.form = true
  guard : s.guardHolds t i.form.g = false
  free : s.mustStamp i.form = false

/-- The threads of a complete rendezvous issue an instruction that acts once for them (R324, R325). -/
structure State.RunsOnce (s : State) (ts : List TRef) (i : Instr) : Prop where
  group : s.cur.group = ts
  some : ts ≠ []
  passes : ∀ t ∈ ts, s.Passes t i
  free : s.mustStamp i.form = false

/-- The thread whose operands an instruction acting once reads (R325). -/
def State.lead (s : State) (i : Instr) : TRef :=
  match s.cur.group with
  | [] => ⟨0, 0⟩
  | t :: _ => ⟨s.leader i.form.g.scope t, t.lane⟩

/-- The operands that an instruction acting once reads. -/
def State.leadOps (s : State) (i : Instr) : Operands := s.operands (s.lead i) i.form

/-- Threads leave an instruction for a position: they stand there from this clock on, and their warps count the issue. -/
def State.retire (s : State) (ts : List TRef) (i : Instr) (pos : DWord) : State :=
  (ts.foldl (fun s t => s.moveTo t pos) s).finish i.form.opc ts

/-- A thread whose instruction is not ready issues it again; a released request stands again (R375). -/
def State.putOffLane (s s' : State) (t : TRef) (opc : Nat) : State :=
  let s1 := s'.setThread t fun th => { th with unready := true }
  let ts := [t].filter fun u => (s1.thread u).unready
  if s.cur.released then (s1.stamp false ts).finish opc ts else s1.finish opc []

/-- Each thread of a group whose predicate holds makes an effect of its own and leaves the instruction for a position of its
own; the others leave it for the position after it. -/
def State.leaveEach (s : State) (ts : List TRef) (i : Instr) (eff : TRef → State → State) (pos : TRef → DWord) : State :=
  (ts.foldl (fun s' t => if s.guardHolds t i.form.g then (eff t s').moveTo t (pos t) else s'.moveTo t s.cur.next) s).finish
    i.form.opc ts.reverse

/-- Each thread of a group leaves an instruction for the position after it, after an effect of its own where its predicate
holds. -/
def State.retireEach (s : State) (ts : List TRef) (i : Instr) (eff : TRef → State → State) : State :=
  s.leaveEach ts i eff fun _ => s.cur.next

/-! ## Element-wise instructions (R240, R241) -/

/-- R325: the members of an instruction that acts once, though it writes each member's own registers, agree on its predicate;
at lane scope nothing is asked. -/
def State.Agree (s : State) (ts : List TRef) (i : Instr) : Prop :=
  i.form.g.scope = .lane ∨ (∀ t ∈ ts, s.guardHolds t i.form.g = true) ∨ ∀ t ∈ ts, s.guardHolds t i.form.g = false

/-- An element-wise instruction is ready in a group: with a register of each thread or a predicate as its destination it acts
in each thread, RDSR and TIME where the members agree; with a uniform destination once (R325). -/
def State.Ready (s : State) (ts : List TRef) (i : Instr) : Prop :=
  match i.form.x.dst with
  | .uni _ => s.RunsOnce ts i
  | _ => s.RunsAll ts i ∧ (readsOnce i.form.opc = true → s.Agree ts i)

/-- A result: its value, whether its type is signed, the flags it sets. -/
structure Result where
  value : DWord
  signed : Bool
  flags : FFlags
  deriving DecidableEq, Repr

/-- Results written by an element-wise instruction: each thread's lands in its destination register `lat` clocks later, and
its flags are set; with a uniform destination one result for each member warp of the instance, those whose threads have all
exited among them (R40), read as lane 0 reads it, whose flags every thread of the group in the warp takes. -/
def State.withResults (s : State) (ts : List TRef) (i : Instr) (lat : Nat) (r : TRef → Result) : State :=
  match i.form.x.dst with
  | .uni _ =>
    ((s.memberWarps i.form.g.scope).foldl (fun s' w =>
      (ts.filter fun t => t.warp = w).foldl (fun s t => s.setFlags t (r ⟨w, 0⟩).flags)
        (s'.writeFixed w lat (aluWrites i.form 0 (r ⟨w, 0⟩).value (r ⟨w, 0⟩).signed))) s).retire ts i s.cur.next
  | _ => s.retireEach ts i fun t s' =>
      (s'.writeFixed t.warp lat (aluWrites i.form t.lane (r t).value (r t).signed)).setFlags t (r t).flags

/-- A 32-bit or 64-bit operation on operands of the width of a type (R244). -/
def atWidth (t : Ty) (op : (w : Nat) → BitVec w → BitVec w → BitVec w → BitVec w) (o : Operands) : DWord :=
  if t.intW = 64 then op 64 o.a o.b o.c
  else (op 32 (o.a.setWidth 32) (o.b.setWidth 32) (o.c.setWidth 32)).setWidth 64

/-! ## Integer results (R244 to R248) -/

/-- R246: the functions of BFN on words of any width. -/
def bfnWord (fn : Nat) {w : Nat} (a b c : BitVec w) : BitVec w :=
  match fn with
  | 0 => (a &&& b) ||| c
  | 1 => (a &&& b) ^^^ c
  | 2 => (a ||| b) &&& c
  | 3 => a ^^^ b ^^^ c
  | 4 => ~~~(a ^^^ b ^^^ c)
  | 5 => a &&& b &&& c
  | 6 => a ||| b ||| c
  | 7 => (a &&& b) ||| (a &&& c) ||| (b &&& c)
  | 8 => (c &&& a) ||| (~~~c &&& b)
  | _ => a &&& ~~~(b ||| c)

/-- The smaller or larger of two words, by the signedness of a type. -/
def smaller (signed : Bool) {w : Nat} (a b : BitVec w) : BitVec w := if (if signed then b.slt a else b.ult a) then b else a
def larger (signed : Bool) {w : Nat} (a b : BitVec w) : BitVec w := if (if signed then a.slt b else a.ult b) then b else a

/-- R244, R246: the integer instructions whose result, without .sat, is one operation on words of the width of TYPE; the first
argument is whether TYPE is signed. -/
def wrapsOf : Instr → Option (Bool → (w : Nat) → BitVec w → BitVec w → BitVec w → BitVec w)
  | .iadd .. | .iaddX .. => some fun _ _ a b _ => a + b
  | .isub .. | .isubX .. => some fun _ _ a b _ => a - b
  | .iadd3 .. => some fun _ _ a b c => a + b + c
  | .imul .. | .imulX .. => some fun _ _ a b _ => a * b
  | .imad .. | .imadX .. => some fun _ _ a b c => a * b + c
  | .and .. | .andX .. => some fun _ _ a b _ => a &&& b
  | .or .. | .orX .. => some fun _ _ a b _ => a ||| b
  | .xor .. | .xorX .. => some fun _ _ a b _ => a ^^^ b
  | .bfn _ x => some fun _ _ a b c => bfnWord x.sub.toNat a b c
  | .imin .. | .iminX .. => some fun sg _ a b _ => smaller sg a b
  | .imax .. | .imaxX .. => some fun sg _ a b _ => larger sg a b
  | .iabs .. | .iabsX .. => some fun _ _ a _ _ => if a.msb then -a else a
  | .iaddmin .. => some fun sg _ a b c => smaller sg (a + b) c
  | .iaddmax .. => some fun sg _ a b c => larger sg (a + b) c
  | .mov .. | .movX .. => some fun _ _ a _ _ => a
  | .movi .. | .moviX .. => some fun _ _ _ b _ => b
  | _ => none

/-- R245: the instructions that accept .sat and the exact integer that they clamp. -/
def clampsOf : Instr → Option (Int → Int → Int → Int)
  | .iaddX .. => some fun a b _ => a + b
  | .isubX .. => some fun a b _ => a - b
  | .iadd3 .. => some fun a b c => a + b + c
  | .imulX .. => some fun a b _ => a * b
  | .imadX .. => some fun a b c => a * b + c
  | .iabsX .. => some fun a _ _ => |a|
  | _ => none

/-- An integer clamped to the words of a type, and whether the clamp changed it (R245). -/
def clampTo (t : Ty) (v : Int) : Int :=
  if t.signed then max (-2 ^ (t.intW - 1)) (min (2 ^ (t.intW - 1) - 1) v) else max 0 (min (2 ^ t.intW - 1) v)

/-- The word of an integer, 64 bits wide or 32 bits zero-extended. -/
def wordOf (w : Nat) (v : Int) : DWord := if w = 64 then BitVec.ofInt 64 v else (BitVec.ofInt 32 v).setWidth 64

/-- R244, R246: the shifts by a count that is the whole of a 32-bit operand. -/
def shiftsOf : Instr → Option ((w : Nat) → BitVec w → Nat → BitVec w)
  | .shl .. | .shlX .. => some fun _ a n => a <<< n
  | .shr .. | .shrX .. => some fun _ a n => a >>> n
  | .sar .. | .sarX .. => some fun _ a n => a.sshiftRight n
  | _ => none

/-- The number of a word's bits that are 1. -/
def onesOf {w : Nat} (a : BitVec w) : Nat := ((List.finRange w).filter fun k => a[k]).length

/-- R246: the width of the field that BFX and BFI act on: none where the length is 0 or the position is at or above W. -/
def fieldLen (w pos len : Nat) : Nat := if w ≤ pos then 0 else min len (w - pos)

/-- R247: the conditions of ICMP on words. -/
def icmpWord (cond : Nat) (signed : Bool) {w : Nat} (a b : BitVec w) : Bool :=
  let lt (p q : BitVec w) : Bool := if signed then p.slt q else p.ult q
  match cond with
  | 0 => a == b
  | 1 => a != b
  | 2 => lt a b
  | 3 => !lt b a
  | 4 => lt b a
  | _ => !lt a b

/-- R247: the value of a QOP source field: q0 to q7 by bits [2:0], negated by bit 3. -/
def qopField (s : State) (t : TRef) (src : Src) : Bool :=
  (s.warp t.warp).pred t.lane (src.num.toNat % 8) != src.num.getLsbD 3

/-- R247: the operations of QOP. -/
def qopWord (op : Nat) (a b c : Bool) : Bool :=
  match op with
  | 0 => a && b
  | 1 => a || b
  | 2 => a ^^ b
  | 3 => bif a then b else c
  | 4 => a && b && c
  | 5 => a || b || c
  | _ => (a && b) || (a && c) || (b && c)

/-- R247: the select predicate of ISEL in a thread. -/
def iselField (s : State) (t : TRef) (x : XForm) : Bool :=
  (s.warp t.warp).pred t.lane (x.sub.toNat % 8) != x.sub.getLsbD 3

/-! ## Other element-wise results (R249 to R258, R342, R348) -/

/-- The float, conversion, special-register and time instructions: the clocks to their result, and their operation. -/
def computesOf : Instr → Option (Nat × AluOp)
  | .fadd .. | .faddX .. => some (4, floatOp fun fl f m sat a b _ => fAdd fl f m sat a b)
  | .fmul .. | .fmulX .. => some (4, floatOp fun fl f m sat a b _ => fMul fl f m sat a b)
  | .ffma .. | .ffmaX .. => some (4, floatOp fFma)
  | .fmin .. | .fminX .. => some (4, floatOp fun fl f _ _ a b _ => fMinMax fl f false a b)
  | .fmax .. | .fmaxX .. => some (4, floatOp fun fl f _ _ a b _ => fMinMax fl f true a b)
  | .fcmp .. | .fcmpX .. => some (4, fcmpOp)
  | .faddmin .. => some (4, faddminOp)
  | .fclass .. | .fclassX .. => some (4, floatOp fun _ f _ _ a _ _ => (fClass f a, 0))
  | .frnd .. | .frndX .. => some (4, floatOp fun fl f m _ a _ _ => fRnd fl f m a)
  | .rcp .. => some (16, transOp .rcp)
  | .rsq .. => some (16, transOp .rsq)
  | .sqrt .. => some (16, transOp .sqrt)
  | .rcpRsqSqrtX _ x => some (16, transOp (match x.sub.toNat with
      | 0 => .rcp
      | 1 => .rsq
      | _ => .sqrt))
  | .exp2 .. => some (16, transOp .exp2)
  | .log2 .. => some (16, transOp .log2)
  | .exp2Log2X _ x => some (16, transOp (if x.sub.toNat = 0 then .exp2 else .log2))
  | .sin .. => some (16, transOp .sin)
  | .cos .. => some (16, transOp .cos)
  | .tanh .. => some (16, transOp .tanh)
  | .sinCosTanhX _ x => some (16, transOp (match x.sub.toNat with
      | 0 => .sin
      | 1 => .cos
      | _ => .tanh))
  | .hadd2 .. | .hadd2X .. => some (4, packedOp fun fl f m sat a b _ => fAdd fl f m sat a b)
  | .hmul2 .. | .hmul2X .. => some (4, packedOp fun fl f m sat a b _ => fMul fl f m sat a b)
  | .hfma2 .. | .hfma2X .. => some (4, packedOp fFma)
  | .dot4 .. | .dot4X .. => some (6, dot4Op)
  | .cvtf .. | .cvtfX .. => some (6, cvtfOp)
  | .cvtfi .. | .cvtfiX .. => some (6, cvtfiOp)
  | .cvtif .. | .cvtifX .. => some (6, cvtifOp)
  | .quant .. => some (6, quantOp)
  | .deq .. => some (6, deqOp)
  | .rdsr .. | .rdsrX .. => some (4, rdsrOp)
  | .time .. | .timeX .. => some (4, timeOp)
  | _ => none

/-- The threads for which an element-wise instruction computes a result: those whose predicate holds, or with a uniform
destination lane 0 of each member warp of the instance. -/
def State.Computes (s : State) (ts : List TRef) (i : Instr) (t : TRef) : Prop :=
  match i.form.x.dst with
  | .uni _ => t.lane = 0 ∧ (t.warp ∈ s.memberWarps i.form.g.scope ∨ ∃ u ∈ ts, u.warp = t.warp)
  | _ => t ∈ ts ∧ s.guardHolds t i.form.g = true

/-- The opcodes of the element-wise instructions and of RDSR and TIME. -/
def elementwiseOpc (n : Nat) : Bool :=
  (decide (0x10 ≤ n) && decide (n ≤ 0x2E)) || (decide (0x30 ≤ n) && decide (n ≤ 0x44)) || n == 0x0B || n == 0x7E

/-- The registers and predicates that an element-wise form writes. -/
def destinationOf (f : Form) (k : RegKey) : Prop :=
  if f.opc = 0x2C ∧ f.x.sub = 1 then ∃ l q, k = .pred l q ∧ q < 7
  else match f.x.dst with
    | .vec n => ∃ r l, k = .vec r l ∧ n.toNat ≤ r ∧ r < n.toNat + (if (opRule f.opc f.g f.x).d.regs = 2 then 2 else 1)
    | .uni n => k = .uni (n.toNat % 32)
    | .pred n => ∃ l, k = .pred l n.toNat

/-! ## Lane instructions (R260 to R267) -/

/-- The results of a lane instruction for its participating places. -/
def lanesOf : Instr → Option (Form → List Place → State → List LaneRes)
  | .shfl .. | .shflX .. => some shflRes
  | .vote .. | .voteX .. => some voteRes
  | .redux .. | .reduxX .. => some reduxRes
  | .matchAny .. | .matchX .. => some matchRes
  | .scan .. | .scanX .. => some scanRes
  | _ => none

/-! ## Frames -/

/-- The instructions of a program that write no register of any warp: the branches and calls, the traps, the barriers, the
markers, the stores, the cache and fence instructions, the invocations without a result, and the copies and matrix operations
as they are accepted. -/
def writesNoRegister : Instr → Bool
  | .nop .. | .yield .. | .bra .. | .braLit .. | .brx .. | .brxX .. | .call .. | .callLit .. | .callx .. | .callxX .. | .ret ..
  | .trap .. | .brk .. | .trapret .. | .bar .. | .barNamed .. | .barX .. | .idemb .. | .ideme .. | .prog .. | .progX ..
  | .waitf .. | .waitfX .. | .st .. | .stX .. | .sts .. | .stsX .. | .pref .. | .prefX .. | .cinv .. | .cinvX .. | .fence ..
  | .fenceX .. | .opfence .. | .latoms .. | .moncan .. | .moncanX .. | .csrw .. | .csrwX .. | .xcopy .. | .xgather .. | .xscat ..
  | .xfill .. | .xread .. | .qcwset .. | .mma .. | .mmas .. | .accz .. | .accld .. | .accst .. => true
  | _ => false

/-- The loads and invocations, whose results come back later. -/
def comesBack : Instr → Bool
  | .ld .. | .ldX .. | .ldc .. | .ldcX .. | .lds .. | .ldsX .. | .ldw .. | .ldwX .. | .latom .. | .latomX .. | .rpop .. | .rpopX .. =>
    true
  | _ => false

/-! ## Steps of the device -/

/-- R80: what a frame's entry asks of an access for it to be served at once. -/
def State.admits (s : State) (asid gen pa : Nat) : Prop :=
  let f := s.frame (pa / 65536)
  f.state ≠ 0 ∧ f.state ≠ 2 ∧ f.state ≠ 3 ∧ f.owner = asid ∧ f.mgen ≤ gen

/-- R80: an access that a frame's entry rejects. -/
def State.rejects (s : State) (asid gen pa : Nat) : Prop :=
  let f := s.frame (pa / 65536)
  f.state = 0 ∨ f.owner ≠ asid ∨ gen < f.mgen

/-- The message whose delivery an instruction of the device is (log 1). -/
def eventOf : Instr → Option Msg
  | .regclaimGrant wait => some (.regclaimGrant wait)
  | .windowWriteArrival m => some (.windowWriteArrival m)
  | .stwWaitLand m => some (.stwWaitLand m)
  | .scOrderGrant wait => some (.scOrderGrant wait)
  | .routineInvocation v => some (.routineInvocation v)
  | .routineReturn r => some (.routineReturn r)
  | .rtinstExecution req => some (.rtinstExecution req)
  | .monitorWake key agent result => some (.monitorWake key agent result)
  | .monitorPoll wait => some (.monitorPoll wait)
  | .waitTimeout wait => some (.waitTimeout wait)
  | .monitorCancel wait asid pa block agent => some (.monitorCancel wait asid pa block agent)
  | .blockYield block => some (.blockYield block)
  | .yieldWake block => some (.yieldWake block)
  | .copyPost core op => some (.copyPost core op)
  | .ringReserve core op => some (.ringReserve core op)
  | .xreadEngineStart x => some (.xreadEngineStart x)
  | .nvmeCompletion x cmd status => some (.nvmeCompletion x cmd status)
  | .xreadTimeout x => some (.xreadTimeout x)
  | .xreadCompletionWord x => some (.xreadCompletionWord x)
  | .peerWindowWrite offset data => some (.peerWindowWrite offset data)
  | .remoteReadServe port asid va len => some (.remoteReadServe port asid va len)
  | .matrixKStep core => some (.matrixKStep core)
  | .accstAddLineUpdate core op line => some (.accstAddLineUpdate core op line)
  | .matrixOpComplete core op => some (.matrixOpComplete core op)
  | .lendAccept lend => some (.lendAccept lend)
  | .lendExpiry lend => some (.lendExpiry lend)
  | .taskEnd warp => some (.taskEnd warp)
  | .cairnGrant wait => some (.cairnGrant wait)
  | .cairnTimeout wait => some (.cairnTimeout wait)
  | .vclassWriteBack wb => some (.vclassWriteBack wb)
  | .storeAcknowledgement ack => some (.storeAcknowledgement ack)
  | .rendezvousComplete warp lane => some (.rendezvousComplete warp lane)
  | .namedBarrierComplete block id => some (.namedBarrierComplete block id)
  | .stuckRendezvous warp lane => some (.stuckRendezvous warp lane)
  | .fatalFault grid report pos => some (.fatalFault grid report pos)
  | .stampedRequestRelease grid => some (.stampedRequestRelease grid)
  | .sliceRead r => some (.sliceRead r)
  | .sliceWrite r => some (.sliceWrite r)
  | .collapseReceipt die line => some (.collapseReceipt die line)
  | .collapseAck die line => some (.collapseAck die line)
  | .leaseExpiry line => some (.leaseExpiry line)
  | .copyExpiry die line => some (.copyExpiry die line)
  | .recall line byDie => some (.recall line byDie)
  | .degreeCount asid region rr wr coll => some (.degreeCount asid region rr wr coll)
  | .keeperUpdate => some (.keeperUpdate)
  | .dgpin value => some (.dgpin value)
  | .softError stage die line corrected => some (.softError stage die line corrected)
  | .lineLoss line cause => some (.lineLoss line cause)
  | .dieReset die => some (.dieReset die)
  | .dieLoss die => some (.dieLoss die)
  | .mrAccept tail => some (.mrAccept tail)
  | .ascreate r => some (.ascreate r)
  | .asdestroy r => some (.asdestroy r)
  | .mapPages r => some (.mapPages r)
  | .unmap r => some (.unmap r)
  | .protect r => some (.protect r)
  | .migin r => some (.migin r)
  | .migout r => some (.migout r)
  | .setcold r => some (.setcold r)
  | .setpin r => some (.setpin r)
  | .generationAck asid agent => some (.generationAck asid agent)
  | .mrbaseWrite ctl value => some (.mrbaseWrite ctl value)
  | .sweeperVisit => some (.sweeperVisit)
  | .compression frame => some (.compression frame)
  | .compressionCommit frame granules => some (.compressionCommit frame granules)
  | .expansion frame => some (.expansion frame)
  | .eviction frame => some (.eviction frame)
  | .dieTimerCalibration die cal => some (.dieTimerCalibration die cal)
  | .queueCreate qid => some (.queueCreate qid)
  | .queueDestroy qid => some (.queueDestroy qid)
  | .queueResume qid => some (.queueResume qid)
  | .queueHalt qid => some (.queueHalt qid)
  | .tailUpdate qid value => some (.tailUpdate qid value)
  | .packetAccept qid => some (.packetAccept qid)
  | .packetStart qid seq => some (.packetStart qid seq)
  | .launch qid seq => some (.launch qid seq)
  | .waitSignals qid seq => some (.waitSignals qid seq)
  | .waitSignalsTimeout qid seq => some (.waitSignalsTimeout qid seq)
  | .signal qid seq => some (.signal qid seq)
  | .routineLoad qid seq => some (.routineLoad qid seq)
  | .catalogueUpdate qid seq => some (.catalogueUpdate qid seq)
  | .mappingPass => some (.mappingPass)
  | .placement grid => some (.placement grid)
  | .gridCompletion grid => some (.gridCompletion grid)
  | .eventRecordWrite e => some (.eventRecordWrite e)
  | .eventRingSpace rd => some (.eventRingSpace rd)
  | .eventRingRestart ctl value => some (.eventRingRestart ctl value)
  | .estimatorRun grid => some (.estimatorRun grid)
  | .drainRecheck block => some (.drainRecheck block)
  | .flush block => some (.flush block)
  | .save block => some (.save block)
  | .restore record => some (.restore record)
  | .nvcmdAttach index => some (.nvcmdAttach index)
  | .nvcmdDetach index => some (.nvcmdDetach index)
  | .flitReceive port f => some (.flitReceive port f)
  | .flitAck port seq => some (.flitAck port seq)
  | .linkRollover port => some (.linkRollover port)
  | .forcedRollover port => some (.forcedRollover port)
  | .portDown port => some (.portDown port)
  | .portUp port => some (.portUp port)
  | .attestation => some (.attestation)
  | .flashStage => some (.flashStage)
  | .flashActivate => some (.flashActivate)
  | .flashAbandon => some (.flashAbandon)
  | .coldReset => some (.coldReset)
  | .functionLevelReset => some (.functionLevelReset)
  | .governor temp power mhz cause => some (.governor temp power mhz cause)
  | .thermalDieReset die => some (.thermalDieReset die)
  | .registerWrite offset value => some (.registerWrite offset value)
  | .fenceReleaseCompletion wait => some (.fenceReleaseCompletion wait)
  | _ => none

end Sys2Proof.Machine
end

