-- ==== Sys2Proof/Certificates/Slice0/Obligations.lean ====
section
/-! DEFINITION. The statements about the machine that are to be proved, in the order of OBLIGATIONS.json. -/

open Sys2Proof Sys2Proof.Machine

/-! ## Reset, decoding and the step (R7, R22, R25 to R28, R91, R114, R157, R352, R401, R410) -/

/-- The reset columns of the register window's tables (R22, R91, R114, R157, R352, R401, R410), but for SWFREE and PEHEAP.SIZE,
whose values are the model's (log 6): every other register and every reserved offset reads as zero. Nothing is listed in
memory, no grid, warp or wait is there, and the bring-up is under way (log 2). -/
def Obligations.ResetState : Prop :=
  (∀ n, n ≠ 0x40020 → n ≠ 0x600C8 → State.reset.readRegister n = match n with
    | 0x40000 => BitVec.ofNat 64 (1 + 256 * 2 ^ 4)
    | 0x40010 => BitVec.ofNat 64 (16384 + 32768 * 2 ^ 32)
    | 0x50000 => 2000
    | 0x50018 => BitVec.ofNat 64 (2000 + 2000 * 2 ^ 16)
    | 0x50020 => 1000
    | 0x600C0 => BitVec.ofNat 64 (16000 * 2 ^ 16 + 2000 * 2 ^ 32 + 2 ^ 48)
    | 0x70008 => BitVec.ofNat 64 (1050 * 2 ^ 16)
    | _ => if 0x80000 ≤ n ∧ n < 0x80240 ∧ n % 0x40 = 0x20 then 8 else 0) ∧
  State.reset.Canonical ∧ (∀ host pa, State.reset.byteAt host pa = 0) ∧ State.reset.warps = [] ∧ State.reset.blocks = [] ∧
  State.reset.grids = [] ∧ State.reset.waits = [] ∧ State.reset.fe.queues = [] ∧ State.reset.issue = none ∧
  State.reset.net = [.coldReset] ∧ State.reset.clock = 0

/-- R36 to R46, R62: the words of some worked encodings decode to their instructions. -/
def Obligations.DecodeWords : Prop :=
  let reads (ws : List Word) (i : Instr) : Prop := ∀ rest, decodeWords (ws ++ rest) = .ok (i, rest)
  let g : Guard := ⟨false, 7, .lane⟩
  reads [0x10219070] (.iadd g 2 1 3) ∧ reads [0x00000070] (.nop g) ∧ reads [0x18002B70] (.movi g 3 0) ∧
  reads [0x00208B70] (.rdsr g 1 1) ∧ reads [0x2062B220] (.ffma ⟨false, 2, .lane⟩ 4 3 5) ∧
  reads [0x9800097C] (.barNamed ⟨false, 7, .block⟩ 3) ∧ reads [0xFFFD0110] (.bra ⟨false, 1, .lane⟩ (-6)) ∧
  reads [0x1800587C] (.fence ⟨false, 7, .block⟩ 3) ∧ reads [0x09655570] (.ldw g 1 11 10) ∧
  reads [0x00000A75, 0x00000C00, 0x00000010]
    (.setdecl ⟨false, 7, .warp⟩ ⟨false, .vec 0, .uni 6, .vec 0 false, .vec 0 false, 0, .u32, .rn, false, 0⟩) ∧
  (∀ (w : Word), shapeOf (First.ofWord w).opc = none → ∀ rest, decodeWords (w :: rest) = .error .unassignedOpcode)

/-- The words of every well-formed instruction decode to that instruction, whatever follows them. -/
def Obligations.EncodeDecode : Prop :=
  ∀ (i : Instr) (ws : List Word), i.wellFormed = true → encode? i = some ws →
    (0 < ws.length ∧ ws.length ≤ 5) ∧ ∀ rest, decodeWords (ws ++ rest) = .ok (i, rest)

/-- R25 to R28, R78, R80: a code word is the four bytes at its translated address, where the page is executable and the frame
may be read; the instruction at a position is what its clause's words decode to, where the clause is filled as R26 says. When the issue in progress is at a position
whose words decode, the step is that instruction's meaning, after which the issue is over, an open rendezvous of the group is
looked at again and exited warps are freed. A message of the device that may come next does what its instruction's meaning
does, after which its line counts as reached in this clock (R108). -/
def Obligations.StepRunsDecoded : Prop :=
  (∀ (s : State) (core asid : Nat) (va : DWord) (e : TlbEntry), s.look core asid va = some e → e.x = true →
    s.frameReadable asid (s.genAt core asid) (e.tgt == 1) (e.at va) = true →
    s.codeWord core asid va = .ok (BitVec.ofNat 32 (s.peek (e.tgt == 1) (e.at va) 4))) ∧
  (∀ (s : State) (core asid : Nat) (pos a : DWord) (h : Header) (w0 : Word) (ws rest : List Word) (i : Instr),
    s.header core asid (pos &&& ~~~7#64) = .ok h → h.ok = true →
    s.slotAddr core asid (pos &&& ~~~7#64) (pos.toNat % 4) = .ok a → s.codeWord core asid a = .ok w0 →
    s.codeWords core asid a (wordsOfLen (w0.setWidth 2)) = .ok ws → decodeWords ws = .ok (i, rest) →
    (pos.toNat % 4 = h.cnt → s.padOk core asid (a + BitVec.ofNat 64 (4 * ws.length)) = .ok true) →
    ∃ f, s.fetchAt core asid pos = .ok f ∧ f.instr = i ∧ f.word0 = w0 ∧ (pos.toNat % 4 < h.cnt → f.next = pos + 1) ∧
      (∀ c, s.clauseAfter core asid (pos &&& ~~~7#64) h.cnt = .ok c → f.nextClause = c ∧ (pos.toNat % 4 = h.cnt → f.next = c))) ∧
  (∀ (s : State) (i : Issue) (t : TRef) (rest : List TRef) (f : Fetched), s.issue = some i → i.group = t :: rest →
    s.fetchAt (s.warp t.warp).core (s.warp t.warp).asid i.pos = .ok f →
    ∀ s', exec f.instr { s with issue := some ⟨i.pos, i.group, f.next, f.nextClause, f.word0, f.yld, i.released, s.nextId + 1⟩ }
        = .next s' →
      step s = .next (State.lookAgain { s' with issue := none } i.group).settle) ∧
  (∀ (s : State) (n : Nat) (rest : List Choice) (m : Msg) (i : Instr), s.issue = none → s.agenda = .deliver n :: rest →
    s.net[n]? = some m → s.mayDeliver n = true → eventOf i = some m →
    ∀ s', exec i { s with agenda := rest, net := s.net.eraseIdx n } = .next s' → step s = .next (s'.noteReached m).settle)

/-- The memories keep their one form in every step of the machine, whichever instruction or device step it is. -/
def Obligations.StepKeepsCanonical : Prop :=
  ∀ (s s' : State), s.Canonical → step s = .next s' → s'.Canonical

/-! ## Integer instructions (R244 to R248) -/

/-- R244, R245, R246: without .sat, the sums, differences, products, bitwise operations, minima, maxima, absolute values and
moves are the operation on words of the width of TYPE, in each thread or, with a uniform destination, in each member warp; they
land four clocks later and set no flag. -/
def Claim.WrappingResults : Prop :=
  ∀ (i : Instr) (op : Bool → (w : Nat) → BitVec w → BitVec w → BitVec w → BitVec w), wrapsOf i = some op →
    ∀ (s : State) (ts : List TRef), s.Ready ts i → i.form.x.sat = false →
      exec i s = .next (s.withResults ts i 4 fun t =>
        ⟨atWidth i.form.x.ty (op i.form.x.ty.signed) (s.operands t i.form), i.form.x.ty.signed, 0⟩)

/-- R245: under .sat the exact result is clamped to the range of TYPE, with OF where the clamp changed it; IADDMIN and IADDMAX
clamp the sum before they compare it with C. -/
def Claim.SaturatedResults : Prop :=
  (∀ (i : Instr) (op : Int → Int → Int → Int), clampsOf i = some op →
    ∀ (s : State) (ts : List TRef), s.Ready ts i → i.form.x.sat = true →
      exec i s = .next (s.withResults ts i 4 fun t =>
        let o := s.operands t i.form
        let ty := i.form.x.ty
        let v := op (intVal ty o.a) (intVal ty o.b) (intVal ty o.c)
        ⟨wordOf ty.intW (clampTo ty v), ty.signed, if clampTo ty v = v then 0 else ofFlag⟩)) ∧
  (∀ (g : Guard) (x : XForm) (mx : Bool) (s : State) (ts : List TRef), x.sat = true →
    let i := if mx then Instr.iaddmax g x else Instr.iaddmin g x
    s.Ready ts i → exec i s = .next (s.withResults ts i 4 fun t =>
      let o := s.operands t i.form
      let v := intVal x.ty o.a + intVal x.ty o.b
      let c := intVal x.ty o.c
      ⟨wordOf x.ty.intW (if mx then max (clampTo x.ty v) c else min (clampTo x.ty v) c), x.ty.signed,
        if clampTo x.ty v = v then 0 else ofFlag⟩))

/-- R244, R246: SHL, SHR and SAR shift a word of the width of TYPE by the whole 32-bit count, so that a count of the width or
more leaves zeros, or sign bits for SAR; SHF shifts the 64 bits of B and A by C[4:0], or by C at most 32. -/
def Claim.ShiftResults : Prop :=
  (∀ (i : Instr) (op : (w : Nat) → BitVec w → Nat → BitVec w), shiftsOf i = some op →
    ∀ (s : State) (ts : List TRef), s.Ready ts i →
      exec i s = .next (s.withResults ts i 4 fun t =>
        let o := s.operands t i.form
        ⟨atWidth i.form.x.ty (fun w a _ _ => op w a (o.b.setWidth 32).toNat) o, i.form.x.ty.signed, 0⟩)) ∧
  (∀ (g : Guard) (x : XForm) (s : State) (ts : List TRef), s.Ready ts (.shf g x) →
    exec (.shf g x) s = .next (s.withResults ts (.shf g x) 4 fun t =>
      let o := s.operands t (Instr.shf g x).form
      let c := (o.c.setWidth 32).toNat
      let n := if x.sub.getLsbD 1 then min c 32 else c % 32
      let ab : BitVec 64 := o.b.setWidth 32 ++ o.a.setWidth 32
      let d : BitVec 32 := if x.sub.getLsbD 0 then (ab >>> n).setWidth 32 else (ab <<< n).extractLsb' 32 32
      ⟨d.setWidth 64, x.ty.signed, 0⟩))

/-- R244: IMULH gives the upper half of the product of twice the width, IMADW the 64-bit sum of a product of extended words, and
LEA the address A + (ext(B) << C[4:0]), the first two after six clocks. -/
def Claim.WideResults : Prop :=
  (∀ (i : Instr), (∃ g b a d, i = .imulh g b a d) ∨ (∃ g x, i = .imulhX g x) →
    ∀ (s : State) (ts : List TRef), s.Ready ts i →
      exec i s = .next (s.withResults ts i 6 fun t =>
        let sg := i.form.x.ty.signed
        ⟨atWidth i.form.x.ty (fun w a b _ =>
          (if sg then a.signExtend (2 * w) * b.signExtend (2 * w)
            else a.setWidth (2 * w) * b.setWidth (2 * w)).extractLsb' w w) (s.operands t i.form), sg, 0⟩)) ∧
  (∀ (g : Guard) (x : XForm) (s : State) (ts : List TRef), s.Ready ts (.imadw g x) →
    exec (.imadw g x) s = .next (s.withResults ts (.imadw g x) 6 fun t =>
      let o := s.operands t (Instr.imadw g x).form
      let ext (v : DWord) : DWord := if x.ty.signed then (v.setWidth 32).signExtend 64 else (v.setWidth 32).setWidth 64
      ⟨ext o.a * ext o.b + o.c, x.ty.signed, 0⟩)) ∧
  (∀ (g : Guard) (x : XForm) (s : State) (ts : List TRef), s.Ready ts (.lea g x) →
    exec (.lea g x) s = .next (s.withResults ts (.lea g x) 4 fun t =>
      let o := s.operands t (Instr.lea g x).form
      let ext (v : DWord) : DWord := if x.ty.signed then (v.setWidth 32).signExtend 64 else (v.setWidth 32).setWidth 64
      ⟨o.a + ext o.b <<< (o.c.toNat % 32), x.ty.signed, 0⟩))

/-- R244 to R246: the results of the integer arithmetic, logic, shift, address and wide-product instructions. -/
def Obligations.IntegerResults : Prop :=
  Claim.WrappingResults ∧ Claim.ShiftResults ∧ Claim.WideResults

/-- R244: POPC counts the ones of A, CLZ its leading zeros (the width where A is 0), BREV turns its bits around. -/
def Claim.BitCounts : Prop :=
  ∀ (i : Instr) (sub : Nat),
    (sub = 0 ∧ ((∃ g a d, i = .popc g a d) ∨ ∃ g x, i = .popcX g x)) ∨
    (sub = 1 ∧ ((∃ g a d, i = .clz g a d) ∨ ∃ g x, i = .clzX g x)) ∨
    (sub = 2 ∧ ((∃ g a d, i = .brev g a d) ∨ ∃ g x, i = .brevX g x)) →
    ∀ (s : State) (ts : List TRef), s.Ready ts i →
      exec i s = .next (s.withResults ts i 4 fun t =>
        ⟨atWidth i.form.x.ty (fun w a _ _ => match sub with
          | 0 => BitVec.ofNat w (onesOf a)
          | 1 => a.clz
          | _ => a.reverse) (s.operands t i.form), i.form.x.ty.signed, 0⟩)

/-- R246: BFX takes a field out and extends it, and BFI puts one in: bit by bit, with the field none where its length is 0 or
its position at or above the width. BPACK picks the bytes of its mode. -/
def Claim.BitFields : Prop :=
  (∀ (g : Guard) (x : XForm) (s : State) (ts : List TRef), s.Ready ts (.bfx g x) →
    ∃ v : TRef → DWord,
      exec (.bfx g x) s = .next (s.withResults ts (.bfx g x) 4 fun t => ⟨v t, x.ty.signed, 0⟩) ∧
      ∀ t k, let o := s.operands t (Instr.bfx g x).form
        let pos := o.b.toNat % 256
        let l := fieldLen x.ty.intW pos (o.b.toNat / 256 % 256)
        (v t).getLsbD k = (decide (k < x.ty.intW) && decide (0 < l) &&
          if k < l then o.a.getLsbD (pos + k) else x.ty.signed && o.a.getLsbD (pos + l - 1))) ∧
  (∀ (g : Guard) (x : XForm) (s : State) (ts : List TRef), s.Ready ts (.bfi g x) →
    ∃ v : TRef → DWord,
      exec (.bfi g x) s = .next (s.withResults ts (.bfi g x) 4 fun t => ⟨v t, x.ty.signed, 0⟩) ∧
      ∀ t k, let o := s.operands t (Instr.bfi g x).form
        let pos := o.c.toNat % 256
        let l := fieldLen x.ty.intW pos (o.c.toNat / 256 % 256)
        (v t).getLsbD k = if pos ≤ k ∧ k < pos + l then o.b.getLsbD (k - pos) else o.a.getLsbD k) ∧
  (∀ (g : Guard) (x : XForm) (s : State) (ts : List TRef), s.Ready ts (.bpack g x) →
    exec (.bpack g x) s = .next (s.withResults ts (.bpack g x) 4 fun t =>
      let o := s.operands t (Instr.bpack g x).form
      let a (k : Nat) : Byte := o.a.extractLsb' (8 * k) 8
      let b (k : Nat) : Byte := o.b.extractLsb' (8 * k) 8
      let d : BitVec 32 := match x.sub.toNat with
        | 0 => b 1 ++ a 1 ++ b 0 ++ a 0
        | 1 => b 3 ++ a 3 ++ b 2 ++ a 2
        | 2 => b 2 ++ b 0 ++ a 2 ++ a 0
        | 3 => b 3 ++ b 1 ++ a 3 ++ a 1
        | 4 => a 0 ++ a 1 ++ a 2 ++ a 3
        | _ => a (o.c.toNat % 4) ++ a (o.c.toNat % 4) ++ a (o.c.toNat % 4) ++ a (o.c.toNat % 4)
      ⟨d.setWidth 64, x.ty.signed, 0⟩))

/-- R244, R246: the results of the counting, bit-field and byte-packing instructions. -/
def Obligations.BitResults : Prop :=
  Claim.BitCounts ∧ Claim.BitFields

/-- R247: ICMP writes 1 where its condition holds and 0 elsewhere, to a predicate, a register or a uniform register. ISEL writes
A where its select predicate holds and B elsewhere; with a uniform destination the select predicates of the members agree. -/
def Claim.CompareAndSelect : Prop :=
  (∀ (i : Instr), (∃ g b a d, i = .icmp g b a d) ∨ (∃ g x, i = .icmpX g x) →
    ∀ (s : State) (ts : List TRef), s.Ready ts i →
      exec i s = .next (s.withResults ts i 4 fun t =>
        ⟨atWidth i.form.x.ty (fun w a b _ => if icmpWord i.form.x.sub.toNat i.form.x.ty.signed a b then 1#w else 0#w)
          (s.operands t i.form), false, 0⟩)) ∧
  (∀ (g : Guard) (x : XForm) (s : State) (ts : List TRef) (sel : TRef → Bool), s.Ready ts (.isel g x) →
    (∀ t, x.dst.cls ≠ 1 → sel t = iselField s t x) →
    (x.dst.cls = 1 → ∀ t ∈ ts, ∀ w, sel ⟨w, 0⟩ = iselField s t x) →
    exec (.isel g x) s = .next (s.withResults ts (.isel g x) 4 fun t =>
      let o := s.operands t (Instr.isel g x).form
      ⟨atWidth x.ty (fun _ a b _ => if sel t then a else b) o, x.ty.signed, 0⟩))

/-- R247: QOP writes a predicate from predicates; MOVQ.pack writes q0 to q6 as bits and 1 as bit 7, and MOVQ.unpack puts
A[6:0] into q0 to q6. -/
def Claim.PredicateMoves : Prop :=
  (∀ (g : Guard) (x : XForm) (s : State) (ts : List TRef), s.RunsAll ts (.qop g x) →
    exec (.qop g x) s = .next (s.retireEach ts (.qop g x) fun t s' =>
      s'.writeFixed t.warp 4 [(.pred t.lane x.dst.num.toNat,
        if qopWord x.sub.toNat (qopField s t x.a) (qopField s t x.b) (qopField s t x.c) then 1 else 0)])) ∧
  (∀ (i : Instr), (∃ g d, i = .movqPack g d) ∨ (∃ g x, i = .movqX g x ∧ x.sub = 0) →
    ∀ (s : State) (ts : List TRef), s.RunsAll ts i →
      ∃ v : TRef → Word,
        exec i s = .next (s.retireEach ts i fun t s' =>
          s'.writeFixed t.warp 4 [(.vec i.form.x.dst.num.toNat t.lane, (v t).setWidth 64)]) ∧
        ∀ t k, (v t).getLsbD k = (decide (k < 8) && (s.warp t.warp).pred t.lane k)) ∧
  (∀ (i : Instr), (∃ g a, i = .movqUnpack g a) ∨ (∃ g x, i = .movqX g x ∧ x.sub = 1) →
    ∀ (s : State) (ts : List TRef), s.RunsAll ts i →
      exec i s = .next (s.retireEach ts i fun t s' =>
        s'.writeFixed t.warp 4 ((List.range 7).map fun q =>
          (.pred t.lane q, if (s.operands t i.form).a.getLsbD q then 1 else 0))))

/-- R247: the results of compares, selects and predicate moves. -/
def Obligations.ComparisonResults : Prop :=
  Claim.CompareAndSelect ∧ Claim.PredicateMoves

/-- R248: CVTI reads its source at the source type's width and signedness, and gives the value modulo 2 to the destination's
width, or clamped with OF under .sat; 8 and 16 bits are written extended. -/
def Claim.IntegerConversions : Prop :=
  ∀ (i : Instr), (∃ g t a d, i = .cvti g t a d) ∨ (∃ g x, i = .cvtiX g x) →
    ∀ (s : State) (ts : List TRef) (src : Ty), s.Ready ts i → tyOfSub i.form.x.sub = some src →
      exec i s = .next (s.withResults ts i 6 fun t =>
        let ty := i.form.x.ty
        let v := intVal src (s.operands t i.form).a
        let c := if ty.signed then max (-2 ^ (ty.bits - 1)) (min (2 ^ (ty.bits - 1) - 1) v) else max 0 (min (2 ^ ty.bits - 1) v)
        let r := BitVec.ofInt ty.bits (if i.form.x.sat then c else v)
        ⟨wordOf ty.intW (if ty.signed then r.toInt else r.toNat), ty.signed,
          if i.form.x.sat ∧ c ≠ v then ofFlag else 0⟩)

/-- R245, R248: the results of saturating instructions and of integer conversions. -/
def Obligations.ClampedResults : Prop :=
  Claim.SaturatedResults ∧ Claim.IntegerConversions

/-! ## Float, conversion and reading instructions (R219 to R258, R342, R348) -/

/-- R240, R241, R249 to R258, R342, R348: the float, conversion, quantising, special-register and time instructions complete
with the result of their operation in each thread or member warp, 4, 6 or 16 clocks later, and with its flags. -/
def Obligations.ComputedResults : Prop :=
  ∀ (i : Instr) (lat : Nat) (op : AluOp), computesOf i = some (lat, op) →
    ∀ (s : State) (ts : List TRef) (r : TRef → Result), s.Ready ts i →
      (∀ t, s.Computes ts i t →
        op i.form (s.operands t i.form) t s = .ok (r t).value (r t).signed (r t).flags) →
      exec i s = .next (s.withResults ts i lat r)

/-- R233: the halfway and overflow cases of the rounding procedure that its table lists, but for the row of 61,439 (log 11). -/
def Claim.RoundingTable : Prop :=
  let e4m3 := Fmt.ofWord 0x00007B34
  let e4m3i := Fmt.ofWord 0x00007334
  let e5m2 := Fmt.ofWord 0x0000FD25
  let e5m2i := Fmt.ofWord 0x0000F525
  let e2m1 := Fmt.ofWord 0x00001912
  roundTo e4m3 .rn false (.fin false 464 0 false) = (0x7E, ofFlag ||| nxFlag) ∧
  roundTo e4m3i .rn false (.fin false 464 0 false) = (0x7F, ofFlag ||| nxFlag) ∧
  roundTo e4m3 .rn false (.fin false 463 0 true) = (0x7E, nxFlag) ∧
  roundTo e4m3 .rz false (.fin false 464 0 false) = (0x7E, nxFlag) ∧
  roundTo e4m3 .rz false (.fin false 500 0 false) = (0x7E, ofFlag ||| nxFlag) ∧
  roundTo e5m2 .rn false (.fin false 61440 0 false) = (0x7B, ofFlag ||| nxFlag) ∧
  roundTo e5m2i .rn false (.fin false 61440 0 false) = (0x7C, ofFlag ||| nxFlag) ∧
  roundTo e5m2 .rn false (.fin false 59391 0 false) = (0x7B, nxFlag) ∧
  roundTo e2m1 .rn false (.fin true 7 0 false) = (0xF, ofFlag ||| nxFlag)

/-- R219, R224, R232: a finite value of a wide or predefined narrow format rounds to its own code, in every mode, and sets no
flag. -/
def Claim.RepresentableExact : Prop :=
  ∀ (f : Fmt), (f ∈ [fp32, fp16, bf16] ∨ ∃ k w, predefined k = some w ∧ f = Fmt.ofWord w) →
    ∀ (mode : Rnd) (sat : Bool) (c : Nat) (n : Bool) (m : Nat) (e : Int), c < 2 ^ f.width → f.decode c = .fin n m e false →
      roundTo f mode sat (.fin n m e false) = (c, 0)

/-- R232, R233: rounding on the worked cases of its table, and on values that need none. -/
def Obligations.RoundedResults : Prop :=
  Claim.RoundingTable ∧ Claim.RepresentableExact

/-- R220, R249: a sum or product with a NaN among its operands is the canonical NaN, with NV where one is signalling; ∞ − ∞ and
0 × ∞ are the canonical NaN with NV, and a fused multiply-add keeps the NV of ∞ × 0 beside a quiet NaN. -/
def Claim.FloatNaNs : Prop :=
  ∀ (f : Fmt), f ∈ [fp32, fp16, bf16] → ∀ (fl : Bool) (mode : Rnd) (sat : Bool) (a b c : Nat),
    let va := f.decode a
    let vb := f.decode b
    let vc := f.decode c
    let bad (x y : FVal) : Bool := (x.isInf && y.isZero) || (x.isZero && y.isInf)
    let nv (p : Bool) : FFlags := if p then nvFlag else 0
    (va.isNan || vb.isNan → fAdd fl f mode sat a b = (f.nanCode, nv (va.isSignalling || vb.isSignalling))) ∧
    (va.isNan || vb.isNan → fMul fl f mode sat a b = (f.nanCode, nv (va.isSignalling || vb.isSignalling))) ∧
    (va.isInf && vb.isInf && (va.neg? != vb.neg?) → fAdd fl f mode sat a b = (f.nanCode, nvFlag)) ∧
    (bad va vb → fMul fl f mode sat a b = (f.nanCode, nvFlag)) ∧
    (va.isNan || vb.isNan || vc.isNan → fl = false →
      fFma fl f mode sat a b c
        = (f.nanCode, nv (va.isSignalling || vb.isSignalling || vc.isSignalling || bad va vb)))

/-- R220: under the subnormal flush bit no sum, product or fused multiply-add is a subnormal number. -/
def Obligations.FlushedResults : Prop :=
  ∀ (f : Fmt), f ∈ [fp32, fp16, bf16] → ∀ (mode : Rnd) (sat : Bool) (a b c : Nat),
    let normal (r : Nat) : Prop := r % 2 ^ (f.exp + f.man) = 0 ∨ 2 ^ f.man ≤ r % 2 ^ (f.exp + f.man)
    normal (fAdd true f mode sat a b).1 ∧ normal (fMul true f mode sat a b).1 ∧ normal (fFma true f mode sat a b c).1

/-- R251: FMIN and FMAX return an operand no larger, or no smaller, than the other, with −0 below +0 and a NaN only where both
are; FCMP's conditions; FCLASS sets exactly one of its ten bits; FRND keeps zeros and infinities, and sets no flag but NV for a
signalling NaN. -/
def Obligations.MinMaxCompareClass : Prop :=
  ∀ (f : Fmt), f ∈ [fp32, fp16, bf16] → ∀ (a b : Nat), a < 2 ^ f.width → b < 2 ^ f.width →
    let va := f.decode a
    let vb := f.decode b
    let nv (p : Bool) : FFlags := if p then nvFlag else 0
    let sn := va.isSignalling || vb.isSignalling
    let un := va.isNan || vb.isNan
    (∀ mx, (fMinMax false f mx a b).2 = nv sn) ∧
    (∀ mx, va.isNan && vb.isNan → (fMinMax false f mx a b).1 = f.nanCode) ∧
    (∀ mx, va.isNan && !vb.isNan → (fMinMax false f mx a b).1 = b ∧ (fMinMax false f mx b a).1 = b) ∧
    (!un → ∀ mx, let r := (fMinMax false f mx a b).1
      (r = a ∨ r = b) ∧ ((va.isZero && vb.isZero) || (if mx then !(f.decode r).lt va && !(f.decode r).lt vb
        else !va.lt (f.decode r) && !vb.lt (f.decode r)))) ∧
    (va.isZero && vb.isZero && va.neg? && !vb.neg? →
      (fMinMax false f false a b).1 = a ∧ (fMinMax false f false b a).1 = a ∧
      (fMinMax false f true a b).1 = b ∧ (fMinMax false f true b a).1 = b) ∧
    (∀ k : Fin 8, fCmp false f k a b =
      (match k.val with
        | 0 => !un && !va.lt vb && !vb.lt va
        | 1 => un || va.lt vb || vb.lt va
        | 2 => !un && va.lt vb
        | 3 => !un && !vb.lt va
        | 4 => !un && vb.lt va
        | 5 => !un && !va.lt vb
        | 6 => !un
        | _ => un, nv (sn || (un && decide (2 ≤ k.val ∧ k.val ≤ 5))))) ∧
    (∃ k, k < 10 ∧ fClass f a = 2 ^ k ∧ (k = 8 ↔ va.isSignalling) ∧ (k = 9 ↔ va.isNan ∧ ¬ va.isSignalling) ∧
      (k = 0 ↔ va = .inf true) ∧ (k = 7 ↔ va = .inf false) ∧ (k = 3 ↔ va.isZero ∧ va.neg?) ∧ (k = 4 ↔ va.isZero ∧ ¬ va.neg?)) ∧
    (∀ mode, (fRnd false f mode a).2 = nv sn ∧ (va.isNan → (fRnd false f mode a).1 = f.nanCode) ∧
      (va.isZero || va.isInf → (fRnd false f mode a).1 = a))

/-- R231, R256: a conversion to an integer type of 8 to 64 bits gives 0 with NV for a NaN, and otherwise the value rounded by its
mode to an integer, with NX where the rounding changed it; outside the type's range it gives the nearest bound with NV. -/
def Obligations.ConversionClamps : Prop :=
  ∀ (signed : Bool) (w : Nat), w ∈ [8, 16, 32, 64] → ∀ (mode : Rnd),
    let hi : Int := if signed then 2 ^ (w - 1) - 1 else 2 ^ w - 1
    let lo : Int := if signed then -2 ^ (w - 1) else 0
    (∀ q, fToInt signed w mode (.nan q) = (0, nvFlag)) ∧
    (∀ n, fToInt signed w mode (.inf n) = (if n then lo else hi, nvFlag)) ∧
    (∀ (n : Bool) (m k : Nat), let i : Int := (if n then -1 else 1) * (m * 2 ^ k : Nat)
      fToInt signed w mode (.fin n m k false)
        = if hi < i then (hi, nvFlag) else if i < lo then (lo, nvFlag) else (i, 0)) ∧
    (∀ (n : Bool) (m k : Nat),
      let q := m / 2 ^ k
      let r := m % 2 ^ k
      let up : Prop := match mode with
        | .rn => 2 ^ k < 2 * r ∨ (2 * r = 2 ^ k ∧ q % 2 = 1)
        | .rz => False
        | .rm => n = true ∧ r ≠ 0
        | .rp => n = false ∧ r ≠ 0
        | .ra => r ≠ 0 ∧ 2 ^ k ≤ 2 * r
      ∀ v : Nat, ((up ∧ v = q + 1) ∨ (¬up ∧ v = q)) →
        let i : Int := (if n then -1 else 1) * v
        fToInt signed w mode (.fin n m (-(k : Int)) false)
          = if hi < i then (hi, nvFlag) else if i < lo then (lo, nvFlag) else (i, if r = 0 then 0 else nxFlag))

/-- R253: the transcendentals of zeros, infinities and negative numbers, in f32 and f16. -/
def Claim.TranscendentalSpecials : Prop :=
  ∀ (f : Fmt), f ∈ [fp32, fp16] → ∀ (fl : Bool) (mode : Rnd),
    let ev (t : Trans) (c : Nat) := trans fl t f mode c
    let zero (n : Bool) : Nat := f.code n 0
    let inf (n : Bool) : Nat := f.infCode n
    let one (n : Bool) : Nat := f.code n (2 ^ f.man * (2 ^ (f.exp - 1) - 1))
    let nan := (f.nanCode, nvFlag)
    (∀ n, ev .rcp (zero n) = (inf n, 0) ∧ ev .rsq (zero n) = (inf n, 0) ∧ ev .sqrt (zero n) = (zero n, 0) ∧
      ev .exp2 (zero n) = (one false, 0) ∧ ev .log2 (zero n) = (inf true, 0) ∧ ev .sin (zero n) = (zero n, 0) ∧
      ev .cos (zero n) = (one false, 0) ∧ ev .tanh (zero n) = (zero n, 0)) ∧
    (∀ n, ev .rcp (inf n) = (zero n, 0) ∧ ev .sin (inf n) = nan ∧ ev .cos (inf n) = nan ∧ ev .tanh (inf n) = (one n, 0)) ∧
    (ev .rsq (inf false) = (zero false, 0) ∧ ev .sqrt (inf false) = (inf false, 0) ∧ ev .exp2 (inf false) = (inf false, 0) ∧
      ev .log2 (inf false) = (inf false, 0) ∧ ev .exp2 (inf true) = (zero false, 0)) ∧
    (∀ t, t = .rsq ∨ t = .sqrt ∨ t = .log2 → ev t (inf true) = nan ∧
      ∀ c m e st, f.decode c = .fin true m e st → m ≠ 0 → trans false t f mode c = nan)

/-- R220, R249, R253: the results of arithmetic and transcendentals on NaNs, infinities and zeros. -/
def Obligations.FloatSpecials : Prop :=
  Claim.FloatNaNs ∧ Claim.TranscendentalSpecials

/-! ## What element-wise instructions leave alone, and when results are read (R33, R240, R242) -/

/-- R240 to R242: an element-wise instruction, in whatever state it issues, changes no memory, no scratchpad, no block, grid,
core, queue or device register; in the warps it leaves every register, predicate, counter and flag register as it is, and what it
adds to the writes on their way is a write to its own destination that lands at its latency. -/
def Obligations.ElementwiseFrame : Prop :=
  ∀ (i : Instr) (s s' : State), elementwiseOpc i.form.opc = true → exec i s = .next s' →
    (s'.hbm = s.hbm ∧ s'.hostMem = s.hostMem ∧ s'.lines = s.lines ∧ s'.copies = s.copies ∧ s'.blocks = s.blocks ∧
      s'.grids = s.grids ∧ s'.cores = s.cores ∧ s'.dies = s.dies ∧ s'.waits = s.waits ∧ s'.monitors = s.monitors ∧
      s'.mem = s.mem ∧ s'.fe = s.fe ∧ s'.hk = s.hk ∧ s'.clock = s.clock) ∧
    ∀ k, let w := s.warp k
      let w' := s'.warp k
      (w'.regs = w.regs ∧ w'.empty = w.empty ∧ w'.uregs = w.uregs ∧ w'.preds = w.preds ∧ w'.alloc = w.alloc ∧ w'.cf = w.cf ∧
        w'.setReg = w.setReg ∧ w'.gwBlk = w.gwBlk ∧ w'.gwDev = w.gwDev ∧ w'.gwSys = w.gwSys ∧ w'.obs = w.obs ∧
        w'.stores = w.stores ∧ w'.winMap = w.winMap ∧ w'.idemPos = w.idemPos) ∧
      (∀ l, (w'.thread l).sp = (w.thread l).sp ∧ (w'.thread l).tscr = (w.thread l).tscr ∧
        (w'.thread l).exited = (w.thread l).exited) ∧
      ∀ p ∈ w'.pend, p ∈ w.pend ∨ (destinationOf i.form p.key ∧ s.clock < p.land ∧ p.land ≤ s.clock + 16)

/-- R33: a fixed-latency write is not read before its clock; when clocks have passed up to it, the last write to a register whose
clock has come is what the register holds, and writes still on their way remain so. The register files are in their one form. -/
def Claim.FixedLatencyLanding : Prop :=
  ∀ (w : Warp) (clock : Nat), SMap.wf 0 w.regs = true → SMap.wf 0 w.uregs = true → SMap.wf false w.preds = true →
    let due (k : RegKey) := (w.pend.filter fun p => decide (p.land ≤ clock) && decide (p.key = k)).getLast?
    (∀ r l, l < 32 → (∀ p ∈ w.pend, ∀ r' l', p.key = .vec r' l' → l' < 32) →
      (w.land clock).vreg l r = match due (.vec r l) with
        | some p => p.value.setWidth 32
        | none => w.vreg l r) ∧
    (∀ n, (w.land clock).ureg n = match due (.uni n) with
      | some p => p.value
      | none => w.ureg n) ∧
    (∀ l q, q < 7 → (∀ p ∈ w.pend, ∀ l' q', p.key = .pred l' q' → q' < 7) →
      (w.land clock).pred l q = match due (.pred l q) with
        | some p => p.value != 0
        | none => w.pred l q) ∧
    (w.land clock).pend = w.pend.filter fun p => decide (clock < p.land)

/-- The operations on a warp's registers keep the one form of its register files. -/
def Claim.RegisterFilesCanonical : Prop :=
  let ok (w : Warp) : Prop :=
    SMap.wf 0 w.regs = true ∧ SMap.wf false w.empty = true ∧ SMap.wf 0 w.uregs = true ∧ SMap.wf false w.preds = true
  ok Warp.none ∧
  ∀ (w : Warp), ok w →
    (∀ k v, ok (w.setReg' k v)) ∧ (∀ k v, ok (w.putNow k v)) ∧ (∀ c, ok (w.land c)) ∧
    (∀ l r c e, ok (w.markEmpty l r c e)) ∧ (∀ p, ok (w.addPend p)) ∧ (∀ l f, ok (w.setThread l f))

/-- R33: one clock passing lands the writes of every warp whose clock it is, and changes its registers no further. -/
def Claim.ClockLandsWrites : Prop :=
  ∀ (s : State) (k : Nat) (w : Warp), Tab.find s.warps k = some w →
    s.passClock.clock = s.clock + 1 ∧
    let w' := s.passClock.warp k
    let l := w.land (s.clock + 1)
    w'.regs = l.regs ∧ w'.uregs = l.uregs ∧ w'.preds = l.preds ∧ w'.pend = l.pend ∧ w'.empty = w.empty

/-- R33: fixed-latency writes land at their clock, and the register files keep their one form. -/
def Obligations.RegistersLand : Prop :=
  Claim.FixedLatencyLanding ∧ Claim.RegisterFilesCanonical ∧ Claim.ClockLandsWrites

/-! ## Lane instructions (R259 to R267) -/

/-- R260, R325: a lane instruction completes: each thread whose predicate holds receives its result eight clocks later, with the
flags of it; with a uniform destination each member warp of the instance receives that of its lowest participating position,
and but for SHFL one without such a position that of the instance's (R40, R263). -/
def Claim.LaneCompletes : Prop :=
  ∀ (i : Instr) (res : Form → List Place → State → List LaneRes), lanesOf i = some res →
    (∀ (s : State) (ts : List TRef), (∀ n, i.form.x.dst ≠ .uni n) → s.RunsAll ts i →
      exec i s = .next (s.retireEach ts i fun t s' =>
        match (res i.form (s.places i.form) s).find? fun r => r.t = t with
        | some r => (s'.writeFixed t.warp 8 (aluWrites i.form t.lane r.v i.form.x.ty.signed)).setFlags t r.fl
        | none => s')) ∧
    (∀ (s : State) (ts : List TRef) (n : BitVec 9), i.form.x.dst = .uni n → s.RunsOnce ts i →
      exec i s = .next (((s.memberWarps i.form.g.scope).foldl (fun s' w =>
        match ((res i.form (s.places i.form) s).find? fun r => r.t.warp = w).orElse fun _ =>
            if i.form.opc = 0x48 then none else (res i.form (s.places i.form) s).head? with
        | some r =>
          ((res i.form (s.places i.form) s).filter fun q => q.t.warp = w).foldl (fun s q => s.setFlags q.t q.fl)
            (s'.writeFixed w 8 (aluWrites i.form 0 r.v i.form.x.ty.signed))
        | none => s') s).retire ts i s.cur.next))

/-- R260, R263: the participating places are the threads of the issue whose predicate holds, in ascending position; SHFL gives
each the value at its source position, or its own where no participating position is there. -/
def Claim.ShuffleValues : Prop :=
  (∀ (s : State) (f : Form), (s.places f).Pairwise (fun p q => p.pos ≤ q.pos) ∧
    ∀ p, p ∈ s.places f ↔ ∃ t ∈ s.cur.group, s.guardHolds t f.g = true ∧
      p = ⟨s.position f.g.scope t, t, s.operands t f⟩) ∧
  (∀ (f : Form) (s : State) (p0 : Place) (rest : List Place), ((p0 :: rest).map Place.pos).Nodup →
    let ps := p0 :: rest
    let n := s.positions f.g.scope p0.t
    (shflRes f ps s).map LaneRes.t = ps.map Place.t ∧
    ∀ p ∈ ps, ∃ r ∈ shflRes f ps s, r.t = p.t ∧ r.fl = 0 ∧
      (let b := (p.o.b.setWidth 32).toNat
       let src : Int := match f.x.sub.toNat % 4 with
        | 0 => b
        | 1 => (p.pos : Int) - b
        | 2 => (p.pos : Int) + b
        | _ => (p.pos ^^^ b : Nat)
       (∀ q ∈ ps, (q.pos : Int) = src → q.pos < n → r.v = q.o.a) ∧
       ((∀ q ∈ ps, (q.pos : Int) = src → ¬ q.pos < n) → r.v = p.o.a)))

/-- R264, R266: VOTE tests A ≠ 0 over the participating places, and .ballot and MATCH give masks of the lanes that pass, or
whose A is the same. -/
def Claim.VotesAndMatches : Prop :=
  ∀ (f : Form) (s : State) (ps : List Place),
    let warpWide : Prop := (ps.map fun p => p.t.lane).Nodup ∧ ∀ p ∈ ps, p.t.lane < 32
    let a (p : Place) : Nat := p.o.a.toNat % 2 ^ f.x.ty.intW
    (voteRes f ps s).map LaneRes.t = ps.map Place.t ∧ (matchRes f ps s).map LaneRes.t = ps.map Place.t ∧
    (∀ r ∈ voteRes f ps s, r.fl = 0 ∧ match f.x.sub.toNat % 4 with
      | 0 => (r.v = 1 ∨ r.v = 0) ∧ (r.v = 1 ↔ ∀ p ∈ ps, a p ≠ 0)
      | 1 => (r.v = 1 ∨ r.v = 0) ∧ (r.v = 1 ↔ ∃ p ∈ ps, a p ≠ 0)
      | 2 => (r.v = 1 ∨ r.v = 0) ∧ (r.v = 1 ↔ ∀ p ∈ ps, ∀ q ∈ ps, a p = a q)
      | _ => warpWide → ∀ k, r.v.getLsbD k = true ↔ ∃ p ∈ ps, p.t.lane = k ∧ a p ≠ 0) ∧
    (warpWide → ∀ p ∈ ps, ∃ r ∈ matchRes f ps s, r.t = p.t ∧ r.fl = 0 ∧
      ∀ k, r.v.getLsbD k = true ↔ if f.x.sub.getLsbD 0
        then (∀ q ∈ ps, ∀ u ∈ ps, a q = a u) ∧ ∃ q ∈ ps, q.t.lane = k
        else ∃ q ∈ ps, q.t.lane = k ∧ a q = a p)

/-- R260, R263, R264, R266: the lane instructions complete, with the values of SHFL, VOTE and MATCH. -/
def Obligations.LaneResults : Prop :=
  Claim.LaneCompletes ∧ Claim.ShuffleValues ∧ Claim.VotesAndMatches

/-- R265, R267: REDUX of integers combines A over the participating places, whatever their order, and SCAN combines it over the
places up to each, or before each in the exclusive form. -/
def Claim.IntegerReductions : Prop :=
  ∀ (f : Form) (s : State) (p0 : Place) (rest : List Place),
    let ps := p0 :: rest
    (ps.map Place.pos).Pairwise (· < ·) → (∀ p ∈ ps, p.pos < s.positions f.g.scope p0.t) →
    (∀ p ∈ ps, p.o.a.toNat < 2 ^ f.x.ty.intW) → f.x.ty ∈ int5 →
    let a (p : Place) : DWord := p.o.a
    let cut (v : DWord) : DWord := if f.x.ty.intW = 64 then v else (v.setWidth 32).setWidth 64
    let val (p : Place) : Int := intVal f.x.ty p.o.a
    (reduxRes f ps s).map LaneRes.t = ps.map Place.t ∧ (scanRes f ps s).map LaneRes.t = ps.map Place.t ∧
    (∀ r ∈ reduxRes f ps s, r.fl = 0 ∧ match f.x.sub.toNat % 8 with
      | 0 => r.v = cut (ps.map a).sum
      | 1 => (∃ p ∈ ps, r.v = a p) ∧ ∀ p ∈ ps, intVal f.x.ty r.v ≤ val p
      | 2 => (∃ p ∈ ps, r.v = a p) ∧ ∀ p ∈ ps, val p ≤ intVal f.x.ty r.v
      | 3 => ∀ k, r.v.getLsbD k = true ↔ ∀ p ∈ ps, (a p).getLsbD k = true
      | 4 => ∀ k, r.v.getLsbD k = true ↔ ∃ p ∈ ps, (a p).getLsbD k = true
      | _ => r.v = (ps.map a).foldr (· ^^^ ·) 0) ∧
    (f.x.sub.toNat % 8 = 0 → ∀ p ∈ ps, ∃ r ∈ scanRes f ps s, r.t = p.t ∧ r.fl = 0 ∧
      r.v = cut ((ps.filter fun q => if f.x.sub.getLsbD 3 then q.pos < p.pos else q.pos ≤ p.pos).map a).sum)

/-- R220, R259: BLKMAX reads each value as the flush bit has it, and completes with one summary word for every thread whose predicate holds, or for the warp's uniform register: bit
9 where some value is other than +0, bit 8 where some value is a NaN, and the scale byte of the finite values, 0 where none is
other than zero. -/
def Claim.BlockSummaries : Prop :=
  ∀ (g : Guard) (x : XForm) (s : State) (ts : List TRef),
    let i := Instr.blkmax g x
    let acts := ts.filter fun t => s.guardHolds t i.form.g
    ∀ t0 rest, acts = t0 :: rest →
    let vals := acts.map fun t => flushIn (s.flush t0) fp32 (fp32.decode ((s.operands t i.form).a.toNat % 2 ^ 32))
    ∃ v : DWord,
      ((∀ n, x.dst ≠ .uni n) → s.RunsAll ts i →
        exec i s = .next (s.retireEach ts i fun t s' => s'.writeFixed t.warp 8 (dstWrites x.dst t.lane 1 v))) ∧
      (∀ n, x.dst = .uni n → s.RunsOnce ts i →
        exec i s = .next ((s.writeFixed (s.lead i).warp 8 [(.uni (n.toNat % 32), v)]).retire ts i s.cur.next)) ∧
      ((s.RunsAll ts i ∨ s.RunsOnce ts i) →
        (v.getLsbD 9 = true ↔ ∃ e ∈ vals, e.isZero = false ∨ e.neg? = true) ∧
        (v.getLsbD 8 = true ↔ ∃ e ∈ vals, e.isNan = true) ∧
        v.toNat % 256 = (let finite := vals.filter fun u => !u.isNan && !u.isInf
          if finite.all FVal.isZero then 0 else scaleByte (quantFmt i.form t0 s) finite) ∧
        v.toNat < 1024)

/-- R259, R265, R267: the values of integer REDUX and SCAN, and BLKMAX. -/
def Obligations.LaneReductions : Prop :=
  Claim.IntegerReductions ∧ Claim.BlockSummaries

/-! ## Control (R35, R49, R50, R204, R205, R327, R333 to R347) -/

/-- R35: an instruction at lane scope whose predicate is false in its thread does nothing but move on: the thread stands at the
position after it, and the warp has issued one instruction more. -/
def Claim.PredicateFalse : Prop :=
  ∀ (i : Instr) (f : Form) (s : State) (t : TRef), i.form? = some f → f.g.scope = .lane → s.Skips t i →
    (s.thread t).exited = false →
    exec i s = .next (s.retire [t] i s.cur.next)

/-- R49, R50, R333, R337: NOP and YIELD move on, YIELD leaving the picker a hint outside deterministic grids; BRA goes to the
clause header of its position plus eight times its offset, and BRX to the address in A where that is a clause header of
executable memory; at a wider scope all members go together. -/
def Claim.BranchesComplete : Prop :=
  (∀ (g : Guard) (s : State) (ts : List TRef),
    (g.scope = .lane → s.RunsAll ts (.nop g) → exec (.nop g) s = .next (s.retireEach ts (.nop g) fun _ s' => s')) ∧
    (g.scope ≠ .lane → s.RunsOnce ts (.nop g) → exec (.nop g) s = .next (s.retire ts (.nop g) s.cur.next)) ∧
    (g.scope = .lane → s.RunsAll ts (.yield g) → exec (.yield g) s = .next (s.retireEach ts (.yield g) fun t s' =>
      s'.setThread t fun th => { th with yielded := !(s.grid (s.warp t.warp).grid).det })) ∧
    (g.scope ≠ .lane → s.RunsOnce ts (.yield g) → exec (.yield g) s = .next (s.retire ts (.yield g) s.cur.next))) ∧
  (∀ (i : Instr) (g : Guard) (off : DWord), (∃ o : BitVec 17, i = .bra g o ∧ off = o.signExtend 64) ∨ i = .braLit g off →
    ∀ (s : State) (ts : List TRef), let target := (s.cur.pos &&& ~~~7#64) + 8 * off
    (g.scope = .lane → s.RunsAll ts i → exec i s = .next (s.leaveEach ts i (fun _ s' => s') fun _ => target)) ∧
    (g.scope ≠ .lane → s.RunsOnce ts i → exec i s = .next (s.retire ts i target))) ∧
  (∀ (i : Instr), (∃ g a, i = .brx g a) ∨ (∃ g x, i = .brxX g x) → ∀ (s : State) (ts : List TRef),
    (i.form.g.scope = .lane → s.RunsAll ts i →
      (∀ t ∈ ts, s.guardHolds t i.form.g = true →
        s.targetOk (s.warp t.warp).core (s.warp t.warp).asid (s.operands t i.form).a = true) →
      exec i s = .next (s.leaveEach ts i (fun _ s' => s') fun t => (s.operands t i.form).a)) ∧
    (i.form.g.scope ≠ .lane → s.RunsOnce ts i →
      s.targetOk (s.warp (s.lead i).warp).core (s.warp (s.lead i).warp).asid (s.leadOps i).a = true →
      exec i s = .next (s.retire ts i (s.leadOps i).a)))

/-- R333: BRX and CALLX to an address that is no clause header of executable memory take the branch fault, with the address in
TVAL, and change nothing else. -/
def Claim.BranchFaults : Prop :=
  ∀ (i : Instr), (∃ g a, i = .brx g a) ∨ (∃ g x, i = .brxX g x) ∨ (∃ g a, i = .callx g a) ∨ (∃ g x, i = .callxX g x) →
    ∀ (s : State) (t : TRef), s.Runs t i → i.form.g.scope = .lane →
      s.targetOk (s.warp t.warp).core (s.warp t.warp).asid (s.operands t i.form).a = false →
      exec i s = .next ((s.raise t ⟨2, 0, 0, 0, 0, false, (s.operands t i.form).a⟩).finish i.form.opc [])

/-- R49, R50, R333, R337: branches complete at their target, or take the branch fault. -/
def Obligations.BranchesGo : Prop :=
  Claim.BranchesComplete ∧ Claim.BranchFaults

/-- R334: CALL stores the return position, the header of the next clause, eight bytes below %sp, moves %sp there and goes to its
target; RET reaches the line at %sp as its core reads it, takes the position there back, and adds eight to %sp. -/
def Claim.CallsComplete : Prop :=
  (∀ (i : Instr) (g : Guard) (s s1 : State) (t : TRef) (target : DWord),
    ((∃ o : BitVec 17, i = .call g o ∧ target = (s.cur.pos &&& ~~~7#64) + 8 * o.signExtend 64) ∨
      (∃ off, i = .callLit g off ∧ target = (s.cur.pos &&& ~~~7#64) + 8 * off) ∨
      (((∃ a, i = .callx g a) ∨ ∃ x, i = .callxX g x) ∧ target = (s.operands t i.form).a ∧
        s.targetOk (s.warp t.warp).core (s.warp t.warp).asid target = true)) →
    s.Runs t i →
    let a := (s.thread t).sp - 8
    (s.areaBase t).toNat + 8 ≤ (s.thread t).sp.toNat → s.accessCheck t a 8 false true = .ok s1 →
    exec i s = .next (((s1.startStore t a 8 s.cur.nextClause.toNat).setThread t fun th => { th with sp := a }).retire [t] i target)) ∧
  (∀ (g : Guard) (s s0 : State) (t : TRef) (e : TlbEntry), s.Runs t (.ret g) →
    let sp := (s.thread t).sp
    let w := s.warp t.warp
    sp ≠ s.areaTop t → s.accessCheck t sp 8 true false = .ok s0 →
    let s1 := (s0.retReach t).1
    (s1.retReach t).2 = true → s1.loadWaits t sp 8 = false → s1.look w.core w.asid sp = some e →
    s1.frameReadable w.asid (s1.genAt w.core w.asid) (e.tgt == 1) (e.at sp) = true →
    let target := BitVec.ofNat 64 (ofLeBytes ((List.range 8).map fun k => s1.byteFor (dieOfCore w.core) (e.tgt == 1) (e.at sp + k)))
    s1.targetOk w.core w.asid target = true →
    exec (.ret g) s = .next (((if e.tgt = 1 then s1 else s1.observe t.warp (e.at sp / 128)).setThread t fun th =>
      { th with sp := th.sp + 8 }).retire [t] (.ret g) target))

/-- R334: CALL with less than eight bytes left in the thread's area, and RET with %sp at its top, take the lease fault with cause
1, which ends the grid. -/
def Claim.CallAreaFaults : Prop :=
  (∀ (i : Instr) (s : State) (t : TRef), (∃ g o, i = .call g o) ∨ (∃ g off, i = .callLit g off) → s.Runs t i →
    (s.thread t).sp.toNat < (s.areaBase t).toNat + 8 →
    exec i s = .next ((s.raise t ⟨5, 1, 0, 0, 0, false, (s.thread t).sp - 8⟩).finish i.form.opc [])) ∧
  (∀ (g : Guard) (s : State) (t : TRef), s.Runs t (.ret g) → (s.thread t).sp = s.areaTop t →
    exec (.ret g) s = .next ((s.raise t ⟨5, 1, 0, 0, 0, false, (s.thread t).sp⟩).finish (Instr.ret g).form.opc []))

/-- R334: calls and returns complete in the thread's area, and fault at its ends. -/
def Obligations.CallsGo : Prop :=
  Claim.CallsComplete ∧ Claim.CallAreaFaults

/-- R327, R335: EXIT ends its thread; while the warp has another thread nothing else of it changes, and the last one's EXIT frees
the warp once all that it issued has completed. -/
def Obligations.ExitEndsThread : Prop :=
  ∀ (g : Guard) (s : State) (t : TRef), s.Runs t (.exit g) →
    let s1 := ((s.setThread t fun th => { th with exited := true, arrival := none, wait := none, lastIssue := s.clock }).unsuspend t)
    (∃ s', exec (.exit g) s = .next s' ∧ (s'.thread t).exited = true) ∧
    ((∃ l, l ≠ t.lane ∧ ((s.warp t.warp).thread l).exited = false) →
      exec (.exit g) s = .next (s1.finish (Instr.exit g).form.opc [t])) ∧
    ((∀ l, l ≠ t.lane → ((s.warp t.warp).thread l).exited = true) → (s.warp t.warp).freed = false → s.quiet t.warp = true →
      (s.warp t.warp).task = none → (s.warp t.warp).setReg = 0 → s.waits = [] →
      ∃ s', exec (.exit g) s = .next s' ∧ (s'.warp t.warp).freed = true)

/-- R336, R395: TRAP and BRK at lane scope in a kernel with a trap handler enter it: TCAUSE holds the class and TVAL the code,
TPOS the position, and the thread stands at the handler; at warp scope each member takes the fault. -/
def Claim.TrapsEnterHandler : Prop :=
  ∀ (i : Instr) (cls : Nat) (c : BitVec 6) (g : Guard), (i = .trap g c ∧ cls = 14) ∨ (i = .brk g c ∧ cls = 15) →
    (∀ (s : State) (t : TRef) (h : DWord), s.Runs t i → g.scope = .lane →
      (s.grid (s.warp t.warp).grid).kernel.traph = some h → (s.thread t).inHandler = false →
      exec i s = .next ((s.setThread t fun th =>
        { th with
          tcause := BitVec.ofNat 64 cls, tpos := th.pos, tval := c.setWidth 64, arrival := none, wait := none,
          unready := false, inHandler := true, pos := h, distMet := true, entering := true,
          lastIssue := max (th.lastIssue + 1) (max s.clock ((s.warp t.warp).lastLand t.lane)) }).finish i.form.opc [])) ∧
    ∀ (s : State) (ts : List TRef), s.RunsOnce ts i → g.scope = .warp →
      exec i s = .next ((ts.foldl (fun s t => s.raise t ⟨cls, 0, 0, 0, 0, false, c.setWidth 64⟩) s).finish i.form.opc [])

/-- R336: TRAPRET in a handler resumes at TPOS, and with .skip at the position after it; outside a handler it is an illegal
instruction. -/
def Claim.TrapReturns : Prop :=
  ∀ (g : Guard) (k : BitVec 1) (s : State) (t : TRef), s.Runs t (.trapret g k) →
    let th := s.thread t
    let w := s.warp t.warp
    (th.inHandler = true → k = 0 →
      exec (.trapret g k) s = .next ((s.trapReturn t th.tpos).finish (Instr.trapret g k).form.opc [t])) ∧
    (th.inHandler = true → k = 1 → ∀ p, s.posAfter w.core w.asid th.tpos = .ok p →
      exec (.trapret g k) s = .next ((s.trapReturn t p).finish (Instr.trapret g k).form.opc [t])) ∧
    (th.inHandler = false →
      exec (.trapret g k) s = .next ((s.raise t ⟨1, 0, 0, 0, 0, false, s.cur.word0.setWidth 64⟩).finish
        (Instr.trapret g k).form.opc [])) ∧
    (∀ p, let s' := s.trapReturn t p
      (s'.thread t).pos = p ∧ (s'.thread t).inHandler = false ∧ (s'.thread t).tcause = th.tcause ∧
      (s'.thread t).tpos = th.tpos ∧ (s'.thread t).sp = th.sp ∧ (s'.thread t).tscr = th.tscr)

/-- R336: TRAP and BRK enter the handler, and TRAPRET leaves it. -/
def Obligations.TrapsAndReturns : Prop :=
  Claim.TrapsEnterHandler ∧ Claim.TrapReturns

/-- R394 to R396: a fault of a class with a handler, in a thread that is in none, saves the cause, the position and the value
and enters the handler; every other thread, the registers, the predicates and the memories are as before. -/
def Claim.FaultEntry : Prop :=
  ∀ (s : State) (t : TRef) (r : Report) (h : DWord), s.Holds t →
    (s.grid (s.warp t.warp).grid).kernel.traph = some h → r.cls ∉ [5, 6, 11, 12] → (s.thread t).inHandler = false →
    let s' := s.raise t r
    ((s'.thread t).tcause = BitVec.ofNat 64 (r.cls % 256 + 2 ^ 8 * (r.cause % 256) + 2 ^ 16 * (r.aux0 % 256)
        + 2 ^ 24 * (r.aux1 % 256) + 2 ^ 32 * (r.step % 8192) + if r.deferred then 2 ^ 45 else 0) ∧
      (s'.thread t).tpos = (s.thread t).pos ∧ (s'.thread t).tval = r.tval ∧ (s'.thread t).pos = h ∧
      (s'.thread t).inHandler = true ∧ (s'.thread t).sp = (s.thread t).sp ∧ (s'.thread t).fflags = (s.thread t).fflags ∧
      (s'.thread t).tscr = (s.thread t).tscr ∧ (s'.thread t).exited = (s.thread t).exited) ∧
    (∀ u, u ≠ t → s'.thread u = s.thread u) ∧
    (∀ k, s'.warp k = { s.warp k with threads := (s'.warp k).threads }) ∧
    s' = { s with warps := s'.warps }

/-- R394, R396: a fault without a handler for it, or in a handler, stops its warp at once and is reported to FE. -/
def Claim.FatalFaults : Prop :=
  ∀ (s : State) (t : TRef) (r : Report), s.Holds t →
    ((s.grid (s.warp t.warp).grid).kernel.traph = none ∨ r.cls ∈ [5, 6, 11, 12] ∨ (s.thread t).inHandler = true) →
    let s' := s.raise t r
    s'.net = s.net ++ [.fatalFault (s.warp t.warp).grid r (s.thread t).pos] ∧
    (∀ l, l < (s.warp t.warp).threads.length → (s'.thread ⟨t.warp, l⟩).dead = true) ∧
    (s'.thread t).pos = (s.thread t).pos ∧ (s'.thread t).tval = r.tval ∧ (s'.thread t).tpos = (s.thread t).pos ∧
    (∀ k, s'.warp k = { s.warp k with threads := (s'.warp k).threads }) ∧
    s' = { s with warps := s'.warps, net := s'.net }

/-- R393 to R396: a fault that has a handler enters it, and a fatal one stops its warp. -/
def Obligations.FaultsTaken : Prop :=
  Claim.FaultEntry ∧ Claim.FatalFaults

/-- R27, R47, R48: a clause header without its mark, with CNT 3 or with a DIST or WAIT field beyond CNT, and words that are no
instruction, are an illegal-instruction fault with the header or the first word in TVAL: the thread that reaches the clause, or
the group whose issue it is, takes that fault, for a header at the clause's slot 0, and no instruction of the clause acts. An
instruction in a form that is not legal in the thread's warp is that fault too, whatever its predicate. -/
def Obligations.IllegalInstructions : Prop :=
  (∀ (s : State) (core asid : Nat) (pos : DWord) (h : Header), s.header core asid (pos &&& ~~~7#64) = .ok h →
    (h.mark ≠ 0xE5A ∨ h.cnt = 3 ∨ ∃ i, i < 3 ∧ h.cnt < i ∧ (h.dist i ≠ 0 ∨ h.waits i ≠ 0)) →
    s.fetchAt core asid pos = .error ⟨1, 0, 0, 0, 0, false, h.raw⟩) ∧
  (∀ (s : State) (core asid : Nat) (pos a : DWord) (h : Header) (w0 : Word) (ws : List Word) (e : Reject),
    s.header core asid (pos &&& ~~~7#64) = .ok h → h.ok = true →
    s.slotAddr core asid (pos &&& ~~~7#64) (pos.toNat % 4) = .ok a → s.codeWord core asid a = .ok w0 →
    s.codeWords core asid a (wordsOfLen (w0.setWidth 2)) = .ok ws → decodeWords ws = .error e →
    s.fetchAt core asid pos = .error ⟨1, 0, 0, 0, 0, false, w0.setWidth 64⟩) ∧
  (∀ (s : State) (w : Nat) (r : Report) (h : Header), let t : TRef := ⟨w, 0⟩
    let th := s.thread t
    (s.warp w).threads.length = 1 → th.exited = false → th.dead = false → th.wait = none → th.arrival = none →
    th.entering = false → s.mayIssue t = true → s.stopped t = false →
    s.codeHere (s.warp w).core (s.warp w).asid th.pos = true → s.fetchOf t = .error r →
    s.header (s.warp w).core (s.warp w).asid (th.pos &&& ~~~7#64) = .ok h →
    (h.ok = false → s.reach [w] = (s.setThread t fun th => { th with pos := th.pos &&& ~~~7#64 }).raise t r) ∧
    (h.ok = true → s.reach [w] = s.raiseAll [t] r (s.setScoped t))) ∧
  (∀ (s : State) (i : Issue) (t : TRef) (r : Report) (h : Header), s.issue = some i → i.group = [t] → (s.thread t).pos = i.pos →
    s.fetchAt (s.warp t.warp).core (s.warp t.warp).asid i.pos = .error r →
    s.header (s.warp t.warp).core (s.warp t.warp).asid (i.pos &&& ~~~7#64) = .ok h →
    (h.ok = false → step s = .next
      (State.raise (State.setThread { s with issue := none } t fun th => { th with pos := th.pos &&& ~~~7#64 }) t r)) ∧
    (h.ok = true → step s = .next (State.raiseAll { s with issue := none } [t] r (s.setScoped t)))) ∧
  (∀ (i : Instr) (f : Form) (s : State) (t : TRef), i.form? = some f → f.g.scope = .lane → s.cur.group = [t] → s.Holds t →
    (s.thread t).exited = false → s.legal t i.form = false → s.mustStamp i.form = false → s.cur.released = false →
    exec i s = .next ((s.raise t ⟨1, 0, 0, 0, 0, false, s.cur.word0.setWidth 64⟩).finish i.form.opc []))

/-- R343 to R345: IDEMB and IDEME set and clear the idempotent bit and IDEMB keeps its position; PROG adds to the block's
progress count or sets it, at most 65,536; WAITF passes once every flag that it names is set, after which the engines' writes
under those flags are no longer awaited (R177, R285), and is not ready before. -/
def Claim.MarkersComplete : Prop :=
  (∀ (g : Guard) (s : State) (ts : List TRef),
    (s.RunsOnce ts (.idemb g) → exec (.idemb g) s = .next ((s.setWarp (s.lead (.idemb g)).warp fun w =>
      { w with idem := true, idemPos := s.cur.pos }).retire ts (.idemb g) s.cur.next)) ∧
    (s.RunsOnce ts (.ideme g) → exec (.ideme g) s = .next ((s.setWarp (s.lead (.ideme g)).warp fun w =>
      { w with idem := false }).retire ts (.ideme g) s.cur.next))) ∧
  (∀ (i : Instr), (∃ g v, i = .prog g v) ∨ (∃ g x, i = .progX g x) → ∀ (s : State) (ts : List TRef), s.RunsOnce ts i →
    exec i s = .next ((s.setBlock (s.warp (s.lead i).warp).block fun b =>
      let v := ((s.leadOps i).a.setWidth 32).toNat
      { b with prog := min 65536 (if i.form.x.sub = 0 then b.prog + v else v) }).retire ts i s.cur.next)) ∧
  (∀ (i : Instr), (∃ g a d, i = .waitf g a d) ∨ (∃ g x, i = .waitfX g x) → ∀ (s : State) (t : TRef), s.Runs t i →
    i.form.g.scope = .lane →
    let mask := (s.operands t i.form).a.toNat % 4096
    ((∀ k, k < 12 → mask.testBit k = true → (s.warp t.warp).cf.getLsbD k = true) → s.deferredAt t mask = none →
      exec i s = .next ((s.waited [t.warp] mask).retire [t] i s.cur.next)) ∧
    ((∃ k, k < 12 ∧ mask.testBit k = true ∧ (s.warp t.warp).cf.getLsbD k = false) →
      exec i s = .next (s.putOffLane s t i.form.opc))) ∧
  (∀ (i : Instr), (∃ g a d, i = .waitf g a d) ∨ (∃ g x, i = .waitfX g x) → ∀ (s : State) (ts : List TRef), s.RunsOnce ts i →
    i.form.g.scope ≠ .lane →
    let mask := (s.leadOps i).a.toNat % 4096
    (∀ k, k < 12 → mask.testBit k = true → (s.warp (s.lead i).warp).cf.getLsbD k = true) →
    (∀ t ∈ ts, s.deferredAt t mask = none) →
    exec i s = .next ((s.waited s.groupWarps mask).retire ts i s.cur.next))

/-- R35, R343 to R345: false predicates, and the marker instructions. -/
def Obligations.MarkersAndPredicates : Prop :=
  Claim.PredicateFalse ∧ Claim.MarkersComplete

/-! ## Loads, stores and translation (R34, R77, R78, R203, R209 to R218) -/

/-- R77, R78, R209: an access that is no multiple of its width is misaligned, with the address in TVAL, before anything is
translated; one that no page maps, or whose page does not permit it, is a lease fault of cause 1 or 2; any other is translated,
and nothing but the core's TLB changes, which then holds the translation. -/
def Claim.AccessChecks : Prop :=
  ∀ (s : State) (t : TRef) (va : DWord) (n : Nat) (r w : Bool),
    let core := (s.warp t.warp).core
    let asid := (s.warp t.warp).asid
    (va.toNat % n ≠ 0 → s.accessCheck t va n r w = .error ⟨4, 0, 0, 0, 0, false, va⟩) ∧
    (va.toNat % n = 0 → s.look core asid va = none → s.accessCheck t va n r w = .error ⟨5, 1, 0, 0, 0, false, va⟩) ∧
    (∀ e, va.toNat % n = 0 → s.look core asid va = some e →
      (((r = true ∧ e.r = false) ∨ (w = true ∧ e.w = false)) →
        s.accessCheck t va n r w = .error ⟨5, 2, 0, 0, 0, false, va⟩) ∧
      ((r = true → e.r = true) → (w = true → e.w = true) →
        ∃ s1, s.accessCheck t va n r w = .ok s1 ∧ s1 = { s with cores := s1.cores } ∧
          (∀ c, s1.core c = { s.core c with tlb := (s1.core c).tlb }) ∧ s1.look core asid va = some e))

/-- R34, R210, R213: a load that passes its checks completes at once in its thread: its destination goes empty, and the load is on
its way; at warp scope with a uniform destination the warp waits for it. LDC reads at the constant section's base. -/
def Claim.LoadsComplete : Prop :=
  (∀ (i : Instr), (∃ g o a d, i = .ld g o a d) ∨ (∃ g x, i = .ldX g x) →
    let f := i.form
    let n := accessBytes f.x
    let va (o : Operands) : DWord := o.a + (o.b.setWidth 32).signExtend 64
    let ca := !f.x.sub.getLsbD 2
    let d := f.x.dst.num.toNat
    let regs := (opRule f.opc f.g f.x).d.regs
    (∀ (s s1 : State) (t : TRef), f.g.scope = .lane → s.Runs t i →
      s.accessCheck t (va (s.operands t f)) n true false = .ok s1 → s1.loadWaits t (va (s.operands t f)) n = false →
      exec i s = .next (((s1.setWarp t.warp fun w => w.markEmpty t.lane d regs true).fresh.startLoad t s1.nextId
        (va (s.operands t f)) n f.x.ty ca (.vec d regs)).retire [t] i s.cur.next)) ∧
    ∀ (s s1 : State) (ts : List TRef), f.g.scope ≠ .lane → s.RunsOnce ts i →
      s.accessCheck (s.lead i) (va (s.leadOps i)) n true false = .ok s1 →
      s1.loadWaits (s.lead i) (va (s.leadOps i)) n = false →
      exec i s = .next (((s1.fresh.park (.uniform s1.nextId) (s.lead i).warp ts).startLoad (s.lead i) s1.nextId
        (va (s.leadOps i)) n f.x.ty ca (.uni (d % 32))).finish f.opc ts)) ∧
  (∀ (i : Instr), (∃ g o a d, i = .ldc g o a d) ∨ (∃ g x, i = .ldcX g x) →
    let f := i.form
    let n := accessBytes f.x
    let ofs (o : Operands) : Nat := (o.a.toNat + o.b.toNat) % 2 ^ 32
    let d := f.x.dst.num.toNat
    let regs := (opRule f.opc f.g f.x).d.regs
    (∀ (s s1 : State) (va : DWord) (t : TRef), f.g.scope = .lane → s.Runs t i →
      s.constCheck t (ofs (s.operands t f)) n = .ok (s1, va) → s1.loadWaits t va n = false →
      va = (s.grid (s.warp t.warp).grid).kernel.constBase + BitVec.ofNat 64 (ofs (s.operands t f)) ∧
      exec i s = .next (((s1.setWarp t.warp fun w => w.markEmpty t.lane d regs true).fresh.startLoad t s1.nextId va n f.x.ty true
        (.vec d regs)).retire [t] i s.cur.next)) ∧
    ∀ (s s1 : State) (va : DWord) (ts : List TRef), f.g.scope ≠ .lane → s.RunsOnce ts i →
      s.constCheck (s.lead i) (ofs (s.leadOps i)) n = .ok (s1, va) → s1.loadWaits (s.lead i) va n = false →
      exec i s = .next (((s1.fresh.park (.uniform s1.nextId) (s.lead i).warp ts).startLoad (s.lead i) s1.nextId va n f.x.ty true
        (.uni (d % 32))).finish f.opc ts))

/-- R210, R302: a translated load takes the way of a read of the line that its core has under way; else it takes its bytes from
the core's L1 where it holds the line, else from the die's rime copy, else it goes to the line's home or to FE; what it finds,
where no engine is still writing it (R177), is widened by its type into the destination. -/
def Claim.LoadPaths : Prop :=
  ∀ (s : State) (t : TRef) (id : Nat) (va : DWord) (n : Nat) (ty : Ty) (ca : Bool) (dst : WbDst) (e : TlbEntry),
    let wp := s.warp t.warp
    let gen := s.genAt wp.core wp.asid
    s.look wp.core wp.asid va = some e →
    let pa := e.pa + va.toNat % 2 ^ e.log2
    let host := e.tgt == 1
    let s0 := s.setWarp t.warp fun w => { w with inFlight := w.inFlight + 1 }
    let hit := if ca then s.l1Hit wp.core wp.asid gen host (pa / 128) else none
    let copy := if host then none else s.copyAt (dieOfCore wp.core) (pa / 128)
    let back (d : LineData) : Msg :=
      .vclassWriteBack ⟨id, t.warp, t.lane, dst, .value (loadWiden ty n (lineGet d (pa % 128) n)), s.cur.pos, 0⟩
    let goes := s0.send (.sliceRead ⟨id, t.warp, t.lane, wp.core, wp.asid, gen, va, pa, host, n, ty, ca, dst, s.cur.pos, s.cur.num,
      s.racedRead t.warp va n⟩)
    (s.reading wp.core host (pa / 128) = true → s.startLoad t id va n ty ca dst = goes) ∧
    (s.reading wp.core host (pa / 128) = false →
      (s.racedRead t.warp va n = false →
        (∀ d, hit = some d → s.startLoad t id va n ty ca dst = s0.send (back d)) ∧
        (∀ c, hit = none → copy = some c → ∃ s', s.startLoad t id va n ty ca dst = s' ∧ s'.net = s.net ++ [back c.data])) ∧
      (hit = none → copy = none → s.startLoad t id va n ty ca dst = goes))

/-- R33, R34, R209: a write-back puts its value into the destination registers of its lane and marks them full; every other
register of every warp is as before, and fixed-latency writes on their way land at their own clocks. -/
def Claim.WriteBackLands : Prop :=
  ∀ (wb : WriteBack) (s : State) (v : BitVec 128) (w : Warp) (r c : Nat),
    wb.src = .value v → wb.dst = .vec r c → Tab.find s.warps wb.warp = some w → wb.lane < 32 → c ≤ 4 →
    SMap.wf 0 w.regs = true → SMap.wf false w.empty = true →
    ∃ s', exec (.vclassWriteBack wb) s = .next s' ∧
      (∀ i, i < c → (s'.warp wb.warp).vreg wb.lane (r + i) = v.extractLsb' (32 * i) 32 ∧
        (s'.warp wb.warp).isEmpty wb.lane (r + i) = false) ∧ (s'.warp wb.warp).pend = w.pend ∧
      (∀ l q, l < 32 → ¬(l = wb.lane ∧ r ≤ q ∧ q < r + c) →
        (s'.warp wb.warp).vreg l q = w.vreg l q ∧ (s'.warp wb.warp).isEmpty l q = w.isEmpty l q) ∧
      (s'.warp wb.warp).uregs = w.uregs ∧ (s'.warp wb.warp).preds = w.preds ∧ (∀ k, k ≠ wb.warp → s'.warp k = s.warp k) ∧
      s' = { s with warps := s'.warps }

/-- R34, R209, R210, R213: loads complete, find their bytes and write them back. -/
def Obligations.LoadsReturn : Prop :=
  Claim.LoadsComplete ∧ Claim.LoadPaths ∧ Claim.WriteBackLands

/-- R209, R210, R312: a store that passes its checks completes at once in its thread; the write, with the bytes of its data
registers, is on its way to the line's home or to FE, its warp remembers it, and the issuing die's copy of the line is gone. -/
def Obligations.StoresComplete : Prop :=
  ∀ (i : Instr), (∃ g o a d, i = .st g o a d) ∨ (∃ g x, i = .stX g x) →
    let f := i.form
    let n := accessBytes f.x
    ∀ (s s1 : State) (t : TRef) (e : TlbEntry), s.Runs t i →
      let o := s.operands t f
      let va := o.a + (o.b.setWidth 32).signExtend 64
      let wp := s.warp t.warp
      let data := s.dataOf t f.x.c (accessRegs f.x)
      s.accessCheck t va n false true = .ok s1 → s1.look wp.core wp.asid va = some e →
      let pa := e.at va
      exec i s = .next ((s1.startStore t va n data).retire [t] i s.cur.next) ∧
      (s1.startStore t va n data).net = s.net ++ [.sliceWrite ⟨.store t.warp t.lane s.nextId, wp.core, wp.asid,
        s.genAt wp.core wp.asid, va, pa, e.tgt == 1, n, BitVec.ofNat 128 data, s.cur.num⟩] ∧
      ((s1.startStore t va n data).warp t.warp).stores =
        wp.stores ++ [⟨s.nextId, t.lane, e.tgt == 1, pa, n, .blk, s.genAt wp.core wp.asid, false, false⟩] ∧
      (e.tgt ≠ 1 → ∀ c ∈ (s1.startStore t va n data).copies, ¬(c.die = dieOfCore wp.core ∧ c.line = pa / 128))

/-- R209, R213: LD, ST, LDS, STS and LDC at lane scope take the misaligned fault where their address is no multiple of the access
width, and LDC the lease fault of cause 1 where it reaches past the constant section; neither changes anything else. -/
def Claim.AccessFaults : Prop :=
  (∀ (i : Instr) (s : State) (t : TRef), s.Runs t i → i.form.g.scope = .lane →
    let f := i.form
    let n := accessBytes f.x
    let o := s.operands t f
    let ea := o.a + (o.b.setWidth 32).signExtend 64
    let sa := (o.a.toNat + o.b.toNat) % 2 ^ 32
    let stops (va : DWord) := exec i s = .next ((s.raise t ⟨4, 0, 0, 0, 0, false, va⟩).finish f.opc [])
    ((∃ g p a d, i = .ld g p a d) ∨ (∃ g x, i = .ldX g x) ∨ (∃ g p a d, i = .st g p a d) ∨ (∃ g x, i = .stX g x) →
      ea.toNat % n ≠ 0 → stops ea) ∧
    ((∃ g p a d, i = .lds g p a d) ∨ (∃ g x, i = .ldsX g x) ∨ (∃ g p a d, i = .sts g p a d) ∨ (∃ g x, i = .stsX g x) ∨
        (∃ g p a d, i = .ldc g p a d) ∨ (∃ g x, i = .ldcX g x) →
      sa % n ≠ 0 → stops (BitVec.ofNat 64 sa))) ∧
  ∀ (i : Instr) (s : State) (t : TRef), (∃ g p a d, i = .ldc g p a d) ∨ (∃ g x, i = .ldcX g x) → s.Runs t i →
    i.form.g.scope = .lane →
    let n := accessBytes i.form.x
    let o := s.operands t i.form
    let ofs := (o.a.toNat + o.b.toNat) % 2 ^ 32
    let k := (s.grid (s.warp t.warp).grid).kernel
    ofs % n = 0 → k.constSize < ofs + n →
    exec i s = .next ((s.raise t ⟨5, 1, 0, 0, 0, false, k.constBase + BitVec.ofNat 64 ofs⟩).finish i.form.opc [])

/-- R77, R78, R209, R213: what an access is checked for, and the faults of loads and stores. -/
def Obligations.AccessesChecked : Prop :=
  Claim.AccessChecks ∧ Claim.AccessFaults

/-- R196, R198, R212: LDS and STS at an address inside the block's scratchpad that no other warp's buffer holds complete: LDS with
its bytes on their way to the empty destination, or a free value where an engine is still writing them (R177, R285), STS with its
bytes in place and remembered for the engines, their lines touched, and every other byte as before. -/
def Obligations.ScratchpadAccess : Prop :=
  (∀ (i : Instr), (∃ g o a d, i = .lds g o a d) ∨ (∃ g x, i = .ldsX g x) →
    ∀ (s : State) (t : TRef) (p : SaPlace), s.Runs t i →
      let f := i.form
      let n := accessBytes f.x
      let o := s.operands t f
      let sa := (o.a.toNat + o.b.toNat) % 2 ^ 32
      let d := f.x.dst.num.toNat
      let regs := (opRule f.opc f.g f.x).d.regs
      sa % n = 0 → s.saPlace t.warp sa n = .ok p → s.saOwned (s.warp t.warp).block [t.warp] p n = true →
      let vs := s.ldsValue t.warp p n
      exec i s = .next (((vs.2.fresh.setWarp t.warp fun w =>
          { w.markEmpty t.lane d regs true with inFlight := w.inFlight + 1 }).send
        (.vclassWriteBack ⟨s.nextId, t.warp, t.lane, .vec d regs, .value (loadWiden f.x.ty n vs.1), s.cur.pos,
          s.cur.num⟩)).retire [t] i s.cur.next) ∧
      (s.racedLds t.warp p n = false → vs = ((s.block (s.warp t.warp).block).get p.place p.ofs n, s)) ∧
      (s.racedLds t.warp p n = true → vs = ((Config.freeValue s.freeCtr).toNat, { s with freeCtr := s.freeCtr + 1 }))) ∧
  (∀ (i : Instr), (∃ g o a d, i = .sts g o a d) ∨ (∃ g x, i = .stsX g x) →
    ∀ (s : State) (t : TRef) (p : SaPlace), s.Runs t i →
      let f := i.form
      let n := accessBytes f.x
      let o := s.operands t f
      let sa := (o.a.toNat + o.b.toNat) % 2 ^ 32
      sa % n = 0 → s.saPlace t.warp sa n = .ok p → s.saOwned (s.warp t.warp).block [t.warp] p n = true →
      exec i s = .next ((s.setBlock (s.warp t.warp).block fun b =>
        (b.put p.place p.ofs (leBytes n (s.dataOf t f.x.c (accessRegs f.x)))).note
          ⟨p.place, p.ofs, n, s.nextId, [t.warp], (s.warp t.warp).core, none, false, [], []⟩).retire [t] i s.cur.next)) ∧
  (∀ (b : Block) (place ofs : Nat) (bs : List Byte), SMap.wf 0 b.bytes = true → SMap.wf false b.touched = true → place < 8 →
    ofs + bs.length ≤ 2 ^ 21 →
    (∀ p a, p < 8 → a < 2 ^ 21 → (b.put place ofs bs).byte p a =
      if p = place ∧ ofs ≤ a ∧ a < ofs + bs.length then bs.getD (a - ofs) 0 else b.byte p a) ∧
    (∀ k, SMap.get false (b.put place ofs bs).touched k = true ↔ SMap.get false b.touched k = true ∨
      ∃ j, j < bs.length ∧ k = place * 2 ^ 14 + (ofs + j) / 128))

/-- R203, R214, R215, R375: LDW and STW to a register that the target's warp holds complete: LDW with its read on its way and its own
destination empty, STW with its word on its way, or held at the target where it has to find it empty; .take and STW mark the
register in the target's window map. In a deterministic grid, once released, both act at once, and a request that would wait on
another warp stands again. A window address that the block or the die does not have, or a register beyond the
target's, is the window-permission fault. -/
def Claim.WindowAccess : Prop :=
  (∀ (i : Instr), (∃ g k a d, i = .ldw g k a d) ∨ (∃ g x, i = .ldwX g x) → ∀ (s : State) (t : TRef) (r : Rwa), s.Runs t i →
    let f := i.form
    let take := f.x.sub.getLsbD 4
    let det := (s.grid (s.warp t.warp).grid).det
    let s1 := (if take then s.mapWindow r else s).fresh.setWarp t.warp fun w =>
      { w.markEmpty t.lane f.x.dst.num.toNat 1 true with inFlight := w.inFlight + 1 }
    let wb : WriteBack := ⟨s.nextId, t.warp, t.lane, .vec f.x.dst.num.toNat 1, .window r.warp r.reg r.lane take, s.cur.pos, s.cur.num⟩
    let s2 := s1.putBack wb (((s.warp r.warp).vreg r.lane r.reg).setWidth 128)
    s.rwa t.warp (s.operands t f).a.toNat = .ok r →
    (det = false → exec i s = .next ((s1.send (.vclassWriteBack wb)).retire [t] i s.cur.next)) ∧
    (det = true → (s.warp r.warp).isEmpty r.lane r.reg = false →
      exec i s = .next ((if take then s2.setWarp r.warp fun w => w.markEmpty r.lane r.reg 1 true else s2).retire [t] i s.cur.next)) ∧
    (det = true → (s.warp r.warp).isEmpty r.lane r.reg = true → exec i s = .next (s.putOffLane s t f.opc))) ∧
  (∀ (i : Instr), (∃ g b a, i = .stw g b a) ∨ (∃ g x, i = .stwX g x) → ∀ (s : State) (t : TRef) (r : Rwa), s.Runs t i →
    let f := i.form
    let o := s.operands t f
    let det := (s.grid (s.warp t.warp).grid).det
    s.rwa t.warp o.a.toNat = .ok r →
    let m : WinWrite := ⟨s.nextId, t.warp, t.lane, r.warp, r.reg, r.lane, o.b.setWidth 32, s.cur.pos, s.cur.num⟩
    (det = false → exec i s = .next ((if f.x.sub.getLsbD 4
      then { s.fresh.mapWindow r with heldWrites := s.heldWrites ++ [m] }.send (.stwWaitLand m)
      else (s.fresh.mapWindow r).send (.windowWriteArrival m)).retire [t] i s.cur.next)) ∧
    (det = true → f.x.sub.getLsbD 4 = false ∨ (s.warp r.warp).isEmpty r.lane r.reg = true →
      exec i s = .next (((s.fresh.mapWindow r).windowLand m).retire [t] i s.cur.next)) ∧
    (det = true → f.x.sub.getLsbD 4 = true → (s.warp r.warp).isEmpty r.lane r.reg = false →
      exec i s = .next (s.putOffLane s t f.opc))) ∧
  (∀ (s : State) (w v : Nat), let b := (s.warp w).block
    let target := s.warpOfIndex b (v / 2 ^ 20 % 2 ^ 9)
    (v / 2 ^ 29 ≠ 0 ∨ v / 2 ^ 5 % 2 ^ 6 ≠ 0 ∨ target = none → s.rwa w v = .error ⟨9, 1, 0, 0, 0, false, BitVec.ofNat 64 v⟩) ∧
    (∀ k, v / 2 ^ 29 = 0 → v / 2 ^ 5 % 2 ^ 6 = 0 → target = some k → (s.warp k).freed = false →
      dieOfCore (s.warp k).core = (s.block b).die → dieOfCore (s.warp w).core = (s.block b).die →
      s.rwa w v = if (s.warp k).alloc ≤ v / 2 ^ 11 % 2 ^ 9 then .error ⟨9, 2, 0, 0, 0, false, BitVec.ofNat 64 v⟩
        else .ok ⟨k, v / 2 ^ 11 % 2 ^ 9, v % 32⟩))

/-- R203, R215, R375: a window write that reaches its target lands there and fills the register; one that has to find the target
empty stays held until it is; a window read takes the target's word once it is full, and with .take leaves it empty. -/
def Claim.WindowEvents : Prop :=
  (∀ (s : State) (m : WinWrite) (w : Warp), Tab.find s.warps m.warp = some w → w.freed = false → m.reg < w.alloc → m.lane < 32 →
    SMap.wf 0 w.regs = true → SMap.wf false w.empty = true →
    let landed (s' : State) : Prop := (s'.warp m.warp).vreg m.lane m.reg = m.data ∧ (s'.warp m.warp).isEmpty m.lane m.reg = false ∧
      (∀ l q, l < 32 → ¬(l = m.lane ∧ q = m.reg) → (s'.warp m.warp).vreg l q = w.vreg l q ∧
        (s'.warp m.warp).isEmpty l q = w.isEmpty l q) ∧ ∀ k, k ≠ m.warp → s'.warp k = s.warp k
    (s.writeBefore m = false → ∃ s', exec (.windowWriteArrival m) s = .next s' ∧ landed s' ∧ s' = { s with warps := s'.warps }) ∧
    (s.heldWrites.contains m = true → s.writeBefore m = false → w.isEmpty m.lane m.reg = true →
      ∃ s', exec (.stwWaitLand m) s = .next s' ∧ landed s' ∧
        s' = { s with warps := s'.warps, heldWrites := s.heldWrites.erase m }) ∧
    (s.heldWrites.contains m = true → w.isEmpty m.lane m.reg = false →
      exec (.stwWaitLand m) s = .next { s with net := .stwWaitLand m :: s.net })) ∧
  (∀ (s : State) (wb : WriteBack) (k reg lane : Nat) (take : Bool), wb.src = .window k reg lane take →
    (s.warp k).freed = false → reg < (s.warp k).alloc →
    ((s.warp k).isEmpty lane reg = true → exec (.vclassWriteBack wb) s = .next { s with net := .vclassWriteBack wb :: s.net }) ∧
    ((s.warp k).isEmpty lane reg = false →
      let s1 := s.putBack wb (((s.warp k).vreg lane reg).setWidth 128)
      exec (.vclassWriteBack wb) s = .next (if take then s1.setWarp k fun w => w.markEmpty lane reg 1 true else s1)))

/-- R203, R214, R215: window reads and writes complete, and land at their target. -/
def Obligations.WindowsOpen : Prop :=
  Claim.WindowAccess ∧ Claim.WindowEvents

/-- R217, R218: PREF of a page that is readable completes with the line in the core's L1, or with .copy, where its home grants
one, with a copy at the die, and of any other page completes with no effect; CINV drops the line, or with .all every line,
from the core's L1, and no read on its way brings it back. -/
def Obligations.CacheHints : Prop :=
  (∀ (i : Instr), (∃ g c a, i = .pref g c a) ∨ (∃ g x, i = .prefX g x) → ∀ (s : State) (t : TRef), s.Runs t i →
    let f := i.form
    let o := s.operands t f
    let va := o.a + (o.b.setWidth 32).signExtend 64
    let wp := s.warp t.warp
    (∀ r, s.accessCheck t va 4 true false = .error r → exec i s = .next (s.retire [t] i s.cur.next)) ∧
    (∀ s1 e, s.accessCheck t va 4 true false = .ok s1 → s1.look wp.core wp.asid va = some e →
      let host := e.tgt == 1
      let line := e.at va / 128
      let die := dieOfCore wp.core
      let gen := s1.genAt wp.core wp.asid
      (f.x.sub = 0 → (s1.l1Hit wp.core wp.asid gen host line).isSome = true → exec i s = .next (s1.retire [t] i s.cur.next)) ∧
      (∀ s2, s1.prefetch wp.asid gen die host va (e.at va) = (s2, none) →
        (f.x.sub = 0 → s1.l1Hit wp.core wp.asid gen host line = none) → exec i s = .next (s2.retire [t] i s.cur.next)) ∧
      (∀ s2 d, s1.prefetch wp.asid gen die host va (e.at va) = (s2, some d) →
        (f.x.sub ≠ 0 → exec i s = .next (s2.retire [t] i s.cur.next)) ∧
        (f.x.sub = 0 → s1.l1Hit wp.core wp.asid gen host line = none →
          (s2.writing wp.core host line = true → exec i s = .next (s2.retire [t] i s.cur.next)) ∧
          (s2.writing wp.core host line = false →
            exec i s = .next ((s2.l1Fill wp.core wp.asid gen host line d).retire [t] i s.cur.next) ∧
            (s2.l1Fill wp.core wp.asid gen host line d).l1Hit wp.core wp.asid gen host line = some d))) ∧
      (∀ s2 s4, host = false → s1.copyAt die line = none → s1.frameCheck wp.asid gen (e.at va) false = .serve s2 →
        let s3 := ((s2.reachHome line die).askDegree (homeSlice line) wp.asid (regionOf va)).countRegion wp.asid va 1 0 0
        s3.mayGrant wp.asid (regionOf va) line die (s3.homeLine line) = true → s3.grantCopy line die = some s4 →
        (f.x.sub ≠ 0 → exec i s = .next (s4.retire [t] i s.cur.next)) ∧
        ∃ c ∈ s4.copies, c.die = die ∧ c.line = line ∧ c.data = (s4.homeLine line).data ∧
          c.expiry = s4.homeTime line + max 256 (min 16000 s4.mem.lease)))) ∧
  (∀ (i : Instr), (∃ g c a, i = .cinv g c a) ∨ (∃ g x, i = .cinvX g x) → ∀ (s : State) (t : TRef), s.Runs t i →
    let c := (s.warp t.warp).core
    let asid := (s.warp t.warp).asid
    let va := (s.operands t i.form).a
    (i.form.x.sub = 1 → exec i s = .next ((s.invalidate c fun _ _ _ => true).retire [t] i s.cur.next)) ∧
    (i.form.x.sub ≠ 1 → ∀ e, s.look c asid va = some e →
      exec i s = .next ((s.invalidate c fun a host line => a == asid && host == (e.tgt == 1) && line == e.at va / 128).retire
        [t] i s.cur.next)) ∧
    (i.form.x.sub ≠ 1 → s.look c asid va = none → exec i s = .next (s.retire [t] i s.cur.next))) ∧
  (∀ (s : State) (c : Nat) (gone : Nat → Bool → Nat → Bool), let s' := s.invalidate c gone
    (s'.core c).l1 = (s.core c).l1.filter (fun l => !gone l.asid l.host l.line) ∧
    ∀ r, Msg.sliceRead r ∈ s'.net → r.core = c → gone r.asid r.host (r.pa / 128) = true → r.ca = false)

/-! ## Barriers, sets, registers and state reading (R204, R205, R339 to R341, R346, R347) -/

/-- R338, R339: a plain BAR completes for the warps of its rendezvous once no window access of theirs is on its way. A thread that
arrives at a named BAR stands at its barrier; once the barrier opens, the threads of its participants issue their BARs
together and move on, each past its own; a count of more than 512 is an illegal instruction. -/
def Claim.BarriersComplete : Prop :=
  (∀ (i : Instr), (∃ g, i = .bar g) ∨ (∃ g x, x.sub = 0 ∧ i = .barX g x) → ∀ (s : State) (ts : List TRef), s.RunsOnce ts i →
    (∀ m ∈ s.net, (∀ x, m = .windowWriteArrival x → x.srcWarp ∉ s.groupWarps) ∧
      ∀ wb k r l take, m = .vclassWriteBack wb → wb.src = .window k r l take → wb.warp ∉ s.groupWarps) →
    exec i s = .next (s.retire ts i s.cur.next)) ∧
  (∀ (i : Instr), (∃ g k, i = .barNamed g k) ∨ (∃ g x, x.sub ≠ 0 ∧ i = .barX g x) → ∀ (s : State) (ts : List TRef),
    s.RunsOnce ts i → ∀ t0 rest, ts = t0 :: rest →
    let n := ((s.operands ⟨s.leader .block t0, t0.lane⟩ i.form).b.setWidth 32).toNat
    (n ≤ 512 → exec i s = .next ((ts.foldl (fun s' t => s'.moveTo t (s.ownNext t)) s).finish i.form.opc ts)) ∧
    (512 < n → exec i s = .next ((s.raiseAll ts ⟨1, 0, 0, 0, 0, false, s.cur.word0.setWidth 64⟩ false).finish i.form.opc []))) ∧
  (∀ (s : State) (t : TRef) (f : Form) (word0 : Word) (id : Nat), formNamed f = some id → f.g.scope = .block →
    s.legal t f = true → s.Holds t →
    ∃ s', s.arrive t f word0 = some s' ∧
      (s'.thread t).arrival = some ⟨s.nextId, s.guardHolds t f.g, .block, none, some id⟩ ∧
      Msg.namedBarrierComplete (s.warp t.warp).block id ∈ s'.net)

/-- R325, R339: once enough warps have arrived at a named barrier and their BARs may issue, their threads issue together, and the
warps are no longer at the barrier. -/
def Claim.NamedBarrierOpens : Prop :=
  ∀ (s : State) (b id : Nat) (ws : List Nat) (t : TRef) (ms : List TRef) (f : Fetched),
    let s1 := s.barArrive b id (s.block b).warps
    s.issue = none → s1.barReady b id = some ws → (s1.live ws).head? = some t → s1.atBarrier id t = true →
    t.warp ∈ (s1.block b).warps → s1.complete t = some ms → s1.partsFree ms = true → s1.fetchOf t = .ok f →
    ∃ s', exec (.namedBarrierComplete b id) s = .next s' ∧ s'.issue = some (f.issue (s1.thread t).pos ms false) ∧
      ∀ w ∈ ws, (id, w) ∉ (s'.block b).arrivals

/-- R340, R341: SETDECL by the last listed warp to arrive puts the list into the set register of every listed warp, and one that
others still have to join waits; SETFREE without a set does nothing, and by the last member dissolves the set. -/
def Claim.SetsComplete : Prop :=
  (∀ (g : Guard) (x : XForm) (s : State) (ts : List TRef), s.RunsOnce ts (.setdecl g x) →
    let ld := s.lead (.setdecl g x)
    let w := s.warp ld.warp
    let l := (s.leadOps (.setdecl g x)).a
    let ms := (setMembers l).filterMap fun m => s.warpOfIndex w.block m
    let mine := s.setWaiters w.block w.index (setMembers l)
    s.setListOk ld.warp l = true → w.setReg = 0 → (∀ e ∈ mine, e.2.2 = l) →
    (∀ v ∈ ms, ∃ th ∈ (s.warp v).threads, th.exited = false) →
    ((∀ v ∈ ms, v = ld.warp ∨ ∃ e ∈ mine, e.2.1.warp = v) →
      ∃ s', exec (.setdecl g x) s = .next s' ∧ (∀ v ∈ ms, (s'.warp v).setReg = l) ∧
        ∀ v, v ∉ ms → (s'.warp v).setReg = (s.warp v).setReg) ∧
    ((∃ v ∈ ms, v ≠ ld.warp ∧ ∀ e ∈ mine, e.2.1.warp ≠ v) →
      exec (.setdecl g x) s = .next ((s.park (.setdecl l) ld.warp ts).finish (Instr.setdecl g x).form.opc ts))) ∧
  (∀ (g : Guard) (x : XForm) (s : State) (ts : List TRef), s.RunsOnce ts (.setfree g x) →
    let ld := s.lead (.setfree g x)
    let ms := s.setOf ld.warp
    (setMembers (s.warp ld.warp).setReg = [] → exec (.setfree g x) s = .next (s.retire ts (.setfree g x) s.cur.next)) ∧
    (setMembers (s.warp ld.warp).setReg ≠ [] →
      (∃ m ∈ ms, m ≠ ld.warp ∧ (∃ th ∈ (s.warp m).threads, th.exited = false) ∧
        ∀ e ∈ s.waits, e.2.warp = m → e.2.kind ≠ .setfree) →
      exec (.setfree g x) s = .next ((s.park .setfree ld.warp ts).finish (Instr.setfree g x).form.opc ts)) ∧
    (setMembers (s.warp ld.warp).setReg ≠ [] → (∀ e ∈ s.waits, e.1 < s.nextId) →
      (∀ m ∈ ms, m = ld.warp ∨ (∀ th ∈ (s.warp m).threads, th.exited = true) ∨
        ∃ e ∈ s.waits, e.2.warp = m ∧ e.2.kind = .setfree) →
      ∃ s', exec (.setfree g x) s = .next s' ∧ ∀ m ∈ ms, (s'.warp m).setReg = 0))

/-- R339 to R341: barriers and the declaration of sets. -/
def Obligations.BarriersAndSets : Prop :=
  Claim.BarriersComplete ∧ Claim.NamedBarrierOpens ∧ Claim.SetsComplete

/-- R204, R205: REGGIVE leaves the warp its first n registers and gives the others' granules to the block's pool, once no result is
on its way to one of them; REGCLAIM takes granules from the pool, its new registers zero and full, keeps what it has where that is
enough, and waits where the pool has too few, in a deterministic grid by standing again (R375). In a cairn slot (12) the pool is the
slot's own reserve, and REGCLAIM does not wait. A register count that is no multiple of 8 from 8 to 320 is an illegal instruction, and
so is a REGGIVE of more than the warp has. -/
def Claim.RegistersMove : Prop :=
  (∀ (g : Guard) (x : XForm) (s : State) (ts : List TRef), let i := Instr.reggive g x
    s.RunsOnce ts i →
    let wk := (s.lead i).warp
    let w := s.warp wk
    let n := ((s.leadOps i).a.setWidth 32).toNat
    let bl := s.block w.block
    let key := 8 * bl.places.idxOf w.core + w.part
    (n % 8 = 0 ∧ 8 ≤ n ∧ n ≤ w.alloc ∧ n ≤ 320 → s.regBusy wk n = true → exec i s = .next (s.putOff i.form.opc ts)) ∧
    (n % 8 = 0 ∧ 8 ≤ n ∧ n ≤ w.alloc ∧ n ≤ 320 → s.regBusy wk n = false →
      Tab.find s.warps wk = some w → Tab.find s.blocks w.block = some bl → SMap.wf 0 bl.pools = true →
      ∃ s', exec i s = .next s' ∧ (s'.warp wk).alloc = n ∧
        (∀ l r, l < 32 → r < n → (s'.warp wk).vreg l r = w.vreg l r ∧ (s'.warp wk).isEmpty l r = w.isEmpty l r) ∧
        SMap.get 0 (s'.block w.block).pools key = SMap.get 0 bl.pools key + (if w.slot = 12 then 0 else (w.alloc - n) / 8) ∧
        (s'.warp wk).uregs = w.uregs ∧ (s'.warp wk).preds = w.preds) ∧
    (n % 8 ≠ 0 ∨ n < 8 ∨ 320 < n ∨ w.alloc < n →
      exec i s = .next ((s.raiseAll ts ⟨1, 0, 0, 0, 0, false, s.cur.word0.setWidth 64⟩ (i.form.g.scope == .set)).finish
        i.form.opc []))) ∧
  (∀ (g : Guard) (x : XForm) (s : State) (ts : List TRef), let i := Instr.regclaim g x
    s.RunsOnce ts i →
    let wk := (s.lead i).warp
    let w := s.warp wk
    let n := ((s.leadOps i).a.setWidth 32).toNat
    let bl := s.block w.block
    let key := 8 * bl.places.idxOf w.core + w.part
    (n % 8 ≠ 0 ∨ n < 8 ∨ 320 < n →
      exec i s = .next ((s.raiseAll ts ⟨1, 0, 0, 0, 0, false, s.cur.word0.setWidth 64⟩ (i.form.g.scope == .set)).finish
        i.form.opc [])) ∧
    (n % 8 = 0 → 8 ≤ n → n ≤ 320 →
    (n ≤ w.alloc → exec i s = .next (s.retire ts i s.cur.next)) ∧
    (w.alloc < n → w.slot = 12 ∨ (n - w.alloc) / 8 ≤ SMap.get 0 bl.pools key → Tab.find s.warps wk = some w →
      Tab.find s.blocks w.block = some bl → SMap.wf 0 bl.pools = true →
      ∃ s', exec i s = .next s' ∧ (s'.warp wk).alloc = n ∧
        (∀ l r, l < 32 → w.alloc ≤ r → r < n → (s'.warp wk).vreg l r = 0 ∧ (s'.warp wk).isEmpty l r = false) ∧
        (∀ l r, l < 32 → r < w.alloc → (s'.warp wk).vreg l r = w.vreg l r) ∧
        SMap.get 0 (s'.block w.block).pools key = SMap.get 0 bl.pools key - (if w.slot = 12 then 0 else (n - w.alloc) / 8)) ∧
    (w.alloc < n → w.slot ≠ 12 → SMap.get 0 bl.pools key < (n - w.alloc) / 8 →
      ((s.grid w.grid).det = false → exec i s = .next ((s.park (.regclaim n) wk ts).finish i.form.opc ts)) ∧
      ((s.grid w.grid).det = true → exec i s = .next (s.putOff i.form.opc ts)))))

/-- R346, R347: CSRR of a thread's own registers completes with the value on its way to the empty destination, or with a uniform
destination in place at once; CSRW writes TSCR or the flags of its thread, at warp scope of every member. -/
def Claim.StateRegisters : Prop :=
  (∀ (g : Guard) (a d : BitVec 6) (x : XForm) (i : Instr), i = .csrr g a d ∨ i = .csrrX g x →
    let f := i.form
    let cut (v : DWord) : DWord := if f.x.ty = .u64 then v else (v.setWidth 32).setWidth 64
    (∀ (s : State) (t : TRef) (r : BitVec 9), f.x.dst = .vec r → s.Runs t i →
      let regs := (opRule f.opc f.g f.x).d.regs
      exec i s = .next (((s.setWarp t.warp fun w =>
          { w.markEmpty t.lane r.toNat regs true with inFlight := w.inFlight + 1 }).fresh.send
        (.vclassWriteBack ⟨s.nextId, t.warp, t.lane, .vec r.toNat regs,
          .value ((cut (s.csr t (s.operands t f).a.toNat)).setWidth 128), s.cur.pos, s.cur.num⟩)).retire [t] i s.cur.next)) ∧
    ∀ (s : State) (ts : List TRef) (n : BitVec 9), f.x.dst = .uni n → s.RunsOnce ts i →
      exec i s = .next ((s.writeNow (s.lead i).warp
        [(.uni (n.toNat % 32), cut (s.csr (s.lead i) (s.leadOps i).a.toNat))]).retire ts i s.cur.next)) ∧
  (∀ (s : State) (t : TRef), let th := s.thread t
    let w := s.warp t.warp
    s.csr t 0 = th.fflags.setWidth 64 ∧ s.csr t 1 = th.tcause ∧ s.csr t 2 = th.tpos ∧ s.csr t 3 = th.tval ∧ s.csr t 4 = th.tscr ∧
    s.csr t 5 = w.icount ∧ s.csr t 8 = w.gwBlk ∧ s.csr t 9 = w.gwDev ∧ s.csr t 10 = w.gwSys ∧ s.csr t 11 = w.obs ∧
    ∀ d, d < 8 → s.csr t (256 + 8 * d) = (s.die d).cnt ∧ s.csr t (257 + 8 * d) = (s.die d).ofs ∧
      s.csr t (258 + 8 * d) = (s.die d).rate.setWidth 64 ∧ s.csr t (259 + 8 * d) = (s.die d).gen ∧
      s.csr t (260 + 8 * d) = (s.die d).skew.setWidth 64) ∧
  (∀ (g : Guard) (b : BitVec 5) (a : BitVec 6) (x : XForm) (i : Instr), i = .csrw g b a ∨ i = .csrwX g x →
    let f := i.form
    let put (v : DWord) (n : DWord) (th : Thread) : Thread :=
      if n = 0 then { th with fflags := v.setWidth 4 } else { th with tscr := v }
    (∀ (s : State) (t : TRef), f.g.scope = .lane → s.Runs t i →
      exec i s = .next ((s.setThread t (put (s.operands t f).b (s.operands t f).a)).retire [t] i s.cur.next)) ∧
    ∀ (s : State) (ts : List TRef), f.g.scope ≠ .lane → s.RunsOnce ts i →
      exec i s = .next ((ts.foldl (fun s' t => s'.setThread t (put (s.leadOps i).b (s.leadOps i).a)) s).retire ts i s.cur.next))

/-- R204, R205, R346, R347: registers given and claimed, and state registers read and written. -/
def Obligations.RegistersAndPools : Prop :=
  Claim.RegistersMove ∧ Claim.StateRegisters

/-! ## Fences, degree, line routines and monitors (R112, R120 to R155, R313 to R318) -/

/-- R313 to R316: a FENCE.acq completes at once where the loads it orders have completed, with the L1s of its warps' cores empty,
and waits for them otherwise; any other FENCE waits for its release part. The release part ends once every counted write has its
GWCT and the time has passed it by PKSKEW; then .rel completes, .sc asks its order point for a position, and .ar, or .sc with
its position, completes with the acquire part. -/
def Obligations.FencesComplete : Prop :=
  (∀ (g : Guard) (k : BitVec 4) (x : XForm) (i : Instr), i = .fence g k ∨ i = .fenceX g x →
    let f := i.form
    let k := f.x.sub.toNat
    let kind := k % 4
    let sc := fenceScope k
    (∀ (s : State) (t : TRef), f.g.scope = .lane → s.Runs t i →
      (kind = 1 → s.loadsDone t.warp (some t.lane) = true →
        exec i s = .next ((s.acquire [t.warp] sc).retire [t] i s.cur.next)) ∧
      (kind = 1 → s.loadsDone t.warp (some t.lane) = false →
        exec i s = .next (((s.park (.fence (k + 64) 2 none) t.warp [t]).send
          (.fenceReleaseCompletion s.nextId)).finish f.opc [t])) ∧
      (kind ≠ 1 → exec i s = .next (((s.park (.fence (k + 64) 0 (s.fenceDue s.nextId [t.warp] sc)) t.warp [t]).send
        (.fenceReleaseCompletion s.nextId)).finish f.opc [t]))) ∧
    ∀ (s : State) (ts : List TRef), f.g.scope ≠ .lane → s.RunsOnce ts i →
      (kind = 1 → (∀ t ∈ ts, s.loadsDone t.warp none = true) →
        exec i s = .next ((s.acquire s.groupWarps sc).retire ts i s.cur.next)) ∧
      (kind = 1 → (∃ t ∈ ts, s.loadsDone t.warp none = false) →
        exec i s = .next (((s.park (.fence k 2 none) (s.lead i).warp ts).send (.fenceReleaseCompletion s.nextId)).finish f.opc ts)) ∧
      (kind ≠ 1 → exec i s = .next (((s.park (.fence k 0 (s.fenceDue s.nextId s.groupWarps sc)) (s.lead i).warp ts).send
        (.fenceReleaseCompletion s.nextId)).finish f.opc ts))) ∧
  (∀ (s : State) (id k : Nat) (due : Option Nat) (r : WaitRec), Tab.find s.waits id = some r → r.kind = .fence k 0 due →
    let sc := fenceScope k
    let s1 := s.releaseRaces r.warps
    (s.released r = true ↔ ∃ t, due = some t ∧ t + s.pkskew ≤ (s.common (dieOfCore (s.warp r.warp).core)).toNat) ∧
    (s.released r = false → exec (.fenceReleaseCompletion id) s = .next (s.keep (.fenceReleaseCompletion id))) ∧
    (s.released r = true → k % 4 = 0 → exec (.fenceReleaseCompletion id) s = .next (s1.completeWait id)) ∧
    (s.released r = true → k % 4 = 2 → s.fenceLoadsDone (k.testBit 6) r.members = true →
      exec (.fenceReleaseCompletion id) s = .next (((s1.fencePart id k 2).acquire r.warps sc).completeWait id)) ∧
    (s.released r = true → k % 4 = 3 → ∃ s', exec (.fenceReleaseCompletion id) s = .next s' ∧
      s'.net = s.net ++ [.scOrderGrant id] ∧ Tab.find s'.waits id = some { r with kind := .fence k 1 none } ∧ s'.warps = s.warps)) ∧
  (∀ (s : State) (m : Nat) (sc : MemScope), sc ≠ .blk →
    s.fenceTime [m] sc = max ((s.warp m).gw sc).toNat (s.warp m).obs.toNat) ∧
  (∀ (s : State) (id k : Nat) (due : Option Nat) (r : WaitRec), Tab.find s.waits id = some r → r.kind = .fence k 2 due →
    (s.fenceLoadsDone (k.testBit 6) r.members = true →
      exec (.fenceReleaseCompletion id) s = .next ((s.acquire r.warps (fenceScope k)).completeWait id)) ∧
    (s.fenceLoadsDone (k.testBit 6) r.members = false →
      exec (.fenceReleaseCompletion id) s = .next (s.keep (.fenceReleaseCompletion id)))) ∧
  (∀ (s : State) (id k : Nat) (due : Option Nat) (r : WaitRec), Tab.find s.waits id = some r → r.kind = .fence k 1 due →
    SMap.wf 0 s.fe.scOrder = true → s.fenceLoadsDone (k.testBit 6) r.members = true →
    ∃ s', exec (.scOrderGrant id) s = .next s' ∧
      (let p := match fenceScope k with
        | .dev => 0
        | .sys => 1
        | .blk => 2 + (s.warp r.warp).block
      SMap.get 0 s'.fe.scOrder p = SMap.get 0 s.fe.scOrder p + 1) ∧
      (∀ t ∈ r.members, s.Holds t → (s.thread t).wait = some id → (s'.thread t).pos = r.next ∧ (s'.thread t).wait = none))

/-- R112, R317, R318: RDEG reads the degree of a region, pins it at a degree of at most 7, or unpins it, and with a destination
writes the status word there; a degree above 7 is an illegal instruction, and an address beyond 48 bits names no region. -/
def Claim.DegreeInstruction : Prop :=
  ∀ (g : Guard) (x : XForm) (s : State) (ts : List TRef) (n : BitVec 9), let i := Instr.rdeg g x
    s.RunsOnce ts i → x.dst = .uni n →
    let ld := s.lead i
    let asid := (s.warp ld.warp).asid
    let va := (s.leadOps i).a
    let region := va.toNat / 2 ^ 21
    let deg := ((s.leadOps i).b.setWidth 32).toNat
    let answer (s1 : State) (v : DWord) := exec i s = .next ((s1.writeNow ld.warp [(.uni (n.toNat % 32), v)]).retire ts i s.cur.next)
    (2 ^ 48 ≤ va.toNat → (x.sub = 1 → deg ≤ 7) → answer s (if s.mem.frz then 256 ||| 64 else 64)) ∧
    (va.toNat < 2 ^ 48 → x.sub = 0 → answer s (s.rdegStatus asid region 0)) ∧
    (va.toNat < 2 ^ 48 → x.sub = 1 → deg ≤ 7 → ∀ s1, s.pinRegion asid region deg = (s1, true) →
      answer s1 (s1.rdegStatus asid region 0) ∧ s1.degree asid region = deg) ∧
    (va.toNat < 2 ^ 48 → x.sub = 1 → deg ≤ 7 → ∀ s1, s.pinRegion asid region deg = (s1, false) →
      s1 = s ∧ answer s (s.rdegStatus asid region 1)) ∧
    (x.sub = 1 → 7 < deg →
      exec i s = .next ((s.raiseAll ts ⟨1, 0, 0, 0, 0, false, s.cur.word0.setWidth 64⟩ (g.scope == .set)).finish
        i.form.opc [])) ∧
    (va.toNat < 2 ^ 48 → x.sub = 2 → answer (s.unpinRegion asid region) ((s.unpinRegion asid region).rdegStatus asid region 0))

/-- R132, R135: what the built-in routines make of a word and their operands. -/
def Claim.BuiltinRoutines : Prop :=
  ∀ (w a0 a1 : Word),
    builtin 0 w a0 a1 = w + a0 ∧ builtin 1 w a0 a1 = w - a0 ∧
    (builtin 2 w a0 a1).toInt = min w.toInt a0.toInt ∧ (builtin 3 w a0 a1).toNat = min w.toNat a0.toNat ∧
    (builtin 4 w a0 a1).toInt = max w.toInt a0.toInt ∧ (builtin 5 w a0 a1).toNat = max w.toNat a0.toNat ∧
    builtin 6 w a0 a1 = w &&& a0 ∧ builtin 7 w a0 a1 = w ||| a0 ∧ builtin 8 w a0 a1 = w ^^^ a0 ∧ builtin 9 w a0 a1 = a0 ∧
    builtin 10 w a0 a1 = (if w = a0 then a1 else w) ∧
    (builtin 14 w a0 a1).toNat = (if w.toNat < a0.toNat then w.toNat + 1 else 0) ∧
    (builtin 15 w a0 a1).toNat = (if w.toNat = 0 ∨ a0.toNat < w.toNat then a0.toNat else w.toNat - 1)

/-- R127, R140 to R143, R312: LATOM and LATOMS on an aligned word of device memory leave their core with the lane's operands;
LATOM's destination pair goes empty; a built-in routine completes at once, and after one of the program's own, and in a deterministic
grid after any (R375), the thread waits.
An identifier above 63, or a word of host memory, is a routine fault, and a word that is not aligned a misaligned one. -/
def Claim.InvocationsComplete : Prop :=
  ∀ (g : Guard) (j : BitVec 5) (a d : BitVec 6) (x : XForm) (i : Instr) (ret : Bool),
    ((i = .latom g j a d ∨ i = .latomX g x) ∧ ret = true) ∨ (i = .latoms g x ∧ ret = false) →
    let f := i.form
    ∀ (s : State) (t : TRef), s.Runs t i → f.g.scope = .lane →
      let o := s.operands t f
      let id := (o.c.setWidth 32).toNat
      let wp := s.warp t.warp
      let args := s.latomArgs t f o
      let stops (r : Report) := exec i s = .next ((s.raise t r).finish f.opc [])
      (∀ (s1 : State) (e : TlbEntry), o.a.toNat % 4 = 0 → id ≤ 63 → s.accessCheck t o.a 4 true true = .ok s1 →
        s1.look wp.core wp.asid o.a = some e → e.tgt ≠ 1 →
        (∀ p ∈ wp.stores, p.applied = false → p.inv = false → p.meets false (e.at o.a / 128 * 128) 128 = false) →
        ∃ s', exec i s = .next s' ∧
          s'.net = s.net ++ [.routineInvocation ⟨s.nextId, t.warp, t.lane, wp.core, wp.asid, s.genAt wp.core wp.asid,
            SMap.get 0 s.rtVers wp.asid, o.a, e.at o.a, id, f.x.sub.toNat % 8, args.getD 0 0, args.getD 1 0, args.getD 2 0,
            args.getD 3 0, (s.grid wp.grid).det, if ret then some f.x.dst.num.toNat else none, scopeOfCode (f.x.sub.toNat / 8),
            s.cur.pos, s.cur.num⟩] ∧
          (ret = true → SMap.wf false wp.empty = true → t.lane < 32 → (s'.warp t.warp).isEmpty t.lane f.x.dst.num.toNat = true ∧
            (s'.warp t.warp).isEmpty t.lane (f.x.dst.num.toNat + 1) = true) ∧
          (id < 16 → (s.grid wp.grid).det = false → (s'.thread t).pos = s.cur.next ∧ (s'.thread t).wait = none) ∧
          (16 ≤ id ∨ (s.grid wp.grid).det = true → (s'.thread t).pos = (s.thread t).pos ∧ ∃ k r, (s'.thread t).wait = some k ∧ Tab.find s'.waits k = some r ∧
            r.kind = .invocation s.nextId ∧ r.next = s.cur.next)) ∧
      (o.a.toNat % 4 ≠ 0 → stops ⟨4, 0, 0, 0, 0, false, o.a⟩) ∧
      (o.a.toNat % 4 = 0 → 63 < id → stops ⟨10, 6, id % 256, 0, 0, false, o.a⟩)

/-- R127, R132, R135, R140 to R143: invocations leave their core, and what built-in routines compute. -/
def Obligations.InvocationsAndBuiltins : Prop :=
  Claim.BuiltinRoutines ∧ Claim.InvocationsComplete

/-! ## What instructions leave alone (R35, R209 to R218, R240) -/

/-- No instruction of a program changes a byte of memory as it issues: stores, copies, invocations and drains leave for the
homes and for FE as messages, whose own steps make the writes. The exceptions are ENQT and FETCHT.task, for which the dispatcher
updates the deques at once (the model's choice, log 1 and log 9). The memories are in their one form. -/
def Obligations.MemoryFrame : Prop :=
  ∀ (i : Instr) (s s' : State), (encode? i).isSome = true → (∀ g x, i ≠ .enqt g x) → (∀ g x, i ≠ .fetchtTask g x) →
    s.Canonical → exec i s = .next s' → ∀ host pa, s'.byteAt host pa = s.byteAt host pa

/-- R35, R240: branches, calls, traps, barriers, markers, stores, fences, cache instructions, invocations without a result,
copies and matrix operations leave every register, predicate, accumulated time and window map of every warp as it is, and the
flags, the scratch register and the end of every thread, but that CSRW writes flags or TSCR and that RET, which loads the
position it goes to, may have observed a store (R311). A load or invocation marks its own destination empty in the lanes that
issue it and leaves the rest; LDW of a deterministic grid, which has been held until its value is there (R375), has its result at
once and is not spoken of. -/
def Obligations.ControlFrame : Prop :=
  (∀ (i : Instr) (s s' : State), writesNoRegister i = true → exec i s = .next s' → ∀ k,
    let w := s.warp k
    let w' := s'.warp k
    w'.regs = w.regs ∧ w'.empty = w.empty ∧ w'.uregs = w.uregs ∧ w'.preds = w.preds ∧ w'.pend = w.pend ∧ w'.alloc = w.alloc ∧
      w'.setReg = w.setReg ∧ w'.coord = w.coord ∧ w'.winMap = w.winMap ∧ w'.gwBlk = w.gwBlk ∧ w'.gwDev = w.gwDev ∧
      w'.gwSys = w.gwSys ∧ ((∀ g, i ≠ .ret g) → w'.obs = w.obs) ∧
      ∀ l, (w'.thread l).exited = (w.thread l).exited ∧
        ((∀ g b a, i ≠ .csrw g b a) → (∀ g x, i ≠ .csrwX g x) →
          (w'.thread l).fflags = (w.thread l).fflags ∧ (w'.thread l).tscr = (w.thread l).tscr)) ∧
  (∀ (i : Instr) (s s' : State), comesBack i = true → (∀ t ∈ s.cur.group, t.lane < 32) →
    ((∃ g k a d, i = .ldw g k a d) ∨ (∃ g x, i = .ldwX g x) → ∀ t ∈ s.cur.group, (s.grid (s.warp t.warp).grid).det = false) →
    exec i s = .next s' → ∀ k,
    let w := s.warp k
    let w' := s'.warp k
    let d := i.form.x.dst
    let n := (opRule i.form.opc i.form.g i.form.x).d.regs
    w'.regs = w.regs ∧ w'.uregs = w.uregs ∧ w'.preds = w.preds ∧ w'.pend = w.pend ∧ w'.alloc = w.alloc ∧ w'.setReg = w.setReg ∧
      w'.gwBlk = w.gwBlk ∧ w'.gwDev = w.gwDev ∧ w'.gwSys = w.gwSys ∧ w'.obs = w.obs ∧
      (SMap.wf false w.empty = true → ∀ l r, l < 32 → (d.cls = 1 ∨ ¬(d.num.toNat ≤ r ∧ r < d.num.toNat + n)) →
        w'.isEmpty l r = w.isEmpty l r))

/-! ## Routine requests, waits and monitors (R139, R144 to R154) -/

/-- R139, R144, R145: RTINST and RTREM, where the pages they read are readable, wait with their request on its way to the Scajo pair
in the order of its sequence number. -/
def Claim.RoutineRequests : Prop :=
  ∀ (g : Guard) (x : XForm) (i : Instr) (install : Bool), (i = .rtinst g x ∧ install = true) ∨ (i = .rtrem g x ∧ install = false) →
    ∀ (s : State) (ts : List TRef), s.RunsOnce ts i →
      let ld := s.lead i
      let wp := s.warp ld.warp
      let o := s.leadOps i
      (∀ va ∈ s.rtChecks ld install o.a, ∃ s1, s.accessCheck ld va 1 true false = .ok s1) →
      ∃ s', exec i s = .next s' ∧
        s'.rtReqs = s.rtReqs ++ [⟨s.nextId, s.fe.nextSeq, install, wp.asid, s.genAt wp.core wp.asid, (o.b.setWidth 32).toNat, o.a,
          s.nextId + 1⟩] ∧
        s'.net = s.net ++ [.rtinstExecution s.nextId] ∧ s'.fe.nextSeq = s.fe.nextSeq + 1 ∧
        Tab.find s'.waits (s.nextId + 1) =
          some ⟨.routineReq s.nextId x.dst, ld.warp, ts, s.cur.pos, s.cur.next, s.nextId + 1⟩

/-- R146 to R148, R152, R153: WAITCMP completes at once with 1 in its predicate where its condition holds; else it waits: armed
at the word's home while the slice has an entry for it, and polled there otherwise, and on a page of host memory polled at
once. In a deterministic grid, once released, it completes at once or stands for another evaluation (R375). -/
def Claim.WaitsComplete : Prop :=
  ∀ (i : Instr), (∃ g b a d, i = .waitcmp g b a d) ∨ (∃ g x, i = .waitcmpX g x) →
    ∀ (s s1 : State) (ld : TRef) (ts : List TRef) (e : TlbEntry),
      (i.form.g.scope = .lane ∧ ts = [ld] ∧ s.Runs ld i) ∨ (i.form.g.scope ≠ .lane ∧ s.RunsOnce ts i ∧ ld = s.lead i) →
      let f := i.form
      let o := s.operands ld f
      let wp := s.warp ld.warp
      let n := if f.x.ty = .u64 then 8 else 4
      let dst := f.x.dst.num.toNat
      let det := (s.grid wp.grid).det
      s.accessCheck ld o.a n true false = .ok s1 → s1.look wp.core wp.asid o.a = some e → s1.loadWaits ld o.a n = false →
      let key := waitKey wp.asid f o e
      let line := key.pa / 128
      let ticks := s1.waitTicks ld o
      let again (s' : State) : State :=
        ((s'.park (.stamped (some (key, dst))) ld.warp ts).send (.stampedRequestRelease wp.grid)).finish f.opc ts
      (key.host = true → det = false → exec i s = .next ((s1.parkCmp ld ts key true dst ticks 0).finish f.opc ts)) ∧
      (key.host = true → det = true → exec i s = .next (if s1.keyHolds key
        then ((s1.seenBy wp.core key).writeWait ts dst true).retire ts i s.cur.next else again s1)) ∧
      ∀ s2, key.host = false → s1.frameCheck wp.asid (s1.genAt wp.core wp.asid) key.pa false = .serve s2 →
        let home := s2.homeFor line (dieOfCore wp.core)
        (home.keyHolds key = true →
          exec i s = .next (((home.seenBy wp.core key).writeWait ts dst true).retire ts i s.cur.next)) ∧
        (home.keyHolds key = false → det = true → exec i s = .next (again home)) ∧
        (home.keyHolds key = false → det = false →
          ((home.monitors.any fun m => m.key == key) ∨
              (home.monitors.filter fun m => m.slice == homeSlice line).length < Config.monitorEntries →
            ∃ s3, home.armKey key wp.core (some home.nextId) = (true, s3) ∧
              (∃ m ∈ s3.monitors, m.key = key ∧ wp.core ∈ m.agents ∧ some home.nextId ∈ m.waiters) ∧
              exec i s = .next ((s3.parkCmp ld ts key false dst ticks 0).finish f.opc ts)) ∧
          ((∀ m ∈ home.monitors, m.key ≠ key) →
            Config.monitorEntries ≤ (home.monitors.filter fun m => m.slice == homeSlice line).length →
            ∃ s3, home.armKey key wp.core (some home.nextId) = (false, s3) ∧ s3.monitors = home.monitors ∧
              exec i s = .next ((s3.parkCmp ld ts key true dst ticks s3.pollTicks).finish f.opc ts)))

/-- R154: MONCAN waits for an acknowledgement from every core with a warp of its address space and from FE, and sends each of
them the cancel. At warp scope no rule names the lane of a vector pair: any member's, by a free value (the model's choice, log 33). -/
def Claim.CancelsComplete : Prop :=
  ∀ (i : Instr), (∃ g a, i = .moncan g a) ∨ (∃ g x, i = .moncanX g x) →
    ∀ (s s0 s1 : State) (ld : TRef) (ts : List TRef) (e : TlbEntry),
      (i.form.g.scope = .lane ∧ ts = [ld] ∧ s.Runs ld i ∧ s0 = s) ∨
        (i.form.g.scope ≠ .lane ∧ s.RunsOnce ts i ∧ (ld, s0) = s.cancelLead i.form (s.lead i)) →
      let o := s.operands ld i.form
      let wp := s.warp ld.warp
      s0.accessCheck ld o.a 4 true false = .ok s1 → s1.look wp.core wp.asid o.a = some e →
      let agents := s1.cancelAgents wp.asid
      ∃ s', exec i s = .next s' ∧
        Tab.find s'.waits s.nextId = some ⟨.moncan agents.length, ld.warp, ts, s.cur.pos, s.cur.next, s.nextId⟩ ∧
        s'.net = s.net ++ agents.map fun a =>
          .monitorCancel s.nextId wp.asid (placeNo (e.tgt == 1) (e.at o.a)) (if i.form.x.sub.getLsbD 0 then some wp.block else none) a

/-! ## Copies, rings, buffers and external reads (R158 to R194) -/

/-- R170 to R175, R188, R189: XCOPY, XGATHER, XSCAT and XFILL whose checks pass are accepted where the engine and the token have
room: the operation is in the engine, its flag clear, its step on its way, and the warp goes on; in a deterministic grid a copy into a
ring takes its slot at once (R375). XREAD whose pages are writable is
with the external read engine, and its warp goes on. OPFENCE completes (the model's writes to scratchpad are made as they issue,
log 9), and the warps that issue it are ordered after the writes it covers (R284). -/
def Claim.CopiesComplete : Prop :=
  (∀ (g : Guard) (x : XForm) (i : Instr) (kind : Nat),
    (i = .xcopy g x ∧ kind = 0) ∨ (i = .xgather g x ∧ kind = 1) ∨ (i = .xscat g x ∧ kind = 1) ∨ (i = .xfill g x ∧ kind = 3) →
    ∀ (s s0 s1 : State) (ts : List TRef) (op : CopyOp), s.RunsOnce ts i →
      let ld := s.lead i
      let wp := s.warp ld.warp
      let op0 := copyOp i.form kind ld (s.leadOps i) s
      let a := (s.leadOps i).a
      let lanes : List Int := ts.map fun t => match x.c with
        | .vec r _ => (wp.vreg t.lane r.toNat).toInt
        | _ => 0
      let det := (s.grid wp.grid).det
      (if op0.named then s.catalogueReach ld.warp (a.extractLsb' 0 32).toNat else (s, true)) = (s0, true) →
      (op0.ring = true → s.qcwPending ld.warp (a.extractLsb' 32 32).toNat = false) →
      s0.prepareCopy i.form op0 a lanes = .ok (op, s1) →
      s1.copyRoom ld.warp (op.token.getD 0) = true →
      (det = true → op.ring = true → ((s.block wp.block).qcw op.place op.ofs).room ≠ 0) →
      exec i s = .next ((s1.acceptCopy op det).retire ts i s.cur.next) ∧
      (det = false → let s2 := s1.acceptCopy op false
       op ∈ (s2.core wp.core).copies ∧ (x.sub.toNat < 64 → (s2.warp ld.warp).cf.getLsbD (x.sub.toNat / 8) = false) ∧
       s2.net = s1.net ++ [if op.ring then .ringReserve wp.core op.id else .copyPost wp.core op.id])) ∧
  (∀ (g : Guard) (x : XForm) (s s1 : State) (ts : List TRef), let i := Instr.xread g x
    s.RunsOnce ts i →
    let ld := s.lead i
    let wp := s.warp ld.warp
    let wa := wp.ureg (srcUni x.a)
    let cw := wp.ureg (srcUni x.a + 1)
    let o := s.leadOps i
    cw.toNat % 8 = 0 →
    s.xlatePages wp.core wp.asid false true (touchedPages cw.toNat 8 ++ touchedPages o.c.toNat (wa.toNat / 2 ^ 32)) = .ok s1 →
    (s1.fe.xreads.filter fun y => y.core == wp.core).length < Config.xreadsPerCore → s1.fe.xreads.length < Config.xreadsAtFe →
    ∃ s' y, exec i s = .next s' ∧ s'.fe.xreads = s.fe.xreads ++ [y] ∧ s'.net = s.net ++ [.xreadEngineStart s.nextId] ∧
      y.id = s.nextId ∧ y.ep = wa.toNat % 2 ^ 32 ∧ y.len = wa.toNat / 2 ^ 32 ∧ y.cw = cw ∧ y.ofs = o.b ∧ y.dst = o.c ∧
      y.asid = wp.asid ∧ y.gen = s.genAt wp.core wp.asid ∧ y.status = 0) ∧
  (∀ (g : Guard) (s : State) (ts : List TRef), s.RunsOnce ts (.opfence g) →
    let wp := s.warp (s.lead (.opfence g)).warp
    exec (.opfence g) s = .next ((s.mapRaces wp.block fun r =>
      if r.covered wp.core s.groupWarps then { r with fenced := (r.fenced ++ s.groupWarps).dedup } else r).retire ts (.opfence g)
        s.cur.next))

/-- R178 to R183: QCWSET of a valid control word is on its way; RPUSH into a ring with room writes its slot and moves WR on;
RPOP takes the next element, whose destination goes empty, or with SUB 1 releases a slot once the warp's takes have been made.
They follow a QCWSET of the warp's own on the same control word; a ring that QCWSET has not set takes free bytes (R178, log 4). -/
def Claim.RingsComplete : Prop :=
  (∀ (g : Guard) (x : XForm) (s : State) (ts : List TRef) (p : SaPlace), let i := Instr.qcwset g x
    s.RunsOnce ts i →
    let ld := s.lead i
    let wp := s.warp ld.warp
    let o := s.leadOps i
    let q : Qcw := ⟨(o.b.extractLsb' 0 32).toNat, (o.b.extractLsb' 32 16).toNat, (o.b.extractLsb' 48 16).toNat, 0, 0, 0, 0⟩
    s.qcwPlace ld.warp (o.a.setWidth 32).toNat = .ok p → q.ok (s.block wp.block).scratch = true →
    s.saOwned wp.block [ld.warp] p 16 = true → s.saOwned wp.block [ld.warp] ⟨p.place, q.base⟩ q.bytes = true →
    ∃ s' op, exec i s = .next s' ∧ (s'.core wp.core).copies = (s.core wp.core).copies ++ [op] ∧ op.id = s.nextId ∧ op.kind = 5 ∧
      op.block = wp.block ∧ op.place = p.place ∧ op.ofs = p.ofs ∧ op.value = o.b ∧ s'.net = s.net ++ [.copyPost wp.core s.nextId]) ∧
  (∀ (i : Instr), (∃ g q a c, i = .rpush g q a c) ∨ (∃ g x, i = .rpushX g x) →
    ∀ (s : State) (ts : List TRef) (p : SaPlace) (q : Qcw), s.RunsOnce ts i →
      let ld := s.lead i
      let wp := s.warp ld.warp
      let f := i.form
      let n := f.x.sub.toNat + 1
      let bs := pushBytes wp (ts.map TRef.lane) f.x.a.num.toNat n
      s.qcwPending ld.warp ((s.leadOps i).b.setWidth 32).toNat = false →
      s.ringCheck ld.warp ((s.leadOps i).b.setWidth 32).toNat = .ok (p, q) → n ≤ q.esize → q.room ≠ 0 →
      s.ringBusy wp.core s.nextId wp.block p.place p.ofs = false →
      ∃ op, op.id = s.nextId ∧ op.kind = 4 ∧ op.block = wp.block ∧ op.place = p.place ∧ op.ofs = p.ofs ∧ op.slot = some q.wr ∧
        op.done = true ∧
        (let s1 := (s.fresh).setCore wp.core fun c => { c with copies := c.copies ++ [op] }
         let r := if (s.block wp.block).qcwSet p.place p.ofs then (bs, s1) else s1.freeBytes bs.length
         let s2 := (r.2.setBlock wp.block fun b => b.qcwPut p.place p.ofs 8 (q.wr + 1)).scratchWrite wp.block
          ⟨p.place, q.slot q.wr⟩ r.1 [ld.warp] wp.core none
         exec i s = .next ((s2.advanceFill wp.core wp.block p.place p.ofs ((s2.core wp.core).copies.length + 1)).retire ts i
          s.cur.next))) ∧
  (∀ (i : Instr), (∃ g q d, i = .rpop g q d) ∨ (∃ g x, i = .rpopX g x) →
    ∀ (s : State) (ts : List TRef) (p : SaPlace) (q : Qcw), s.RunsOnce ts i →
      let ld := s.lead i
      let wp := s.warp ld.warp
      let f := i.form
      s.qcwPending ld.warp ((s.leadOps i).b.setWidth 32).toNat = false →
      s.ringCheck ld.warp ((s.leadOps i).b.setWidth 32).toNat = .ok (p, q) →
      (f.x.sub ≠ 1 → (s.grid wp.grid).det = false ∨ q.wr ≠ q.rd) → (f.x.sub = 1 → s.takeWaits ld.warp p = false) →
      let wb (d : WbDst) : Msg := .vclassWriteBack ⟨s.nextId, ld.warp, ld.lane, d, .ring p.place p.ofs, s.cur.pos, s.cur.num⟩
      (f.x.sub = 1 → exec i s = .next ((if q.rl = q.rd then s else s.setBlock wp.block fun b =>
        b.qcwPut p.place p.ofs 14 (q.rl + 1)).retire ts i s.cur.next)) ∧
      (f.x.sub ≠ 1 → ∀ d, f.x.dst = .vec d → exec i s = .next (((s.fresh.setWarp ld.warp fun w =>
        { (List.range 32).foldl (fun w l => w.markEmpty l d.toNat 1 true) w with inFlight := w.inFlight + 1 }).send
          (wb (.vec d.toNat 1))).retire ts i s.cur.next)) ∧
      (f.x.sub ≠ 1 → ∀ d, f.x.dst = .uni d → exec i s = .next ((((s.fresh.park (.uniform s.nextId) ld.warp ts).setWarp ld.warp
        fun w => { w with inFlight := w.inFlight + 1 }).send (wb (.uni (d.toNat % 32)))).finish f.opc ts)))

/-- R184 to R186: BTAKE.new in a block's core takes a free entry for a range that no other buffer overlaps, and gives its handle;
in a core where the block has no place it is the window fault of cause 2; BGIVE offers a held
buffer to a warp, BGIVE.free frees it under a new generation, BTAKE takes an offered one; a stale handle is the ownership fault
of cause 2. -/
def Claim.BuffersComplete : Prop :=
  (∀ (g : Guard) (x : XForm) (s : State) (ts : List TRef) (k : Nat), let i := Instr.btakeNew g x
    s.RunsOnce ts i →
    let ld := s.lead i
    let wp := s.warp ld.warp
    let b := s.block wp.block
    let ofs := (s.leadOps i).a.toNat % 2 ^ 32
    let len := (s.leadOps i).a.toNat / 2 ^ 32
    ofs % 128 = 0 → len % 128 = 0 →
    (¬ (wp.core ∈ b.places ∧ 128 ≤ len ∧ ofs + len ≤ b.scratch) →
      exec i s = .next ((s.raiseAll ts ⟨9, 2, 0, 0, 0, false, BitVec.ofNat 64 ofs⟩ (g.scope == .set)).finish i.form.opc [])) ∧
    (wp.core ∈ b.places → 128 ≤ len → ofs + len ≤ b.scratch → (∀ e ∈ (s.core wp.core).buffers, e.2.state = 0 ∨ e.2.block ≠ wp.block ∨ e.2.offset + e.2.length ≤ ofs ∨
      ofs + len ≤ e.2.offset) →
    k < 64 → (s.buffer wp.core k).state = 0 → (∀ j, j < k → (s.buffer wp.core j).state ≠ 0) →
    exec i s = .next (((s.setBuffer wp.core k ⟨1, wp.block, ld.warp, (s.buffer wp.core k).gen, ofs, len⟩).putUniform ld.warp x.dst
      (bufferHandle k (b.placeOf wp.core) (s.buffer wp.core k).gen)).retire ts i s.cur.next))) ∧
  (∀ (g : Guard) (x : XForm) (s : State) (ts : List TRef) (core k : Nat) (i : Instr),
    i = .bgive g x ∨ i = .bgiveFree g x ∨ i = .btake g x → s.RunsOnce ts i →
    let ld := s.lead i
    let h := ((s.leadOps i).a.setWidth 32).toNat
    let bf := s.buffer core k
    s.bufferOf ld.warp h = some (core, k) →
    (i = .bgive g x → bf.state = 1 → bf.warp = ld.warp → ∀ w,
      s.warpOfIndex (s.warp ld.warp).block ((s.leadOps i).b.setWidth 32).toNat = some w →
      exec i s = .next ((s.setBuffer core k { bf with state := 2, warp := w }).retire ts i s.cur.next)) ∧
    (i = .bgiveFree g x → bf.state = 1 → bf.warp = ld.warp →
      exec i s = .next ((s.setBuffer core k { bf with state := 0, gen := bf.gen + 1 }).retire ts i s.cur.next)) ∧
    (i = .btake g x → bf.state = 2 → bf.warp = ld.warp →
      exec i s = .next (((s.setBuffer core k { bf with state := 1 }).putUniform ld.warp x.dst (BitVec.ofNat 64 h)).retire ts i
        s.cur.next))) ∧
  (∀ (g : Guard) (x : XForm) (s : State) (ts : List TRef) (i : Instr),
    i = .bgive g x ∨ i = .bgiveFree g x ∨ i = .btake g x → s.RunsOnce ts i →
    let h := ((s.leadOps i).a.setWidth 32).toNat
    s.bufferOf (s.lead i).warp h = none →
    exec i s = .next ((s.raiseAll ts ⟨8, 2, 0, 0, 0, false, BitVec.ofNat 64 h⟩ (g.scope == .set)).finish i.form.opc []))

/-- R178 to R186: rings and buffers. -/
def Obligations.RingsAndBuffers : Prop :=
  Claim.RingsComplete ∧ Claim.BuffersComplete

/-! ## The matrix engine (R269 to R295) -/

/-- R269 to R272, R279, R287 to R289: MMA, MMAS, ACCZ, ACCLD and ACCST whose checks pass are accepted where the engine and the
token have room and no other block holds the accumulators: the file is claimed, the token's flag clear in every member warp,
the operation queued and its step on its way. -/
def Claim.MatrixIssues : Prop :=
  ∀ (g : Guard) (x : XForm) (i : Instr) (kind : Nat),
    (i = .mma g x ∧ kind = 0) ∨ (i = .mmas g x ∧ kind = 1) ∨ (i = .accz g x ∧ kind = 2) ∨ (i = .accld g x ∧ kind = 3) ∨
      (i = .accst g x ∧ kind = 4) →
    ∀ (s s1 : State) (ts : List TRef), s.RunsOnce ts i →
      let ld := s.lead i
      let core := (s.warp ld.warp).core
      let ms := s.setOf ld.warp
      let op := matrixOp i.form kind ld ms (s.leadOps i) s
      (kind < 2 → s.mmaCheck ld ms op = none ∧ s1 = s) → (kind = 2 → s1 = s) → (3 ≤ kind → s.rowsCheck ld ms op = .ok s1) →
      s1.accFree core op.block = true → s1.matRoom core ms op.token = true →
      let op := { op with raced := s1.racedIssue core op }
      let s2 := s1.acceptMatrix core op
      exec i s = .next (s2.retire ts i s.cur.next) ∧
      (s2.core core).accClaim = some op.block ∧
      (if kind = 4 then (s2.core core).drainQ = (s1.core core).drainQ ++ [op]
        else (s2.core core).arrayQ = (s1.core core).arrayQ ++ [op]) ∧
      (∀ m ∈ ms, (Tab.find s.warps m).isSome = true → (s2.warp m).cf.getLsbD (8 + x.sub.toNat % 4) = false) ∧
      s2.net = s1.net ++ [if kind < 2 then .matrixKStep core else .matrixOpComplete core op.id] ∧
      ((s1.core core).accClaim ≠ some op.block → ∀ t m c, (s2.core core).accGet t m c = 0)

/-- R293 to R295: ACCK reads a tile's status word, or 0 in a block without the claim; FMTSET of a valid format word puts it into the
block's register and the old word into its destination, and any other word is the format fault with cause 4. -/
def Claim.MatrixRegisters : Prop :=
  (∀ (g : Guard) (x : XForm) (s : State) (ts : List TRef), s.Ready ts (.acck g x) →
    exec (.acck g x) s = .next (s.withResults ts (.acck g x) 4 fun t =>
      let w := s.warp t.warp
      let co := s.core w.core
      ⟨if co.accClaim = some w.block then (co.statusWord ((s.operands t (Instr.acck g x).form).c.toNat % 8)).setWidth 64 else 0,
        false, 0⟩)) ∧
  (∀ (co : Core) (t : Nat), let st := co.tile t
    st.kDone < 2 ^ 13 → st.kTot < 2 ^ 13 →
    let w := co.statusWord t
    w.toNat % 2 ^ 13 = st.kDone ∧ w.toNat / 2 ^ 13 % 2 ^ 13 = st.kTot ∧ w.extractLsb' 26 4 = st.flags ∧ w.getLsbD 30 = st.flt ∧
      w.getLsbD 31 = co.tileBusy t) ∧
  (∀ (g : Guard) (x : XForm) (s : State) (ts : List TRef), let i := Instr.fmtset g x
    s.RunsOnce ts i →
    let b := (s.warp (s.lead i).warp).block
    let n := x.sub.toNat % 8
    let v : Word := (s.leadOps i).a.setWidth 32
    let good := v.toNat / 2 ^ 20 = 0 ∧ v.getLsbD 3 = false ∧ (Fmt.ofWord v).valid = true
    (good → exec i s = .next (((s.putUniforms x.dst (((s.block b).fmtReg n).setWidth 64)).setBlock b fun bl =>
      { bl with fmts := SMap.set 0x00007B34 bl.fmts n v }).retire ts i s.cur.next)) ∧
    (¬ good → exec i s = .next ((s.raiseAll ts ⟨13, 4, 0, 0, 0, false, v.setWidth 64⟩ (g.scope == .set)).finish i.form.opc [])))

/-- R269 to R295: matrix operations are accepted, and ACCK and FMTSET. -/
def Obligations.MatrixAccepted : Prop :=
  Claim.MatrixIssues ∧ Claim.MatrixRegisters

/-! ## Coordinates, tasks and migration (R365 to R372, R397 to R399) -/

/-- R365 to R367: FETCHT.tile gives the next coordinate of the index space, first one that was handed back, to every warp of its
group, and where none is left the EXHAUSTED mark; FETCHT.task of a warp without a task takes the newest record of its core's deque.
R372: ENQT, once the release is over and the deques have room, pushes its lane's or its warp's record, which its core has reached
(R80). -/
def Claim.TasksComplete : Prop :=
  (∀ (g : Guard) (x : XForm) (s : State) (ts : List TRef), let i := Instr.fetchtTile g x
    s.RunsOnce ts i →
    let ld := s.lead i
    let w := s.warp ld.warp
    let d := x.dst.num.toNat % 32
    let s1 := s.dropCoord w.grid (if g.scope = .block then (s.block w.block).heldCoord else w.heldCoord)
    let held (s : State) (n : Option Nat) : State :=
      if g.scope = .block then s.setBlock w.block fun b => { b with heldCoord := n } else s.setWarp ld.warp fun w => { w with heldCoord := n }
    (∀ n gr, (s1.grid w.grid).nextTile = some (n, gr) →
      let c := gr.coordOf n
      exec i s = .next ((s.groupWarps.foldl (fun s v =>
        (s.writeNow v [(.uni d, c.2.1 ++ c.1), (.uni (d + 1), (c.2.2).setWidth 64)]).setWarp v fun w => { w with coord := c })
        (held (s1.setGrid w.grid fun _ => gr) (some n))).retire ts i s.cur.next)) ∧
    ((s1.grid w.grid).nextTile = none →
      exec i s = .next ((s.groupWarps.foldl (fun s v => s.writeNow v [(.uni d, 0), (.uni (d + 1), BitVec.ofNat 64 (2 ^ 32))])
        (held s1 none)).retire ts i s.cur.next))) ∧
  (∀ (g : Guard) (x : XForm) (s : State) (ts : List TRef), let i := Instr.fetchtTask g x
    s.RunsOnce ts i →
    let ld := s.lead i
    let w := s.warp ld.warp
    let h := s.dequeHead w.grid w.core false
    field (s.grid w.grid).packet 0x48 8 ≠ 0 → s.loadsDone ld.warp none = true → w.task = none →
    (∀ l ∈ s.fe.lends, l.2.wait ≠ s.nextId) → h.top < h.bot → ¬(h.lent = true ∧ h.bot = h.top + 1) →
    exec i s = .next ((((s.park (.fetchTask (x.dst.num.toNat % 32)) ld.warp ts).setDeque w.grid w.core false 8 8 (h.bot - 1)).giveTask
      s.nextId ld.warp (s.taskRecord w.grid w.core false (h.bot - 1))).finish i.form.opc ts)) ∧
  (∀ (g : Guard) (x : XForm) (s s0 s1 : State) (t : TRef), let i := Instr.enqt g x
    s.Runs t i → g.scope = .lane →
    let o := s.operands t i.form
    let w := s.warp t.warp
    let core := enqCore i.form s t o
    s.recordReach t o.a = (s0, true) →
    let h := s0.dequeHead w.grid core (field (s0.sourceRecord t o.a) 0x1C 1 == 1)
    s0.warpReleased t.warp = true → enqtCheck i.form true t o s0 = .ok s1 → h.bot - h.top + 1 ≤ (s0.grid w.grid).deqn →
    exec i s = .next (((s1.pushTask w.grid core (s1.sourceRecord t o.a)).dispatchAll w.grid).retire [t] i s.cur.next)) ∧
  (∀ (g : Guard) (x : XForm) (s s0 s1 : State) (t : TRef) (rest : List TRef), let i := Instr.enqt g x
    s.RunsOnce (t :: rest) i → g.scope = .warp →
    let o := s.operands t i.form
    let w := s.warp t.warp
    let core := enqCore i.form s t o
    ((t :: rest).foldl (fun (acc : State × Bool) u => let r := acc.1.recordReach u (s.operands u i.form).a
      (r.1, acc.2 && r.2)) (s, true)) = (s0, true) →
    let h := s0.dequeHead w.grid core (field (s0.sourceRecord t o.a) 0x1C 1 == 1)
    (∀ v ∈ s.groupWarps, s0.warpReleased v = true) → enqtCheck i.form true t o s0 = .ok s1 →
    h.bot - h.top + 1 ≤ (s0.grid w.grid).deqn →
    exec i s = .next (((s1.pushTask w.grid core (s1.sourceRecord t o.a)).dispatchAll w.grid).retire (t :: rest) i s.cur.next))

/-- R397, R398: MIGRATE to a die on which the warp already is completes with 1; of a page of host memory, in a deterministic grid, and
with a window access of the warp on its way, with 0; back to the block's own die with 1, in the slot that the warp left; otherwise it
asks for a cairn slot of the home die, with a deadline 2,000 ticks away. It is put off until the warp's operations have completed. A
warp of a declared set takes the scope fault. -/
def Claim.MigrationsComplete : Prop :=
  ∀ (g : Guard) (x : XForm) (s : State) (ts : List TRef), let i := Instr.migrate g x
    s.RunsOnce ts i →
    let ld := s.lead i
    let w := s.warp ld.warp
    let va := (s.leadOps i).a
    let dst := x.dst.num.toNat % 8
    (w.setReg ≠ 0 → exec i s = .next ((s.raiseAll ts ⟨11, 5, 0, 0, 0, false, 0⟩ (g.scope == .set)).finish i.form.opc [])) ∧
    (w.setReg = 0 → (s.grid w.grid).det = true →
      exec i s = .next (((s.writeWait ts dst false).countMigrate false).retire ts i s.cur.next)) ∧
    ∀ s1 e, w.setReg = 0 → (s.grid w.grid).det = false → s.accessCheck ld va 1 true false = .ok s1 →
      s.look w.core w.asid va = some e →
      let h := homeDie (e.at va / 128)
      (e.tgt = 1 → exec i s = .next (((s1.writeWait ts dst false).countMigrate false).retire ts i s.cur.next)) ∧
      (e.tgt ≠ 1 → h = dieOfCore w.core → exec i s = .next ((s1.writeWait ts dst true).retire ts i s.cur.next)) ∧
      (e.tgt ≠ 1 → h ≠ dieOfCore w.core → s.windowBusy ld.warp = true →
        exec i s = .next (((s1.writeWait ts dst false).countMigrate false).retire ts i s.cur.next)) ∧
      (e.tgt ≠ 1 → h ≠ dieOfCore w.core → s.windowBusy ld.warp = false → w.cf ≠ 0xFFF ∨ w.inFlight ≠ 0 →
        exec i s = .next (s.putOff i.form.opc ts)) ∧
      (e.tgt ≠ 1 → h ≠ dieOfCore w.core → h = (s.block w.block).die → s.windowBusy ld.warp = false → w.cf = 0xFFF →
        w.inFlight = 0 →
        (w.origin = none → exec i s = .next ((s1.writeWait ts dst true).retire ts i s.cur.next)) ∧
        ∀ c p k, w.origin = some (c, p, k) → exec i s = .next (State.finish
          (State.moveWarp (ts.foldl (fun s' t => s'.moveTo t s.cur.next) (s1.writeWait ts dst true)) ld.warp c p k none) i.form.opc ts)) ∧
      (e.tgt ≠ 1 → h ≠ dieOfCore w.core → h ≠ (s.block w.block).die → s.windowBusy ld.warp = false → w.cf = 0xFFF →
        w.inFlight = 0 →
        exec i s = .next ((((s1.park (.migrate dst va h (some ((s.common (dieOfCore w.core)).toNat + 2000))) ld.warp ts).send
          (.cairnGrant s.nextId)).send (.cairnTimeout s.nextId)).finish i.form.opc ts))

/-- R365 to R372, R397, R398: coordinates and tasks fetched and queued, and migration. -/
def Obligations.TasksAndMigration : Prop :=
  Claim.TasksComplete ∧ Claim.MigrationsComplete

/-! ## Device steps of the memory system (R80, R99 to R118) -/

/-- R80, R124, R118: the check of an access at a home that is up: an access that its frame's entry rejects is stale, and one that it
admits, of a line that is not lost and that no invocation holds, is served with ACCESSED set, and for a write NOCMP clear, once
the line is in the slice (R100).  R99, R103: a read that is served has the bytes that its line's holder has, and changes no
line's value; a read of host memory has the bytes there; a rejected one raises the stale-generation fault at its warp. The value is
free where an engine may still be writing it (R177, R189, R285; log 4). Lanes of one issue that read one line are served together (R211): what is said is of a
read without such mates.  R106, R107, R301: a write that is served changes the bytes it names in its line's value and no other
line's, and its acknowledgement is on its way or waits for the collapse; a write to host memory changes the bytes it names; a
stale one changes nothing and is reported. -/
def Obligations.SliceAccesses : Prop :=
  (∀ (asid gen pa : Nat) (write : Bool) (s s2 : State),
    let line := pa / 128
    s.dieSilent (homeDie line) = false →
    (s.rejects asid gen pa → s.frameCheck asid gen pa write = .stale) ∧
    (s.admits asid gen pa → s.badLines.contains line = false → (s.homeLine line).heldFor = none →
      (s.setFrame (pa / 65536) fun f => { f with
        accessed := true, noComp := f.noComp && !write, state := if write && f.state == 4 then 1 else f.state }).enterHome line =
        some s2 → s.frameCheck asid gen pa write = .serve s2)) ∧
  (∀ (r : ReadReq) (s : State), s.readMates r = [] →
    let wb (v : Nat) : Msg := .vclassWriteBack ⟨r.id, r.warp, r.lane, r.dst, .value (loadWiden r.ty r.bytes v), r.insn, 0⟩
    let line := r.pa / 128
    (r.host = true → ∃ s' v, exec (.sliceRead r) s = .next s' ∧ s'.net = s.net ++ [wb v] ∧
      (r.raced = false → v = lineGet (s.hostLine r.pa) (r.pa % 128) r.bytes) ∧
      s'.hostMem = s.hostMem ∧ s'.hbm = s.hbm ∧ s'.lines = s.lines) ∧
    (∀ s1 s2, r.host = false → s.badLines.contains line = false → s.frameCheck r.asid r.gen r.pa false = .serve s1 →
      s1.readAt r.asid r.va line (dieOfCore r.core) = some s2 →
      ∃ s' ms v, exec (.sliceRead r) s = .next s' ∧ s'.net = s.net ++ ms ++ [wb v] ∧
        (r.raced = false → v = lineGet (s.homeLine line).value (r.pa % 128) r.bytes) ∧
        ∀ l, (s'.homeLine l).value = (s.homeLine l).value) ∧
    (r.host = false → s.badLines.contains line = false → s.frameCheck r.asid r.gen r.pa false = .stale →
      exec (.sliceRead r) s = .next ((s.setWarp r.warp fun w => { w with inFlight := w.inFlight - 1 }).fatal r.warp
        (report clsStaleGen 0 r.va) r.insn))) ∧
  (∀ (w : WriteReq) (s : State),
    let line := w.pa / 128
    let n := s.fe.nextSeq
    (w.host = true → s.Canonical → ∃ s', exec (.sliceWrite w) s = .next s' ∧ s'.hbm = s.hbm ∧ s'.lines = s.lines ∧
      ∀ a, s'.hostMem.byte a = if w.pa ≤ a ∧ a < w.pa + w.bytes then BitVec.ofNat 8 (w.data.toNat / 2 ^ (8 * (a - w.pa)))
        else s.hostMem.byte a) ∧
    (∀ s1, w.host = false → s.frameCheck w.asid w.gen w.pa true = .serve s1 →
      ∃ s', exec (.sliceWrite w) s = .next s' ∧
        (s'.homeLine line).value = linePut (s.homeLine line).value (w.pa % 128) w.bytes w.data.toNat ∧
        (∀ l, l ≠ line → (s'.homeLine l).value = (s.homeLine l).value) ∧ s'.hostMem = s.hostMem ∧
        ∀ warp lane id, w.waiter = .store warp lane id →
          (∃ t, Msg.storeAcknowledgement ⟨id, warp, lane, t, .blk, true⟩ ∈ s'.net) ∨
            ((s'.homeLine line).cpend = true ∧ ∃ t, (w.waiter, t) ∈ (s'.homeLine line).waiters)) ∧
    (w.host = false → s.frameCheck w.asid w.gen w.pa true = .stale →
      ∃ s', exec (.sliceWrite w) s = .next s' ∧ s'.lines = s.lines ∧ s'.hbm = s.hbm ∧ s'.hostMem = s.hostMem ∧
        Msg.eventRecordWrite ⟨2, 0, 1, n, BitVec.ofNat 64 w.pa, eventD1 w.asid w.gen 0⟩ ∈ s'.net))

/-- R102, R104 to R106, R311: a holder drops its copy and acknowledges; the last acknowledgement, or home time at EMAX + G, ends the
collapse, which no time after EMAX + G does, and every store that waited gets the later of its own time and the end; a copy that has expired is gone; a recalled
line is back at its home with its owner's bytes; a GWCT joins the warp's values of its scope and the wider ones. -/
def Obligations.CollapsesEnd : Prop :=
  let ended (s s' : State) (line end_ : Nat) : Prop :=
    (s'.homeLine line).cpend = false ∧ (s'.homeLine line).waiters = [] ∧ (s'.homeLine line).hold = 0 ∧
      (s'.homeLine line).value = (s.homeLine line).value ∧
      ∀ warp lane id t, (Waiter.store warp lane id, t) ∈ (s.homeLine line).waiters →
        Msg.storeAcknowledgement ⟨id, warp, lane, max end_ t, .blk, true⟩ ∈ s'.net
  (∀ (die line : Nat) (s : State), ∃ s', exec (.collapseReceipt die line) s = .next s' ∧
    s'.net = s.net ++ [.collapseAck die line] ∧ (∀ c ∈ s'.copies, ¬(c.die = die ∧ c.line = line)) ∧ s'.lines = s.lines) ∧
  (∀ (die line : Nat) (s : State), (s.homeLine line).cpend = true →
    let hold := (s.homeLine line).hold &&& ~~~(BitVec.ofNat 8 (2 ^ die))
    (hold = 0 → ∃ s', exec (.collapseAck die line) s = .next s' ∧
      ended s s' line (min (s.homeTime line) (s.collapseDue line (s.homeLine line)))) ∧
    (hold ≠ 0 → ∃ s', exec (.collapseAck die line) s = .next s' ∧ (s'.homeLine line).hold = hold ∧
      (s'.homeLine line).cpend = true ∧ (s'.homeLine line).waiters = (s.homeLine line).waiters ∧ s'.net = s.net)) ∧
  (∀ (line : Nat) (s : State), (s.homeLine line).cpend = true →
    let g := ((s.homeLine line).grants.map fun x => s.skew2 (homeDie line) x.1).foldl max (s.die (homeDie line)).skew.toNat
    ((s.homeLine line).emax + g ≤ s.homeTime line →
      ∃ s', exec (.leaseExpiry line) s = .next s' ∧ ended s s' line ((s.homeLine line).emax + g)) ∧
    (s.homeTime line < (s.homeLine line).emax + g → exec (.leaseExpiry line) s = .next (s.hold (.leaseExpiry line)))) ∧
  (∀ (die line : Nat) (s : State), (∃ c ∈ s.copies, c.die = die ∧ c.line = line) →
    ((∀ c ∈ s.copies, c.die = die → c.line = line → c.expiry ≤ (s.common die).toNat + s.skew2 (homeDie line) die) →
      ∃ s', exec (.copyExpiry die line) s = .next s' ∧ s'.net = s.net ∧
        ∀ c, c ∈ s'.copies ↔ c ∈ s.copies ∧ ¬(c.die = die ∧ c.line = line))) ∧
  (∀ (line o byDie : Nat) (s : State), (s.homeLine line).ownerDie = some o → o ≠ byDie →
    ∃ s', exec (.recall line byDie) s = .next s' ∧ (s'.homeLine line).ownerDie = none ∧
      (s'.homeLine line).data = (s.homeLine line).ownerData ∧
      (s'.homeLine line).state = (if (s.homeLine line).ownerDirty then .dirty else .clean) ∧
      (s'.homeLine line).tpp = some (s.homeTime line)) ∧
  (∀ (a : StoreAck) (s : State), (Tab.find s.warps a.warp).isSome = true →
    ∃ s', exec (.storeAcknowledgement a) s = .next s' ∧
      (let w := s.warp a.warp
       let v := s'.warp a.warp
       v.gwSys = later w.gwSys a.gwct ∧ (a.scope ≠ .sys → v.gwDev = later w.gwDev a.gwct) ∧ (a.scope = .sys → v.gwDev = w.gwDev) ∧
       (a.scope = .blk → v.gwBlk = later w.gwBlk a.gwct) ∧ (a.scope ≠ .blk → v.gwBlk = w.gwBlk) ∧
       (∀ p ∈ v.stores, p.id ≠ a.id) ∧ v.regs = w.regs ∧ v.uregs = w.uregs))

/-- R115 to R118: a corrected error counts at its die and changes nothing else, and the mesh and the links replay; an uncorrectable
one in HBM, or in a slice in a dirty line or one that the die owns, loses its line, no read of which is served before. A lost line stands at its last good value, is reported with the generation of before its bump, and ends
the work of its owner. A lost die's lines and copies are gone and it is reported; a die reset without blocks and collapses leaves it
without lines, copies and cores, its timer calibrated anew (by values that are the model's choice, log 25). -/
def Obligations.ErrorsAndLosses : Prop :=
  (∀ (stage : ErrorStage) (die line : Nat) (s : State),
    (∀ c, stage = .mesh ∨ stage = .link → exec (.softError stage die line c) s = .next s) ∧
    (stage = .hbm ∨ stage = .slice → exec (.softError stage die line true) s = .next (s.countSlice die 6)) ∧
    (stage = .hbm → exec (.softError stage die line false) s =
      .next ({ s.countSlice die 7 with badLines := s.badLines ++ [line] }.send (.lineLoss line 2))) ∧
    (stage = .slice → ∀ h, Tab.find s.lines line = some h →
      h.ownerDie = some die ∨ homeDie line = die ∧ h.state = .dirty ∧ h.ownerDie = none →
      exec (.softError stage die line false) s =
        .next ({ s.countSlice die 7 with badLines := s.badLines ++ [line] }.send (.lineLoss line 1)))) ∧
  (∀ (line cause : Nat) (s : State),
    let asid := (s.frame (line / 512)).owner
    let h := s.homeLine line
    let hbm := Memory.line s.hbm (128 * line)
    let good := if h.ownerDie.isNone ∧ h.state = .dirty then hbm else h.data
    ∃ s', exec (.lineLoss line cause) s = .next s' ∧
      s'.homeLine line = { h with
        state := if good = hbm then .clean else .dirty, ownerDie := none, ownerDirty := false, data := good } ∧
      line ∉ s'.badLines ∧
      Msg.eventRecordWrite ⟨3, 0, 1, s.fe.nextSeq, BitVec.ofNat 64 (128 * line), eventD1 asid (s.asid asid).gen cause⟩ ∈ s'.net ∧
      ((s.asid asid).st = 1 → (s.asid asid).gen < 0xFFFFF → (s'.asid asid).gen = (s.asid asid).gen + 1) ∧
      ∀ g ∈ s.grids, g.2.asid = asid → g.2.fault = none → Msg.fatalFault g.1 (report clsStaleGen 0 0) 0 ∈ s'.net) ∧
  (∀ (die : Nat) (s : State), (Tab.find s.dies die).isSome = true →
    ∃ s', exec (.dieLoss die) s = .next s' ∧ (s'.die die).lost = true ∧ (∀ e ∈ s'.lines, homeDie e.1 ≠ die) ∧
      (∀ c ∈ s'.copies, c.die ≠ die) ∧ ∃ n, Msg.eventRecordWrite ⟨3, 0, 1, n, 0, eventD1 0 (s'.asid 0).gen 3⟩ ∈ s'.net) ∧
  (∀ (die : Nat) (s : State), (Tab.find s.dies die).isSome = true →
    s.blocksOn die = [] →
    (∀ e ∈ s.lines, homeDie e.1 = die → e.2.cpend = false) →
    ∃ s', exec (.dieReset die) s = .next s' ∧ (s'.die die).resetting = false ∧ (s'.die die).lost = false ∧
      (s'.die die).cnt = (s.die die).cnt ∧ (s'.die die).shadow = some ⟨0, 0, 8⟩ ∧
      s'.net = (s.dropAcks die).net ++ [.dieTimerCalibration die ⟨0, 0, 8⟩] ∧ (∀ c ∈ s'.copies, c.die ≠ die) ∧
      (∀ e ∈ s'.lines, homeDie e.1 ≠ die) ∧ ∀ e ∈ s'.cores, dieOfCore e.1 ≠ die) ∧
  (∀ (die : Nat) (cal : Calibration) (s : State), (Tab.find s.dies die).isSome = true → cal.skew.toNat ≤ 8 →
    ∃ s', exec (.dieTimerCalibration die cal) s = .next s' ∧ (s'.die die).skew = cal.skew ∧ (s'.die die).cnt = (s.die die).cnt ∧
      (s'.die die).gen = (s.die die).gen + 1 ∧
      (die ≠ Config.feDie → (s'.die die).ofs = cal.ofs ∧ (s'.die die).rate = cal.rate) ∧
      (die = Config.feDie → (s'.die die).ofs = 0 ∧ (s'.die die).rate = 0))

/-- R110 to R112: counts join the keeper entry of their region, and the slices that have asked get its degree; at a boundary each entry's degree moves by R111's table and its
counts go to zero; a pin holds the entry, or a new one, at its degree, one without a free entry is refused, and an unpin only unpins. -/
def Claim.DegreesChange : Prop :=
  let mine (k : Keeper) (asid region : Nat) : Prop := k.asid = asid ∧ k.region = region
  (∀ (asid region rr wr coll : Nat) (s : State), (∃ k ∈ s.keepers, mine k asid region) →
    ∃ s', exec (.degreeCount asid region rr wr coll) s = .next s' ∧ s'.keepers = (s.keepers.map fun k =>
      if k.asid = asid ∧ k.region = region then
        { k with rr := k.rr + rr, wr := k.wr + wr, coll := k.coll + coll, last := s.clock } else k) ∧
      ∀ e ∈ s'.degCache, e.asid = asid → e.region = region → e.deg = some (s'.degree asid region)) ∧
  (∀ (asid region rr wr coll : Nat) (s : State), (∀ k ∈ s.keepers, ¬mine k asid region) →
    (s.keepers.filter fun k => k.die == keeperDie asid region).length < Config.keeperEntries →
    ∃ s', exec (.degreeCount asid region rr wr coll) s = .next s' ∧
      s'.keepers = s.keepers ++ [⟨keeperDie asid region, asid, region, 0, false, rr, wr, coll, s.clock⟩]) ∧
  (∀ (s : State), ∃ s' f, exec .keeperUpdate s = .next s' ∧ s'.keepers = s.keepers.map f ∧ ∀ k,
    (f k).asid = k.asid ∧ (f k).region = k.region ∧ (f k).pin = k.pin ∧ (f k).rr = 0 ∧ (f k).wr = 0 ∧ (f k).coll = 0 ∧
    (k.pin = true ∨ s.mem.frz = true → (f k).deg = k.deg) ∧
    (k.pin = false → s.mem.frz = false →
      (64 ≤ k.coll ∨ k.rr < k.wr → (f k).deg = 0) ∧
      (8 ≤ k.coll → k.coll < 64 → k.wr ≤ k.rr → (f k).deg = k.deg - 1) ∧
      (k.coll < 8 → 64 ≤ k.rr → 4 * k.wr ≤ k.rr → (f k).deg = min 7 (k.deg + 1)) ∧
      (k.coll < 8 → k.wr ≤ k.rr → k.rr < 64 ∨ k.rr < 4 * k.wr → (f k).deg = k.deg))) ∧
  (∀ (value : DWord) (s : State),
    let asid := (value.extractLsb' 47 12).toNat
    let region := (value.extractLsb' 20 27).toNat
    (value.getLsbD 59 = true → (∃ k ∈ s.keepers, mine k asid region) →
      ∃ s', exec (.dgpin value) s = .next s' ∧ s'.mem.dgSts = 2 ∧ s'.keepers = s.keepers.map fun k =>
        if k.asid = asid ∧ k.region = region then
          { k with pin := true, deg := (value.extractLsb' 60 3).toNat } else k) ∧
    (value.getLsbD 59 = true → (∀ k ∈ s.keepers, ¬mine k asid region) →
      (s.keepers.filter fun k => k.die == keeperDie asid region).length < Config.keeperEntries →
      ∃ s', exec (.dgpin value) s = .next s' ∧ s'.mem.dgSts = 2 ∧ s'.keepers = s.keepers ++
        [⟨keeperDie asid region, asid, region, (value.extractLsb' 60 3).toNat, true, 0, 0, 0, s.clock⟩]) ∧
    (value.getLsbD 59 = true → s.keeperFor asid region = none →
      ∃ s', exec (.dgpin value) s = .next s' ∧ s'.mem.dgSts = 3 ∧ s'.keepers = s.keepers) ∧
    (value.getLsbD 59 = false → ∃ s', exec (.dgpin value) s = .next s' ∧ s'.mem.dgSts = 2 ∧
      s'.keepers = s.keepers.map fun k => if k.asid = asid ∧ k.region = region then { k with pin := false } else k))

/-- R110 to R112, R317, R318: degrees as RDEG, the keepers and DGPIN read and change them. -/
def Obligations.DegreesOfRegions : Prop :=
  Claim.DegreeInstruction ∧ Claim.DegreesChange

/-! ## Memory requests and the sweeper (R73 to R97) -/

/-- R83, R92: FE accepts the next record, where the ring is not about to change: its number is the next sequence number, and its step
is on its way, whatever rule it breaks later; MRBASE and MRCTL change once no accepted request is left, and discard the records
not yet accepted, of which no acceptance is left on its way; while an accepted one is left they wait. -/
def Claim.RequestsAccepted : Prop :=
  (∀ (tail : DWord) (s : State) (m : Msg) (r : MemRequest),
    let i := s.mem.mrRead.toNat
    let f (o n : Nat) : Nat := s.peek s.mrInHost (s.mrSlot i + o) n
    s.mrOn = true → s.mrChanging = false → s.Canonical → i < max s.mem.mrTail.toNat tail.toNat →
    r = ⟨f 1 1, f 2 2, BitVec.ofNat 64 (f 8 8), BitVec.ofNat 64 (f 0x10 8), BitVec.ofNat 64 (f 0x18 8), BitVec.ofNat 32 (f 0x20 4),
      s.fe.nextSeq, BitVec.ofNat 64 (f 0x30 8), some i⟩ →
    reqMsg (f 0 1) r = some m → f 0x24 4 = 0 → f 0x38 8 = 0 → reqBad r = false →
    ∃ s', exec (.mrAccept tail) s = .next s' ∧ m ∈ s'.net ∧ s'.mem.mrRead = s.mem.mrRead + 1 ∧ s'.fe.nextSeq = s.fe.nextSeq + 1 ∧
      s'.mem.mrTail.toNat = max s.mem.mrTail.toNat tail.toNat) ∧
  (∀ (tail : DWord) (s : State), s.mrOn = false →
    ∃ s', exec (.mrAccept tail) s = .next s' ∧ s'.net = s.net ∧ s'.mem.mrRead = s.mem.mrRead) ∧
  (∀ (ctl : Bool) (value : DWord) (s : State), (∀ e ∈ s.mreqs, e.2.req.slot = none) →
    ∃ s', exec (.mrbaseWrite ctl value) s = .next s' ∧
      (ctl = true → s'.mem.mrLog2n = value.toNat % 32 ∧ s'.mem.mrBase = s.mem.mrBase) ∧
      (ctl = false → s'.mem.mrBase = value &&& ~~~127#64 ∧ s'.mem.mrLog2n = s.mem.mrLog2n) ∧
      (s.mrOn = true → s.mem.mrRead.toNat < s.ringTail →
        s'.mem.mrRead = BitVec.ofNat 64 s.ringTail ∧ ∀ t, Msg.mrAccept t ∉ s'.net) ∧
      (s.ringTail ≤ s.mem.mrRead.toNat → s'.mem.mrRead = s.mem.mrRead ∧ s'.net = s.net)) ∧
  (∀ (ctl : Bool) (value : DWord) (s : State), (∃ e ∈ s.mreqs, e.2.req.slot ≠ none) → s.mrOn = true →
    s.mem.mrRead.toNat < s.ringTail → exec (.mrbaseWrite ctl value) s = .next (s.hold (.mrbaseWrite ctl value)))

/-- R73, R81, R82, R84, R87: a request whose address space is live and whose range keeps its rules has its effect: the address
space is made or on its way out, the pages are mapped, unmapped, protected or pinned, or the cold choice is set; a change that takes a
right away completes with its generation bump, any other at once with OK. -/
def Claim.RequestsComplete : Prop :=
  ∀ (r : MemRequest) (s : State), s.reqWaits r = false →
    let va := r.va.toNat
    let len := r.len.toNat
    let p := 2 ^ attrLog2 r.attr
    let img (o n : Nat) : Nat := s.peek true (r.addr.toNat + o) n
    (reqBad r = false → attrBad r.attr = false → img 0x0D 1 ≤ 2 → img 0x0E 2 = 0 → img 0x48 56 = 0 → img 0x10 8 % 128 = 0 → img 0x30 8 % 65536 = 0 →
      img 0x38 8 % 65536 = 0 → img 0x40 8 % 65536 = 0 → (s.asid r.asid).st = 0 → (s.asid r.asid).gen < 0xFFFFF →
      (s.allocTable 4096).2.fits = true →
      ∃ s', exec (.ascreate r) s = .next s' ∧ ((s.asid r.asid).gen + 1 < 0xFFFFF → (s'.asid r.asid).st = 1) ∧ (s'.asid r.asid).gen = (s.asid r.asid).gen + 1 ∧
        (s'.asid r.asid).cold = img 0x0D 1 ∧ (s'.asid r.asid).rtab.toNat = img 0x10 8 ∧ (s'.asid r.asid).hbase.toNat = img 0x30 8 ∧
        (s'.asid r.asid).vbase.toNat = img 0x38 8 ∧ (s'.asid r.asid).vlen.toNat = img 0x40 8) ∧
    (s.reqCheck r false true = none →
      (s.asidBusy r.asid = false → s.canBump r.asid = true →
        ∃ s', exec (.asdestroy r) s = .next s' ∧ (s'.asid r.asid).st = 2 ∧ (s'.asid r.asid).gen = (s.asid r.asid).gen + 1 ∧
          ∃ b, s'.bumps = s.bumps ++ [b] ∧ b.asid = r.asid ∧
            b.frames = (s.frames.filter fun e => e.2.owner == r.asid).map (·.1)) ∧
      (s.asidBusy r.asid = true → exec (.asdestroy r) s = .next (s.completeReq r 2)) ∧
      (∃ s', exec (.setcold r) s = .next s' ∧ (s'.asid r.asid).cold = (r.attr.extractLsb' 8 2).toNat ∧
        (s'.asid r.asid).root = (s.asid r.asid).root ∧ (s'.asid r.asid).gen = (s.asid r.asid).gen)) ∧
    (s.reqCheck r true true = none →
      (s.leavesIn r.asid va len = [] → r.attr.getLsbD 2 = false →
        (r.attr.extractLsb' 5 2 = 0 ∨ r.addr.toNat % p = 0 ∧ r.addr.toNat + len ≤ 2 ^ 52) →
        let s1 := s.mapEach r (s.asid r.asid).gen
        exec (.mapPages r) s = .next (if s1.fits then s1.completeReq r 0 else s.completeReq r 5)) ∧
      (∀ ls, s.leaves r.asid va len = some ls → (∀ l ∈ ls, sticksOut r l = false) →
        ((∀ l ∈ ls, s.leafLeased r.asid l = false) → s.canBump r.asid = true →
          exec (.unmap r) s = .next ((ls.foldl (fun s l => s.setPte r.asid (BitVec.ofNat 64 l.va) l.log2 0) s).bumpFor r 4
            (ls.flatMap Leaf.frames))) ∧
        ((∃ l ∈ ls, s.leafLeased r.asid l = true) → exec (.unmap r) s = .next (s.completeReq r 2)) ∧
        (r.attr.getLsbD 2 = false → (∀ l ∈ ls, s.leafLeased r.asid l = false) →
          let s1 := ls.foldl (fun s l => s.setPte r.asid (BitVec.ofNat 64 l.va) l.log2
            (mkPte (pteV l.e) (pteLeaf l.e) (r.attr.getLsbD 0) (r.attr.getLsbD 1) false (pteEvc l.e) (pteTgt l.e) (pteAddr l.e))) s
          ((∀ l ∈ ls, (pteR l.e = true → r.attr.getLsbD 0 = true) ∧ (pteW l.e = true → r.attr.getLsbD 1 = true) ∧
            pteX l.e = false) → exec (.protect r) s = .next (s1.completeReq r 0)) ∧
          ((∃ l ∈ ls, pteR l.e = true ∧ r.attr.getLsbD 0 = false ∨ pteW l.e = true ∧ r.attr.getLsbD 1 = false ∨
            pteX l.e = true) → s.canBump r.asid = true → exec (.protect r) s = .next (s1.bumpFor r 5 []))) ∧
        exec (.setpin r) s = .next (((ls.flatMap Leaf.frames).foldl
          (fun s n => s.setFrame n fun f => { f with pin := r.attr.getLsbD 7 }) s).completeReq r 0)) ∧
      (s.leaves r.asid va len = none → exec (.unmap r) s = .next (s.completeReq r 3) ∧
        (r.attr.getLsbD 2 = false → exec (.protect r) s = .next (s.completeReq r 3)) ∧
        exec (.setpin r) s = .next (s.completeReq r 3)))

/-- R73 to R92: memory requests are accepted and completed. -/
def Obligations.MemoryRequests : Prop :=
  Claim.RequestsAccepted ∧ Claim.RequestsComplete

/-- R81, R87, R95 to R97: MIGIN brings the evicted pages of its range in; MIGOUT takes the resident ones of any size out, first their
entries and then, with its bump, their bytes, and expands compressed ones before; a move whose outcome another move has fixed
takes that status. A receiver of a bump installs the generation, and acknowledges once its older accesses are over; the last
acknowledgement ends the bump, and its frames, which no lease stands on (R108), are free. -/
def Claim.PagesMove : Prop :=
  (∀ (r : MemRequest) (s : State) (ls : List Leaf), s.moveFixed r = none → s.reqWaits r = false →
    s.reqCheck r true true = none → s.leaves r.asid r.va.toNat r.len.toNat = some ls → (∀ l ∈ ls, sticksOut r l = false) →
    let out := ls.filter fun l => !pteV l.e
    let res := ls.filter fun l => pteV l.e && pteTgt l.e == 0
    let s1 := out.foldl (fun s l => s.moveIn r.asid l.va) s
    exec (.migin r) s = .next (if s1.fits then s1.completeReq r 0 else s.completeReq r 5) ∧
    ((∀ l ∈ res, s.leafLeased r.asid l = false) → (∀ q ∈ pageList r.va.toNat r.len.toNat, s.backed r.asid q = true) →
      (res = [] → exec (.migout r) s = .next (s.completeReq r 0)) ∧
      (res ≠ [] → s.canBump r.asid = true →
        (s.squeezed res = [] → exec (.migout r) s = .next (s.moveOut r (res.map Leaf.va))) ∧
        (s.squeezed res ≠ [] → exec (.migout r) s = .next
          (State.hold (((s.squeezed res).filter fun n => (s.frame n).state == 2).foldl (fun s n => s.expand n) s) (.migout r))))) ∧
    ((∃ l ∈ res, s.leafLeased r.asid l = true) → exec (.migout r) s = .next (s.completeReq r 2))) ∧
  (∀ (r : MemRequest) (s : State) (st : Nat), s.moveFixed r = some st →
    exec (.migin r) s = .next (s.completeReq r st) ∧ exec (.migout r) s = .next (s.completeReq r st)) ∧
  (∀ (asid agent : Nat) (b : Bump) (s : State), s.bumps = [b] → b.asid = asid → agent ∈ b.installs →
    ∃ s', exec (.generationAck asid agent) s = .next s' ∧ s'.genAt agent asid = (s.asid asid).gen ∧
      Msg.generationAck asid agent ∈ s'.net) ∧
  (∀ (asid agent : Nat) (b : Bump) (s : State), s.bumps = [b] → b.asid = asid → agent ∉ b.installs → b.waiting = [agent] →
    b.reqs = [] →
    (agent ∉ s.outstanding asid b.gen →
      (∀ e ∈ s.lines, e.1 / 512 ∈ b.frames → e.2.cpend = false ∧ s.liveLeases e.1 e.2 = []) → ∃ s', exec (.generationAck asid agent) s = .next s' ∧ s'.bumps = [] ∧
      (∀ n ∈ b.frames, (s'.frame n).state = 0) ∧ ∀ n, n ∉ b.frames → s'.frame n = s.frame n) ∧
    (agent ∈ s.outstanding asid b.gen → exec (.generationAck asid agent) s = .next (s.hold (.generationAck asid agent))))

/-- R79, R88, R94 to R97: the sweeper's visit clears a frame's ACCESSED, or puts a cold frame on the ready queue and moves on; an entry
taken from the queue starts its compression or its eviction while it is still eligible; a compression is committed where it fits 24
granules and the moraine has room, its granules below the zone's end, and given up where it does not; an expansion takes a storage
frame in STATE 3 and puts the frame back into STATE 1; an eviction is a move of the device's own, and waits for a move in of its page. -/
def Claim.SweeperActs : Prop :=
  (∀ (s : State), let n := s.mem.swHand
    (s.sweepOn = false → exec .sweeperVisit s = .next s) ∧
    (s.sweepOn = true → ∃ s', exec .sweeperVisit s = .next s' ∧ s'.mem.swHand = (n + 1) % 2 ^ 24 ∧
      (∀ k, k ≠ n → s'.frame k = s.frame k) ∧
      ((s.frame n).state = 1 → (s.frame n).pin = false → (s.frame n).owner ≠ 0 → (s.frame n).accessed = true →
        s'.frame n = { s.frame n with accessed := false } ∧ s'.net = s.net ∧ s'.mem.swQ = s.mem.swQ) ∧
      (s.eligible (s.frame n) = true → (s.frame n).accessed = false → s.mem.swQ.length < 1024 →
        s'.mem.swQ = s.mem.swQ ++ [n] ∧
        s'.net = s.net ++ [if (s.asid (s.frame n).owner).cold = 1 then .compression n else .eviction n]))) ∧
  (∀ (n : Nat) (s : State), s.eligible (s.frame n) = true → (s.asid (s.frame n).owner).cold = 1 →
    ∃ s' g, exec (.compression n) s = .next s' ∧ (s'.frame n).state = 4 ∧ 1 ≤ g ∧ s'.net = s.net ++ [.compressionCommit n g] ∧
      s'.mem.swQ = s.mem.swQ.erase n) ∧
  (∀ (n : Nat) (s : State), s.eligible (s.frame n) = false →
    (∃ s', exec (.compression n) s = .next s' ∧ s'.frames = s.frames ∧ s'.net = s.net) ∧
    ∃ s', exec (.eviction n) s = .next s' ∧ s'.frames = s.frames ∧ s'.net = s.net) ∧
  (∀ (n g : Nat) (s : State), (s.frame n).state = 4 →
    (24 < g → ∃ s', exec (.compressionCommit n g) s = .next s' ∧ (s'.frame n).state = 1 ∧ (s'.frame n).noComp = true ∧
      s'.lines = s.lines) ∧
    (g ≤ 24 → s.freeGranules g = none → exec (.compressionCommit n g) s = .next (s.setFrame n fun f => { f with state := 1 })) ∧
    (∀ c, g ≤ 24 → s.freeGranules g = some c →
      (∀ e ∈ s.lines, e.1 / 512 = n → e.2.cpend = false ∧ s.liveLeases e.1 e.2 = []) → c + g ≤ s.mem.moraine ∧
      ∃ s', exec (.compressionCommit n g) s = .next s' ∧ (s'.frame n).state = 2 ∧ (s'.frame n).mlen = g ∧ (s'.frame n).mgran = c ∧
        (s'.frame n).sfn = 0 ∧ s'.mem.swFree = s.mem.swFree + 1 ∧ (∀ e ∈ s'.lines, e.1 / 512 ≠ n) ∧ ∀ c ∈ s'.copies, c.line / 512 ≠ n)) ∧
  (∀ (n : Nat) (s : State),
    ((s.frame n).state = 3 → ∃ s', exec (.expansion n) s = .next s' ∧ (s'.frame n).state = 1 ∧ (s'.frame n).mlen = 0 ∧
      s'.mem.swFree = s.mem.swFree) ∧
    ((s.frame n).state = 2 → 0 < s.mem.swFree → ∃ s', exec (.expansion n) s = .next s' ∧ (s'.frame n).state = 3 ∧
      (s'.frame n).sfn = s.freshSfn ∧ s'.mem.swFree = s.mem.swFree - 1 ∧ s'.net = s.net ++ [.expansion n])) ∧
  (∀ (n : Nat) (s : State), s.eligible (s.frame n) = true → (s.asid (s.frame n).owner).cold = 2 →
    let f := s.frame n
    let r : MemRequest := ⟨0, f.owner, BitVec.ofNat 64 f.va, 65536, 0, 0, s.fe.nextSeq, 0, none⟩
    (s.opposed f.owner f.va 7 = false →
      ∃ s' k m, exec (.eviction n) s = .next s' ∧ s'.fe.nextSeq = s.fe.nextSeq + 1 ∧ s'.mem.swQ = s.mem.swQ.erase n ∧
        Msg.migout r ∈ s'.net ∧ Tab.find s'.mreqs k = some m ∧ m.req = r ∧ m.op = 7 ∧ m.fromDevice = true) ∧
    (s.opposed f.owner f.va 7 = true → exec (.eviction n) s = .next
      ({ s with mem := { s.mem with swQ := s.mem.swQ.erase n } }.hold (.eviction n))))

/-- R81, R87, R88, R94 to R97: pages moved, and the sweeper, compression and eviction. -/
def Obligations.PagesAndSweeping : Prop :=
  Claim.PagesMove ∧ Claim.SweeperActs

/-! ## Scheduling, tasks, grids and blocks (R322 to R328, R363 to R399) -/

/-- R324, R34, R174, R15: a rendezvous that every member has reached, whose flags are set, registers full and traps and deferred faults
absent, issues for its members where their partitions have not issued in this clock; one that is not gathered is looked at again. R328: a stuck instance takes the scope-mismatch fault
with cause 1 in every member. R375: the request of least stamp that nothing can precede issues for its threads. R205: a REGCLAIM
that its pool covers takes its registers and its warp goes on. -/
def Obligations.RendezvousEnd : Prop :=
  (∀ (warp lane : Nat) (s : State) (a : Arrival), let t : TRef := ⟨warp, lane⟩
    (s.thread t).arrival = some a → (s.thread t).exited = false → (s.thread t).wait = none → a.named = none →
    let ms := s.members a warp
    (s.gathered t a = false → exec (.rendezvousComplete warp lane) s = .next ((s.judge t).keep (.rendezvousComplete warp lane))) ∧
    ∀ f, s.gathered t a = true → t ∈ ms → (∀ u ∈ ms, s.mayIssue u = true ∧ s.stopped u = false ∧ (s.thread u).wait = none) →
      (∀ u ∈ ms, ∃ f', s.fetchOf u = .ok f' ∧ (s.warp u.warp).flagsSet f'.waits = true ∧ s.deferredAt u f'.waits = none ∧
        (s.guardHolds u f'.instr.form.g = true → s.emptyTrap u f'.instr.form = none ∧ s.full u f'.instr.form = true)) →
      s.issue = none → s.partsFree ms = true → s.fetchOf t = .ok f →
      exec (.rendezvousComplete warp lane) s =
        .next { (s.useParts ms).waited (ms.map TRef.warp) f.waits with issue := some (f.issue (s.thread t).pos ms false) }) ∧
  (∀ (warp lane : Nat) (s : State) (ws : List Nat), let b := (s.warp warp).block
    s.stuckNarrow b = [ws] →
    ∃ s', exec (.stuckRendezvous warp lane) s = .next s' ∧ ∀ t ∈ s.live ws,
      (s'.thread t).tcause = reportTcause (report clsScope 1 0) ∧ (s'.thread t).arrival = none ∧ (s'.thread t).wait = none) ∧
  (∀ (g : Nat) (s : State) (e : Nat × WaitRec) (t : TRef) (f : Fetched), let w := s.warp e.2.warp
    let ts := e.2.members.filter fun u => (s.thread u).wait == some e.1
    s.stampedOf g = [e] → s.issue = none → s.stampedOut g = false → w.suspended = none →
    (∀ v ∈ s.gridWarps g w.core, v = e.2.warp ∨ s.outOfWay v = true ∨ w.stampLt (s.warp v) = true) →
    (∀ u ∈ ts, s.stopped u = false) → s.partsFree ts = true → ts.head? = some t → (s.unpark e.1).fetchOf t = .ok f →
    exec (.stampedRequestRelease g) s = .next { ((s.unpark e.1).useParts ts).waited (ts.map TRef.warp) f.waits with
      issue := some (f.issue ((s.unpark e.1).thread t).pos ts true) }) ∧
  (∀ (wait n : Nat) (s : State) (r : WaitRec), Tab.find s.waits wait = some r → r.kind = .regclaim n →
    (Tab.find s.warps r.warp).isSome = true →
    (s.poolHas r.warp n = true → ∃ s', exec (.regclaimGrant wait) s = .next s' ∧ (s'.warp r.warp).alloc = n ∧
      Tab.find s'.waits wait = none ∧
      ∀ l v, (s.warp r.warp).alloc ≤ v → v < n → l < 32 →
        SMap.get 0 (s'.warp r.warp).regs (32 * v + l) = 0) ∧
    (s.poolHas r.warp n = false → exec (.regclaimGrant wait) s = .next s))

/-- R370, R371: a lend accepted before its expiry moves its record to the thief; at its expiry the record is queued again. A task
ends once its warp's writes are released: its successor's counter is decremented and the task no longer runs. R398: a cairn slot
granted moves the warp there with 1 in its predicate; at the deadline the request ends with 0. -/
def Obligations.TasksEnd : Prop :=
  let lendTime (s : State) (l : Lend) : Nat × Nat :=
    match s.fePlace (s.grid l.grid).asid ((s.grid l.grid).deque l.victim l.data) false with
    | some (false, pa) => (s.homeTime (pa / 128), homeDie (pa / 128))
    | _ => (s.now, Config.feDie)
  (∀ (id d : Nat) (s : State) (l : Lend) (r : WaitRec), Tab.find s.fe.lends id = some l → Tab.find s.waits l.wait = some r →
    r.kind = .fetchTask d → (s.warp r.warp).core = l.thief →
    let gr := s.grid l.grid
    let rd (o n : Nat) : Nat := ofLeBytes (s.dequeBytes gr.asid (gr.deque l.victim l.data + BitVec.ofNat 64 o) n)
    let h := s.dequeHead l.grid l.victim l.data
    rd 0x10 1 % 2 = 1 → rd 0x12 2 = l.thief →
    (lendTime s l).1 + s.skew2 (lendTime s l).2 (dieOfCore l.thief) < l.expiry → l.data = false →
    let s1 := (s.setDeque l.grid l.victim l.data 0 8 (h.top + 1)).setDeque l.grid l.victim l.data 0x10 1 0
    exec (.lendAccept id) s = .next (((State.giveTask { s1 with fe := { s1.fe with lends := Tab.del s1.fe.lends id } } l.wait r.warp
      l.record).dispatchAll l.grid).checkGrid l.grid)) ∧
  (∀ (id : Nat) (s : State) (l : Lend), Tab.find s.fe.lends id = some l →
    let due := l.expiry + s.skew2 (lendTime s l).2 (dieOfCore l.thief)
    ((lendTime s l).1 < due → exec (.lendExpiry id) s = .next (s.hold (.lendExpiry id))) ∧
    (due ≤ (lendTime s l).1 → (s.grid l.grid).fault = none →
      let s1 := s.setDeque l.grid l.victim l.data 0x10 1 0
      exec (.lendExpiry id) s =
        .next ((State.dispatchAll { s1 with fe := { s1.fe with lends := Tab.del s1.fe.lends id } } l.grid).checkGrid l.grid))) ∧
  (∀ (warp : Nat) (s : State) (t : TaskRec), (s.warp warp).task = some t →
    let w := s.warp warp
    let succ := BitVec.ofNat 64 (field t.bytes 0x20 8)
    (s.warpReleased warp = false → exec (.taskEnd warp) s = .next (s.hold (.taskEnd warp))) ∧
    (s.warpReleased warp = true →
      let s1 := if succ = 0 then s else s.decSuccessor warp succ
      exec (.taskEnd warp) s = .next ((((((s1.setWarp warp fun w => { w with task := none }).setGrid w.grid fun g =>
        { g with tasksRunning := g.tasksRunning - 1 }).dispatchAll w.grid).reap warp).checkGrid w.grid)))) ∧
  (∀ (wait dst die c p : Nat) (va : DWord) (dl : Option Nat) (s : State) (r : WaitRec) (e : TlbEntry),
    Tab.find s.waits wait = some r → r.kind = .migrate dst va die dl → (Tab.find s.warps r.warp).isSome = true →
    s.look (s.warp r.warp).core (s.warp r.warp).asid va = some e →
    let slice := homeSlice (e.at va / 128)
    (s.cairnFor die slice = none → exec (.cairnGrant wait) s = .next (s.hold (.cairnGrant wait))) ∧
    (s.cairnFor die slice = some (c, p) →
      ∃ s', exec (.cairnGrant wait) s = .next s' ∧ (s'.warp r.warp).core = c ∧ (s'.warp r.warp).part = p ∧
        (s'.warp r.warp).slot = 12 ∧ (s'.warp r.warp).origin = some (s.warp r.warp).home ∧ Tab.find s'.waits wait = none ∧
        s'.fe.peMigr = s.fe.peMigr + 1)) ∧
  (∀ (wait dst die dl : Nat) (va : DWord) (s : State) (r : WaitRec),
    Tab.find s.waits wait = some r → r.kind = .migrate dst va die (some dl) →
    let now := (s.common (dieOfCore (s.warp r.warp).core)).toNat
    (now < dl → exec (.cairnTimeout wait) s = .next (s.hold (.cairnTimeout wait))) ∧
    (dl ≤ now → ∃ s', exec (.cairnTimeout wait) s = .next s' ∧ Tab.find s'.waits wait = none ∧
      s'.fe.peMigF = s.fe.peMigF + 1))

/-- R309, R363, R364, R368, R376, R378, R379, R396: a grid whose turn has come places its next block on the cores chosen, each warp's
threads at the kernel's entry; a grid whose conditions hold is completed and gone, once the time of its writes has passed; the first fatal report of a grid is the one
recorded, and it ends once its started copies and drains are over; the estimator marks the victims of a bounded grid, and
decides again for a drained block still there at its deadline. -/
def Claim.GridsProceed : Prop :=
  (∀ (g b : Nat) (rest cs : List Nat) (s : State), let gr := s.grid g
    (Tab.find s.grids g).isSome = true → gr.waits = true → gr.det = false → gr.toPlace = b :: rest →
    (s.turnOf fun e => e.record.isNone && e.grid == g) = true →
    (s.coresFor g = none → exec (.placement g) s = .next (s.hold (.placement g))) ∧
    (s.coresFor g = some cs → ∃ s' blk, exec (.placement g) s = .next s' ∧ Tab.find s'.blocks s.nextId = some blk ∧
      blk.grid = g ∧ blk.index = b ∧ blk.places = cs ∧ b ∉ (s'.grid g).toPlace ∧
      ∀ i, i < gr.wpb → let w := s.nextId + 1 + i
        (s'.warp w).index = i ∧ (s'.warp w).alloc = gr.kernel.regs ∧ (s'.warp w).role = gr.kernel.roleOf i ∧
          (s'.warp w).block = s.nextId ∧ ∀ l, l < 32 → (s'.thread ⟨w, l⟩).pos = gr.kernel.entry)) ∧
  (∀ (g : Nat) (s : State), (Tab.find s.grids g).isSome = true →
    (s.gridDone g = true → (s.grid g).gw ≠ 0 → s.now < (s.grid g).gw.toNat + s.pkskew →
      exec (.gridCompletion g) s = .next (s.hold (.gridCompletion g))) ∧
    (s.gridDone g = true → (s.grid g).gw = 0 ∨ (s.grid g).gw.toNat + s.pkskew ≤ s.now →
      ∃ s', exec (.gridCompletion g) s = .next s' ∧ Tab.find s'.grids g = none) ∧
    (s.gridDone g = false → ∃ s', exec (.gridCompletion g) s = .next s' ∧ (s'.grid g).state = .running ∧ s'.net = s.net)) ∧
  (∀ (g : Nat) (r : Report) (pos : DWord) (s : State) (gr : Grid), Tab.find s.grids g = some gr → gr.state ≠ .ending →
    let s1 := if gr.fault.isSome then s else s.setGrid g fun x => { x with fault := some (r, pos) }
    (s.enginesDone g = false → ∃ s', exec (.fatalFault g r pos) s = .next s' ∧ s'.net = .fatalFault g r pos :: s.net ∧
      (gr.fault = none → (s'.grid g).fault = some (r, pos)) ∧ (∀ x, gr.fault = some x → (s'.grid g).fault = some x)) ∧
    (s.enginesDone g = true → exec (.fatalFault g r pos) s = .next (s1.endGrid g))) ∧
  (∀ (g : Nat) (s : State) (cs : List (List Nat)), let gr := s.grid g
    gr.waits = true → gr.latb ≠ 0 → s.fe.peEn = true → gr.fault = none → (∀ e ∈ s.grids, Msg.estimatorRun e.1 ∉ s.net) →
    s.provisional g = some cs →
    let taken := cs.flatten.filter fun c => !s.freeFor g c
    let bav : Int := (gr.accepted : Int) + 1000 * (gr.latb : Int) - (s.now : Int) - (s.fe.peResv : Int)
    (taken = [] → exec (.estimatorRun g) s = .next s) ∧
    (taken ≠ [] → exec (.estimatorRun g) s =
      .next ((s.victimsOn taken).foldl (fun s u => s.markVictim u bav true) (s.setGrid g fun x => { x with reserve := cs })))) ∧
  (∀ (b : Nat) (bav : Int) (s : State), (Tab.find s.blocks b).isSome = true →
    let s' := s.markVictim [b] bav false
    (s'.block b).mark = some (s.decision [b] bav false) ∧
      (s.decision [b] bav false = 1 → Msg.flush b ∈ s'.net ∧ (s'.block b).stopping = some 0) ∧
      (s.decision [b] bav false = 2 → Msg.save b ∈ s'.net ∧ (s'.block b).stopping = some 1)) ∧
  (∀ (b dl : Nat) (s : State) (blk : Block), Tab.find s.blocks b = some blk → blk.drain = some dl →
    (s.now < dl → exec (.drainRecheck b) s = .next (s.hold (.drainRecheck b))) ∧
    (dl ≤ s.now → blk.stopping = none → exec (.drainRecheck b) s = .next (s.markVictim (s.unit b) 0 false)))

/-- R150, R380 to R383: a block to be flushed, once it has stopped and its stores are over, leaves its cores and waits for its
place again; one to be saved leaves them with a record in the heap, and a saved block whose turn has come, and to which no wake is on
its way, is back on cores, its record gone. A block whose threads have all waited for YLDT ticks is saved, and the end of a wait of one queues it for restore. -/
def Claim.BlocksMove : Prop :=
  (∀ (b : Nat) (s : State) (blk : Block), Tab.find s.blocks b = some blk → (s.grid blk.grid).fault = none →
    let s1 := s.startFlush b
    ((s1.allStopped b = false ∨ s1.flushed b = false) → exec (.flush b) s = .next (s1.hold (.flush b))) ∧
    (s1.allStopped b = true → s1.flushed b = true → ∃ s', exec (.flush b) s = .next s' ∧ Tab.find s'.blocks b = none ∧
      Msg.placement blk.grid ∈ s'.net ∧
      ((Tab.find s.grids blk.grid).isSome = true → blk.index ∈ (s'.grid blk.grid).toPlace))) ∧
  (∀ (b : Nat) (s : State) (blk : Block), Tab.find s.blocks b = some blk → blk.stopping = some 1 → (s.grid blk.grid).fault = none →
    (s.grid blk.grid).det = false →
    ((s.allStopped b = false ∨ s.drained b = false) → ∃ s', exec (.save b) s = .next s' ∧ s'.net = .save b :: s.net ∧
      s'.blocks = s.blocks) ∧
    (s.allStopped b = true → s.drained b = true → Tab.find s.fe.saved s.nextId = none →
      let n := (s.firnBytes false true (s.snapshot b)).length
      ((∃ r ∈ s.heapFree, n ≤ r.2) → ∃ s' v, exec (.save b) s = .next s' ∧ Tab.find s'.blocks b = none ∧
        Tab.find s'.fe.saved s.nextId = some v ∧ v.block = b ∧ v.grid = blk.grid ∧ v.bytes = n ∧ Msg.restore s.nextId ∈ s'.net) ∧
      ((∀ r ∈ s.heapFree, r.2 < n) → ∃ s', exec (.save b) s = .next s' ∧ s'.net = .save b :: s.net ∧ s'.blocks = s.blocks))) ∧
  (∀ (k : Nat) (s : State) (v : Saved) (cores : List Nat), Tab.find s.fe.saved k = some v → v.queued = true →
    (s.grid v.grid).det = false →
    (s.wakeComing v = true → exec (.restore k) s = .next (s.hold (.restore k))) ∧
    (s.wakeComing v = false → (s.turnOf fun e => e.record == some k || (e.record.isSome && e.grid == v.grid && (s.grid v.grid).det)) = true →
    (s.coresForSaved k = none → exec (.restore k) s = .next (s.hold (.restore k))) ∧
    (s.coresForSaved k = some cores → ∃ s' blk, exec (.restore k) s = .next s' ∧ Tab.find s'.blocks v.block = some blk ∧
      blk.places = cores ∧ blk.stopping = none ∧ Tab.find s'.fe.saved k = none ∧ s'.fe.peRest = s.fe.peRest + 1))) ∧
  (∀ (b t : Nat) (s : State) (blk : Block), Tab.find s.blocks b = some blk → s.mem.yldt ≠ 0 → (s.grid blk.grid).det = false →
    blk.stopping = none → blk.idleSince = some t → s.allWaiting b = true →
    (t + s.mem.yldt ≤ s.now → ∃ s', exec (.blockYield b) s = .next s' ∧ (s'.block b).stopping = some 2 ∧
      s'.net = s.net ++ [.save b]) ∧
    (s.now < t + s.mem.yldt → exec (.blockYield b) s = .next s)) ∧
  (∀ (k : Nat) (s : State), (Tab.find s.fe.saved k).isSome = true → Msg.restore k ∉ s.net →
    exec (.yieldWake k) s = .next (s.send (.restore k)))

/-- R150, R363, R364, R368, R376 to R383, R396: grids placed, ended and completed, and blocks moved. -/
def Obligations.GridsAndBlocks : Prop :=
  Claim.GridsProceed ∧ Claim.BlocksMove

/-! ## The front end (R350 to R363, R373, R374) -/

/-- R353, R374: QUEUE_CREATE of a sound descriptor of a live address space makes the queue, once FE has reached its control word, with its
tail and read index at that value; QUEUE_DESTROY of an idle queue removes it; HALT halts it and RESUME runs it again without its error;
each names its status, and a queue that is not there is refused. -/
def Claim.QueueCommands : Prop :=
  ∀ (qid : Nat) (s : State),
    (let d := s.qdescBytes
     let q0 := Queue.ofDesc d 0 s.now
     (∀ s1, descOk d = true → (s.asid q0.asid).st = 1 → s.feBoth q0.asid q0.ctrl = true → s.feBoth q0.asid q0.stat = true →
      s.queue? qid = none → s.feReach q0.asid false [(q0.ctrl.toNat, 8)] = (s1, true) →
      ∃ s', exec (.queueCreate qid) s = .next s' ∧ s'.fe.qstsCode = 0 ∧ s'.fe.qstsSt = 2 ∧
        s'.queue? qid = some (Queue.ofDesc d (BitVec.ofNat 64 ((s1.feRead q0.asid q0.ctrl 8).getD 0)) s1.now)) ∧
     (descOk d = false → exec (.queueCreate qid) s = .next (s.queueRefused 2)) ∧
     (descOk d = true → (s.asid q0.asid).st = 1 → s.feBoth q0.asid q0.ctrl = true → s.feBoth q0.asid q0.stat = true →
      (s.queue? qid).isSome = true → exec (.queueCreate qid) s = .next (s.queueRefused 5))) ∧
    (s.queue? qid = none → exec (.queueDestroy qid) s = .next (s.queueRefused 4) ∧
      exec (.queueHalt qid) s = .next (s.queueRefused 4) ∧ exec (.queueResume qid) s = .next (s.queueRefused 4)) ∧
    ∀ q, s.queue? qid = some q →
      ((∀ g ∈ s.grids, g.2.queue ≠ qid) → q.packets = [] → ∃ s', exec (.queueDestroy qid) s = .next s' ∧
        s'.queue? qid = none ∧ s'.fe.qstsCode = 0 ∧ s'.fe.qstsSt = 2) ∧
      (q.packets ≠ [] → exec (.queueDestroy qid) s = .next (s.queueRefused 1)) ∧
      (∃ s', exec (.queueHalt qid) s = .next s' ∧ s'.queue? qid = some { q with state := if q.state = 2 then 2 else 1 } ∧
        s'.fe.qstsCode = 0 ∧ s'.fe.qstsSt = 2) ∧
      (q.held = [] → ∃ s', exec (.queueResume qid) s = .next s' ∧ s'.queue? qid = some { q with state := 0, error := none } ∧
        Msg.packetAccept qid ∈ s'.net ∧ s'.fe.qstsCode = 0 ∧ s'.fe.qstsSt = 2) ∧
      (q.held ≠ [] → exec (.queueResume qid) s = .next (s.queueRefused 3))

/-- R355, R356, R359, R360, R80: FE reaches a line before it acts on what it reads there, and looks again where it must wait; the tail
only grows, and a change is acted on; the packet at RDIDX whose index matches is accepted with the next sequence number; a packet that may start does what its type says; and a mapping pass gives a queue slot to a
pending queue. -/
def Claim.PacketsProceed : Prop :=
  (∀ (qid : Nat) (value : DWord) (s s1 : State) (q : Queue), s.queue? qid = some q →
    s.feReach q.asid false [(q.ctrl.toNat, 8)] = (s1, false) →
    exec (.tailUpdate qid value) s = .next (s1.hold (.tailUpdate qid value))) ∧
  (∀ (qid : Nat) (value : DWord) (s s1 : State) (q : Queue), s.queue? qid = some q →
    s.feReach q.asid false [(q.ctrl.toNat, 8)] = (s1, true) →
    let v := max value.toNat ((s1.feRead q.asid q.ctrl 8).getD 0)
    ∃ s' q', exec (.tailUpdate qid value) s = .next s' ∧ s'.queue? qid = some q' ∧
      (v ≤ q.tail.toNat → q' = q) ∧
      (q.tail.toNat < v → q'.tail = BitVec.ofNat 64 v ∧ q'.rdidx = q.rdidx ∧ Msg.packetAccept qid ∈ s'.net ∧
        (q.mapped = none → qid ∈ s'.fe.kick ∧ Msg.mappingPass ∈ s'.net))) ∧
  (∀ (qid : Nat) (s : State) (q : Queue) (bs : List Byte), s.queue? qid = some q → q.state = 0 → q.rdidx.toNat < q.tail.toNat →
    s.feBytes q.asid q.slotVa 128 = some bs →
    let d := (field bs 4 4 + 2 ^ 32 - q.rdidx.toNat % 2 ^ 32) % 2 ^ 32
    (∀ s1, field bs 0 1 ≠ 0 → d = 0 → s.feReach q.asid false [(q.slotVa.toNat, 128)] = (s1, true) →
      ∃ s' q' p, exec (.packetAccept qid) s = .next s' ∧ s'.queue? qid = some q' ∧
      q'.rdidx = q.rdidx + 1 ∧ q'.packets = q.packets ++ [p] ∧ p.seq = s1.fe.nextSeq ∧ p.index = q.rdidx ∧ p.bytes = bs ∧
      p.started = false ∧ Msg.packetStart qid s1.fe.nextSeq ∈ s'.net) ∧
    (2 ^ q.log2n ≤ d → d < 2 ^ 31 → 0 < d → exec (.packetAccept qid) s = .next (s.queueError qid q.rdidx 1 0x80))) ∧
  (∀ (qid : Nat) (s : State) (q : Queue), s.queue? qid = some q → q.state = 0 → q.rdidx.toNat < q.tail.toNat →
    s.feBytes q.asid q.slotVa 128 = none → exec (.packetAccept qid) s = .next (s.queueError qid q.rdidx 8 q.slotVa)) ∧
  (∀ (qid seq : Nat) (s : State) (q : Queue) (p : Packet), s.queue? qid = some q → s.packet? qid seq = some p →
    p.started = false → q.mayStart p = true → (∀ e ∈ q.packets, Msg.launch qid e.seq ∉ s.net) → field p.bytes 0 4 < 2 ^ 10 →
    1 ≤ p.type → p.type ≤ 5 → ∃ s', exec (.packetStart qid seq) s = .next s' ∧
      s'.net = s.net ++ [match p.type with
        | 1 => .launch qid seq
        | 2 => .waitSignals qid seq
        | 3 => .signal qid seq
        | 4 => .routineLoad qid seq
        | _ => .catalogueUpdate qid seq] ∧ ∃ p', s'.packet? qid seq = some p' ∧ p'.started = true) ∧
  (∀ (qid seq : Nat) (s : State) (q : Queue) (p : Packet), s.queue? qid = some q → s.packet? qid seq = some p →
    p.started = false → q.mayStart p = false → exec (.packetStart qid seq) s = .next (s.hold (.packetStart qid seq))) ∧
  (∀ (qid : Nat) (s : State) (q : Queue), (s.fe.queues.filter fun e => e.2.pending) = [(qid, q)] → s.queue? qid = some q →
    s.freeSlot.isSome = true → ∃ s' q' k, exec .mappingPass s = .next s' ∧ s'.fe.kick = [] ∧ s'.queue? qid = some q' ∧
      q'.mapped = some k ∧ k < Config.queueSlots ∧ q'.mappedAt = s.now)

/-- R353 to R360, R374: queue commands, and packets accepted and started. -/
def Obligations.QueuesAndPackets : Prop :=
  Claim.QueueCommands ∧ Claim.PacketsProceed

/-- R358, R362, R374: WAIT-SIGNALS whose condition holds ends, one whose condition does not hold waits, and at its deadline
fails with TIMEOUT; SIGNAL changes the signal it names; CATALOGUE-UPDATE drops its address space's catalogue entries. -/
def Claim.SignalPackets : Prop :=
  ∀ (qid seq : Nat) (s : State) (q : Queue) (p : Packet), s.queue? qid = some q → s.packet? qid seq = some p →
    (let count := field p.bytes 8 1
     1 ≤ count → count ≤ 6 → field p.bytes 9 1 ≤ 1 → zeros p.bytes 10 2 = true → zeros p.bytes 0x40 64 = true →
     (∀ k, k < 6 → k < count ∨ zeros p.bytes (0x10 + 8 * k) 8 = true) →
     (∀ va ∈ p.signals, va.toNat % 8 = 0 ∧ s.feReadable q.asid va = true) →
     (∀ s1 b, s.signalsMet q.asid p = true → s.feReach q.asid false (p.signals.map fun va => (va.toNat, 8)) = (s1, b) →
       exec (.waitSignals qid seq) s = .next (if b then s1.endPacket qid seq true else s1.hold (.waitSignals qid seq))) ∧
     (s.signalsMet q.asid p = false → field p.bytes 0x0C 4 = 0 →
       exec (.waitSignals qid seq) s = .next (s.hold (.waitSignals qid seq)))) ∧
    (∀ t, p.deadline = some t →
      (s.now < t → exec (.waitSignalsTimeout qid seq) s = .next (s.hold (.waitSignalsTimeout qid seq))) ∧
      (t ≤ s.now → s.signalsMet q.asid p = false → exec (.waitSignalsTimeout qid seq) s =
        .next (s.failPacket qid seq 7 (BitVec.ofNat 64 (p.signals.findIdx fun va => !s.signalZero q.asid va)))) ∧
      (t ≤ s.now → s.signalsMet q.asid p = true → exec (.waitSignalsTimeout qid seq) s = .next s)) ∧
    (let va := BitVec.ofNat 64 (field p.bytes 8 8)
     field p.bytes 0x10 1 ≤ 1 → zeros p.bytes 0x11 7 = true → zeros p.bytes 0x20 96 = true →
     (∀ s1 b, va.toNat % 8 = 0 → (s.fePlace q.asid va true).isSome = true → s.feReach q.asid true [(va.toNat, 8)] = (s1, b) →
       ∃ f : FeFun, exec (.signal qid seq) s =
         .next (if b then (s1.feUpdate q.asid va 8 f).endPacket qid seq true else s1.hold (.signal qid seq)) ∧
       ∀ old, f.apply old = if field p.bytes 0x10 1 = 0 then (old % 2 ^ 62 + 2 ^ 62 - field p.bytes 0x18 8 % 2 ^ 62) % 2 ^ 62 +
         (if old.testBit 62 then 2 ^ 62 else 0) else field p.bytes 0x18 8) ∧
     (va.toNat % 8 ≠ 0 → exec (.signal qid seq) s = .next (s.failPacket qid seq 8 va))) ∧
    (zeros p.bytes 8 120 = true → ∃ s', exec (.catalogueUpdate qid seq) s = .next s' ∧ s'.packet? qid seq = none ∧
      ∀ e ∈ s'.cores, ∀ c ∈ e.2.catalogue, c.asid ≠ q.asid)

/-- R357, R363, R86, R89: LAUNCH of a sound packet, whose records FE has reached, makes its grid, and once every page of its ranges is
leased the grid waits for its placement; one that fails a check ends with that error, one without storage for its stack and its
pages with NOSTORAGE. R358, R69: ROUTINE-LOAD of a sound object maps and records it, and
writes the result record; a refused object is not mapped. -/
def Claim.LaunchesAndLoads : Prop :=
  (∀ (qid seq : Nat) (s s0 : State) (q : Queue) (p : Packet), s.queue? qid = some q → s.packet? qid seq = some p → p.grid = none →
    s.feReach q.asid false [(field p.bytes 8 8, 128), (field p.bytes 0x30 8, 16 * field p.bytes 0x38 1)] = (s0, true) →
    (∀ plan, s0.launchCheck q.asid p.bytes = .ok plan →
      let s1 := s0.newGrid q.asid qid seq p plan
      let away := ((rangePages plan.ranges).filter fun r => s0.pageAt q.asid r.1 == .away).length
      (s1.fits = true → s1.spare away = true → exec (.launch qid seq) s = .next (s1.leaseGrid qid seq s0.nextId true)) ∧
      (s1.fits = false ∨ s1.spare away = false → exec (.launch qid seq) s = .next (s0.failPacket qid seq 4 0))) ∧
    (∀ err detail, s0.launchCheck q.asid p.bytes = .error (err, detail) →
      exec (.launch qid seq) s = .next (s0.failPacket qid seq err detail))) ∧
  (∀ (qid seq g : Nat) (s : State) (q : Queue) (p : Packet) (rs : List (Nat × Nat × Bool)), s.queue? qid = some q →
    s.packet? qid seq = some p → p.grid = some g → (Tab.find s.grids g).isSome = true → (s.grid g).state = .waitingLeases →
    s.ranges (s.grid g).asid (s.grid g).packet = .ok rs →
    let s1 := (rangePages rs).foldl (fun s p => s.leasePage g p.1 p.2 false) s
    s1.allLeased g (rangePages rs) = true → ∃ s', exec (.launch qid seq) s = .next s' ∧
      (s'.grid g).state = .waitingPlacement ∧ (s'.grid g).leases = (s1.grid g).leases ∧ Msg.placement g ∈ s'.net) ∧
  (∀ (qid seq : Nat) (s : State) (q : Queue) (p : Packet) (bs : List Byte), s.queue? qid = some q → s.packet? qid seq = some p →
    let obj := BitVec.ofNat 64 (field p.bytes 8 8)
    let dest := field p.bytes 0x18 8
    let dlen := field p.bytes 0x20 8
    let res := BitVec.ofNat 64 (field p.bytes 0x28 8)
    dest % 65536 = 0 → 0 < dlen → dlen % 65536 = 0 → dest + dlen ≤ 2 ^ 48 → zeros p.bytes 0x30 80 = true →
    s.feBytes q.asid obj (field p.bytes 0x10 8) = some bs → (s.fePlace q.asid res true).isSome = true →
    (s.fePlace q.asid (res + 127) true).isSome = true → ∀ s1,
    s.feReach q.asid false [(obj.toNat, field p.bytes 0x10 8)] = (s1, true) →
    let r := s1.loadObject q.asid bs dest dlen
    exec (.routineLoad qid seq) s = .next ((r.2.feWrite q.asid res r.1).endPacket qid seq true)) ∧
  (∀ (asid dest dlen : Nat) (obj : List Byte) (s : State),
    (∀ o, objCheck obj = some o → s.loadObject asid obj dest dlen = (loadResult 1 7 o [], s)) ∧
    (let ps := placeSections obj dest
     objCheck obj = none → placedEnd ps dest ≤ dest + dlen → s.rangeMapped asid dest dlen = none →
     s.spare ((placedEnd ps dest - dest) / 65536) = true → (ps.foldl (fun s p => s.mapSection asid p) s).fits = true →
     (∀ c o, loadChecks obj ps = .error (c, o) → s.loadObject asid obj dest dlen = (loadResult 1 c o [], s)) ∧
     (∀ qs, loadChecks obj ps = .ok qs → (s.loadObject asid obj dest dlen).1 = loadResult 0 0 0 qs ∧
       Sys2Proof.Machine.Module.mk asid dest dlen (qs.map fun p => (p.kind, p.addr, p.bytes.length)) ∈ (s.loadObject asid obj dest dlen).2.fe.modules)))

/-- R357, R358, R362, R363, R374: what the packets of each type do. -/
def Obligations.PacketEffects : Prop :=
  Claim.SignalPackets ∧ Claim.LaunchesAndLoads

/-- R352, R373: an event that finds room goes into the ring's next slot, with WR moved on and the interrupt raised, once FE has
reached the ring's lines (R95; a ring in host memory it has at once); one that finds no room is held or counted by its kind. RD only
grows; a restart sets the ring anew and empty. -/
def Obligations.EventsWritten : Prop :=
  (∀ (e : EventRec) (s : State), let ev := s.fe.ev
    (ev.host = true → s.evReach = (s, true)) ∧
    (∀ s1, ev.room = true → s.evReach = (s1, true) → ∃ s', exec (.eventRecordWrite e) s = .next s' ∧ s' = s1.evPut e ∧
      s'.fe.ev.wr = ev.wr + 1 ∧ s'.fe.ev.rd = ev.rd ∧ s'.fe.msixRaised = s.fe.msixRaised ++ [ev.msix] ∧
      (ev.host = true → s.Canonical → ∀ j, j < 32 →
        s'.hostMem.byte (ev.base.toNat + 128 + 32 * (ev.wr.toNat % 2 ^ ev.log2n) + j) = (EventRec.bytes e).getD j 0)) ∧
    (∀ s1, ev.room = true → s.evReach = (s1, false) → exec (.eventRecordWrite e) s = .next (s1.hold (.eventRecordWrite e))) ∧
    (ev.room = false → e.type = 2 →
      (ev.stale.length < 512 → ∃ s', exec (.eventRecordWrite e) s = .next s' ∧ s'.fe.ev.stale = ev.stale ++ [e] ∧ s'.net = s.net) ∧
      (512 ≤ ev.stale.length → ∃ s', exec (.eventRecordWrite e) s = .next s' ∧ s'.fe.ev.drop = ev.drop + 1 ∧
        s'.fe.ev.stale = ev.stale)) ∧
    (ev.room = false → e.type = 3 → (∀ r ∈ ev.losses, r.d1.toNat % 4096 ≠ e.d1.toNat % 4096) → ev.losses.length < 64 →
      ∃ s', exec (.eventRecordWrite e) s = .next s' ∧ s'.fe.ev.losses = ev.losses ++ [e]) ∧
    (ev.room = false → e.type = 1 → ∀ q, s.queue? e.qid = some q →
      ∃ s' q', exec (.eventRecordWrite e) s = .next s' ∧ s'.fe.ev.ovf = ev.ovf + 1 ∧ s'.queue? e.qid = some q' ∧
        (∃ h, q'.held = q.held ++ [h] ∧ h.seq = e.seq ∧ h.index = e.d0 ∧ h.err = e.d1.toNat % 256))) ∧
  (∀ (rd : DWord) (s : State), ∃ s', exec (.eventRingSpace rd) s = .next s' ∧
    s'.fe.ev.rd = (if s.fe.ev.rd.toNat < rd.toNat then rd else s.fe.ev.rd) ∧
    (s.heldEvents = [] → s'.fe.ev.wr = s.fe.ev.wr ∧ s'.net = s.net)) ∧
  (∀ (ctl : Bool) (value : DWord) (s : State), s.heldEvents = [] → ∃ s', exec (.eventRingRestart ctl value) s = .next s' ∧
    s'.fe.ev.wr = 0 ∧ s'.fe.ev.rd = 0 ∧
    (ctl = true → s'.fe.ev.log2n = value.toNat % 32 ∧ s'.fe.ev.msix = (value.extractLsb' 16 11).toNat ∧
      s'.fe.ev.host = value.getLsbD 27 ∧ s'.fe.ev.base = s.fe.ev.base) ∧
    (ctl = false → s'.fe.ev.base = value &&& ~~~127#64 ∧ s'.fe.ev.log2n = s.fe.ev.log2n))

/-! ## Routine, monitor, copy and external steps (R120 to R194, R402) -/

/-- R120, R123, R124, R126: an invocation of a built-in routine that its frame's check serves, with no other of its issue on its
line, at its home or at its line's owner, leaves in the line what its curator makes of it and in no other line anything, and its return
is on its way or waits for the collapse; a rejected one returns as stale where its return is waited for. R142, R311: a return of
LATOM writes its lane's destination pair, full again, and its time joins the warp's; a routine fault goes to the lane. R139, R145: a
request in its turn, once its lines are reached (R95), is carried out, answered with its status word, and gone; one before its turn
waits. -/
def Obligations.RoutineSteps : Prop :=
  (∀ (v : Invocation) (s : State), let line := v.pa / 128
    let s0 := s.freeLine v line
    s.batchMates v = [] → Msg.routineInvocation v ∉ s.net →
    (∀ s1, v.rid < 16 → s0.frameCheck v.asid v.gen v.pa true = .serve s1 →
      s1.runsAtHome v line = true ∨ (s1.homeLine line).ownerDie = some (dieOfCore v.core) →
      let c := (Curator.start (s.homeLine line).value v.pa v.n v.a0 v.a1 v.a2 v.a3).runBuiltin v.rid
      ∃ s', exec (.routineInvocation v) s = .next s' ∧ (s'.homeLine line).value = c.line ∧
        (∀ l, l ≠ line → (s'.homeLine l).value = (s.homeLine l).value) ∧
        ((∃ t, Msg.routineReturn ⟨v, .ok c.ret t⟩ ∈ s'.net) ∨
          ((s'.homeLine line).cpend = true ∧ ∃ t, (Waiter.invocation v c.ret, t) ∈ (s'.homeLine line).waiters))) ∧
    (s0.frameCheck v.asid v.gen v.pa true = .stale → expectsReturn v = true →
      exec (.routineInvocation v) s = .next (s0.send (.routineReturn ⟨v, .stale⟩)))) ∧
  (∀ (v : Invocation) (d gwct : Nat) (ret : DWord) (s : State) (w : Warp), v.ret = some d → d + 1 < 512 → v.lane < 32 →
    Tab.find s.warps v.warp = some w → SMap.wf 0 w.regs = true → SMap.wf false w.empty = true →
    ∃ s', exec (.routineReturn ⟨v, .ok ret gwct⟩) s = .next s' ∧
      (s'.warp v.warp).vreg v.lane d = ret.setWidth 32 ∧ (s'.warp v.warp).vreg v.lane (d + 1) = ret.extractLsb' 32 32 ∧
      (s'.warp v.warp).isEmpty v.lane d = false ∧ (s'.warp v.warp).isEmpty v.lane (d + 1) = false ∧
      (s'.warp v.warp).inFlight = w.inFlight - 1 ∧ (s'.warp v.warp).obs = later w.obs gwct ∧
      (s'.warp v.warp).gwSys = later w.gwSys gwct ∧ ∀ p ∈ (s'.warp v.warp).stores, p.id ≠ v.id) ∧
  (∀ (v : Invocation) (code abort : Nat) (s : State), v.ret = none → s.invocationWait v.id = none →
    exec (.routineReturn ⟨v, .fault code abort⟩) s = .next ((s.storeGone v.warp v.id).raiseAll [⟨v.warp, v.lane⟩]
      ⟨10, code, v.rid % 256, abort, 0, false, v.va⟩ false)) ∧
  (∀ (req : Nat) (s : State) (q : RtReq) (r : WaitRec), s.rtReqs.find? (fun o => o.id == req) = some q →
    ((∃ o ∈ s.rtReqs, o.asid = q.asid ∧ o.seq < q.seq) →
      exec (.rtinstExecution req) s = .next (s.hold (.rtinstExecution req))) ∧
    (∀ s0, (∀ o ∈ s.rtReqs, o.asid = q.asid → q.seq ≤ o.seq) → s.rtSpans q = (s0, false) →
      exec (.rtinstExecution req) s = .next (s0.hold (.rtinstExecution req))) ∧
    (∀ s0, (∀ o ∈ s.rtReqs, o.asid = q.asid → q.seq ≤ o.seq) → s.rtSpans q = (s0, true) → Tab.find s.waits q.wait = some r →
      ∀ n, r.kind = .routineReq req (.uni n) → (Tab.find s.warps r.warp).isSome = true → SMap.wf 0 (s.warp r.warp).uregs = true →
      let out := s0.rtCarryOut q
      ∃ s', exec (.rtinstExecution req) s = .next s' ∧ (∀ o ∈ s'.rtReqs, o.id ≠ req) ∧ Tab.find s'.waits q.wait = none ∧
        (s'.warp r.warp).ureg (n.toNat % 32) = rtStatus out.1 out.2.1 out.2.2.1 ∧
        (out.1 = 0 → SMap.wf 0 s.rtVers = true → SMap.get 0 s'.rtVers q.asid = out.2.2.1)))

/-- R145: RTINST and RTREM refuse, in this order, an address space without a table, a table that cannot be read, a routine number
that is not a user routine's, an entry or an image that cannot be read, an image that fails its checks (R133), and the removal of a
routine that is not installed, each with its status and without a write; what is read is read under the generation of the issue (R80). A
request carried out moves the version on by one. -/
def Claim.RoutineRefusals : Prop :=
  ∀ (q : RtReq) (s : State), let rtab := (s.asid q.asid).rtab
    let entry := rtab + BitVec.ofNat 64 (0x40 + 0x90 * (q.rid - 16))
    (rtab = 0 → (s.rtCarryOut q).1 = 1 ∧ (s.rtCarryOut q).2.2.2 = s) ∧
    (rtab ≠ 0 → s.feReadAs q.asid q.gen rtab 8 = none ∨ s.feReadAs q.asid q.gen (rtab + 8) 8 = none →
      (s.rtCarryOut q).1 = 7 ∧ (s.rtCarryOut q).2.2.2 = s) ∧
    ∀ version inst, rtab ≠ 0 → s.feReadAs q.asid q.gen rtab 8 = some version → s.feReadAs q.asid q.gen (rtab + 8) 8 = some inst →
      (q.rid < 16 ∨ 63 < q.rid → s.rtCarryOut q = (2, 0, version, s)) ∧
      (16 ≤ q.rid → q.rid ≤ 63 →
        (s.feBytesAs q.asid q.gen entry 144 = none → s.rtCarryOut q = (7, 0, version, s)) ∧
        ((s.feBytesAs q.asid q.gen entry 144).isSome = true →
          (q.install = true → s.feBytesAs q.asid q.gen q.image (s.imageBytes q) = none → s.rtCarryOut q = (7, 0, version, s)) ∧
          (∀ img, q.install = true → s.feBytesAs q.asid q.gen q.image (s.imageBytes q) = some img →
            ((imageCheck img).1 ≠ 0 → s.rtCarryOut q = ((imageCheck img).1, (imageCheck img).2, version, s)) ∧
            ((imageCheck img).1 = 0 → (s.rtCarryOut q).1 = 0 ∧ (s.rtCarryOut q).2.2.1 = version + 1)) ∧
          (q.install = false →
            (inst.testBit q.rid = false → s.rtCarryOut q = (6, 0, version, s)) ∧
            (inst.testBit q.rid = true → (s.rtCarryOut q).1 = 0 ∧ (s.rtCarryOut q).2.2.1 = version + 1))))

/-- R139, R144, R145: RTINST and RTREM wait on their request, and what a request is refused for. -/
def Obligations.RoutinesInstalled : Prop :=
  Claim.RoutineRequests ∧ Claim.RoutineRefusals

/-- R147 to R154: the wake of a key completes the waits armed on it, and the only one with its result; a poll whose time has come
finds the word at its home, completes its wait where the condition holds or the frame is released, and comes again where it does
not hold; at its deadline a wait leaves its entry and completes with false; a cancel completes the waits it names with false, and with
the last acknowledgement every wait named, wherever it is now, and MONCAN itself. -/
def Claim.MonitorSteps : Prop :=
  (∀ (key : MonKey) (agent : Nat) (result : Bool) (s : State),
    (∃ s', exec (.monitorWake key agent result) s = .next s' ∧
      ∀ k r, Tab.find s.waits k = some r → s.armedWait key agent (k, r) = true → Tab.find s'.waits k = none) ∧
    (∀ k r, agent ≠ 144 → (s.savedOn fun k => k == key) = [] → s.waits.filter (s.armedWait key agent) = [(k, r)] →
      exec (.monitorWake key agent result) s = .next (((s.seenBy agent key).withdrawWait k).endCmp k result))) ∧
  (∀ (key : MonKey) (agent gen die : Nat) (s : State),
    (key.host = true → s.pollKey key agent gen die = (s, if s.keyHolds key then some true else none)) ∧
    (key.host = false → s.frameCheck key.asid gen key.pa false = .stale → s.pollKey key agent gen die = (s, some false)) ∧
    (∀ s1, key.host = false → s.frameCheck key.asid gen key.pa false = .wait s1 → s.pollKey key agent gen die = (s1, none)) ∧
    (∀ s1, key.host = false → s.frameCheck key.asid gen key.pa false = .serve s1 →
      (s.pollKey key agent gen die).2 = if s1.keyHolds key then some true else none)) ∧
  (∀ (wait dst next : Nat) (key : MonKey) (dl : Option Nat) (s : State) (r : WaitRec), Tab.find s.waits wait = some r →
    r.kind = .cmp key true dl dst next →
    let core := (s.warp r.warp).core
    let now := (s.common (dieOfCore core)).toNat
    let poll := s.pollKey key core (s.genAt core key.asid) (dieOfCore core)
    (now < next → exec (.monitorPoll wait) s = .next (s.hold (.monitorPoll wait))) ∧
    (∀ s1 b, next ≤ now → poll = (s1, some b) → exec (.monitorPoll wait) s = .next (s1.endCmp wait b)) ∧
    (∀ s1, next ≤ now → poll = (s1, none) → ∃ s' r', exec (.monitorPoll wait) s = .next s' ∧
      s'.net = s1.net ++ [.monitorPoll wait] ∧ Tab.find s'.waits wait = some r' ∧
      r'.kind = .cmp key true dl dst (now + s.pollTicks))) ∧
  (∀ (wait dst next dl : Nat) (key : MonKey) (polled : Bool) (s : State) (r : WaitRec), Tab.find s.waits wait = some r →
    r.kind = .cmp key polled (some dl) dst next →
    let now := (s.common (dieOfCore (s.warp r.warp).core)).toNat
    (now < dl → exec (.waitTimeout wait) s = .next (s.hold (.waitTimeout wait))) ∧
    (dl ≤ now → exec (.waitTimeout wait) s = .next ((s.withdrawWait wait).endCmp wait false) ∧
      Tab.find ((s.withdrawWait wait).endCmp wait false).waits wait = none)) ∧
  (∀ (wait asid place agent left : Nat) (block : Option Nat) (s : State) (r : WaitRec), agent ≠ 144 →
    (s.waits.map (·.1)).Nodup → Tab.find s.waits wait = some r → r.kind = .moncan left →
    ∃ s', exec (.monitorCancel wait asid place block agent) s = .next s' ∧
      (∀ k ∈ s.cancelled asid place (some agent) block, Tab.find s'.waits k = none) ∧
      (left ≤ 1 → Tab.find s'.waits wait = none ∧ ∀ k ∈ s.cancelled asid place none block, Tab.find s'.waits k = none) ∧
      (1 < left → ∃ r', Tab.find s'.waits wait = some r' ∧ r'.kind = .moncan (left - 1)))

/-- R146 to R154: WAITCMP and MONCAN, and the wakes, polls, deadlines and cancels that end them. -/
def Obligations.WaitsAndWakes : Prop :=
  Claim.WaitsComplete ∧ Claim.CancelsComplete ∧ Claim.MonitorSteps

/-- R170 to R180: a copy whose warp's earlier writes have been made, and whose lines the engine has reached (R95), moves its data and
posts once its writes are over: its flag's operations go down by one. A QCWSET takes effect once no push holds a reservation and no
earlier QCWSET of its control word waits; a push takes its ring's next slot in its turn, once. -/
def Claim.CopySteps : Prop :=
  (∀ (core id : Nat) (s : State) (o : CopyOp), (s.core core).copies.find? (fun o => o.id == id) = some o → o.done = false →
    let q := (s.block o.block).qcw o.place o.ofs
    (o.kind = 5 → q.wr = q.fill → s.qcwBefore core o = false → exec (.copyPost core id) s = .next (s.applyQcwset core o)) ∧
    (o.kind = 5 → q.wr ≠ q.fill ∨ s.qcwBefore core o = true → exec (.copyPost core id) s = .next (s.hold (.copyPost core id))) ∧
    (o.kind ≠ 5 → o.started = false → s.writtenBefore [o.warp] id = false →
      exec (.copyPost core id) s = .next (s.hold (.copyPost core id))) ∧
    (∀ s0, o.kind ≠ 5 → o.started = false → s.writtenBefore [o.warp] id = true → s.copyReach core o = (s0, false) →
      exec (.copyPost core id) s = .next (s0.hold (.copyPost core id))) ∧
    (∀ s0 o1, o.kind ≠ 5 → o.started = false → s.writtenBefore [o.warp] id = true → s.copyReach core o = (s0, true) →
      ((s0.moveCopy core o).core core).copies.find? (fun o => o.id == id) = some o1 →
      o1.started = true ∧
      (o1.outstanding = 0 → exec (.copyPost core id) s = .next ((s0.moveCopy core o).postCopy core o1)) ∧
      (o1.outstanding ≠ 0 → exec (.copyPost core id) s = .next ((s0.moveCopy core o).hold (.copyPost core id)))) ∧
    (o.kind ≠ 5 → o.started = true → o.outstanding = 0 → o.ring = false → o.fault = none →
      (Tab.find s.warps o.warp).isSome = true → SMap.wf 0 (s.warp o.warp).tokens = true →
      let f := o.token.getD 0
      ∃ s', exec (.copyPost core id) s = .next s' ∧ (∀ p ∈ (s'.core core).copies, p.id ≠ id) ∧
        SMap.get 0 (s'.warp o.warp).tokens f = SMap.get 0 (s.warp o.warp).tokens f - 1 ∧
        (SMap.get 0 (s.warp o.warp).tokens f = 1 → f < 12 → (s'.warp o.warp).cf.getLsbD f = true))) ∧
  (∀ (core id : Nat) (s : State) (o : CopyOp), (s.core core).copies.find? (fun o => o.id == id) = some o →
    let q := (s.block o.block).qcw o.place o.ofs
    (o.slot.isSome = true → exec (.ringReserve core id) s = .next s) ∧
    (o.slot = none → s.ringBusy core o.id o.block o.place o.ofs = false → q.room ≠ 0 →
      exec (.ringReserve core id) s = .next ((s.reserve core o).send (.copyPost core id))) ∧
    (o.slot = none → s.ringBusy core o.id o.block o.place o.ofs = true ∨ q.room = 0 →
      exec (.ringReserve core id) s = .next (s.hold (.ringReserve core id))))

/-- R170 to R190: copies are accepted, move their data and post. -/
def Obligations.CopiesMove : Prop :=
  Claim.CopiesComplete ∧ Claim.CopySteps

/-- R189 to R193, R402, R408: an external read, once its endpoint's entry is reached (R95), ends with the status of the first check
that the endpoint fails (R190), and else starts; each command's completion joins its bytes or its failure; one silent for five seconds
fails with TIMEOUT; the completion word is written once every write is over, and the read is gone. A write into an assigned page of the
peer window reaches that page's read, and no other; a remote read that an export covers is answered with its data, any other with a
refusal. R192: an attached controller takes its free entry of the table, and a detached one leaves it. -/
def Claim.ExternalSteps : Prop :=
  (∀ (id : Nat) (s : State) (x : Xread), s.xread id = some x → x.status = 0 → x.kind = 0 → s.writtenBefore [x.warp] id = true →
    ∀ s1,
      (s.entryReach x = (s1, false) → exec (.xreadEngineStart id) s = .next (s1.hold (.xreadEngineStart id))) ∧
      (s.entryReach x = (s1, true) →
        (s1.endpoint x = none → exec (.xreadEngineStart id) s = .next (s1.endXread id 2)) ∧
        ∀ e, s1.endpoint x = some e →
          (e.check x ≠ 0 → exec (.xreadEngineStart id) s = .next (s1.endXread id (e.check x))) ∧
          (e.check x = 0 → x.len = 0 → exec (.xreadEngineStart id) s = .next (s1.endXread id 0)) ∧
          (e.check x = 0 → x.len ≠ 0 → e.kind = 2 → exec (.xreadEngineStart id) s = .next (s1.askPeer x e)) ∧
          (e.check x = 0 → x.len ≠ 0 → e.kind ≠ 2 →
            (s1.assignPeers x = none → exec (.xreadEngineStart id) s = .next (s1.hold (.xreadEngineStart id))) ∧
            ∀ s2, s1.assignPeers x = some s2 →
              let s3 := (s2.setXread id fun y => { y with kind := 1, target := e.target, entry := (s1.entryBytes x).getD [] }).send
                (.xreadTimeout id)
              let r := s3.issueCommands id e (x.len + 1)
              exec (.xreadEngineStart id) s = .next (if r.2 then r.1 else r.1.hold (.xreadEngineStart id))))) ∧
  (∀ (id cid : Nat) (status : BitVec 16) (s : State) (x : Xread) (c : NvCommand), s.xread id = some x →
    x.cmds.find? (fun c => c.cid == cid && !c.done) = some c → x.status = 0 →
    ∃ s' y, exec (.nvmeCompletion id cid status) s = .next s' ∧ s'.xread id = some y ∧
      (status = 0 → y.status = 0 ∧ y.bytes = x.bytes + c.bytes) ∧
      (status ≠ 0 → y.status = 5 ∧ y.detail = status.toNat ∧ y.bytes = x.bytes) ∧ ∀ d ∈ y.cmds, d.cid = cid → d.done = true) ∧
  (∀ (id : Nat) (s : State) (x : Xread), s.xread id = some x → x.status = 0 →
    ((∃ c ∈ x.cmds, c.done = false ∧ c.start + 5000000000 ≤ s.now) → ∃ s' y, exec (.xreadTimeout id) s = .next s' ∧
      s'.xread id = some y ∧ y.status = 7) ∧
    ((∀ c ∈ x.cmds, c.done = false → s.now < c.start + 5000000000) → (∃ c ∈ x.cmds, c.done = false) →
      exec (.xreadTimeout id) s = .next (s.hold (.xreadTimeout id)))) ∧
  (∀ (id : Nat) (s : State) (x : Xread), s.xread id = some x →
    (x.outstanding ≠ 0 → exec (.xreadCompletionWord id) s = .next (s.hold (.xreadCompletionWord id))) ∧
    (x.outstanding = 0 → x.gwct = 0 → ∃ s', exec (.xreadCompletionWord id) s = .next s' ∧ s'.xread id = none ∧
      (∀ p ∈ s'.fe.peers, p.2.1 ≠ id))) ∧
  (∀ (offset : Nat) (data : List Byte) (s : State), (∀ p ∈ linePieces offset data, ∀ q ∈ s.fe.peers, q.1 ≠ p.1 / 4096) →
    exec (.peerWindowWrite offset data) s = .next s) ∧
  (∀ (offset : Nat) (data : List Byte) (s : State) (q : Nat × Nat × Nat), linePieces offset data = [(offset, data)] →
    s.fe.peers.find? (fun q => q.1 == offset / 4096) = some q →
    let va := 4096 * q.2.2 + offset % 4096
    ∀ s1, (s.xreadReach [(q.2.1, va, data)] = (s1, true) →
        exec (.peerWindowWrite offset data) s = .next (s1.xreadWrite q.2.1 va data)) ∧
      (s.xreadReach [(q.2.1, va, data)] = (s1, false) →
        exec (.peerWindowWrite offset data) s = .next (s1.hold (.peerWindowWrite offset data)))) ∧
  (∀ (port asid len : Nat) (va : DWord) (s : State), (s.port port).st = 2 → s.portReady port = true →
    (s.exported port asid va len = false → exec (.remoteReadServe port asid va len) s = .next (s.sendFlit port 2 [])) ∧
    (s.exported port asid va len = true → ∀ s1,
      (s.feReach asid false [(va.toNat, min 224 len)] = (s1, false) →
        exec (.remoteReadServe port asid va len) s = .next (s1.hold (.remoteReadServe port asid va len))) ∧
      (s.feReach asid false [(va.toNat, min 224 len)] = (s1, true) →
        (s1.feBytes asid va (min 224 len) = none → exec (.remoteReadServe port asid va len) s = .next (s1.sendFlit port 2 [])) ∧
        ∀ bs, s1.feBytes asid va (min 224 len) = some bs →
          (len ≤ 224 → exec (.remoteReadServe port asid va len) s = .next (s1.sendFlit port 2 bs)) ∧
          (224 < len → exec (.remoteReadServe port asid va len) s =
            .next ((s1.sendFlit port 2 bs).hold (.remoteReadServe port asid (va + 224) (len - 224))))))) ∧
  (∀ (index : Nat) (s : State),
    (Attachment.ok ⟨s.nvDescriptor, 0⟩ = true → index < 16 → Tab.find s.fe.attached index = none →
      ∃ s', exec (.nvcmdAttach index) s = .next s' ∧ Tab.find s'.fe.attached index = some ⟨s.nvDescriptor, 0⟩ ∧
        s'.fe.nvstsSt = 2 ∧ s'.fe.nvstsCode = 0) ∧
    (Attachment.ok ⟨s.nvDescriptor, 0⟩ = true → index < 16 → (Tab.find s.fe.attached index).isSome = true →
      exec (.nvcmdAttach index) s = .next (s.nvDone 3)) ∧
    ((Tab.find s.fe.attached index).isSome = true → s.entryInUse index = false →
      ∃ s', exec (.nvcmdDetach index) s = .next s' ∧ Tab.find s'.fe.attached index = none ∧ s'.fe.nvstsSt = 2) ∧
    ((Tab.find s.fe.attached index).isSome = true → s.entryInUse index = true →
      exec (.nvcmdDetach index) s = .next (s.nvDone 1)) ∧
    (Tab.find s.fe.attached index = none → exec (.nvcmdDetach index) s = .next (s.nvDone 4)))

/-! ## Matrix steps (R269 to R292) -/

/-- R270 to R292: a step of the operation at the array's head changes each element of its tile by its step of products, and no other
tile; a step whose data break their format ends the operation with its fault kept for its flag's waits; a step whose data are not in
place accumulates free values (R285; log 4). ACCZ in its turn clears its tile, ACCLD loads it once its rows are reached (R95), a drain
starts in its turn, and one that is over completes; an adding drain's line is updated at its home by one addition of each of its
elements, and no other line. -/
def Obligations.MatrixSteps : Prop :=
  (∀ (core : Nat) (s : State) (o : MatrixOp) (rest : List MatrixOp), (s.core core).arrayQ = o :: rest → o.kind < 2 →
    (s.core core).arrayMay o = true →
    let s1 := if o.started then s else s.startMma core o
    (s1.racedNow core o = true → exec (.matrixKStep core) s = .next ((s1.freeTile core o.tile).stepped core o)) ∧
    (∀ d, s1.racedNow core o = false → s1.stepData core o o.kDone = .ok d → o.kDone + 1 < o.kTot →
      ∃ s', exec (.matrixKStep core) s = .next s' ∧ s'.net = s.net ++ [.matrixKStep core] ∧
        ((s'.core core).tile o.tile).kDone = o.kDone + 1 ∧
        (∀ m c, m < 128 → c < 128 → (s'.core core).accGet o.tile m c = (stepElem o d ((s.core core).accGet o.tile m c) m c).1) ∧
        (∀ t m c, t ≠ o.tile → m < 128 → c < 128 → (s'.core core).accGet t m c = (s.core core).accGet t m c)) ∧
    (∀ c, s1.racedNow core o = false → s1.stepData core o o.kDone = .error c → exec (.matrixKStep core) s =
      .next ((s1.setCore core fun co => co.setTile o.tile fun st => { st with flt := true }).completeMatrix core
        { o with fault := some ⟨13, c, 0, 0, o.kDone + 1, true, o.pos⟩ }))) ∧
  (∀ (core id : Nat) (s : State) (o : MatrixOp) (rest : List MatrixOp), (s.core core).arrayQ = o :: rest → o.id = id →
    (s.core core).arrayMay o = true →
    (o.kind = 2 → ∃ s', exec (.matrixOpComplete core id) s = .next s' ∧
      (∀ m c, m < 128 → c < 128 → (s'.core core).accGet o.tile m c = 0) ∧
      (s'.core core).tile o.tile = ⟨false, 0, 0, 0⟩ ∧ (∀ p ∈ (s'.core core).arrayQ, p.id ≠ id)) ∧
    (∀ s0, o.kind = 3 → s.writtenBefore o.members id = true → s.rowsReach core o false = (s0, true) →
      exec (.matrixOpComplete core id) s = .next ((s0.loadTile core o).1.completeMatrix core { o with fault := (s0.loadTile core o).2 })) ∧
    (∀ s0, o.kind = 3 → s.writtenBefore o.members id = true → s.rowsReach core o false = (s0, false) →
      exec (.matrixOpComplete core id) s = .next (s0.hold (.matrixOpComplete core id))) ∧
    (o.kind = 3 → s.writtenBefore o.members id = false →
      exec (.matrixOpComplete core id) s = .next (s.hold (.matrixOpComplete core id)))) ∧
  (∀ (core id : Nat) (s : State) (o : MatrixOp), ((s.core core).arrayQ ++ (s.core core).drainQ).find? (fun p => p.id == id) = some o →
    (s.core core).drainQ.find? (fun p => p.id == id) = some o → o.kind = 4 →
    (o.started = true → o.linesLeft = [] → o.outstanding = 0 →
      exec (.matrixOpComplete core id) s = .next (s.completeMatrix core o)) ∧
    (o.started = true → o.linesLeft ≠ [] ∨ o.outstanding ≠ 0 →
      exec (.matrixOpComplete core id) s = .next (s.hold (.matrixOpComplete core id))) ∧
    (o.started = false → (s.core core).drainMay o = false ∨ s.writtenBefore o.members id = false →
      exec (.matrixOpComplete core id) s = .next (s.hold (.matrixOpComplete core id))) ∧
    (∀ s0 p, o.started = false → (s.core core).drainMay o = true → s.writtenBefore o.members id = true →
      s.rowsReach core o true = (s0, true) → ((s0.startDrain core o).core core).drainQ.find? (fun p => p.id == id) = some p →
      p.started = true ∧ exec (.matrixOpComplete core id) s = .next (if p.linesLeft.isEmpty && p.outstanding == 0
        then (s0.startDrain core o).completeMatrix core p else (s0.startDrain core o).hold (.matrixOpComplete core id)))) ∧
  (∀ (core id line : Nat) (s s0 : State) (o : MatrixOp), (s.core core).drainQ.find? (fun p => p.id == id) = some o →
    (s.reachSpans o.asid o.gen Config.feDie true [(128 * line, 128)] = (s0, false) →
      exec (.accstAddLineUpdate core id line) s = .next (s0.hold (.accstAddLineUpdate core id line))) ∧
    (∀ pa, s.reachSpans o.asid o.gen Config.feDie true [(128 * line, 128)] = (s0, true) →
      s0.enginePlace o.asid o.gen (128 * line) true = some (false, pa) →
      ∃ s', exec (.accstAddLineUpdate core id line) s = .next s' ∧
        (s'.homeLine (pa / 128)).value = (addLine o (s.core core) line (s.homeLine (pa / 128)).value).1 ∧
        ∀ l, l ≠ pa / 128 → (s'.homeLine l).value = (s.homeLine l).value))

/-! ## Links and housekeeping (R405 to R416) -/

/-- R406, R407, R410, R415: a good flit moves the expected number on and is acted on; a bad one asks for a replay, and the sixteenth
in a row takes the port down; an acknowledgement drops the flits up to its number; a rollover begins the next key generation, or is
refused while the old key is not retired; a port that goes down ends its remote reads, and one that trains comes up. -/
def Claim.LinkSteps : Prop :=
  (∀ (p : Nat) (f : Flit) (s : State),
    let v (o : Nat) : Nat := ofLeBytes ((f.payload.drop o).take 8)
    ((s.port p).st ≠ 2 → exec (.flitReceive p f) s = .next s) ∧
    ((s.port p).st = 2 → s.flitOk p f = true → f.type = 1 → s.portReady p = true →
      ∃ s', exec (.flitReceive p f) s = .next s' ∧ (s'.port p).seqExpect = ((s.port p).seqExpect + 1) % 2 ^ 40 ∧
        (s'.port p).replays = 0 ∧
        Msg.remoteReadServe p (v 0) (BitVec.ofNat 64 (v 8)) (v 16) ∈ s'.net) ∧
    ((s.port p).st = 2 → s.flitOk p f = false → (s.port p).replays < 15 →
      ∃ s', exec (.flitReceive p f) s = .next s' ∧ (s'.port p).seqExpect = (s.port p).seqExpect ∧
        (s'.port p).replays = (s.port p).replays + 1 ∧ s'.fe = s.fe) ∧
    (p < 12 → (s.port p).st = 2 → s.flitOk p f = false → 15 ≤ (s.port p).replays →
      ∃ s', exec (.flitReceive p f) s = .next s' ∧ (s'.port p).st = 0)) ∧
  (∀ (p seq : Nat) (s : State),
    ((∃ f ∈ (s.port p).buffer, f.seq = seq) → ∃ s', exec (.flitAck p seq) s = .next s' ∧
      (s'.port p).buffer = ((s.port p).buffer.dropWhile fun f => f.seq != seq).drop 1 ∧ (s'.port p).resent = 0) ∧
    ((∀ f ∈ (s.port p).buffer, f.seq ≠ seq) → ∃ s', exec (.flitAck p seq) s = .next s' ∧ s'.port p = s.port p)) ∧
  (∀ (p : Nat) (s : State), (s.port p).st = 2 →
    (p < 12 → (s.port p).roll = 0 → ∃ s', exec (.linkRollover p) s = .next s' ∧ (s'.port p).keygen = (s.port p).keygen + 1 ∧
      (s'.port p).sealSend = 0 ∧ (s'.port p).roll ≤ 1) ∧
    (p < 12 → (s.port p).roll ≠ 0 → ∃ s', exec (.linkRollover p) s = .next s' ∧ (s'.port p).keygen = (s.port p).keygen ∧
      (s'.port p).roll = 2) ∧
    ((s.port p).roll = 0 → ∃ s', exec (.forcedRollover p) s = .next s' ∧ (s'.port p).keygen = (s.port p).keygen + 1 ∧
      (s'.port p).sealSend = 0) ∧
    ((s.port p).roll ≠ 0 → exec (.forcedRollover p) s = .next (s.hold (.forcedRollover p)))) ∧
  (∀ (p : Nat) (s : State), p < 12 →
    ((s.port p).st ≠ 3 → ∃ s', exec (.portDown p) s = .next s' ∧ (s'.port p).st = 0 ∧ (s'.port p).buffer = [] ∧
      (s'.port p).keygen = (s.port p).keygen ∧
      (∀ x ∈ s.fe.xreads, x.kind = 2 → x.target = p → x.status = 0 → Msg.xreadCompletionWord x.id ∈ s'.net) ∧
      ∀ y ∈ s'.fe.xreads, y.kind = 2 → y.target = p → y.status ≠ 0) ∧
    ((s.port p).st ≠ 2 → ∃ s', exec (.portUp p) s = .next s' ∧
      (s'.port p).st = (if Config.linkEnabled p then if Config.linkTrains p then 2 else 0 else 3) ∧
      (s'.port p).keygen = (s.port p).keygen ∧ (s'.port p).buffer = []))

/-- R189 to R193, R402 to R410, R415: external reads, the peer window, attachments, flits and ports. -/
def Obligations.ReadsAndLinks : Prop :=
  Claim.ExternalSteps ∧ Claim.LinkSteps

/-- R411 to R416: an attestation writes its report after the nonce; a container that passes its checks is staged, activation puts the
staged slot in the active one's place and abandoning drops it; a cold reset keeps the flash and the host's memory alone and brings
the device up, or leaves it in recovery; a functional-level reset ends every grid first; the governor sets a legal clock, at least a
step lower above a limit; and a die at 115 °C resets. -/
def Claim.HousekeepingSteps : Prop :=
  (∀ (s : State), let a := s.hk.atBuf.toNat
    (s.hk.ready = true ∨ s.hk.recov = true → Config.hostReachable a = true → s.Canonical →
      let report := s.hk.report (leBytes 64 (s.peek true a 64))
      ∃ s', exec .attestation s = .next s' ∧ s'.hk.atSt = 2 ∧ s'.hk.atCode = 0 ∧
        ∀ j, s'.hostMem.byte j = if a + 64 ≤ j ∧ j < a + 64 + report.length then report.getD (j - (a + 64)) 0 else s.hostMem.byte j) ∧
    (s.hk.ready = false → s.hk.recov = false →
      exec .attestation s = .next { s with hk := { s.hk with atSt := 3, atCode := 1 } })) ∧
  (∀ (s : State), let c := leBytes s.hk.flLen (s.peek true s.hk.flBuf.toNat s.hk.flLen)
    (s.containerCheck c = 0 → ∃ s', exec .flashStage s = .next s' ∧ s'.hk.flSt = 2 ∧ s'.hk.flCode = 0 ∧
      ∃ f ∈ s'.hk.slots, f.staged = true ∧ f.active = false ∧ f.kind = field c 6 2 ∧ f.image = field c 8 4 ∧
        f.version = field c 0x0C 4 ∧ f.payload = (c.drop 0x40).take (field c 0x10 8)) ∧
    (s.containerCheck c ≠ 0 → ∃ s', exec .flashStage s = .next s' ∧ s'.hk.flSt = 3 ∧ s'.hk.flCode = s.containerCheck c ∧
      s'.hk.slots = s.hk.slots)) ∧
  (∀ (s : State),
    ((∀ f ∈ s.hk.slots, f.staged = false) → ∃ s', exec .flashActivate s = .next s' ∧ s'.hk.flSt = 3 ∧ s'.hk.flCode = 4 ∧
      s'.hk.slots = s.hk.slots) ∧
    (∀ f, s.hk.slots.find? FlashSlot.staged = some f → ∃ s', exec .flashActivate s = .next s' ∧ s'.hk.flSt = 2 ∧
      s'.hk.slots = s.hk.slots.map fun g => if g.kind = f.kind ∧ g.image = f.image then { g with active := g.staged, staged := false } else g) ∧
    ∃ s', exec .flashAbandon s = .next s' ∧ s'.hk.flSt = 2 ∧ ∀ f ∈ s'.hk.slots, f.staged = false) ∧
  (∀ (s : State),
    (checkImages (images s.hk.slots) s.hk.slots = none → ∃ s', exec .coldReset s = .next s' ∧ s'.hk.recov = true ∧
      s'.hk.ready = false ∧ s'.hk.slots = s.hk.slots ∧ s'.hostMem = s.hostMem ∧ s'.hbm = [] ∧ s'.net = []) ∧
    (∀ slots slots', checkImages (images s.hk.slots) s.hk.slots = some slots → checkPair slots 2 0 = some slots' →
      ∃ s', exec .coldReset s = .next s' ∧ s'.hk.recov = false ∧ s'.hk.ready = true ∧ s'.hk.stage = 8 ∧ s'.hk.slots = slots' ∧
        s'.hostMem = s.hostMem ∧ s'.hbm = [] ∧ s'.warps = [] ∧ s'.grids = [] ∧ s'.fe.queues = [] ∧ s'.lines = [] ∧
        ∀ d, d < Config.shaderDies → Msg.dieTimerCalibration d ⟨0, 0, 8⟩ ∈ s'.net)) ∧
  (∀ (s : State), s.hk.recov = false →
    (s.grids = [] → ∃ s', exec .functionLevelReset s = .next s' ∧ s'.hk.ready = true ∧ s'.hk.stage = 8) ∧
    (s.grids ≠ [] → ∃ s', exec .functionLevelReset s = .next s' ∧ s'.hk.ready = false ∧ Msg.functionLevelReset ∈ s'.net ∧
      ∀ e ∈ s.grids, e.2.fault = none → ∃ r pos, Msg.fatalFault e.1 r pos ∈ s'.net)) ∧
  (∀ (temp power : BitVec 16) (mhz : Nat) (cause : BitVec 3) (s : State), 500 ≤ mhz → mhz ≤ 1050 → mhz % 50 = 0 → cause.toNat ≤ 3 →
    let hot := 1050 < temp.toNat ∨ min 2800 Config.powerLimit < power.toNat
    ∃ s', exec (.governor temp power mhz cause) s = .next s' ∧ s'.hk.temp = temp ∧ s'.hk.power = power ∧ s'.hk.cause = cause ∧
      (¬hot → s'.hk.mhz = mhz) ∧ (hot → s'.hk.mhz = min mhz (max 500 (s.hk.mhz - 50)))) ∧
  (∀ (die : Nat) (s : State), die < Config.shaderDies → exec (.thermalDieReset die) s = .next (s.send (.dieReset die)))

/-- R7, R8, R91, R114, R352, R410, R411: a write to the register window changes the fields it may and starts the steps that it
commands; one that is not aligned, or that goes outside the housekeeping block in recovery, changes nothing. -/
def Claim.RegisterWindow : Prop :=
  (∀ (offset : Nat) (v : DWord) (s : State), offset % 8 ≠ 0 ∨ (s.hk.recov = true ∧ offset / 2 ^ 16 ≠ 7) →
    exec (.registerWrite offset v) s = .next s) ∧
  (∀ (v : DWord) (s : State), s.hk.recov = false →
    exec (.registerWrite 0x40000 v) s =
      .next { s with mem := { s.mem with swEn := v.getLsbD 0, swRate := v.toNat / 2 ^ 4 % 2 ^ 13 } } ∧
    exec (.registerWrite 0x40010 v) s =
      .next { s with mem := { s.mem with swLow := v.toNat % 2 ^ 24, swHigh := v.toNat / 2 ^ 32 % 2 ^ 24 } } ∧
    exec (.registerWrite 0x40040 v) s = .next (s.send (.mrbaseWrite false v)) ∧
    exec (.registerWrite 0x40048 v) s = .next (s.send (.mrbaseWrite true v)) ∧
    exec (.registerWrite 0x50000 v) s =
      .next { s with mem := { s.mem with lease := v.toNat % 2 ^ 16, nocp := v.getLsbD 16 } } ∧
    exec (.registerWrite 0x50018 v) s =
      .next { s with mem := { s.mem with yldt := v.toNat % 2 ^ 16, poll := v.toNat / 2 ^ 16 % 2 ^ 16 } } ∧
    exec (.registerWrite 0x50020 v) s =
      .next { s with mem := { s.mem with ppwin := v.toNat % 2 ^ 16, far := v.getLsbD 16 } } ∧
    exec (.registerWrite 0x60080 v) s = .next (s.send (.eventRingRestart false v)) ∧
    exec (.registerWrite 0x60088 v) s = .next (s.send (.eventRingRestart true v)) ∧
    (v.getLsbD 63 = true → s.hk.ready = true → s.fe.qstsSt ≠ 1 → v.toNat / 2 ^ 56 % 2 ^ 3 = 1 →
      ∃ s', exec (.registerWrite 0x60000 v) s = .next s' ∧ s'.net = s.net ++ [.queueCreate (v.toNat % 2 ^ 12)] ∧
        s'.fe.qstsSt = 1)) ∧
  (∀ (v : DWord) (s : State),
    (∀ e k, e < 64 → k < 4 → SMap.wf 0 s.hk.kwexp = true → ∃ s', exec (.registerWrite (0x70100 + 32 * e + 8 * k) v) s = .next s' ∧
      SMap.get 0 s'.hk.kwexp (4 * e + k) = v &&& kwexpMask k ∧
      ∀ j, j ≠ 4 * e + k → SMap.get 0 s'.hk.kwexp j = SMap.get 0 s.hk.kwexp j) ∧
    (v.getLsbD 63 = true → s.hk.atSt ≠ 1 → ∃ s', exec (.registerWrite 0x70018 v) s = .next s' ∧ s'.net = s.net ++ [.attestation] ∧
      s'.hk.atSt = 1) ∧
    exec (.registerWrite 0x70020 v) s = .next { s with hk := { s.hk with atBuf := v &&& ~~~0xFFF#64 } } ∧
    exec (.registerWrite 0x70030 v) s = .next { s with hk := { s.hk with flBuf := v &&& ~~~0xFFF#64 } } ∧
    (v.getLsbD 63 = true → v.toNat / 2 ^ 4 % 2 ^ 4 = 2 → ∃ s', exec (.registerWrite 0x70010 v) s = .next s' ∧
      s'.net = s.net ++ [.portDown (v.toNat % 2 ^ 4)]))

/-- R7, R8, R91, R114, R352, R410 to R416: housekeeping and the register window. -/
def Obligations.DeviceRegisters : Prop :=
  Claim.HousekeepingSteps ∧ Claim.RegisterWindow
end

