-- ==== Sys2Proof/Laws/Sparse.lean ====
section
/-! SUPPORT. The containers: reading after writing, and the canonical form kept by every memory operation. -/

namespace Sys2Proof.Machine

/-! ## Maps with a default -/

@[simp] theorem SMap.above_nil {α : Type} (n : Nat) : SMap.above n ([] : SMap α) = true := rfl

/-- A key at or below a bound of the listed keys is not listed. -/
theorem SMap.get_of_above {α : Type} {d : α} {n k : Nat} : {m : SMap α} → SMap.above n m = true → k ≤ n → SMap.get d m k = d
  | [], _, _ => rfl
  | (k', v) :: rest, h, hk => by
    simp only [SMap.above, Bool.and_eq_true, decide_eq_true_eq] at h
    simp only [SMap.get]
    rw [if_neg (by omega)]
    exact get_of_above h.2 (by omega)

theorem SMap.above_mono {α : Type} {n k : Nat} (h : k ≤ n) : {m : SMap α} → SMap.above n m = true → SMap.above k m = true
  | [], _ => rfl
  | (k', v) :: rest, hm => by
    simp only [SMap.above, Bool.and_eq_true, decide_eq_true_eq] at hm ⊢
    exact ⟨by omega, hm.2⟩

/-- Reading a key after writing one, in a map whose keys rise. -/
theorem SMap.get_set {α : Type} [DecidableEq α] (d : α) (k j : Nat) (v : α) :
    {n : Nat} → {m : SMap α} → SMap.above n m = true → SMap.get d (SMap.set d m k v) j = if j = k then v else SMap.get d m j
  | _, [], _ => by
    unfold SMap.set
    split <;> by_cases hj : j = k <;> simp_all [SMap.get]
  | _, (k', v') :: rest, h => by
    simp only [SMap.above, Bool.and_eq_true, decide_eq_true_eq] at h
    have ih := get_set d k j v h.2
    unfold SMap.set
    by_cases h1 : k < k'
    · rw [if_pos h1]
      by_cases hj : j = k
      · subst hj
        have : SMap.get d ((k', v') :: rest) j = d := by
          simp only [SMap.get]; rw [if_neg (by omega)]; exact get_of_above h.2 (by omega)
        split <;> simp_all [SMap.get]
      · split <;> simp_all [SMap.get]
    · rw [if_neg h1]
      by_cases h2 : k = k'
      · rw [if_pos h2]; subst h2
        by_cases hj : j = k
        · subst hj
          have : SMap.get d rest j = d := get_of_above h.2 (by omega)
          split <;> simp_all [SMap.get]
        · split <;> simp_all [SMap.get]
      · rw [if_neg h2]
        simp only [SMap.get]
        by_cases hj : j = k'
        · subst hj; rw [if_pos rfl, if_pos rfl, if_neg (fun e => h2 e.symm)]
        · rw [if_neg hj, if_neg hj, ih]

theorem SMap.above_set {α : Type} [DecidableEq α] (d : α) (k : Nat) (v : α) :
    {n : Nat} → {m : SMap α} → SMap.above n m = true → n < k → SMap.above n (SMap.set d m k v) = true
  | _, [], _, hk => by unfold SMap.set; split <;> simp [SMap.above, hk]
  | n, (k', v') :: rest, h, hk => by
    simp only [SMap.above, Bool.and_eq_true, decide_eq_true_eq] at h
    unfold SMap.set
    by_cases h1 : k < k'
    · rw [if_pos h1]; split <;> simp [SMap.above, h, hk, h1]
    · rw [if_neg h1]
      by_cases h2 : k = k'
      · rw [if_pos h2]; subst h2
        split
        · exact above_mono (by omega) h.2
        · simp [SMap.above, h]
      · rw [if_neg h2]
        simp only [SMap.above, Bool.and_eq_true, decide_eq_true_eq]
        exact ⟨h.1, above_set d k v h.2 (by omega)⟩

theorem SMap.all_set {α : Type} [DecidableEq α] (d : α) (k : Nat) (v : α) :
    {m : SMap α} → (m.all fun e => decide (e.2 ≠ d)) = true → ((SMap.set d m k v).all fun e => decide (e.2 ≠ d)) = true
  | [], _ => by unfold SMap.set; split <;> simp_all
  | (k', v') :: rest, h => by
    simp only [List.all_cons, Bool.and_eq_true] at h
    have ih := all_set d k v h.2
    unfold SMap.set
    split
    · split
      · exact (List.all_cons ..).trans (by rw [h.1, h.2]; rfl)
      · rename_i hv
        rw [List.all_cons, List.all_cons, h.1, h.2]; simpa using hv
    · split
      · split
        · exact h.2
        · rename_i hv
          rw [List.all_cons, h.2]; simpa using hv
      · rw [List.all_cons, h.1, ih]; rfl

/-- The canonical form as a bound on the keys: `n` lies below every key. -/
theorem SMap.wf_iff {α : Type} [DecidableEq α] (d : α) (m : SMap α) :
    SMap.wf d m = true ↔ (m = [] ∨ ∃ k v rest, m = (k, v) :: rest ∧ SMap.above k rest = true)
      ∧ (m.all fun e => decide (e.2 ≠ d)) = true := by
  cases m with
  | nil => simp [SMap.wf]
  | cons e rest =>
    obtain ⟨k, v⟩ := e
    simp [SMap.wf]

theorem SMap.get_set_wf {α : Type} [DecidableEq α] {d : α} {m : SMap α} (h : SMap.wf d m = true) (k j : Nat) (v : α) :
    SMap.get d (SMap.set d m k v) j = if j = k then v else SMap.get d m j := by
  cases m with
  | nil => exact SMap.get_set d k j v (n := 0) rfl
  | cons e rest =>
    obtain ⟨k', v'⟩ := e
    simp only [SMap.wf, Bool.and_eq_true] at h
    by_cases h0 : 0 < k'
    · exact SMap.get_set d k j v (n := 0) (by simp [SMap.above, h0, h.1])
    · obtain rfl : k' = 0 := by omega
      have ih := SMap.get_set d k j v h.1
      unfold SMap.set
      rw [if_neg (by omega)]
      by_cases h2 : k = 0
      · rw [if_pos h2]; subst h2
        by_cases hj : j = 0
        · subst hj
          have : SMap.get d rest 0 = d := SMap.get_of_above h.1 (by omega)
          split <;> simp_all [SMap.get]
        · split <;> simp_all [SMap.get]
      · rw [if_neg h2]
        simp only [SMap.get]
        by_cases hj : j = 0
        · subst hj; rw [if_pos rfl, if_pos rfl, if_neg (fun e => h2 e.symm)]
        · rw [if_neg hj, if_neg hj, ih]

/-- Writing keeps the canonical form. -/
theorem SMap.wf_set {α : Type} [DecidableEq α] {d : α} {m : SMap α} (h : SMap.wf d m = true) (k : Nat) (v : α) :
    SMap.wf d (SMap.set d m k v) = true := by
  have hall : ((SMap.set d m k v).all fun e => decide (e.2 ≠ d)) = true := by
    apply SMap.all_set
    cases m with
    | nil => rfl
    | cons e rest => simp only [SMap.wf, Bool.and_eq_true] at h; exact h.2
  cases m with
  | nil =>
    unfold SMap.set at *
    split <;> simp_all [SMap.wf]
  | cons e rest =>
    obtain ⟨k', v'⟩ := e
    simp only [SMap.wf, Bool.and_eq_true] at h
    unfold SMap.set at *
    by_cases h1 : k < k'
    · rw [if_pos h1] at *
      split
      · rw [SMap.wf, Bool.and_eq_true]; exact ⟨h.1, h.2⟩
      · rename_i hv
        rw [if_neg hv] at hall
        rw [SMap.wf, Bool.and_eq_true]
        exact ⟨by simp [SMap.above, h1, h.1], hall⟩
    · rw [if_neg h1] at *
      by_cases h2 : k = k'
      · rw [if_pos h2] at *
        subst h2
        split
        · rename_i hv
          rw [if_pos hv] at hall
          cases rest with
          | nil => rfl
          | cons e' rest' =>
            obtain ⟨k'', v''⟩ := e'
            have h' := h.1
            simp only [SMap.above, Bool.and_eq_true] at h'
            rw [SMap.wf, Bool.and_eq_true]
            exact ⟨h'.2, hall⟩
        · rename_i hv
          rw [if_neg hv] at hall
          rw [SMap.wf, Bool.and_eq_true]
          exact ⟨h.1, hall⟩
      · rw [if_neg h2] at *
        simp only [SMap.wf, Bool.and_eq_true]
        exact ⟨SMap.above_set d k v h.1 (by omega), hall⟩

theorem SMap.above_filter {α : Type} (p : Nat × α → Bool) :
    {n : Nat} → {m : SMap α} → SMap.above n m = true → SMap.above n (m.filter p) = true
  | _, [], _ => rfl
  | n, (k, v) :: rest, h => by
    simp only [SMap.above, Bool.and_eq_true, decide_eq_true_eq] at h
    rw [List.filter_cons]
    split
    · simp only [SMap.above, Bool.and_eq_true, decide_eq_true_eq]
      exact ⟨h.1, above_filter p h.2⟩
    · exact above_mono (by omega) (above_filter p h.2)

/-- A list whose tail's keys rise above its first key is canonical where its values are not the default. -/
theorem SMap.wf_of_above {α : Type} [DecidableEq α] {d : α} (p : Nat × α → Bool) {k : Nat} {v : α} {rest : SMap α}
    (h : SMap.above k (rest.filter p) = true) (hall : ((((k, v) :: rest).filter p).all fun e => decide (e.2 ≠ d)) = true) :
    SMap.wf d (((k, v) :: rest).filter p) = true := by
  rw [List.filter_cons] at hall ⊢
  split
  · rename_i hp
    rw [if_pos hp] at hall
    rw [SMap.wf, Bool.and_eq_true]
    exact ⟨h, hall⟩
  · rename_i hp
    rw [if_neg hp] at hall
    cases hf : rest.filter p with
    | nil => rfl
    | cons e' rest' =>
      obtain ⟨k', v'⟩ := e'
      rw [hf] at h hall
      simp only [SMap.above, Bool.and_eq_true] at h
      rw [SMap.wf, Bool.and_eq_true]
      exact ⟨h.2, hall⟩

/-- Leaving entries out keeps the canonical form. -/
theorem SMap.wf_filter {α : Type} [DecidableEq α] {d : α} {m : SMap α} (h : SMap.wf d m = true) (p : Nat × α → Bool) :
    SMap.wf d (m.filter p) = true := by
  have hall : ((m.filter p).all fun e => decide (e.2 ≠ d)) = true := by
    have h2 : (m.all fun e => decide (e.2 ≠ d)) = true := by
      simp only [SMap.wf, Bool.and_eq_true] at h; exact h.2
    rw [List.all_eq_true] at h2 ⊢
    intro e he
    exact h2 e (List.mem_filter.mp he).1
  cases m with
  | nil => rfl
  | cons e rest =>
    obtain ⟨k, v⟩ := e
    simp only [SMap.wf, Bool.and_eq_true] at h
    exact SMap.wf_of_above p (SMap.above_filter p h.1) hall

/-! ## Memory -/

/-- A memory with nothing listed is canonical. -/
@[simp] theorem Memory.wf_nil : Memory.wf [] = true := rfl

@[simp] theorem Memory.byte_nil (a : Nat) : Memory.byte [] a = 0 := rfl

/-- Writing a byte keeps the canonical form. -/
theorem Memory.wf_set {m : Memory} (h : m.wf = true) (a : Nat) (b : Byte) : (m.set a b).wf = true := SMap.wf_set h a b

/-- A byte read after a byte written: that byte at its address, the old one elsewhere. -/
theorem Memory.byte_set {m : Memory} (h : m.wf = true) (a j : Nat) (b : Byte) :
    (m.set a b).byte j = if j = a then b else m.byte j := SMap.get_set_wf h a j b

/-- Writing bytes keeps the canonical form. -/
theorem Memory.wf_write : {m : Memory} → m.wf = true → (a : Nat) → (bs : List Byte) → (m.write a bs).wf = true
  | _, h, _, [] => h
  | _, h, a, b :: rest => wf_write (wf_set h a b) (a + 1) rest

/-- A byte read after bytes written: the written byte within them, the old one elsewhere. -/
theorem Memory.byte_write : {m : Memory} → m.wf = true → (a : Nat) → (bs : List Byte) → (j : Nat) →
    (m.write a bs).byte j = if a ≤ j ∧ j < a + bs.length then bs.getD (j - a) 0 else m.byte j
  | m, _, a, [], j => by
    rw [Memory.write, if_neg (by simp only [List.length_nil]; omega)]
  | m, h, a, b :: rest, j => by
    rw [Memory.write, byte_write (wf_set h a b) (a + 1) rest j, byte_set h]
    simp only [List.length_cons]
    by_cases h1 : j = a
    · subst h1; simp
    · by_cases h2 : a + 1 ≤ j ∧ j < a + 1 + rest.length
      · have e : j - a = (j - (a + 1)) + 1 := by omega
        rw [if_pos h2, if_pos (by omega), e]; simp
      · rw [if_neg h2, if_neg h1, if_neg (by omega)]

/-- Clearing a stretch keeps the canonical form. -/
theorem Memory.wf_clear {m : Memory} (h : m.wf = true) (a n : Nat) : (m.clear a n).wf = true := SMap.wf_filter h _

/-! ## Tables -/

theorem Tab.find_upd {α : Type} (k j : Nat) (f : α → α) :
    (t : Tab α) → Tab.find (Tab.upd t k f) j = if j = k then (Tab.find t j).map f else Tab.find t j
  | [] => by simp [Tab.upd, Tab.find]
  | (k', v) :: rest => by
    simp only [Tab.upd]
    by_cases h : k = k'
    · rw [if_pos h]
      subst h
      by_cases hj : j = k <;> simp [Tab.find, hj]
    · rw [if_neg h]
      by_cases hj : j = k'
      · subst hj; simp [Tab.find, Ne.symm h]
      · simp [Tab.find, hj, find_upd k j f rest]

@[simp] theorem Tab.find_upd_self {α : Type} (t : Tab α) (k : Nat) (f : α → α) :
    Tab.find (Tab.upd t k f) k = (Tab.find t k).map f := by simp [Tab.find_upd]

theorem Tab.find_upd_ne {α : Type} (t : Tab α) {k j : Nat} (h : j ≠ k) (f : α → α) :
    Tab.find (Tab.upd t k f) j = Tab.find t j := by simp [Tab.find_upd, h]

/-- Two changes of one entry are one. -/
theorem Tab.upd_upd {α : Type} (k : Nat) (f g : α → α) : (t : Tab α) → Tab.upd (Tab.upd t k f) k g = Tab.upd t k (g ∘ f)
  | [] => rfl
  | (k', v) :: rest => by
    simp only [Tab.upd]
    by_cases h : k = k'
    · simp [h, Tab.upd]
    · simp [h, Tab.upd, upd_upd k f g rest]

/-- Changes that agree on the entry that is there agree. -/
theorem Tab.upd_congr {α : Type} (k : Nat) (f g : α → α) :
    (t : Tab α) → (∀ v, Tab.find t k = some v → f v = g v) → Tab.upd t k f = Tab.upd t k g
  | [], _ => rfl
  | (k', v) :: rest, h => by
    simp only [Tab.upd]
    by_cases hk : k = k'
    · simp [hk, h v (by simp [Tab.find, hk])]
    · simp [hk, upd_congr k f g rest (fun v hv => h v (by simpa [Tab.find, hk] using hv))]

theorem Tab.upd_none {α : Type} (k : Nat) (f : α → α) : (t : Tab α) → Tab.find t k = none → Tab.upd t k f = t
  | [], _ => rfl
  | (k', v) :: rest, h => by
    simp only [Tab.upd]
    by_cases hk : k = k'
    · simp [Tab.find, hk] at h
    · simp [hk, upd_none k f rest (by simpa [Tab.find, hk] using h)]

theorem Tab.find_put_self {α : Type} (k : Nat) (v : α) : (t : Tab α) → Tab.find (Tab.put t k v) k = some v
  | [] => by simp [Tab.put, Tab.find]
  | (k', v') :: rest => by
    simp only [Tab.put]
    split
    · simp [Tab.find]
    · split
      · simp [Tab.find]
      · rename_i h1 h2
        simp [Tab.find, h2, find_put_self k v rest]

theorem Tab.find_put_ne {α : Type} {k j : Nat} (h : j ≠ k) (v : α) : (t : Tab α) → Tab.find (Tab.put t k v) j = Tab.find t j
  | [] => by simp [Tab.put, Tab.find, h]
  | (k', v') :: rest => by
    simp only [Tab.put]
    split
    · simp [Tab.find, h]
    · split
      · rename_i h1 h2
        simp [Tab.find, h, ← h2]
      · simp only [Tab.find, find_put_ne h v rest]

end Sys2Proof.Machine
end

