-- ==== Sys2Proof/Laws/Canonical.lean ====
section
/-! SUPPORT. The one form of the memories, kept by every operation of the state that writes them: lines put back, bytes poked,
frames bound, released, flushed and moved, and an instruction placed. -/

namespace Sys2Proof.Machine

/-! ## The form as a property of the entries -/

theorem SMap.above_iff {α : Type} : (m : SMap α) → (n : Nat) →
    (SMap.above n m = true ↔ (∀ e ∈ m, n < e.1) ∧ m.Pairwise fun a b => a.1 < b.1)
  | [], n => by simp
  | (k, v) :: rest, n => by
    simp only [SMap.above, Bool.and_eq_true, decide_eq_true_eq, above_iff rest k, List.mem_cons, forall_eq_or_imp,
      List.pairwise_cons]
    constructor
    · exact fun ⟨h, h1, h2⟩ => ⟨⟨h, fun e he => Nat.lt_trans h (h1 e he)⟩, h1, h2⟩
    · exact fun ⟨⟨h, _⟩, h1, h2⟩ => ⟨h, h1, h2⟩

/-- The canonical form: keys strictly rising, and no entry equal to the default. -/
theorem SMap.wf_iff_pairwise {α : Type} [DecidableEq α] (d : α) (m : SMap α) :
    SMap.wf d m = true ↔ (m.Pairwise fun a b => a.1 < b.1) ∧ ∀ e ∈ m, e.2 ≠ d := by
  cases m with
  | nil => simp [SMap.wf]
  | cons e rest =>
    obtain ⟨k, v⟩ := e
    simp only [SMap.wf, Bool.and_eq_true, SMap.above_iff, List.pairwise_cons, List.all_eq_true, decide_eq_true_eq]

/-- A listed entry is what its key reads as. -/
theorem SMap.get_of_mem {α : Type} [DecidableEq α] {d : α} : {m : SMap α} → SMap.wf d m = true → {e : Nat × α} → e ∈ m →
    SMap.get d m e.1 = e.2
  | [], _, e, he => by cases he
  | (k, v) :: rest, h, e, he => by
    rw [SMap.wf_iff_pairwise, List.pairwise_cons] at h
    rw [List.mem_cons] at he
    simp only [SMap.get]
    rcases he with rfl | he
    · rw [if_pos rfl]
    · have := h.1.1 e he
      rw [if_neg (by simp only at this; omega)]
      exact get_of_mem ((SMap.wf_iff_pairwise d rest).mpr ⟨h.1.2, fun x hx => h.2 x (List.mem_cons_of_mem _ hx)⟩) he

/-- A key that is not listed reads as the default. -/
theorem SMap.get_of_not_mem {α : Type} {d : α} {k : Nat} : {m : SMap α} → (∀ e ∈ m, e.1 ≠ k) → SMap.get d m k = d
  | [], _ => rfl
  | (k', v) :: rest, h => by
    simp only [SMap.get]
    rw [if_neg (fun hk => h (k', v) (by simp) hk.symm)]
    exact get_of_not_mem fun e he => h e (List.mem_cons_of_mem _ he)

/-! ## Whole lines -/

theorem mem_lineCells {d : LineData} {a : Nat} {e : Host.Cell} :
    e ∈ lineCells d a ↔ ∃ i, i < 128 ∧ e = (a + i, d.extractLsb' (8 * i) 8) ∧ d.extractLsb' (8 * i) 8 ≠ 0 := by
  simp only [lineCells, List.mem_filterMap, List.mem_range]
  constructor
  · rintro ⟨i, hi, h⟩
    split at h
    · cases h
    · rename_i hz
      exact ⟨i, hi, (Option.some.inj h).symm, hz⟩
  · rintro ⟨i, hi, rfl, hz⟩
    exact ⟨i, hi, by rw [if_neg hz]⟩

theorem pairwise_lineCells (d : LineData) (a : Nat) : (lineCells d a).Pairwise fun x y => x.1 < y.1 := by
  unfold lineCells
  rw [List.pairwise_filterMap]
  refine List.Pairwise.imp ?_ (List.pairwise_lt_range (n := 128))
  intro i j hij x hx y hy
  split at hx
  · cases hx
  · split at hy
    · cases hy
    · cases hx; cases hy; simp only; omega

theorem Memory.wf_putLine {m : Memory} (h : m.wf = true) (a : Nat) (d : LineData) : (m.putLine a d).wf = true := by
  have h' := (SMap.wf_iff_pairwise (0 : Byte) m).mp h
  refine (SMap.wf_iff_pairwise (0 : Byte) _).mpr ⟨?_, ?_⟩
  · unfold Memory.putLine
    rw [List.pairwise_append, List.pairwise_append]
    refine ⟨⟨h'.1.filter _, pairwise_lineCells d a, ?_⟩, h'.1.filter _, ?_⟩
    · intro x hx y hy
      obtain ⟨i, hi, rfl, -⟩ := mem_lineCells.mp hy
      have := (List.mem_filter.mp hx).2
      simp only [decide_eq_true_eq] at this
      simp only; omega
    · intro x hx y hy
      have hy' := (List.mem_filter.mp hy).2
      simp only [decide_eq_true_eq] at hy'
      rcases List.mem_append.mp hx with hx | hx
      · have := (List.mem_filter.mp hx).2
        simp only [decide_eq_true_eq] at this
        omega
      · obtain ⟨i, hi, rfl, -⟩ := mem_lineCells.mp hx
        simp only; omega
  · intro e he
    rcases List.mem_append.mp he with he | he
    · rcases List.mem_append.mp he with he | he
      · exact h'.2 e (List.mem_filter.mp he).1
      · obtain ⟨i, hi, rfl, hz⟩ := mem_lineCells.mp he
        exact hz
    · exact h'.2 e (List.mem_filter.mp he).1

/-- A line put back: its 128 bytes read as the line's, every other byte as before. -/
theorem Memory.byte_putLine {m : Memory} (h : m.wf = true) (a j : Nat) (d : LineData) :
    (m.putLine a d).byte j = if a ≤ j ∧ j < a + 128 then d.extractLsb' (8 * (j - a)) 8 else m.byte j := by
  have hw := Memory.wf_putLine h a d
  split
  · rename_i hj
    by_cases hz : d.extractLsb' (8 * (j - a)) 8 = 0
    · rw [hz]
      apply SMap.get_of_not_mem
      intro e he hej
      unfold Memory.putLine at he
      rcases List.mem_append.mp he with he | he
      · rcases List.mem_append.mp he with he | he
        · have := (List.mem_filter.mp he).2; simp only [decide_eq_true_eq] at this; omega
        · obtain ⟨i, hi, rfl, hn⟩ := mem_lineCells.mp he
          simp only at hej
          obtain rfl : i = j - a := by omega
          exact hn hz
      · have := (List.mem_filter.mp he).2; simp only [decide_eq_true_eq] at this; omega
    · have he : (j, d.extractLsb' (8 * (j - a)) 8) ∈ m.putLine a d := by
        unfold Memory.putLine
        refine List.mem_append.mpr (.inl (List.mem_append.mpr (.inr (mem_lineCells.mpr ⟨j - a, by omega, ?_, hz⟩))))
        rw [show a + (j - a) = j by omega]
      exact SMap.get_of_mem hw he
  · rename_i hj
    by_cases hl : ∃ e ∈ m, e.1 = j
    · obtain ⟨e, he, rfl⟩ := hl
      have h1 : e ∈ m.putLine a d := by
        unfold Memory.putLine
        by_cases hlt : e.1 < a
        · exact List.mem_append.mpr (.inl (List.mem_append.mpr (.inl (List.mem_filter.mpr ⟨he, by simpa using hlt⟩))))
        · exact List.mem_append.mpr (.inr (List.mem_filter.mpr ⟨he, by simp only [decide_eq_true_eq]; omega⟩))
      exact (SMap.get_of_mem hw h1).trans (SMap.get_of_mem h he).symm
    · have h0 : m.byte j = 0 := SMap.get_of_not_mem fun e he hej => hl ⟨e, he, hej⟩
      rw [h0]
      apply SMap.get_of_not_mem
      intro e he hej
      unfold Memory.putLine at he
      rcases List.mem_append.mp he with he | he
      · rcases List.mem_append.mp he with he | he
        · exact hl ⟨e, (List.mem_filter.mp he).1, hej⟩
        · obtain ⟨i, hi, rfl, -⟩ := mem_lineCells.mp he
          simp only at hej; omega
      · exact hl ⟨e, (List.mem_filter.mp he).1, hej⟩

/-- Lines put back one after another. -/
theorem Memory.wf_foldl_putLine {β : Type} (at_ : β → Nat) (line : β → LineData) : (l : List β) → {m : Memory} → m.wf = true →
    Memory.wf (l.foldl (fun (m : Memory) x => Memory.putLine m (at_ x) (line x)) m) = true
  | [], _, h => h
  | x :: rest, _, h => wf_foldl_putLine at_ line rest (Memory.wf_putLine h (at_ x) (line x))

/-! ## The state's operations on its memories -/

theorem State.Canonical.of_eq {s s' : State} (h : s.Canonical) (h1 : s'.hbm = s.hbm) (h2 : s'.hostMem = s.hostMem) :
    s'.Canonical := by
  rw [State.Canonical, h1, h2]; exact h

/-- A chain of operations, each of which keeps the form. -/
theorem State.Canonical.foldl {β : Type} {f : State → β → State} (hf : ∀ s x, s.Canonical → (f s x).Canonical) :
    (l : List β) → {s : State} → s.Canonical → (l.foldl f s).Canonical
  | [], _, h => h
  | x :: rest, _, h => foldl hf rest (hf _ x h)

theorem State.reset_canonical : State.reset.Canonical := ⟨rfl, rfl⟩

theorem State.Canonical.poke {host : Bool} : (bs : List Byte) → {s : State} → {pa : Nat} → s.Canonical → (s.poke host pa bs).Canonical
  | [], _, _, h => h
  | b :: rest, s, pa, h => by
    unfold State.poke
    apply State.Canonical.poke rest
    split
    · exact ⟨h.1, Memory.wf_set h.2 _ _⟩
    · split
      · exact h
      · exact ⟨Memory.wf_set h.1 _ _, h.2⟩

theorem State.Canonical.bindFrame {s : State} (h : s.Canonical) (n asid gen va : Nat) (pin large : Bool) :
    (s.bindFrame n asid gen va pin large).Canonical := ⟨Memory.wf_clear h.1 _ _, h.2⟩

theorem State.Canonical.allocTable {s : State} (h : s.Canonical) (bytes : Nat) : (s.allocTable bytes).2.Canonical := by
  unfold State.allocTable
  simp only
  split
  · exact ⟨Memory.wf_clear h.1 _ _, h.2⟩
  · exact h

theorem State.Canonical.setPteFrom (va : DWord) (target e : Nat) : (lvl : Nat) → {s : State} → {base : Nat} → s.Canonical →
    (s.setPteFrom base va target e lvl).Canonical
  | 0, _, _, h => h
  | lvl + 1, s, base, h => by
    unfold State.setPteFrom
    simp only
    split
    · exact h.poke _
    · split
      · exact State.Canonical.setPteFrom va target e lvl h
      · exact State.Canonical.setPteFrom va target e lvl ((h.allocTable _).poke _)

theorem State.Canonical.setPte {s : State} (h : s.Canonical) (asid : Nat) (va : DWord) (log2 e : Nat) :
    (s.setPte asid va log2 e).Canonical := State.Canonical.setPteFrom va _ e 4 h

theorem State.fireMonitor_mems (s : State) (m : Monitor) (result : Bool) :
    (s.fireMonitor m result).hbm = s.hbm ∧ (s.fireMonitor m result).hostMem = s.hostMem := by
  unfold State.fireMonitor
  simp only
  have go : ∀ (l : List Nat) (u : State), let u' := l.foldl (fun s a => s.send (.monitorWake m.key a result)) u
      u'.hbm = u.hbm ∧ u'.hostMem = u.hostMem := by
    intro l
    induction l with
    | nil => exact fun u => ⟨rfl, rfl⟩
    | cons a rest ih => exact fun u => ih (u.send (.monitorWake m.key a result))
  exact go _ _

theorem State.Canonical.fireFrame {s : State} (h : s.Canonical) (n : Nat) : (s.fireFrame n).Canonical :=
  State.Canonical.foldl (fun u m hu => hu.of_eq (u.fireMonitor_mems m false).1 (u.fireMonitor_mems m false).2) _ h

theorem State.Canonical.releaseFrame {s : State} (h : s.Canonical) (n : Nat) : (s.releaseFrame n).Canonical := by
  unfold State.releaseFrame
  simp only
  split
  · exact h
  · exact ⟨Memory.wf_clear (h.fireFrame n).1 _ _, (h.fireFrame n).2⟩

theorem State.Canonical.finishOut {s : State} (h : s.Canonical) (asid va : Nat) : (s.finishOut asid va).Canonical := by
  unfold State.finishOut
  simp only
  refine State.Canonical.foldl (fun _ _ hu => hu.releaseFrame _) _ (State.Canonical.setPte ?_ _ _ _ _)
  exact ⟨h.1, Memory.wf_foldl_putLine (fun i => s.backing asid va + 128 * i)
    (fun i => (s.homeLine (pteAddr (s.rawLeaf asid va).e / 128 + i)).value) _ h.2⟩

theorem State.Canonical.flushFrame {s : State} (h : s.Canonical) (n : Nat) : (s.flushFrame n).Canonical :=
  ⟨Memory.wf_foldl_putLine (fun e : Nat × HomeLine => 128 * e.1) (fun e => e.2.value) _ h.1, h.2⟩

theorem State.Canonical.returnLine {s : State} (h : s.Canonical) (die : Nat) (e : Nat × HomeLine) :
    (s.returnLine die e).Canonical := by
  unfold State.returnLine
  simp only
  split
  · split
    · exact h
    · exact ⟨Memory.wf_putLine h.1 _ _, h.2⟩
  · split <;> exact h

theorem State.Canonical.evict {s : State} (h : s.Canonical) (w : Way) : (s.evict w).Canonical := by
  unfold State.evict
  split
  · split
    · exact ⟨Memory.wf_putLine h.1 _ _, h.2⟩
    · exact h
  · split <;> exact h
  · exact h

theorem State.Canonical.evictOne {s s' : State} (h : s.Canonical) {ws : List Way} (he : s.evictOne ws = some s') : s'.Canonical := by
  unfold State.evictOne at he
  split at he
  · cases he
    exact State.Canonical.evict (s := { s with freeCtr := s.freeCtr + 1 }) h _
  · cases he

/-- R100: a line given a way keeps the form, whatever leaves for it. -/
theorem State.Canonical.enterHome {s s' : State} (h : s.Canonical) {line : Nat} (he : s.enterHome line = some s') : s'.Canonical := by
  unfold State.enterHome at he
  split at he
  · cases he; exact h
  · obtain ⟨u, hu, rfl⟩ := Option.map_eq_some_iff.mp he
    have hc : u.Canonical := by
      unfold State.makeRoom at hu
      simp only at hu
      split at hu
      · exact h.evictOne hu
      · split at hu
        · cases hu; exact h
        · exact h.evictOne hu
    exact hc

theorem State.Canonical.moveIn {s : State} (h : s.Canonical) (asid va : Nat) : (s.moveIn asid va).Canonical := by
  unfold State.moveIn
  simp only
  refine State.Canonical.setPte ?_ _ _ _ _
  have hb := State.Canonical.foldl (f := fun (u : State) j => u.bindFrame (s.freeRun (2 ^ ((s.rawLeaf asid va).log2 - 16)) + j) asid
    (u.asid asid).gen (va + 65536 * j) false (decide ((s.rawLeaf asid va).log2 ≠ 16))) (fun _ _ hu => hu.bindFrame _ _ _ _ _ _)
    (List.range (2 ^ ((s.rawLeaf asid va).log2 - 16))) h
  exact ⟨Memory.wf_foldl_putLine (fun i => 65536 * s.freeRun (2 ^ ((s.rawLeaf asid va).log2 - 16)) + 128 * i)
    (fun i => Memory.line s.hostMem (pteAddr (s.rawLeaf asid va).e + 128 * i)) _ hb.1, hb.2⟩

theorem State.Canonical.placeCode {s : State} (h : s.Canonical) (w : Nat) : (s.placeCode w).Canonical := by
  have hb : (s.placeCode w).hbm = Memory.write s.hbm placedAt (clauseBytes w) := by simp only [State.placeCode, State.setAsid, State.setFrame, State.setCore]
  have hh : (s.placeCode w).hostMem = s.hostMem := by simp only [State.placeCode, State.setAsid, State.setFrame, State.setCore]
  exact ⟨hb ▸ Memory.wf_write h.1 _ _, hh ▸ h.2⟩

theorem State.withFetchWord_canonical {s : State} (h : s.Canonical) (nbits w : Nat) : (s.withFetchWord nbits w).Canonical :=
  h.placeCode _

end Sys2Proof.Machine
end

