-- ==== Sys2Proof/Laws/Ops.lean ====
section
/-! SUPPORT. What the shared operations over issues do, each said once. -/

namespace Sys2Proof.Machine

/-! ## One warp changed -/

theorem State.warp_setWarp (s : State) (k j : Nat) (f : Warp → Warp) :
    (s.setWarp k f).warp j = if j = k ∧ (Tab.find s.warps j).isSome then f (s.warp j) else s.warp j := by
  simp only [State.warp, State.setWarp, Tab.find_upd]
  by_cases h : j = k
  · subst h
    cases hf : Tab.find s.warps j <;> simp
  · simp [h]

theorem Warp.thread_setThread (w : Warp) (l m : Nat) (f : Thread → Thread) :
    (w.setThread l f).thread m = if m = l ∧ l < w.threads.length then f (w.thread m) else w.thread m := by
  simp only [Warp.thread, Warp.setThread, List.getD_eq_getElem?_getD, List.getElem?_modify]
  by_cases h : m = l
  · subst h
    by_cases hl : m < w.threads.length
    · simp [hl]
    · simp [hl]
  · have : ¬ l = m := fun e => h e.symm
    simp [h, this]

/-- A thread after another thread, or itself, was changed. -/
theorem State.thread_setThread (s : State) (t u : TRef) (f : Thread → Thread) :
    (s.setThread t f).thread u = if u = t ∧ s.Holds t then f (s.thread u) else s.thread u := by
  obtain ⟨tw, tl⟩ := t
  obtain ⟨uw, ul⟩ := u
  simp only [State.thread, State.setThread, State.warp_setWarp, State.Holds, TRef.mk.injEq]
  by_cases hw : uw = tw
  · subst hw
    cases hf : Tab.find s.warps uw with
    | none => simp
    | some w =>
      have : s.warp uw = w := by simp [State.warp, hf]
      simp only [Option.isSome_some, and_self, if_true, this, Warp.thread_setThread, true_and, Option.some.injEq,
        exists_eq_left']
  · simp [hw]

/-- A thread once its warp's threads have all been changed alike. -/
theorem State.thread_setWarp_map (s : State) (t : TRef) (k : Nat) (f : Thread → Thread) (p : Thread → Bool)
    (hf : ∀ th, p (f th) = p th) :
    p ((s.setWarp k fun w => { w with threads := w.threads.map f }).thread t) = p (s.thread t) := by
  simp only [State.thread, State.warp_setWarp]
  split
  · simp only [Warp.thread, List.getD_eq_getElem?_getD, List.getElem?_map]
    cases (s.warp t.warp).threads[t.lane]? <;> simp [hf]
  · rfl

/-- A thread that takes a fault is put off no longer. -/
theorem State.raise_unready {s : State} {t : TRef} (h : s.Holds t) (r : Report) : ((s.raise t r).thread t).unready = false := by
  have fatal (s' : State) (f : Thread → Thread) (hf : ∀ th, (f th).unready = false) (k : Nat) (pos : DWord) (hh : s'.Holds t) :
      (((s'.setThread t f).fatal k r pos).thread t).unready = false := by
    unfold State.fatal
    exact (State.thread_setWarp_map _ t _ (fun th => { th with dead := true }) Thread.unready fun _ => rfl).trans
      (by rw [State.thread_setThread]; simp [hh, hf])
  unfold State.raise
  simp only
  split
  · split
    · exact fatal s _ (fun _ => rfl) _ _ h
    · rw [State.thread_setThread]
      simp [h]
  · exact fatal s _ (fun _ => rfl) _ _ h

/-- A set suspended leaves its threads as they are. -/
theorem State.thread_suspend (ms : List Nat) (ts : List TRef) (t : TRef) : ∀ s : State, (s.suspend ms ts).thread t = s.thread t := by
  induction ms with
  | nil => intro s; rfl
  | cons m rest ih =>
    intro s
    unfold State.suspend at ih ⊢
    rw [List.foldl_cons, ih]
    simp only [State.thread, State.warp_setWarp]
    split <;> rfl

theorem State.raiseAll_unready {s : State} {t : TRef} (h : s.Holds t) (r : Report) (b : Bool) :
    ((s.raiseAll [t] r b).thread t).unready = false := by
  unfold State.raiseAll
  simp only [List.foldl_cons, List.foldl_nil]
  split
  · split
    · exact s.raise_unready h r
    · rw [State.thread_suspend]
      exact s.raise_unready h r
  · exact s.raise_unready h r

/-- The end of an issue is the same whether the issue has been taken away before. -/
theorem State.finish_issue (s : State) (x : Option Issue) (opc : Nat) (ts : List TRef) :
    State.finish { s with issue := x } opc ts = s.finish opc ts := by
  unfold State.finish
  simp only
  generalize (ts.map TRef.warp).dedup = ws
  induction ws generalizing s with
  | nil => rfl
  | cons w rest ih => exact ih (s.setWarp w _)

/-! ## Instructions acting in one thread -/

/-- What an instruction's effect in its one thread makes of the state. -/
def Eff.alone (s : State) (t : TRef) (i : Instr) : Eff → State
  | .done s' => s'.retire [t] i s.cur.next
  | .jump s' p => s'.retire [t] i p
  | .held s' => s'.finish i.form.opc [t]
  | .stay s' => s'.finish i.form.opc [t]
  | .retry => s.putOffLane s t i.form.opc
  | .wait s' => s.putOffLane s' t i.form.opc
  | .fault r => (s.raiseAll [t] r (i.form.g.scope == .set)).finish i.form.opc []

/-- An instruction that acts thread by thread, in the one thread that issues it. -/
theorem State.eachThread_runs {s : State} {t : TRef} {i : Instr} (h : s.Runs t i) (eff : TRef → Operands → State → Eff) :
    s.eachThread i eff = (eff t (s.operands t i.form) s).alone s t i := by
  unfold State.eachThread
  simp only [h.free, h.alone, List.foldl_cons, List.foldl_nil, h.passes.legal, h.passes.guard, h.passes.gate,
    Bool.false_eq_true, if_false, Bool.not_true]
  cases eff t (s.operands t i.form) s with
  | fault r =>
    simp only [State.applyEff, List.filter_cons, List.filter_nil, State.raiseAll_unready h.passes.holds, Bool.false_and,
      Bool.false_eq_true, if_false, List.append_nil, Eff.alone, State.stamp, List.map_nil, List.dedup_nil, List.foldl_nil]
    split <;> rfl
  | retry | wait s' =>
    simp only [State.applyEff, Eff.alone, State.putOffLane, List.contains_nil, Bool.not_false, Bool.and_true, List.nil_append]
  | _ =>
    simp only [State.applyEff, List.filter_cons, List.filter_nil, List.contains_cons, BEq.rfl, Bool.true_or, Bool.not_true,
      Bool.and_false, Bool.false_eq_true, if_false, List.append_nil, Eff.alone, State.stamp, List.map_nil, List.dedup_nil,
      List.foldl_nil]
    split <;> rfl

/-- A thread whose predicate is false moves on and nothing else happens (R35). -/
theorem State.eachThread_skips {s : State} {t : TRef} {i : Instr} (h : s.Skips t i) (eff : TRef → Operands → State → Eff) :
    s.eachThread i eff = s.retire [t] i s.cur.next := by
  unfold State.eachThread
  simp only [h.free, h.alone, List.foldl_cons, List.foldl_nil, h.legal, h.guard, Bool.not_false, if_true,
    Bool.false_eq_true, if_false, Bool.not_true, List.filter_cons, List.filter_nil, List.contains_cons, BEq.rfl, Bool.true_or,
    Bool.and_false, List.append_nil, State.stamp, List.map_nil, List.dedup_nil]
  split <;> rfl

/-- An instruction whose checks come first, in the one thread that issues it and passes them (R210). -/
theorem State.eachChecked_runs {s s1 : State} {t : TRef} {i : Instr} (h : s.Runs t i)
    {chk : TRef → Operands → State → Except Report State} (eff : TRef → Operands → State → Eff)
    (hc : chk t (s.operands t i.form) s = .ok s1) (h1 : s1.Runs t i) :
    s.eachChecked i chk eff = (eff t (s1.operands t i.form) s1).alone s1 t i := by
  unfold State.eachChecked
  simp only [h.free, h.alone, h.passes.legal, h.passes.guard, h.passes.gate, List.filter_cons, List.filter_nil,
    Option.isNone_none, Bool.and_self, if_true, List.foldl_cons, List.foldl_nil, hc, Bool.false_eq_true, if_false,
    lowestFailing]
  exact State.eachThread_runs h1 eff

/-- The same instruction where its check fails: the thread takes the fault, and nothing acts. -/
theorem State.eachChecked_fails {s : State} {t : TRef} {i : Instr} (h : s.Runs t i)
    {chk : TRef → Operands → State → Except Report State} (eff : TRef → Operands → State → Eff) {r : Report}
    (hc : chk t (s.operands t i.form) s = .error r) :
    s.eachChecked i chk eff = (s.raiseAll [t] r (i.form.g.scope == .set)).finish i.form.opc [] := by
  unfold State.eachChecked
  simp only [h.free, h.alone, h.passes.legal, h.passes.guard, h.passes.gate, List.filter_cons, List.filter_nil,
    Option.isNone_none, Bool.and_self, if_true, List.foldl_cons, List.foldl_nil, hc, Bool.false_eq_true, if_false,
    List.nil_append, lowestFailing]

/-! ## Instructions acting once -/

/-- What the one effect of an instruction for its members makes of the state. -/
def Eff.once (s : State) (ts : List TRef) (i : Instr) : Eff → State
  | .done s' => s'.retire ts i s.cur.next
  | .jump s' p => s'.retire ts i p
  | .held s' => s'.finish i.form.opc ts
  | .stay s' => s'.finish i.form.opc ts
  | .retry => s.putOff i.form.opc ts
  | .wait s' => s'.putOff i.form.opc ts
  | .fault r => (s.raiseAll ts r (i.form.g.scope == .set)).finish i.form.opc []

/-- An instruction that acts once, where every member passes (R325). -/
theorem State.onceFor_runs {s : State} {ts : List TRef} {i : Instr} (h : s.RunsOnce ts i)
    (eff : TRef → Operands → State → Eff) :
    s.onceFor i eff = (eff (s.lead i) (s.leadOps i) s).once s ts i := by
  obtain ⟨hg, hs, hp, hf⟩ := h
  cases ts with
  | nil => exact absurd rfl hs
  | cons t0 rest =>
    have hbad : ((t0 :: rest).filter fun t => !s.legal t i.form) = [] := by
      rw [List.filter_eq_nil_iff]
      intro t ht
      simp [(hp t ht).legal]
    have hall : ((t0 :: rest).all fun t => s.guardHolds t i.form.g) = true := by
      rw [List.all_eq_true]
      exact fun t ht => (hp t ht).guard
    have hgate : ((t0 :: rest).filterMap fun t => (s.gate t i.form).map fun e => (t, e)) = [] := by
      rw [List.filterMap_eq_nil_iff]
      intro t ht
      simp [(hp t ht).gate]
    unfold State.onceFor
    simp only [hg, hbad, hall, hgate, hf, List.isEmpty_nil, List.filterMap_nil, Bool.not_true, Bool.false_eq_true, if_false, if_true]
    have hl : s.lead i = ⟨s.leader i.form.g.scope t0, t0.lane⟩ := by simp [State.lead, hg]
    rw [State.leadOps, hl]
    cases eff ⟨s.leader i.form.g.scope t0, t0.lane⟩ (s.operands ⟨s.leader i.form.g.scope t0, t0.lane⟩ i.form) s <;> rfl

/-- Members whose predicates are all false move on and nothing else happens (R325). -/
theorem State.onceFor_skips {s : State} {ts : List TRef} {i : Instr} (hg : s.cur.group = ts) (hs : ts ≠ [])
    (hl : ∀ t ∈ ts, s.legal t i.form = true) (hp : ∀ t ∈ ts, s.guardHolds t i.form.g = false)
    (hf : s.mustStamp i.form = false) (eff : TRef → Operands → State → Eff) :
    s.onceFor i eff = s.retire ts i s.cur.next := by
  cases ts with
  | nil => exact absurd rfl hs
  | cons t0 rest =>
    have hbad : ((t0 :: rest).filter fun t => !s.legal t i.form) = [] := by
      rw [List.filter_eq_nil_iff]
      intro t ht
      simp [hl t ht]
    have hall : ((t0 :: rest).all fun t => s.guardHolds t i.form.g) = false := by
      simp [hp t0 (by simp)]
    have hany : ((t0 :: rest).any fun t => s.guardHolds t i.form.g) = false := by
      rw [List.any_eq_false]
      intro t ht
      simp [hp t ht]
    unfold State.onceFor
    simp only [hg, hbad, hall, hany, hf, List.isEmpty_nil, Bool.not_true, Bool.false_eq_true, if_false]
    rfl

end Sys2Proof.Machine
end

