-- ==== Sys2Proof/Laws/Group.lean ====
section
/-! SUPPORT. An instruction acting in the threads of a group one after another: what a thread reads is what it would read
alone, because the threads before it change only their own state and the writes on their way (R322). -/

namespace Sys2Proof.Machine

/-- One state differs from another only in threads outside `ts` and in fixed-latency writes on their way. -/
structure State.Alike (ts : List TRef) (s s' : State) : Prop where
  rest : s' = { s with warps := s'.warps }
  warp : ∀ k, s'.warp k =
    { s.warp k with pend := (s'.warp k).pend, threads := (s'.warp k).threads }
  requests : ∀ c, s'.memRequests c = s.memRequests c
  thread : ∀ t ∈ ts, s'.thread t = s.thread t

theorem State.Alike.refl (ts : List TRef) (s : State) : s.Alike ts s :=
  ⟨rfl, fun _ => rfl, fun _ => rfl, fun _ _ => rfl⟩

theorem State.Alike.mono {ts us : List TRef} {s s' : State} (h : s.Alike ts s') (hs : ∀ t ∈ us, t ∈ ts) : s.Alike us s' :=
  ⟨h.rest, h.warp, h.requests, fun t ht => h.thread t (hs t ht)⟩

/-! ## One warp changed -/

/-- A thread after a change of a warp that leaves its threads alone. -/
theorem State.thread_setWarp (s : State) (k : Nat) (f : Warp → Warp) (hf : ∀ w, (f w).threads = w.threads) (u : TRef) :
    (s.setWarp k f).thread u = s.thread u := by
  simp only [State.thread, State.warp_setWarp]
  split
  · simp [Warp.thread, hf]
  · rfl

/-- A change of a warp that leaves its core, its results on their way and its stores alone keeps the core's requests. -/
theorem State.memRequests_setWarp (s : State) (k : Nat) (f : Warp → Warp)
    (hf : ∀ w, (f w).core = w.core ∧ (f w).inFlight = w.inFlight ∧ (f w).stores = w.stores) (c : Nat) :
    (s.setWarp k f).memRequests c = s.memRequests c := by
  unfold State.memRequests State.setWarp
  simp only
  induction s.warps with
  | nil => rfl
  | cons e rest ih =>
    obtain ⟨j, w⟩ := e
    simp only [Tab.upd]
    split
    · simp only [List.map_cons, hf w]
    · simp only [List.map_cons, List.sum_cons, ih]

/-! ## What a group's effects keep -/

theorem Warp.addPend_eq (w : Warp) (p : PendWrite) : w.addPend p = { w with pend := (w.addPend p).pend } := rfl

/-- Writes on their way added to a warp. -/
theorem Warp.addPends_eq (c : Nat) (ws : List (RegKey × DWord)) : (w : Warp) →
    ws.foldl (fun w k => w.addPend ⟨c, k.1, k.2⟩) w
      = { w with pend := (ws.foldl (fun w k => w.addPend ⟨c, k.1, k.2⟩) w).pend } := by
  induction ws with
  | nil => intro w; rfl
  | cons k rest ih =>
    intro w
    simp only [List.foldl_cons]
    rw [ih (w.addPend ⟨c, k.1, k.2⟩)]
    rfl

theorem State.Alike.issue {ts : List TRef} {s s' : State} (h : s.Alike ts s') : s'.issue = s.issue := by rw [h.rest]
theorem State.Alike.blocks {ts : List TRef} {s s' : State} (h : s.Alike ts s') : s'.blocks = s.blocks := by rw [h.rest]
theorem State.Alike.grids {ts : List TRef} {s s' : State} (h : s.Alike ts s') : s'.grids = s.grids := by rw [h.rest]
theorem State.Alike.dies {ts : List TRef} {s s' : State} (h : s.Alike ts s') : s'.dies = s.dies := by rw [h.rest]
theorem State.Alike.clock {ts : List TRef} {s s' : State} (h : s.Alike ts s') : s'.clock = s.clock := by rw [h.rest]
theorem State.Alike.cores {ts : List TRef} {s s' : State} (h : s.Alike ts s') : s'.cores = s.cores := by rw [h.rest]

theorem State.Alike.rest_setWarp {ts : List TRef} {s s' : State} (h : s.Alike ts s') (k : Nat) (f : Warp → Warp) :
    s'.setWarp k f = { s with warps := (s'.setWarp k f).warps } := by
  rw [State.setWarp]
  exact congrArg (fun x : State => { x with warps := Tab.upd s'.warps k f }) h.rest

theorem State.Alike.setWarp {ts : List TRef} {s s' : State} (h : s.Alike ts s') (k : Nat) (f : Warp → Warp)
    (hf : ∀ w, ∃ p, f w = { w with pend := p }) : s.Alike ts (s'.setWarp k f) := by
  refine ⟨h.rest_setWarp _ _, fun j => ?_, fun c => ?_, fun t ht => ?_⟩
  · rw [State.warp_setWarp]
    split
    · obtain ⟨p, hp⟩ := hf (s'.warp j)
      rw [hp, h.warp j]
    · exact h.warp j
  · rw [State.memRequests_setWarp _ _ _ (fun w => by obtain ⟨p, hp⟩ := hf w; rw [hp]; exact ⟨rfl, rfl, rfl⟩), h.requests]
  · rw [State.thread_setWarp _ _ _ (fun w => by obtain ⟨p, hp⟩ := hf w; rw [hp]), h.thread t ht]

theorem State.Alike.setThread {ts : List TRef} {s s' : State} (h : s.Alike ts s') (u : TRef) (f : Thread → Thread)
    (hu : u ∉ ts) : s.Alike ts (s'.setThread u f) := by
  refine ⟨h.rest_setWarp _ _, fun j => ?_, fun c => ?_, fun t ht => ?_⟩
  · rw [State.setThread, State.warp_setWarp]
    split
    · rw [Warp.setThread, h.warp j]
    · exact h.warp j
  · exact (State.memRequests_setWarp s' u.warp (fun w => w.setThread u.lane f) (fun w => ⟨rfl, rfl, rfl⟩) c).trans (h.requests c)
  · rw [State.thread_setThread, if_neg (fun e : t = u ∧ _ => hu (e.1 ▸ ht)), h.thread t ht]

theorem State.Alike.writeFixed {ts : List TRef} {s s' : State} (h : s.Alike ts s') (k lat : Nat)
    (ws : List (RegKey × DWord)) : s.Alike ts (s'.writeFixed k lat ws) :=
  h.setWarp k _ fun w => ⟨_, Warp.addPends_eq _ ws w⟩

theorem State.Alike.setFlags {ts : List TRef} {s s' : State} (h : s.Alike ts s') (u : TRef) (fl : FFlags) (hu : u ∉ ts) :
    s.Alike ts (s'.setFlags u fl) := by
  unfold State.setFlags
  split
  · exact h
  · exact h.setThread u _ hu

theorem State.Alike.moveTo {ts : List TRef} {s s' : State} (h : s.Alike ts s') (u : TRef) (p : DWord) (hu : u ∉ ts) :
    s.Alike ts (s'.moveTo u p) := h.setThread u _ hu

/-! ## What a thread reads -/

variable {ts : List TRef} {s s' : State} {t : TRef}

theorem State.Alike.cur (h : s.Alike ts s') : s'.cur = s.cur := by simp [State.cur, h.issue]

theorem State.Alike.alloc_eq (h : s.Alike ts s') (k : Nat) : (s'.warp k).alloc = (s.warp k).alloc := by rw [h.warp]
theorem State.Alike.regs_eq (h : s.Alike ts s') (k : Nat) : (s'.warp k).regs = (s.warp k).regs := by rw [h.warp]
theorem State.Alike.empty_eq (h : s.Alike ts s') (k : Nat) : (s'.warp k).empty = (s.warp k).empty := by rw [h.warp]
theorem State.Alike.uregs_eq (h : s.Alike ts s') (k : Nat) : (s'.warp k).uregs = (s.warp k).uregs := by rw [h.warp]
theorem State.Alike.preds_eq (h : s.Alike ts s') (k : Nat) : (s'.warp k).preds = (s.warp k).preds := by rw [h.warp]
theorem State.Alike.setReg_eq (h : s.Alike ts s') (k : Nat) : (s'.warp k).setReg = (s.warp k).setReg := by rw [h.warp]
theorem State.Alike.index_eq (h : s.Alike ts s') (k : Nat) : (s'.warp k).index = (s.warp k).index := by rw [h.warp]
theorem State.Alike.role_eq (h : s.Alike ts s') (k : Nat) : (s'.warp k).role = (s.warp k).role := by rw [h.warp]
theorem State.Alike.asid_eq (h : s.Alike ts s') (k : Nat) : (s'.warp k).asid = (s.warp k).asid := by rw [h.warp]
theorem State.Alike.core_eq (h : s.Alike ts s') (k : Nat) : (s'.warp k).core = (s.warp k).core := by rw [h.warp]
theorem State.Alike.part_eq (h : s.Alike ts s') (k : Nat) : (s'.warp k).part = (s.warp k).part := by rw [h.warp]
theorem State.Alike.slot_eq (h : s.Alike ts s') (k : Nat) : (s'.warp k).slot = (s.warp k).slot := by rw [h.warp]
theorem State.Alike.coord_eq (h : s.Alike ts s') (k : Nat) : (s'.warp k).coord = (s.warp k).coord := by rw [h.warp]
theorem State.Alike.block_eq (h : s.Alike ts s') (k : Nat) : (s'.warp k).block = (s.warp k).block := by rw [h.warp]
theorem State.Alike.grid_eq (h : s.Alike ts s') (k : Nat) : (s'.warp k).grid = (s.warp k).grid := by rw [h.warp]
theorem State.Alike.icount_eq (h : s.Alike ts s') (k : Nat) : (s'.warp k).icount = (s.warp k).icount := by rw [h.warp]

theorem State.Alike.legal (h : s.Alike ts s') (f : Form) : s'.legal t f = s.legal t f := by
  simp only [State.legal, h.alloc_eq]

theorem State.Alike.pred (h : s.Alike ts s') (k l q : Nat) : (s'.warp k).pred l q = (s.warp k).pred l q := by
  simp only [Warp.pred, h.preds_eq]

theorem State.Alike.isEmpty (h : s.Alike ts s') (k l n : Nat) : (s'.warp k).isEmpty l n = (s.warp k).isEmpty l n := by
  simp only [Warp.isEmpty, h.empty_eq]

theorem State.Alike.guardHolds (h : s.Alike ts s') (ht : t ∈ ts) (g : Guard) : s'.guardHolds t g = s.guardHolds t g := by
  simp only [State.guardHolds, h.thread t ht, h.pred]

theorem State.Alike.gate (h : s.Alike ts s') (f : Form) : s'.gate t f = s.gate t f := by
  simp only [State.gate, State.emptyTrap, State.full, State.illegal, h.legal f, h.cur, h.isEmpty, h.setReg_eq,
    h.core_eq, h.requests]
  rfl

theorem State.Alike.special (h : s.Alike ts s') (ht : t ∈ ts) (n : Nat) : s'.special t n = s.special t n := by
  have hth : (s'.warp t.warp).thread t.lane = (s.warp t.warp).thread t.lane := h.thread t ht
  simp only [State.special, State.block, State.grid, State.common, State.die, Warp.wslot, h.blocks, h.grids, h.dies, hth,
    h.index_eq, h.slot_eq, h.part_eq, h.setReg_eq, h.role_eq, h.core_eq, h.coord_eq, h.icount_eq, h.block_eq, h.grid_eq]
  rfl

theorem State.Alike.vreg (h : s.Alike ts s') (k l n : Nat) : (s'.warp k).vreg l n = (s.warp k).vreg l n := by
  simp only [Warp.vreg, h.regs_eq]

theorem State.Alike.ureg (h : s.Alike ts s') (k n : Nat) : (s'.warp k).ureg n = (s.warp k).ureg n := by
  simp only [Warp.ureg, h.uregs_eq]

theorem State.Alike.readSrc (h : s.Alike ts s') (ht : t ∈ ts) (w : Nat) (src : Src) :
    s'.readSrc t w src = s.readSrc t w src := by
  cases src <;> simp only [State.readSrc, h.special ht, Warp.vpair, h.vreg, h.ureg]

theorem State.Alike.operands (h : s.Alike ts s') (ht : t ∈ ts) (f : Form) : s'.operands t f = s.operands t f := by
  simp only [State.operands, h.readSrc ht]

/-! ## The group -/

/-- Steps of which each thread's leaves the threads after it what they had, one after another. -/
theorem State.foldl_group {e : TRef → State → State} (s0 : State)
    (hk : ∀ t ∈ ts, ∀ us s', t ∉ us → s0.Alike us s' → s0.Alike us (e t s')) (hn : ts.Nodup)
    (step : State × List TRef → TRef → State × List TRef)
    (hstep : ∀ t ∈ ts, ∀ s' acc, s0.Alike [t] s' → step (s', acc) t = (e t s', t :: acc)) :
    ∀ (s' : State) (acc : List TRef), s0.Alike ts s' →
      ts.foldl step (s', acc) = (ts.foldl (fun s' t => e t s') s', ts.reverse ++ acc) := by
  induction ts with
  | nil => intro s' acc _; rfl
  | cons t rest ih =>
    intro s' acc ha
    have hnt : t ∉ rest := (List.nodup_cons.mp hn).1
    rw [List.foldl_cons, hstep t (by simp) s' acc (ha.mono (by simp)), ih (fun u hu => hk u (by simp [hu]))
      (List.nodup_cons.mp hn).2 (fun u hu => hstep u (by simp [hu]))]
    · simp
    · exact hk t (by simp) rest s' hnt (ha.mono (by simp +contextual))

/-- An instruction acting in each thread of its group, where no thread's effect touches what the others have: each thread
obtains what it would obtain alone (R322). -/
theorem State.eachThread_all {i : Instr} (h : s.RunsAll ts i) (eff : TRef → Operands → State → Eff)
    (e : TRef → State → State) (pos : TRef → DWord)
    (he : ∀ t ∈ ts, s.guardHolds t i.form.g = true → ∀ s', s.Alike [t] s' → (eff t (s.operands t i.form) s' = .done (e t s') ∧ pos t = s.cur.next)
      ∨ eff t (s.operands t i.form) s' = .jump (e t s') (pos t))
    (hk : ∀ t ∈ ts, ∀ us s', t ∉ us → s.Alike us s' → s.Alike us (e t s')) :
    s.eachThread i eff = s.leaveEach ts i e pos := by
  unfold State.eachThread State.leaveEach
  simp only [h.free, h.group, Bool.false_eq_true, if_false]
  rw [State.foldl_group
    (e := fun t s' => if s.guardHolds t i.form.g then (e t s').moveTo t (pos t) else s'.moveTo t s.cur.next)
    s ?_ h.nodup _ ?_ s [] (State.Alike.refl ts s)]
  · have again (s' : State) : (ts.filter fun t => (s'.thread t).unready && !ts.reverse.contains t) = [] := by
      rw [List.filter_eq_nil_iff]
      intro t ht
      simp [ht]
    simp only [List.append_nil, again, State.stamp, List.map_nil, List.dedup_nil, List.foldl_nil,
      State.finish_issue, ite_self]
  · intro t ht us s' hu ha
    split
    · exact (hk t ht us s' hu ha).moveTo t _ hu
    · exact ha.moveTo t _ hu
  · intro t ht s' acc ha
    have h1 : s'.legal t i.form = true := (ha.legal _).trans (h.legal t ht)
    have h2 : s'.guardHolds t i.form.g = s.guardHolds t i.form.g := ha.guardHolds (by simp) _
    cases hg : s.guardHolds t i.form.g with
    | false => simp only [h1, h2, hg, Bool.not_true, Bool.not_false, Bool.false_eq_true, if_false, if_true]
    | true =>
      have h3 : s'.gate t i.form = none := (ha.gate _).trans (h.gate t ht hg)
      have h4 := he t ht hg s' ha
      rw [← ha.operands (t := t) (by simp) i.form] at h4
      rcases h4 with ⟨h4, h5⟩ | h4
      · simp only [h1, h2, hg, h3, h4, h5, ha.cur, Bool.not_true, Bool.false_eq_true, if_false, if_true, State.applyEff]
      · simp only [h1, h2, hg, h3, h4, Bool.not_true, Bool.false_eq_true, if_false, if_true, State.applyEff]

/-- An instruction that acts once in each of its members does so thread by thread where they agree (R325). -/
theorem State.onceEach_agree {i : Instr} (h : s.RunsAll ts i) (ha : s.Agree ts i) (eff : TRef → Operands → State → Eff) :
    s.onceEach i eff = s.eachThread i eff := by
  unfold State.onceEach
  simp only [h.group]
  rw [if_pos]
  rcases ha with ha | ha | ha
  · simp [ha]
  · have : (ts.all fun t => s.guardHolds t i.form.g) = true := List.all_eq_true.mpr ha
    simp [this]
  · have : (ts.all fun t => !s.guardHolds t i.form.g) = true := List.all_eq_true.mpr fun t ht => by simp [ha t ht]
    simp [this]

/-- An element-wise instruction with a result in each thread: the result of each is computed from the state at the issue, and
its writes land after the latency (R33, R240). -/
theorem State.alu_all {i : Instr} (h : s.RunsAll ts i) (hr : readsOnce i.form.opc = true → s.Agree ts i) (lat : Nat) (op : AluOp)
    (hd : ∀ n, i.form.x.dst ≠ .uni n) (v : TRef → DWord) (sg : TRef → Bool) (fl : TRef → FFlags)
    (ho : ∀ t ∈ ts, s.guardHolds t i.form.g = true → ∀ s', s.Alike [t] s' →
      op i.form (s.operands t i.form) t s' = .ok (v t) (sg t) (fl t)) :
    s.alu i lat op = s.retireEach ts i fun t s' =>
      (s'.writeFixed t.warp lat (aluWrites i.form t.lane (v t) (sg t))).setFlags t (fl t) := by
  have hw : s.alu i lat op = s.eachThread i (aluEach i.form lat op) := by
    have hx : s.alu i lat op
        = if readsOnce i.form.opc then s.onceEach i (aluEach i.form lat op) else s.eachThread i (aluEach i.form lat op) := by
      unfold State.alu
      cases hx : i.form.x.dst with
      | uni n => exact absurd hx (hd n)
      | vec n => simp only [hx]
      | pred n => simp only [hx]
    rw [hx]
    split
    · rename_i hro
      exact State.onceEach_agree h (hr hro) _
    · rfl
  rw [hw]
  apply State.eachThread_all h
  · intro t ht hg s' ha
    exact .inl ⟨by simp only [aluEach, ho t ht hg s' ha], rfl⟩
  · intro t _ us s' hu ha
    exact (ha.writeFixed _ _ _).setFlags t _ hu

/-- A uniform result of each member warp, where the operation answers in each (R40). -/
theorem aluUniform_ok {i : Instr} (lat : Nat) (op : AluOp) (r : TRef → Result)
    (ho : ∀ w, (w ∈ s.memberWarps i.form.g.scope ∨ ∃ u ∈ s.cur.group, u.warp = w) →
      op i.form (s.operands ⟨w, 0⟩ i.form) ⟨w, 0⟩ s = .ok (r ⟨w, 0⟩).value (r ⟨w, 0⟩).signed (r ⟨w, 0⟩).flags) :
    aluUniform i.form lat op s = .done ((s.memberWarps i.form.g.scope).foldl (fun s' w =>
      (s.cur.group.filter fun t => t.warp = w).foldl (fun s t => s.setFlags t (r ⟨w, 0⟩).flags)
        (s'.writeFixed w lat (aluWrites i.form 0 (r ⟨w, 0⟩).value (r ⟨w, 0⟩).signed))) s) := by
  have hf : aluFails i.form op s = [] := by
    unfold aluFails
    rw [List.filterMap_eq_nil_iff]
    intro t ht
    simp only [ho t.warp (.inr ⟨t, ht, rfl⟩)]
  unfold aluUniform
  simp only [hf]
  refine congrArg Eff.done ?_
  have hs : ∀ ws : List Nat, (∀ w ∈ ws, w ∈ s.memberWarps i.form.g.scope) → ∀ s0 : State,
      ws.foldl (aluWarp i.form lat op s) s0 = ws.foldl (fun s' w =>
      (s.cur.group.filter fun t => t.warp = w).foldl (fun s t => s.setFlags t (r ⟨w, 0⟩).flags)
        (s'.writeFixed w lat (aluWrites i.form 0 (r ⟨w, 0⟩).value (r ⟨w, 0⟩).signed))) s0 := by
    intro ws
    induction ws with
    | nil => intro _ s0; rfl
    | cons w rest ih =>
      intro hw s0
      rw [List.foldl_cons, List.foldl_cons, ← ih fun v hv => hw v (by simp [hv])]
      simp only [aluWarp, ho w (.inl (hw w (by simp)))]
  exact hs _ (fun _ h => h) s

/-- An element-wise instruction that is ready has a legal encoding (R48). -/
theorem State.Ready.ok {i : Instr} (h : s.Ready ts i) : i.form.ok = true := by
  have hl : ∀ t, s.legal t i.form = true → i.form.ok = true := fun t ht => by
    simp only [State.legal, Bool.and_eq_true] at ht
    exact ht.1
  unfold State.Ready at h
  split at h
  · obtain ⟨t, ht⟩ := List.exists_mem_of_ne_nil _ h.some
    exact hl t (h.passes t ht).legal
  · obtain ⟨t, ht⟩ := List.exists_mem_of_ne_nil _ h.1.some
    exact hl t (h.1.legal t ht)

/-- An element-wise instruction that is ready completes, and each result is computed from the state at the issue. -/
theorem State.alu_ready {i : Instr} (h : s.Ready ts i) (lat : Nat) (op : AluOp) (r : TRef → Result)
    (ho : ∀ t, s.Computes ts i t → ∀ s', s.Alike [t] s' →
      op i.form (s.operands t i.form) t s' = .ok (r t).value (r t).signed (r t).flags) :
    s.alu i lat op = s.withResults ts i lat r := by
  unfold State.withResults
  unfold State.Ready at h
  split
  · rename_i n hx
    simp only [hx] at h
    have hu : s.alu i lat op = s.onceFor i fun _ _ s => aluUniform i.form lat op s := by
      unfold State.alu
      simp only [hx]
    rw [hu, State.onceFor_runs h, aluUniform_ok lat op r, h.group]
    · rfl
    · intro w hw
      refine ho _ ?_ _ (State.Alike.refl _ s)
      rw [h.group] at hw
      simp only [State.Computes, hx, true_and]
      exact hw
  · rename_i hx
    have hr : s.RunsAll ts i ∧ (readsOnce i.form.opc = true → s.Agree ts i) := by
      revert h
      split
      · rename_i n hn
        exact absurd hn (hx n)
      · exact id
    refine State.alu_all hr.1 hr.2 lat op hx _ _ _ fun t ht hg s' ha => ho t ?_ s' ha
    unfold State.Computes
    split
    · rename_i n hn
      exact absurd hn (hx n)
    · exact ⟨ht, hg⟩

end Sys2Proof.Machine
end

