-- ==== Sys2Proof/Laws/State.lean ====
section
/-! SUPPORT. The state under its updates: one lemma for each field of the state under each of them, so that no proof unfolds a
record update; and the records of the state's tables, read after one of them is changed. -/

namespace Sys2Proof.Machine

variable (s : State)

/-! ## `setWarp` -/

@[simp] theorem State.setWarp_agenda (k : Nat) (f : Warp → Warp) : (s.setWarp k f).agenda = s.agenda := rfl
@[simp] theorem State.setWarp_net (k : Nat) (f : Warp → Warp) : (s.setWarp k f).net = s.net := rfl
@[simp] theorem State.setWarp_issue (k : Nat) (f : Warp → Warp) : (s.setWarp k f).issue = s.issue := rfl
@[simp] theorem State.setWarp_turn (k : Nat) (f : Warp → Warp) : (s.setWarp k f).turn = s.turn := rfl
@[simp] theorem State.setWarp_freeCtr (k : Nat) (f : Warp → Warp) : (s.setWarp k f).freeCtr = s.freeCtr := rfl
@[simp] theorem State.setWarp_nextId (k : Nat) (f : Warp → Warp) : (s.setWarp k f).nextId = s.nextId := rfl
@[simp] theorem State.setWarp_clock (k : Nat) (f : Warp → Warp) : (s.setWarp k f).clock = s.clock := rfl
@[simp] theorem State.setWarp_tickAcc (k : Nat) (f : Warp → Warp) : (s.setWarp k f).tickAcc = s.tickAcc := rfl
@[simp] theorem State.setWarp_dies (k : Nat) (f : Warp → Warp) : (s.setWarp k f).dies = s.dies := rfl
@[simp] theorem State.setWarp_hbm (k : Nat) (f : Warp → Warp) : (s.setWarp k f).hbm = s.hbm := rfl
@[simp] theorem State.setWarp_hostMem (k : Nat) (f : Warp → Warp) : (s.setWarp k f).hostMem = s.hostMem := rfl
@[simp] theorem State.setWarp_frames (k : Nat) (f : Warp → Warp) : (s.setWarp k f).frames = s.frames := rfl
@[simp] theorem State.setWarp_asids (k : Nat) (f : Warp → Warp) : (s.setWarp k f).asids = s.asids := rfl
@[simp] theorem State.setWarp_bumps (k : Nat) (f : Warp → Warp) : (s.setWarp k f).bumps = s.bumps := rfl
@[simp] theorem State.setWarp_tableNext (k : Nat) (f : Warp → Warp) : (s.setWarp k f).tableNext = s.tableNext := rfl
@[simp] theorem State.setWarp_mem (k : Nat) (f : Warp → Warp) : (s.setWarp k f).mem = s.mem := rfl
@[simp] theorem State.setWarp_mreqs (k : Nat) (f : Warp → Warp) : (s.setWarp k f).mreqs = s.mreqs := rfl
@[simp] theorem State.setWarp_lines (k : Nat) (f : Warp → Warp) : (s.setWarp k f).lines = s.lines := rfl
@[simp] theorem State.setWarp_copies (k : Nat) (f : Warp → Warp) : (s.setWarp k f).copies = s.copies := rfl
@[simp] theorem State.setWarp_keepers (k : Nat) (f : Warp → Warp) : (s.setWarp k f).keepers = s.keepers := rfl
@[simp] theorem State.setWarp_rtCache (k : Nat) (f : Warp → Warp) : (s.setWarp k f).rtCache = s.rtCache := rfl
@[simp] theorem State.setWarp_rtReqs (k : Nat) (f : Warp → Warp) : (s.setWarp k f).rtReqs = s.rtReqs := rfl
@[simp] theorem State.setWarp_rtVers (k : Nat) (f : Warp → Warp) : (s.setWarp k f).rtVers = s.rtVers := rfl
@[simp] theorem State.setWarp_monitors (k : Nat) (f : Warp → Warp) : (s.setWarp k f).monitors = s.monitors := rfl
@[simp] theorem State.setWarp_cores (k : Nat) (f : Warp → Warp) : (s.setWarp k f).cores = s.cores := rfl
@[simp] theorem State.setWarp_warps (k : Nat) (f : Warp → Warp) : (s.setWarp k f).warps = Tab.upd s.warps k f := rfl
@[simp] theorem State.setWarp_blocks (k : Nat) (f : Warp → Warp) : (s.setWarp k f).blocks = s.blocks := rfl
@[simp] theorem State.setWarp_grids (k : Nat) (f : Warp → Warp) : (s.setWarp k f).grids = s.grids := rfl
@[simp] theorem State.setWarp_waits (k : Nat) (f : Warp → Warp) : (s.setWarp k f).waits = s.waits := rfl
@[simp] theorem State.setWarp_heldWrites (k : Nat) (f : Warp → Warp) : (s.setWarp k f).heldWrites = s.heldWrites := rfl
@[simp] theorem State.setWarp_fe (k : Nat) (f : Warp → Warp) : (s.setWarp k f).fe = s.fe := rfl
@[simp] theorem State.setWarp_hk (k : Nat) (f : Warp → Warp) : (s.setWarp k f).hk = s.hk := rfl

/-! ## `setThread` -/

@[simp] theorem State.setThread_agenda (t : TRef) (f : Thread → Thread) : (s.setThread t f).agenda = s.agenda := rfl
@[simp] theorem State.setThread_net (t : TRef) (f : Thread → Thread) : (s.setThread t f).net = s.net := rfl
@[simp] theorem State.setThread_issue (t : TRef) (f : Thread → Thread) : (s.setThread t f).issue = s.issue := rfl
@[simp] theorem State.setThread_turn (t : TRef) (f : Thread → Thread) : (s.setThread t f).turn = s.turn := rfl
@[simp] theorem State.setThread_freeCtr (t : TRef) (f : Thread → Thread) : (s.setThread t f).freeCtr = s.freeCtr := rfl
@[simp] theorem State.setThread_nextId (t : TRef) (f : Thread → Thread) : (s.setThread t f).nextId = s.nextId := rfl
@[simp] theorem State.setThread_clock (t : TRef) (f : Thread → Thread) : (s.setThread t f).clock = s.clock := rfl
@[simp] theorem State.setThread_tickAcc (t : TRef) (f : Thread → Thread) : (s.setThread t f).tickAcc = s.tickAcc := rfl
@[simp] theorem State.setThread_dies (t : TRef) (f : Thread → Thread) : (s.setThread t f).dies = s.dies := rfl
@[simp] theorem State.setThread_hbm (t : TRef) (f : Thread → Thread) : (s.setThread t f).hbm = s.hbm := rfl
@[simp] theorem State.setThread_hostMem (t : TRef) (f : Thread → Thread) : (s.setThread t f).hostMem = s.hostMem := rfl
@[simp] theorem State.setThread_frames (t : TRef) (f : Thread → Thread) : (s.setThread t f).frames = s.frames := rfl
@[simp] theorem State.setThread_asids (t : TRef) (f : Thread → Thread) : (s.setThread t f).asids = s.asids := rfl
@[simp] theorem State.setThread_bumps (t : TRef) (f : Thread → Thread) : (s.setThread t f).bumps = s.bumps := rfl
@[simp] theorem State.setThread_tableNext (t : TRef) (f : Thread → Thread) : (s.setThread t f).tableNext = s.tableNext := rfl
@[simp] theorem State.setThread_mem (t : TRef) (f : Thread → Thread) : (s.setThread t f).mem = s.mem := rfl
@[simp] theorem State.setThread_mreqs (t : TRef) (f : Thread → Thread) : (s.setThread t f).mreqs = s.mreqs := rfl
@[simp] theorem State.setThread_lines (t : TRef) (f : Thread → Thread) : (s.setThread t f).lines = s.lines := rfl
@[simp] theorem State.setThread_copies (t : TRef) (f : Thread → Thread) : (s.setThread t f).copies = s.copies := rfl
@[simp] theorem State.setThread_keepers (t : TRef) (f : Thread → Thread) : (s.setThread t f).keepers = s.keepers := rfl
@[simp] theorem State.setThread_rtCache (t : TRef) (f : Thread → Thread) : (s.setThread t f).rtCache = s.rtCache := rfl
@[simp] theorem State.setThread_rtReqs (t : TRef) (f : Thread → Thread) : (s.setThread t f).rtReqs = s.rtReqs := rfl
@[simp] theorem State.setThread_rtVers (t : TRef) (f : Thread → Thread) : (s.setThread t f).rtVers = s.rtVers := rfl
@[simp] theorem State.setThread_monitors (t : TRef) (f : Thread → Thread) : (s.setThread t f).monitors = s.monitors := rfl
@[simp] theorem State.setThread_cores (t : TRef) (f : Thread → Thread) : (s.setThread t f).cores = s.cores := rfl
@[simp] theorem State.setThread_warps (t : TRef) (f : Thread → Thread) :
    (s.setThread t f).warps = Tab.upd s.warps t.warp fun w => w.setThread t.lane f := rfl
@[simp] theorem State.setThread_blocks (t : TRef) (f : Thread → Thread) : (s.setThread t f).blocks = s.blocks := rfl
@[simp] theorem State.setThread_grids (t : TRef) (f : Thread → Thread) : (s.setThread t f).grids = s.grids := rfl
@[simp] theorem State.setThread_waits (t : TRef) (f : Thread → Thread) : (s.setThread t f).waits = s.waits := rfl
@[simp] theorem State.setThread_heldWrites (t : TRef) (f : Thread → Thread) : (s.setThread t f).heldWrites = s.heldWrites := rfl
@[simp] theorem State.setThread_fe (t : TRef) (f : Thread → Thread) : (s.setThread t f).fe = s.fe := rfl
@[simp] theorem State.setThread_hk (t : TRef) (f : Thread → Thread) : (s.setThread t f).hk = s.hk := rfl

/-! ## `setBlock` -/

@[simp] theorem State.setBlock_agenda (k : Nat) (f : Block → Block) : (s.setBlock k f).agenda = s.agenda := rfl
@[simp] theorem State.setBlock_net (k : Nat) (f : Block → Block) : (s.setBlock k f).net = s.net := rfl
@[simp] theorem State.setBlock_issue (k : Nat) (f : Block → Block) : (s.setBlock k f).issue = s.issue := rfl
@[simp] theorem State.setBlock_turn (k : Nat) (f : Block → Block) : (s.setBlock k f).turn = s.turn := rfl
@[simp] theorem State.setBlock_freeCtr (k : Nat) (f : Block → Block) : (s.setBlock k f).freeCtr = s.freeCtr := rfl
@[simp] theorem State.setBlock_nextId (k : Nat) (f : Block → Block) : (s.setBlock k f).nextId = s.nextId := rfl
@[simp] theorem State.setBlock_clock (k : Nat) (f : Block → Block) : (s.setBlock k f).clock = s.clock := rfl
@[simp] theorem State.setBlock_tickAcc (k : Nat) (f : Block → Block) : (s.setBlock k f).tickAcc = s.tickAcc := rfl
@[simp] theorem State.setBlock_dies (k : Nat) (f : Block → Block) : (s.setBlock k f).dies = s.dies := rfl
@[simp] theorem State.setBlock_hbm (k : Nat) (f : Block → Block) : (s.setBlock k f).hbm = s.hbm := rfl
@[simp] theorem State.setBlock_hostMem (k : Nat) (f : Block → Block) : (s.setBlock k f).hostMem = s.hostMem := rfl
@[simp] theorem State.setBlock_frames (k : Nat) (f : Block → Block) : (s.setBlock k f).frames = s.frames := rfl
@[simp] theorem State.setBlock_asids (k : Nat) (f : Block → Block) : (s.setBlock k f).asids = s.asids := rfl
@[simp] theorem State.setBlock_bumps (k : Nat) (f : Block → Block) : (s.setBlock k f).bumps = s.bumps := rfl
@[simp] theorem State.setBlock_tableNext (k : Nat) (f : Block → Block) : (s.setBlock k f).tableNext = s.tableNext := rfl
@[simp] theorem State.setBlock_mem (k : Nat) (f : Block → Block) : (s.setBlock k f).mem = s.mem := rfl
@[simp] theorem State.setBlock_mreqs (k : Nat) (f : Block → Block) : (s.setBlock k f).mreqs = s.mreqs := rfl
@[simp] theorem State.setBlock_lines (k : Nat) (f : Block → Block) : (s.setBlock k f).lines = s.lines := rfl
@[simp] theorem State.setBlock_copies (k : Nat) (f : Block → Block) : (s.setBlock k f).copies = s.copies := rfl
@[simp] theorem State.setBlock_keepers (k : Nat) (f : Block → Block) : (s.setBlock k f).keepers = s.keepers := rfl
@[simp] theorem State.setBlock_rtCache (k : Nat) (f : Block → Block) : (s.setBlock k f).rtCache = s.rtCache := rfl
@[simp] theorem State.setBlock_rtReqs (k : Nat) (f : Block → Block) : (s.setBlock k f).rtReqs = s.rtReqs := rfl
@[simp] theorem State.setBlock_rtVers (k : Nat) (f : Block → Block) : (s.setBlock k f).rtVers = s.rtVers := rfl
@[simp] theorem State.setBlock_monitors (k : Nat) (f : Block → Block) : (s.setBlock k f).monitors = s.monitors := rfl
@[simp] theorem State.setBlock_cores (k : Nat) (f : Block → Block) : (s.setBlock k f).cores = s.cores := rfl
@[simp] theorem State.setBlock_warps (k : Nat) (f : Block → Block) : (s.setBlock k f).warps = s.warps := rfl
@[simp] theorem State.setBlock_blocks (k : Nat) (f : Block → Block) : (s.setBlock k f).blocks = Tab.upd s.blocks k f := rfl
@[simp] theorem State.setBlock_grids (k : Nat) (f : Block → Block) : (s.setBlock k f).grids = s.grids := rfl
@[simp] theorem State.setBlock_waits (k : Nat) (f : Block → Block) : (s.setBlock k f).waits = s.waits := rfl
@[simp] theorem State.setBlock_heldWrites (k : Nat) (f : Block → Block) : (s.setBlock k f).heldWrites = s.heldWrites := rfl
@[simp] theorem State.setBlock_fe (k : Nat) (f : Block → Block) : (s.setBlock k f).fe = s.fe := rfl
@[simp] theorem State.setBlock_hk (k : Nat) (f : Block → Block) : (s.setBlock k f).hk = s.hk := rfl

/-! ## `setGrid` -/

@[simp] theorem State.setGrid_agenda (k : Nat) (f : Grid → Grid) : (s.setGrid k f).agenda = s.agenda := rfl
@[simp] theorem State.setGrid_net (k : Nat) (f : Grid → Grid) : (s.setGrid k f).net = s.net := rfl
@[simp] theorem State.setGrid_issue (k : Nat) (f : Grid → Grid) : (s.setGrid k f).issue = s.issue := rfl
@[simp] theorem State.setGrid_turn (k : Nat) (f : Grid → Grid) : (s.setGrid k f).turn = s.turn := rfl
@[simp] theorem State.setGrid_freeCtr (k : Nat) (f : Grid → Grid) : (s.setGrid k f).freeCtr = s.freeCtr := rfl
@[simp] theorem State.setGrid_nextId (k : Nat) (f : Grid → Grid) : (s.setGrid k f).nextId = s.nextId := rfl
@[simp] theorem State.setGrid_clock (k : Nat) (f : Grid → Grid) : (s.setGrid k f).clock = s.clock := rfl
@[simp] theorem State.setGrid_tickAcc (k : Nat) (f : Grid → Grid) : (s.setGrid k f).tickAcc = s.tickAcc := rfl
@[simp] theorem State.setGrid_dies (k : Nat) (f : Grid → Grid) : (s.setGrid k f).dies = s.dies := rfl
@[simp] theorem State.setGrid_hbm (k : Nat) (f : Grid → Grid) : (s.setGrid k f).hbm = s.hbm := rfl
@[simp] theorem State.setGrid_hostMem (k : Nat) (f : Grid → Grid) : (s.setGrid k f).hostMem = s.hostMem := rfl
@[simp] theorem State.setGrid_frames (k : Nat) (f : Grid → Grid) : (s.setGrid k f).frames = s.frames := rfl
@[simp] theorem State.setGrid_asids (k : Nat) (f : Grid → Grid) : (s.setGrid k f).asids = s.asids := rfl
@[simp] theorem State.setGrid_bumps (k : Nat) (f : Grid → Grid) : (s.setGrid k f).bumps = s.bumps := rfl
@[simp] theorem State.setGrid_tableNext (k : Nat) (f : Grid → Grid) : (s.setGrid k f).tableNext = s.tableNext := rfl
@[simp] theorem State.setGrid_mem (k : Nat) (f : Grid → Grid) : (s.setGrid k f).mem = s.mem := rfl
@[simp] theorem State.setGrid_mreqs (k : Nat) (f : Grid → Grid) : (s.setGrid k f).mreqs = s.mreqs := rfl
@[simp] theorem State.setGrid_lines (k : Nat) (f : Grid → Grid) : (s.setGrid k f).lines = s.lines := rfl
@[simp] theorem State.setGrid_copies (k : Nat) (f : Grid → Grid) : (s.setGrid k f).copies = s.copies := rfl
@[simp] theorem State.setGrid_keepers (k : Nat) (f : Grid → Grid) : (s.setGrid k f).keepers = s.keepers := rfl
@[simp] theorem State.setGrid_rtCache (k : Nat) (f : Grid → Grid) : (s.setGrid k f).rtCache = s.rtCache := rfl
@[simp] theorem State.setGrid_rtReqs (k : Nat) (f : Grid → Grid) : (s.setGrid k f).rtReqs = s.rtReqs := rfl
@[simp] theorem State.setGrid_rtVers (k : Nat) (f : Grid → Grid) : (s.setGrid k f).rtVers = s.rtVers := rfl
@[simp] theorem State.setGrid_monitors (k : Nat) (f : Grid → Grid) : (s.setGrid k f).monitors = s.monitors := rfl
@[simp] theorem State.setGrid_cores (k : Nat) (f : Grid → Grid) : (s.setGrid k f).cores = s.cores := rfl
@[simp] theorem State.setGrid_warps (k : Nat) (f : Grid → Grid) : (s.setGrid k f).warps = s.warps := rfl
@[simp] theorem State.setGrid_blocks (k : Nat) (f : Grid → Grid) : (s.setGrid k f).blocks = s.blocks := rfl
@[simp] theorem State.setGrid_grids (k : Nat) (f : Grid → Grid) : (s.setGrid k f).grids = Tab.upd s.grids k f := rfl
@[simp] theorem State.setGrid_waits (k : Nat) (f : Grid → Grid) : (s.setGrid k f).waits = s.waits := rfl
@[simp] theorem State.setGrid_heldWrites (k : Nat) (f : Grid → Grid) : (s.setGrid k f).heldWrites = s.heldWrites := rfl
@[simp] theorem State.setGrid_fe (k : Nat) (f : Grid → Grid) : (s.setGrid k f).fe = s.fe := rfl
@[simp] theorem State.setGrid_hk (k : Nat) (f : Grid → Grid) : (s.setGrid k f).hk = s.hk := rfl

/-! ## `setCore` -/

@[simp] theorem State.setCore_agenda (k : Nat) (f : Core → Core) : (s.setCore k f).agenda = s.agenda := rfl
@[simp] theorem State.setCore_net (k : Nat) (f : Core → Core) : (s.setCore k f).net = s.net := rfl
@[simp] theorem State.setCore_issue (k : Nat) (f : Core → Core) : (s.setCore k f).issue = s.issue := rfl
@[simp] theorem State.setCore_turn (k : Nat) (f : Core → Core) : (s.setCore k f).turn = s.turn := rfl
@[simp] theorem State.setCore_freeCtr (k : Nat) (f : Core → Core) : (s.setCore k f).freeCtr = s.freeCtr := rfl
@[simp] theorem State.setCore_nextId (k : Nat) (f : Core → Core) : (s.setCore k f).nextId = s.nextId := rfl
@[simp] theorem State.setCore_clock (k : Nat) (f : Core → Core) : (s.setCore k f).clock = s.clock := rfl
@[simp] theorem State.setCore_tickAcc (k : Nat) (f : Core → Core) : (s.setCore k f).tickAcc = s.tickAcc := rfl
@[simp] theorem State.setCore_dies (k : Nat) (f : Core → Core) : (s.setCore k f).dies = s.dies := rfl
@[simp] theorem State.setCore_hbm (k : Nat) (f : Core → Core) : (s.setCore k f).hbm = s.hbm := rfl
@[simp] theorem State.setCore_hostMem (k : Nat) (f : Core → Core) : (s.setCore k f).hostMem = s.hostMem := rfl
@[simp] theorem State.setCore_frames (k : Nat) (f : Core → Core) : (s.setCore k f).frames = s.frames := rfl
@[simp] theorem State.setCore_asids (k : Nat) (f : Core → Core) : (s.setCore k f).asids = s.asids := rfl
@[simp] theorem State.setCore_bumps (k : Nat) (f : Core → Core) : (s.setCore k f).bumps = s.bumps := rfl
@[simp] theorem State.setCore_tableNext (k : Nat) (f : Core → Core) : (s.setCore k f).tableNext = s.tableNext := rfl
@[simp] theorem State.setCore_mem (k : Nat) (f : Core → Core) : (s.setCore k f).mem = s.mem := rfl
@[simp] theorem State.setCore_mreqs (k : Nat) (f : Core → Core) : (s.setCore k f).mreqs = s.mreqs := rfl
@[simp] theorem State.setCore_lines (k : Nat) (f : Core → Core) : (s.setCore k f).lines = s.lines := rfl
@[simp] theorem State.setCore_copies (k : Nat) (f : Core → Core) : (s.setCore k f).copies = s.copies := rfl
@[simp] theorem State.setCore_keepers (k : Nat) (f : Core → Core) : (s.setCore k f).keepers = s.keepers := rfl
@[simp] theorem State.setCore_rtCache (k : Nat) (f : Core → Core) : (s.setCore k f).rtCache = s.rtCache := rfl
@[simp] theorem State.setCore_rtReqs (k : Nat) (f : Core → Core) : (s.setCore k f).rtReqs = s.rtReqs := rfl
@[simp] theorem State.setCore_rtVers (k : Nat) (f : Core → Core) : (s.setCore k f).rtVers = s.rtVers := rfl
@[simp] theorem State.setCore_monitors (k : Nat) (f : Core → Core) : (s.setCore k f).monitors = s.monitors := rfl
@[simp] theorem State.setCore_cores (k : Nat) (f : Core → Core) : (s.setCore k f).cores = Tab.put s.cores k (f (s.core k)) := rfl
@[simp] theorem State.setCore_warps (k : Nat) (f : Core → Core) : (s.setCore k f).warps = s.warps := rfl
@[simp] theorem State.setCore_blocks (k : Nat) (f : Core → Core) : (s.setCore k f).blocks = s.blocks := rfl
@[simp] theorem State.setCore_grids (k : Nat) (f : Core → Core) : (s.setCore k f).grids = s.grids := rfl
@[simp] theorem State.setCore_waits (k : Nat) (f : Core → Core) : (s.setCore k f).waits = s.waits := rfl
@[simp] theorem State.setCore_heldWrites (k : Nat) (f : Core → Core) : (s.setCore k f).heldWrites = s.heldWrites := rfl
@[simp] theorem State.setCore_fe (k : Nat) (f : Core → Core) : (s.setCore k f).fe = s.fe := rfl
@[simp] theorem State.setCore_hk (k : Nat) (f : Core → Core) : (s.setCore k f).hk = s.hk := rfl

/-! ## `setDie` -/

@[simp] theorem State.setDie_agenda (k : Nat) (f : Die → Die) : (s.setDie k f).agenda = s.agenda := rfl
@[simp] theorem State.setDie_net (k : Nat) (f : Die → Die) : (s.setDie k f).net = s.net := rfl
@[simp] theorem State.setDie_issue (k : Nat) (f : Die → Die) : (s.setDie k f).issue = s.issue := rfl
@[simp] theorem State.setDie_turn (k : Nat) (f : Die → Die) : (s.setDie k f).turn = s.turn := rfl
@[simp] theorem State.setDie_freeCtr (k : Nat) (f : Die → Die) : (s.setDie k f).freeCtr = s.freeCtr := rfl
@[simp] theorem State.setDie_nextId (k : Nat) (f : Die → Die) : (s.setDie k f).nextId = s.nextId := rfl
@[simp] theorem State.setDie_clock (k : Nat) (f : Die → Die) : (s.setDie k f).clock = s.clock := rfl
@[simp] theorem State.setDie_tickAcc (k : Nat) (f : Die → Die) : (s.setDie k f).tickAcc = s.tickAcc := rfl
@[simp] theorem State.setDie_dies (k : Nat) (f : Die → Die) : (s.setDie k f).dies = Tab.upd s.dies k f := rfl
@[simp] theorem State.setDie_hbm (k : Nat) (f : Die → Die) : (s.setDie k f).hbm = s.hbm := rfl
@[simp] theorem State.setDie_hostMem (k : Nat) (f : Die → Die) : (s.setDie k f).hostMem = s.hostMem := rfl
@[simp] theorem State.setDie_frames (k : Nat) (f : Die → Die) : (s.setDie k f).frames = s.frames := rfl
@[simp] theorem State.setDie_asids (k : Nat) (f : Die → Die) : (s.setDie k f).asids = s.asids := rfl
@[simp] theorem State.setDie_bumps (k : Nat) (f : Die → Die) : (s.setDie k f).bumps = s.bumps := rfl
@[simp] theorem State.setDie_tableNext (k : Nat) (f : Die → Die) : (s.setDie k f).tableNext = s.tableNext := rfl
@[simp] theorem State.setDie_mem (k : Nat) (f : Die → Die) : (s.setDie k f).mem = s.mem := rfl
@[simp] theorem State.setDie_mreqs (k : Nat) (f : Die → Die) : (s.setDie k f).mreqs = s.mreqs := rfl
@[simp] theorem State.setDie_lines (k : Nat) (f : Die → Die) : (s.setDie k f).lines = s.lines := rfl
@[simp] theorem State.setDie_copies (k : Nat) (f : Die → Die) : (s.setDie k f).copies = s.copies := rfl
@[simp] theorem State.setDie_keepers (k : Nat) (f : Die → Die) : (s.setDie k f).keepers = s.keepers := rfl
@[simp] theorem State.setDie_rtCache (k : Nat) (f : Die → Die) : (s.setDie k f).rtCache = s.rtCache := rfl
@[simp] theorem State.setDie_rtReqs (k : Nat) (f : Die → Die) : (s.setDie k f).rtReqs = s.rtReqs := rfl
@[simp] theorem State.setDie_rtVers (k : Nat) (f : Die → Die) : (s.setDie k f).rtVers = s.rtVers := rfl
@[simp] theorem State.setDie_monitors (k : Nat) (f : Die → Die) : (s.setDie k f).monitors = s.monitors := rfl
@[simp] theorem State.setDie_cores (k : Nat) (f : Die → Die) : (s.setDie k f).cores = s.cores := rfl
@[simp] theorem State.setDie_warps (k : Nat) (f : Die → Die) : (s.setDie k f).warps = s.warps := rfl
@[simp] theorem State.setDie_blocks (k : Nat) (f : Die → Die) : (s.setDie k f).blocks = s.blocks := rfl
@[simp] theorem State.setDie_grids (k : Nat) (f : Die → Die) : (s.setDie k f).grids = s.grids := rfl
@[simp] theorem State.setDie_waits (k : Nat) (f : Die → Die) : (s.setDie k f).waits = s.waits := rfl
@[simp] theorem State.setDie_heldWrites (k : Nat) (f : Die → Die) : (s.setDie k f).heldWrites = s.heldWrites := rfl
@[simp] theorem State.setDie_fe (k : Nat) (f : Die → Die) : (s.setDie k f).fe = s.fe := rfl
@[simp] theorem State.setDie_hk (k : Nat) (f : Die → Die) : (s.setDie k f).hk = s.hk := rfl

/-! ## `setLine` -/

@[simp] theorem State.setLine_agenda (k : Nat) (h : HomeLine) : (s.setLine k h).agenda = s.agenda := rfl
@[simp] theorem State.setLine_net (k : Nat) (h : HomeLine) : (s.setLine k h).net = s.net := rfl
@[simp] theorem State.setLine_issue (k : Nat) (h : HomeLine) : (s.setLine k h).issue = s.issue := rfl
@[simp] theorem State.setLine_turn (k : Nat) (h : HomeLine) : (s.setLine k h).turn = s.turn := rfl
@[simp] theorem State.setLine_freeCtr (k : Nat) (h : HomeLine) : (s.setLine k h).freeCtr = s.freeCtr := rfl
@[simp] theorem State.setLine_nextId (k : Nat) (h : HomeLine) : (s.setLine k h).nextId = s.nextId := rfl
@[simp] theorem State.setLine_clock (k : Nat) (h : HomeLine) : (s.setLine k h).clock = s.clock := rfl
@[simp] theorem State.setLine_tickAcc (k : Nat) (h : HomeLine) : (s.setLine k h).tickAcc = s.tickAcc := rfl
@[simp] theorem State.setLine_dies (k : Nat) (h : HomeLine) : (s.setLine k h).dies = s.dies := rfl
@[simp] theorem State.setLine_hbm (k : Nat) (h : HomeLine) : (s.setLine k h).hbm = s.hbm := rfl
@[simp] theorem State.setLine_hostMem (k : Nat) (h : HomeLine) : (s.setLine k h).hostMem = s.hostMem := rfl
@[simp] theorem State.setLine_frames (k : Nat) (h : HomeLine) : (s.setLine k h).frames = s.frames := rfl
@[simp] theorem State.setLine_asids (k : Nat) (h : HomeLine) : (s.setLine k h).asids = s.asids := rfl
@[simp] theorem State.setLine_bumps (k : Nat) (h : HomeLine) : (s.setLine k h).bumps = s.bumps := rfl
@[simp] theorem State.setLine_tableNext (k : Nat) (h : HomeLine) : (s.setLine k h).tableNext = s.tableNext := rfl
@[simp] theorem State.setLine_mem (k : Nat) (h : HomeLine) : (s.setLine k h).mem = s.mem := rfl
@[simp] theorem State.setLine_mreqs (k : Nat) (h : HomeLine) : (s.setLine k h).mreqs = s.mreqs := rfl
@[simp] theorem State.setLine_lines (k : Nat) (h : HomeLine) : (s.setLine k h).lines = Tab.put s.lines k h := rfl
@[simp] theorem State.setLine_copies (k : Nat) (h : HomeLine) : (s.setLine k h).copies = s.copies := rfl
@[simp] theorem State.setLine_keepers (k : Nat) (h : HomeLine) : (s.setLine k h).keepers = s.keepers := rfl
@[simp] theorem State.setLine_rtCache (k : Nat) (h : HomeLine) : (s.setLine k h).rtCache = s.rtCache := rfl
@[simp] theorem State.setLine_rtReqs (k : Nat) (h : HomeLine) : (s.setLine k h).rtReqs = s.rtReqs := rfl
@[simp] theorem State.setLine_rtVers (k : Nat) (h : HomeLine) : (s.setLine k h).rtVers = s.rtVers := rfl
@[simp] theorem State.setLine_monitors (k : Nat) (h : HomeLine) : (s.setLine k h).monitors = s.monitors := rfl
@[simp] theorem State.setLine_cores (k : Nat) (h : HomeLine) : (s.setLine k h).cores = s.cores := rfl
@[simp] theorem State.setLine_warps (k : Nat) (h : HomeLine) : (s.setLine k h).warps = s.warps := rfl
@[simp] theorem State.setLine_blocks (k : Nat) (h : HomeLine) : (s.setLine k h).blocks = s.blocks := rfl
@[simp] theorem State.setLine_grids (k : Nat) (h : HomeLine) : (s.setLine k h).grids = s.grids := rfl
@[simp] theorem State.setLine_waits (k : Nat) (h : HomeLine) : (s.setLine k h).waits = s.waits := rfl
@[simp] theorem State.setLine_heldWrites (k : Nat) (h : HomeLine) : (s.setLine k h).heldWrites = s.heldWrites := rfl
@[simp] theorem State.setLine_fe (k : Nat) (h : HomeLine) : (s.setLine k h).fe = s.fe := rfl
@[simp] theorem State.setLine_hk (k : Nat) (h : HomeLine) : (s.setLine k h).hk = s.hk := rfl

/-! ## `setFrame` -/

@[simp] theorem State.setFrame_agenda (k : Nat) (f : Frame → Frame) : (s.setFrame k f).agenda = s.agenda := rfl
@[simp] theorem State.setFrame_net (k : Nat) (f : Frame → Frame) : (s.setFrame k f).net = s.net := rfl
@[simp] theorem State.setFrame_issue (k : Nat) (f : Frame → Frame) : (s.setFrame k f).issue = s.issue := rfl
@[simp] theorem State.setFrame_turn (k : Nat) (f : Frame → Frame) : (s.setFrame k f).turn = s.turn := rfl
@[simp] theorem State.setFrame_freeCtr (k : Nat) (f : Frame → Frame) : (s.setFrame k f).freeCtr = s.freeCtr := rfl
@[simp] theorem State.setFrame_nextId (k : Nat) (f : Frame → Frame) : (s.setFrame k f).nextId = s.nextId := rfl
@[simp] theorem State.setFrame_clock (k : Nat) (f : Frame → Frame) : (s.setFrame k f).clock = s.clock := rfl
@[simp] theorem State.setFrame_tickAcc (k : Nat) (f : Frame → Frame) : (s.setFrame k f).tickAcc = s.tickAcc := rfl
@[simp] theorem State.setFrame_dies (k : Nat) (f : Frame → Frame) : (s.setFrame k f).dies = s.dies := rfl
@[simp] theorem State.setFrame_hbm (k : Nat) (f : Frame → Frame) : (s.setFrame k f).hbm = s.hbm := rfl
@[simp] theorem State.setFrame_hostMem (k : Nat) (f : Frame → Frame) : (s.setFrame k f).hostMem = s.hostMem := rfl
@[simp] theorem State.setFrame_frames (k : Nat) (f : Frame → Frame) :
    (s.setFrame k f).frames = Tab.put s.frames k (f (s.frame k)) := rfl
@[simp] theorem State.setFrame_asids (k : Nat) (f : Frame → Frame) : (s.setFrame k f).asids = s.asids := rfl
@[simp] theorem State.setFrame_bumps (k : Nat) (f : Frame → Frame) : (s.setFrame k f).bumps = s.bumps := rfl
@[simp] theorem State.setFrame_tableNext (k : Nat) (f : Frame → Frame) : (s.setFrame k f).tableNext = s.tableNext := rfl
@[simp] theorem State.setFrame_mem (k : Nat) (f : Frame → Frame) : (s.setFrame k f).mem = s.mem := rfl
@[simp] theorem State.setFrame_mreqs (k : Nat) (f : Frame → Frame) : (s.setFrame k f).mreqs = s.mreqs := rfl
@[simp] theorem State.setFrame_lines (k : Nat) (f : Frame → Frame) : (s.setFrame k f).lines = s.lines := rfl
@[simp] theorem State.setFrame_copies (k : Nat) (f : Frame → Frame) : (s.setFrame k f).copies = s.copies := rfl
@[simp] theorem State.setFrame_keepers (k : Nat) (f : Frame → Frame) : (s.setFrame k f).keepers = s.keepers := rfl
@[simp] theorem State.setFrame_rtCache (k : Nat) (f : Frame → Frame) : (s.setFrame k f).rtCache = s.rtCache := rfl
@[simp] theorem State.setFrame_rtReqs (k : Nat) (f : Frame → Frame) : (s.setFrame k f).rtReqs = s.rtReqs := rfl
@[simp] theorem State.setFrame_rtVers (k : Nat) (f : Frame → Frame) : (s.setFrame k f).rtVers = s.rtVers := rfl
@[simp] theorem State.setFrame_monitors (k : Nat) (f : Frame → Frame) : (s.setFrame k f).monitors = s.monitors := rfl
@[simp] theorem State.setFrame_cores (k : Nat) (f : Frame → Frame) : (s.setFrame k f).cores = s.cores := rfl
@[simp] theorem State.setFrame_warps (k : Nat) (f : Frame → Frame) : (s.setFrame k f).warps = s.warps := rfl
@[simp] theorem State.setFrame_blocks (k : Nat) (f : Frame → Frame) : (s.setFrame k f).blocks = s.blocks := rfl
@[simp] theorem State.setFrame_grids (k : Nat) (f : Frame → Frame) : (s.setFrame k f).grids = s.grids := rfl
@[simp] theorem State.setFrame_waits (k : Nat) (f : Frame → Frame) : (s.setFrame k f).waits = s.waits := rfl
@[simp] theorem State.setFrame_heldWrites (k : Nat) (f : Frame → Frame) : (s.setFrame k f).heldWrites = s.heldWrites := rfl
@[simp] theorem State.setFrame_fe (k : Nat) (f : Frame → Frame) : (s.setFrame k f).fe = s.fe := rfl
@[simp] theorem State.setFrame_hk (k : Nat) (f : Frame → Frame) : (s.setFrame k f).hk = s.hk := rfl

/-! ## `setAsid` -/

@[simp] theorem State.setAsid_agenda (k : Nat) (f : Asid → Asid) : (s.setAsid k f).agenda = s.agenda := rfl
@[simp] theorem State.setAsid_net (k : Nat) (f : Asid → Asid) : (s.setAsid k f).net = s.net := rfl
@[simp] theorem State.setAsid_issue (k : Nat) (f : Asid → Asid) : (s.setAsid k f).issue = s.issue := rfl
@[simp] theorem State.setAsid_turn (k : Nat) (f : Asid → Asid) : (s.setAsid k f).turn = s.turn := rfl
@[simp] theorem State.setAsid_freeCtr (k : Nat) (f : Asid → Asid) : (s.setAsid k f).freeCtr = s.freeCtr := rfl
@[simp] theorem State.setAsid_nextId (k : Nat) (f : Asid → Asid) : (s.setAsid k f).nextId = s.nextId := rfl
@[simp] theorem State.setAsid_clock (k : Nat) (f : Asid → Asid) : (s.setAsid k f).clock = s.clock := rfl
@[simp] theorem State.setAsid_tickAcc (k : Nat) (f : Asid → Asid) : (s.setAsid k f).tickAcc = s.tickAcc := rfl
@[simp] theorem State.setAsid_dies (k : Nat) (f : Asid → Asid) : (s.setAsid k f).dies = s.dies := rfl
@[simp] theorem State.setAsid_hbm (k : Nat) (f : Asid → Asid) : (s.setAsid k f).hbm = s.hbm := rfl
@[simp] theorem State.setAsid_hostMem (k : Nat) (f : Asid → Asid) : (s.setAsid k f).hostMem = s.hostMem := rfl
@[simp] theorem State.setAsid_frames (k : Nat) (f : Asid → Asid) : (s.setAsid k f).frames = s.frames := rfl
@[simp] theorem State.setAsid_asids (k : Nat) (f : Asid → Asid) : (s.setAsid k f).asids = Tab.put s.asids k (f (s.asid k)) := rfl
@[simp] theorem State.setAsid_bumps (k : Nat) (f : Asid → Asid) : (s.setAsid k f).bumps = s.bumps := rfl
@[simp] theorem State.setAsid_tableNext (k : Nat) (f : Asid → Asid) : (s.setAsid k f).tableNext = s.tableNext := rfl
@[simp] theorem State.setAsid_mem (k : Nat) (f : Asid → Asid) : (s.setAsid k f).mem = s.mem := rfl
@[simp] theorem State.setAsid_mreqs (k : Nat) (f : Asid → Asid) : (s.setAsid k f).mreqs = s.mreqs := rfl
@[simp] theorem State.setAsid_lines (k : Nat) (f : Asid → Asid) : (s.setAsid k f).lines = s.lines := rfl
@[simp] theorem State.setAsid_copies (k : Nat) (f : Asid → Asid) : (s.setAsid k f).copies = s.copies := rfl
@[simp] theorem State.setAsid_keepers (k : Nat) (f : Asid → Asid) : (s.setAsid k f).keepers = s.keepers := rfl
@[simp] theorem State.setAsid_rtCache (k : Nat) (f : Asid → Asid) : (s.setAsid k f).rtCache = s.rtCache := rfl
@[simp] theorem State.setAsid_rtReqs (k : Nat) (f : Asid → Asid) : (s.setAsid k f).rtReqs = s.rtReqs := rfl
@[simp] theorem State.setAsid_rtVers (k : Nat) (f : Asid → Asid) : (s.setAsid k f).rtVers = s.rtVers := rfl
@[simp] theorem State.setAsid_monitors (k : Nat) (f : Asid → Asid) : (s.setAsid k f).monitors = s.monitors := rfl
@[simp] theorem State.setAsid_cores (k : Nat) (f : Asid → Asid) : (s.setAsid k f).cores = s.cores := rfl
@[simp] theorem State.setAsid_warps (k : Nat) (f : Asid → Asid) : (s.setAsid k f).warps = s.warps := rfl
@[simp] theorem State.setAsid_blocks (k : Nat) (f : Asid → Asid) : (s.setAsid k f).blocks = s.blocks := rfl
@[simp] theorem State.setAsid_grids (k : Nat) (f : Asid → Asid) : (s.setAsid k f).grids = s.grids := rfl
@[simp] theorem State.setAsid_waits (k : Nat) (f : Asid → Asid) : (s.setAsid k f).waits = s.waits := rfl
@[simp] theorem State.setAsid_heldWrites (k : Nat) (f : Asid → Asid) : (s.setAsid k f).heldWrites = s.heldWrites := rfl
@[simp] theorem State.setAsid_fe (k : Nat) (f : Asid → Asid) : (s.setAsid k f).fe = s.fe := rfl
@[simp] theorem State.setAsid_hk (k : Nat) (f : Asid → Asid) : (s.setAsid k f).hk = s.hk := rfl

/-! ## `send` -/

@[simp] theorem State.send_agenda (m : Msg) : (s.send m).agenda = s.agenda := rfl
@[simp] theorem State.send_net (m : Msg) : (s.send m).net = s.net ++ [m] := rfl
@[simp] theorem State.send_issue (m : Msg) : (s.send m).issue = s.issue := rfl
@[simp] theorem State.send_turn (m : Msg) : (s.send m).turn = s.turn := rfl
@[simp] theorem State.send_freeCtr (m : Msg) : (s.send m).freeCtr = s.freeCtr := rfl
@[simp] theorem State.send_nextId (m : Msg) : (s.send m).nextId = s.nextId := rfl
@[simp] theorem State.send_clock (m : Msg) : (s.send m).clock = s.clock := rfl
@[simp] theorem State.send_tickAcc (m : Msg) : (s.send m).tickAcc = s.tickAcc := rfl
@[simp] theorem State.send_dies (m : Msg) : (s.send m).dies = s.dies := rfl
@[simp] theorem State.send_hbm (m : Msg) : (s.send m).hbm = s.hbm := rfl
@[simp] theorem State.send_hostMem (m : Msg) : (s.send m).hostMem = s.hostMem := rfl
@[simp] theorem State.send_frames (m : Msg) : (s.send m).frames = s.frames := rfl
@[simp] theorem State.send_asids (m : Msg) : (s.send m).asids = s.asids := rfl
@[simp] theorem State.send_bumps (m : Msg) : (s.send m).bumps = s.bumps := rfl
@[simp] theorem State.send_tableNext (m : Msg) : (s.send m).tableNext = s.tableNext := rfl
@[simp] theorem State.send_mem (m : Msg) : (s.send m).mem = s.mem := rfl
@[simp] theorem State.send_mreqs (m : Msg) : (s.send m).mreqs = s.mreqs := rfl
@[simp] theorem State.send_lines (m : Msg) : (s.send m).lines = s.lines := rfl
@[simp] theorem State.send_copies (m : Msg) : (s.send m).copies = s.copies := rfl
@[simp] theorem State.send_keepers (m : Msg) : (s.send m).keepers = s.keepers := rfl
@[simp] theorem State.send_rtCache (m : Msg) : (s.send m).rtCache = s.rtCache := rfl
@[simp] theorem State.send_rtReqs (m : Msg) : (s.send m).rtReqs = s.rtReqs := rfl
@[simp] theorem State.send_rtVers (m : Msg) : (s.send m).rtVers = s.rtVers := rfl
@[simp] theorem State.send_monitors (m : Msg) : (s.send m).monitors = s.monitors := rfl
@[simp] theorem State.send_cores (m : Msg) : (s.send m).cores = s.cores := rfl
@[simp] theorem State.send_warps (m : Msg) : (s.send m).warps = s.warps := rfl
@[simp] theorem State.send_blocks (m : Msg) : (s.send m).blocks = s.blocks := rfl
@[simp] theorem State.send_grids (m : Msg) : (s.send m).grids = s.grids := rfl
@[simp] theorem State.send_waits (m : Msg) : (s.send m).waits = s.waits := rfl
@[simp] theorem State.send_heldWrites (m : Msg) : (s.send m).heldWrites = s.heldWrites := rfl
@[simp] theorem State.send_fe (m : Msg) : (s.send m).fe = s.fe := rfl
@[simp] theorem State.send_hk (m : Msg) : (s.send m).hk = s.hk := rfl

/-! ## `hold` -/

@[simp] theorem State.hold_agenda (m : Msg) : (s.hold m).agenda = s.agenda := rfl
@[simp] theorem State.hold_net (m : Msg) : (s.hold m).net = m :: s.net := rfl
@[simp] theorem State.hold_issue (m : Msg) : (s.hold m).issue = s.issue := rfl
@[simp] theorem State.hold_turn (m : Msg) : (s.hold m).turn = s.turn := rfl
@[simp] theorem State.hold_freeCtr (m : Msg) : (s.hold m).freeCtr = s.freeCtr := rfl
@[simp] theorem State.hold_nextId (m : Msg) : (s.hold m).nextId = s.nextId := rfl
@[simp] theorem State.hold_clock (m : Msg) : (s.hold m).clock = s.clock := rfl
@[simp] theorem State.hold_tickAcc (m : Msg) : (s.hold m).tickAcc = s.tickAcc := rfl
@[simp] theorem State.hold_dies (m : Msg) : (s.hold m).dies = s.dies := rfl
@[simp] theorem State.hold_hbm (m : Msg) : (s.hold m).hbm = s.hbm := rfl
@[simp] theorem State.hold_hostMem (m : Msg) : (s.hold m).hostMem = s.hostMem := rfl
@[simp] theorem State.hold_frames (m : Msg) : (s.hold m).frames = s.frames := rfl
@[simp] theorem State.hold_asids (m : Msg) : (s.hold m).asids = s.asids := rfl
@[simp] theorem State.hold_bumps (m : Msg) : (s.hold m).bumps = s.bumps := rfl
@[simp] theorem State.hold_tableNext (m : Msg) : (s.hold m).tableNext = s.tableNext := rfl
@[simp] theorem State.hold_mem (m : Msg) : (s.hold m).mem = s.mem := rfl
@[simp] theorem State.hold_mreqs (m : Msg) : (s.hold m).mreqs = s.mreqs := rfl
@[simp] theorem State.hold_lines (m : Msg) : (s.hold m).lines = s.lines := rfl
@[simp] theorem State.hold_copies (m : Msg) : (s.hold m).copies = s.copies := rfl
@[simp] theorem State.hold_keepers (m : Msg) : (s.hold m).keepers = s.keepers := rfl
@[simp] theorem State.hold_rtCache (m : Msg) : (s.hold m).rtCache = s.rtCache := rfl
@[simp] theorem State.hold_rtReqs (m : Msg) : (s.hold m).rtReqs = s.rtReqs := rfl
@[simp] theorem State.hold_rtVers (m : Msg) : (s.hold m).rtVers = s.rtVers := rfl
@[simp] theorem State.hold_monitors (m : Msg) : (s.hold m).monitors = s.monitors := rfl
@[simp] theorem State.hold_cores (m : Msg) : (s.hold m).cores = s.cores := rfl
@[simp] theorem State.hold_warps (m : Msg) : (s.hold m).warps = s.warps := rfl
@[simp] theorem State.hold_blocks (m : Msg) : (s.hold m).blocks = s.blocks := rfl
@[simp] theorem State.hold_grids (m : Msg) : (s.hold m).grids = s.grids := rfl
@[simp] theorem State.hold_waits (m : Msg) : (s.hold m).waits = s.waits := rfl
@[simp] theorem State.hold_heldWrites (m : Msg) : (s.hold m).heldWrites = s.heldWrites := rfl
@[simp] theorem State.hold_fe (m : Msg) : (s.hold m).fe = s.fe := rfl
@[simp] theorem State.hold_hk (m : Msg) : (s.hold m).hk = s.hk := rfl

/-! ## `fresh` -/

@[simp] theorem State.fresh_agenda : (s.fresh).agenda = s.agenda := rfl
@[simp] theorem State.fresh_net : (s.fresh).net = s.net := rfl
@[simp] theorem State.fresh_issue : (s.fresh).issue = s.issue := rfl
@[simp] theorem State.fresh_turn : (s.fresh).turn = s.turn := rfl
@[simp] theorem State.fresh_freeCtr : (s.fresh).freeCtr = s.freeCtr := rfl
@[simp] theorem State.fresh_nextId : (s.fresh).nextId = s.nextId + 1 := rfl
@[simp] theorem State.fresh_clock : (s.fresh).clock = s.clock := rfl
@[simp] theorem State.fresh_tickAcc : (s.fresh).tickAcc = s.tickAcc := rfl
@[simp] theorem State.fresh_dies : (s.fresh).dies = s.dies := rfl
@[simp] theorem State.fresh_hbm : (s.fresh).hbm = s.hbm := rfl
@[simp] theorem State.fresh_hostMem : (s.fresh).hostMem = s.hostMem := rfl
@[simp] theorem State.fresh_frames : (s.fresh).frames = s.frames := rfl
@[simp] theorem State.fresh_asids : (s.fresh).asids = s.asids := rfl
@[simp] theorem State.fresh_bumps : (s.fresh).bumps = s.bumps := rfl
@[simp] theorem State.fresh_tableNext : (s.fresh).tableNext = s.tableNext := rfl
@[simp] theorem State.fresh_mem : (s.fresh).mem = s.mem := rfl
@[simp] theorem State.fresh_mreqs : (s.fresh).mreqs = s.mreqs := rfl
@[simp] theorem State.fresh_lines : (s.fresh).lines = s.lines := rfl
@[simp] theorem State.fresh_copies : (s.fresh).copies = s.copies := rfl
@[simp] theorem State.fresh_keepers : (s.fresh).keepers = s.keepers := rfl
@[simp] theorem State.fresh_rtCache : (s.fresh).rtCache = s.rtCache := rfl
@[simp] theorem State.fresh_rtReqs : (s.fresh).rtReqs = s.rtReqs := rfl
@[simp] theorem State.fresh_rtVers : (s.fresh).rtVers = s.rtVers := rfl
@[simp] theorem State.fresh_monitors : (s.fresh).monitors = s.monitors := rfl
@[simp] theorem State.fresh_cores : (s.fresh).cores = s.cores := rfl
@[simp] theorem State.fresh_warps : (s.fresh).warps = s.warps := rfl
@[simp] theorem State.fresh_blocks : (s.fresh).blocks = s.blocks := rfl
@[simp] theorem State.fresh_grids : (s.fresh).grids = s.grids := rfl
@[simp] theorem State.fresh_waits : (s.fresh).waits = s.waits := rfl
@[simp] theorem State.fresh_heldWrites : (s.fresh).heldWrites = s.heldWrites := rfl
@[simp] theorem State.fresh_fe : (s.fresh).fe = s.fe := rfl
@[simp] theorem State.fresh_hk : (s.fresh).hk = s.hk := rfl

/-! ## `moveTo` -/

@[simp] theorem State.moveTo_agenda (t : TRef) (p : DWord) : (s.moveTo t p).agenda = s.agenda := rfl
@[simp] theorem State.moveTo_net (t : TRef) (p : DWord) : (s.moveTo t p).net = s.net := rfl
@[simp] theorem State.moveTo_issue (t : TRef) (p : DWord) : (s.moveTo t p).issue = s.issue := rfl
@[simp] theorem State.moveTo_turn (t : TRef) (p : DWord) : (s.moveTo t p).turn = s.turn := rfl
@[simp] theorem State.moveTo_freeCtr (t : TRef) (p : DWord) : (s.moveTo t p).freeCtr = s.freeCtr := rfl
@[simp] theorem State.moveTo_nextId (t : TRef) (p : DWord) : (s.moveTo t p).nextId = s.nextId := rfl
@[simp] theorem State.moveTo_clock (t : TRef) (p : DWord) : (s.moveTo t p).clock = s.clock := rfl
@[simp] theorem State.moveTo_tickAcc (t : TRef) (p : DWord) : (s.moveTo t p).tickAcc = s.tickAcc := rfl
@[simp] theorem State.moveTo_dies (t : TRef) (p : DWord) : (s.moveTo t p).dies = s.dies := rfl
@[simp] theorem State.moveTo_hbm (t : TRef) (p : DWord) : (s.moveTo t p).hbm = s.hbm := rfl
@[simp] theorem State.moveTo_hostMem (t : TRef) (p : DWord) : (s.moveTo t p).hostMem = s.hostMem := rfl
@[simp] theorem State.moveTo_frames (t : TRef) (p : DWord) : (s.moveTo t p).frames = s.frames := rfl
@[simp] theorem State.moveTo_asids (t : TRef) (p : DWord) : (s.moveTo t p).asids = s.asids := rfl
@[simp] theorem State.moveTo_bumps (t : TRef) (p : DWord) : (s.moveTo t p).bumps = s.bumps := rfl
@[simp] theorem State.moveTo_tableNext (t : TRef) (p : DWord) : (s.moveTo t p).tableNext = s.tableNext := rfl
@[simp] theorem State.moveTo_mem (t : TRef) (p : DWord) : (s.moveTo t p).mem = s.mem := rfl
@[simp] theorem State.moveTo_mreqs (t : TRef) (p : DWord) : (s.moveTo t p).mreqs = s.mreqs := rfl
@[simp] theorem State.moveTo_lines (t : TRef) (p : DWord) : (s.moveTo t p).lines = s.lines := rfl
@[simp] theorem State.moveTo_copies (t : TRef) (p : DWord) : (s.moveTo t p).copies = s.copies := rfl
@[simp] theorem State.moveTo_keepers (t : TRef) (p : DWord) : (s.moveTo t p).keepers = s.keepers := rfl
@[simp] theorem State.moveTo_rtCache (t : TRef) (p : DWord) : (s.moveTo t p).rtCache = s.rtCache := rfl
@[simp] theorem State.moveTo_rtReqs (t : TRef) (p : DWord) : (s.moveTo t p).rtReqs = s.rtReqs := rfl
@[simp] theorem State.moveTo_rtVers (t : TRef) (p : DWord) : (s.moveTo t p).rtVers = s.rtVers := rfl
@[simp] theorem State.moveTo_monitors (t : TRef) (p : DWord) : (s.moveTo t p).monitors = s.monitors := rfl
@[simp] theorem State.moveTo_cores (t : TRef) (p : DWord) : (s.moveTo t p).cores = s.cores := rfl
@[simp] theorem State.moveTo_blocks (t : TRef) (p : DWord) : (s.moveTo t p).blocks = s.blocks := rfl
@[simp] theorem State.moveTo_grids (t : TRef) (p : DWord) : (s.moveTo t p).grids = s.grids := rfl
@[simp] theorem State.moveTo_waits (t : TRef) (p : DWord) : (s.moveTo t p).waits = s.waits := rfl
@[simp] theorem State.moveTo_heldWrites (t : TRef) (p : DWord) : (s.moveTo t p).heldWrites = s.heldWrites := rfl
@[simp] theorem State.moveTo_fe (t : TRef) (p : DWord) : (s.moveTo t p).fe = s.fe := rfl
@[simp] theorem State.moveTo_hk (t : TRef) (p : DWord) : (s.moveTo t p).hk = s.hk := rfl

/-! ## `writeFixed` -/

@[simp] theorem State.writeFixed_agenda (k lat : Nat) (ws : List (RegKey × DWord)) :
    (s.writeFixed k lat ws).agenda = s.agenda := rfl
@[simp] theorem State.writeFixed_net (k lat : Nat) (ws : List (RegKey × DWord)) : (s.writeFixed k lat ws).net = s.net := rfl
@[simp] theorem State.writeFixed_issue (k lat : Nat) (ws : List (RegKey × DWord)) : (s.writeFixed k lat ws).issue = s.issue := rfl
@[simp] theorem State.writeFixed_turn (k lat : Nat) (ws : List (RegKey × DWord)) : (s.writeFixed k lat ws).turn = s.turn := rfl
@[simp] theorem State.writeFixed_freeCtr (k lat : Nat) (ws : List (RegKey × DWord)) :
    (s.writeFixed k lat ws).freeCtr = s.freeCtr := rfl
@[simp] theorem State.writeFixed_nextId (k lat : Nat) (ws : List (RegKey × DWord)) :
    (s.writeFixed k lat ws).nextId = s.nextId := rfl
@[simp] theorem State.writeFixed_clock (k lat : Nat) (ws : List (RegKey × DWord)) : (s.writeFixed k lat ws).clock = s.clock := rfl
@[simp] theorem State.writeFixed_tickAcc (k lat : Nat) (ws : List (RegKey × DWord)) :
    (s.writeFixed k lat ws).tickAcc = s.tickAcc := rfl
@[simp] theorem State.writeFixed_dies (k lat : Nat) (ws : List (RegKey × DWord)) : (s.writeFixed k lat ws).dies = s.dies := rfl
@[simp] theorem State.writeFixed_hbm (k lat : Nat) (ws : List (RegKey × DWord)) : (s.writeFixed k lat ws).hbm = s.hbm := rfl
@[simp] theorem State.writeFixed_hostMem (k lat : Nat) (ws : List (RegKey × DWord)) :
    (s.writeFixed k lat ws).hostMem = s.hostMem := rfl
@[simp] theorem State.writeFixed_frames (k lat : Nat) (ws : List (RegKey × DWord)) :
    (s.writeFixed k lat ws).frames = s.frames := rfl
@[simp] theorem State.writeFixed_asids (k lat : Nat) (ws : List (RegKey × DWord)) : (s.writeFixed k lat ws).asids = s.asids := rfl
@[simp] theorem State.writeFixed_bumps (k lat : Nat) (ws : List (RegKey × DWord)) : (s.writeFixed k lat ws).bumps = s.bumps := rfl
@[simp] theorem State.writeFixed_tableNext (k lat : Nat) (ws : List (RegKey × DWord)) :
    (s.writeFixed k lat ws).tableNext = s.tableNext := rfl
@[simp] theorem State.writeFixed_mem (k lat : Nat) (ws : List (RegKey × DWord)) : (s.writeFixed k lat ws).mem = s.mem := rfl
@[simp] theorem State.writeFixed_mreqs (k lat : Nat) (ws : List (RegKey × DWord)) : (s.writeFixed k lat ws).mreqs = s.mreqs := rfl
@[simp] theorem State.writeFixed_lines (k lat : Nat) (ws : List (RegKey × DWord)) : (s.writeFixed k lat ws).lines = s.lines := rfl
@[simp] theorem State.writeFixed_copies (k lat : Nat) (ws : List (RegKey × DWord)) :
    (s.writeFixed k lat ws).copies = s.copies := rfl
@[simp] theorem State.writeFixed_keepers (k lat : Nat) (ws : List (RegKey × DWord)) :
    (s.writeFixed k lat ws).keepers = s.keepers := rfl
@[simp] theorem State.writeFixed_rtCache (k lat : Nat) (ws : List (RegKey × DWord)) :
    (s.writeFixed k lat ws).rtCache = s.rtCache := rfl
@[simp] theorem State.writeFixed_rtReqs (k lat : Nat) (ws : List (RegKey × DWord)) :
    (s.writeFixed k lat ws).rtReqs = s.rtReqs := rfl
@[simp] theorem State.writeFixed_rtVers (k lat : Nat) (ws : List (RegKey × DWord)) :
    (s.writeFixed k lat ws).rtVers = s.rtVers := rfl
@[simp] theorem State.writeFixed_monitors (k lat : Nat) (ws : List (RegKey × DWord)) :
    (s.writeFixed k lat ws).monitors = s.monitors := rfl
@[simp] theorem State.writeFixed_cores (k lat : Nat) (ws : List (RegKey × DWord)) : (s.writeFixed k lat ws).cores = s.cores := rfl
@[simp] theorem State.writeFixed_blocks (k lat : Nat) (ws : List (RegKey × DWord)) :
    (s.writeFixed k lat ws).blocks = s.blocks := rfl
@[simp] theorem State.writeFixed_grids (k lat : Nat) (ws : List (RegKey × DWord)) : (s.writeFixed k lat ws).grids = s.grids := rfl
@[simp] theorem State.writeFixed_waits (k lat : Nat) (ws : List (RegKey × DWord)) : (s.writeFixed k lat ws).waits = s.waits := rfl
@[simp] theorem State.writeFixed_heldWrites (k lat : Nat) (ws : List (RegKey × DWord)) :
    (s.writeFixed k lat ws).heldWrites = s.heldWrites := rfl
@[simp] theorem State.writeFixed_fe (k lat : Nat) (ws : List (RegKey × DWord)) : (s.writeFixed k lat ws).fe = s.fe := rfl
@[simp] theorem State.writeFixed_hk (k lat : Nat) (ws : List (RegKey × DWord)) : (s.writeFixed k lat ws).hk = s.hk := rfl

/-! ## `writeNow` -/

@[simp] theorem State.writeNow_agenda (k : Nat) (ws : List (RegKey × DWord)) : (s.writeNow k ws).agenda = s.agenda := rfl
@[simp] theorem State.writeNow_net (k : Nat) (ws : List (RegKey × DWord)) : (s.writeNow k ws).net = s.net := rfl
@[simp] theorem State.writeNow_issue (k : Nat) (ws : List (RegKey × DWord)) : (s.writeNow k ws).issue = s.issue := rfl
@[simp] theorem State.writeNow_turn (k : Nat) (ws : List (RegKey × DWord)) : (s.writeNow k ws).turn = s.turn := rfl
@[simp] theorem State.writeNow_freeCtr (k : Nat) (ws : List (RegKey × DWord)) : (s.writeNow k ws).freeCtr = s.freeCtr := rfl
@[simp] theorem State.writeNow_nextId (k : Nat) (ws : List (RegKey × DWord)) : (s.writeNow k ws).nextId = s.nextId := rfl
@[simp] theorem State.writeNow_clock (k : Nat) (ws : List (RegKey × DWord)) : (s.writeNow k ws).clock = s.clock := rfl
@[simp] theorem State.writeNow_tickAcc (k : Nat) (ws : List (RegKey × DWord)) : (s.writeNow k ws).tickAcc = s.tickAcc := rfl
@[simp] theorem State.writeNow_dies (k : Nat) (ws : List (RegKey × DWord)) : (s.writeNow k ws).dies = s.dies := rfl
@[simp] theorem State.writeNow_hbm (k : Nat) (ws : List (RegKey × DWord)) : (s.writeNow k ws).hbm = s.hbm := rfl
@[simp] theorem State.writeNow_hostMem (k : Nat) (ws : List (RegKey × DWord)) : (s.writeNow k ws).hostMem = s.hostMem := rfl
@[simp] theorem State.writeNow_frames (k : Nat) (ws : List (RegKey × DWord)) : (s.writeNow k ws).frames = s.frames := rfl
@[simp] theorem State.writeNow_asids (k : Nat) (ws : List (RegKey × DWord)) : (s.writeNow k ws).asids = s.asids := rfl
@[simp] theorem State.writeNow_bumps (k : Nat) (ws : List (RegKey × DWord)) : (s.writeNow k ws).bumps = s.bumps := rfl
@[simp] theorem State.writeNow_tableNext (k : Nat) (ws : List (RegKey × DWord)) : (s.writeNow k ws).tableNext = s.tableNext := rfl
@[simp] theorem State.writeNow_mem (k : Nat) (ws : List (RegKey × DWord)) : (s.writeNow k ws).mem = s.mem := rfl
@[simp] theorem State.writeNow_mreqs (k : Nat) (ws : List (RegKey × DWord)) : (s.writeNow k ws).mreqs = s.mreqs := rfl
@[simp] theorem State.writeNow_lines (k : Nat) (ws : List (RegKey × DWord)) : (s.writeNow k ws).lines = s.lines := rfl
@[simp] theorem State.writeNow_copies (k : Nat) (ws : List (RegKey × DWord)) : (s.writeNow k ws).copies = s.copies := rfl
@[simp] theorem State.writeNow_keepers (k : Nat) (ws : List (RegKey × DWord)) : (s.writeNow k ws).keepers = s.keepers := rfl
@[simp] theorem State.writeNow_rtCache (k : Nat) (ws : List (RegKey × DWord)) : (s.writeNow k ws).rtCache = s.rtCache := rfl
@[simp] theorem State.writeNow_rtReqs (k : Nat) (ws : List (RegKey × DWord)) : (s.writeNow k ws).rtReqs = s.rtReqs := rfl
@[simp] theorem State.writeNow_rtVers (k : Nat) (ws : List (RegKey × DWord)) : (s.writeNow k ws).rtVers = s.rtVers := rfl
@[simp] theorem State.writeNow_monitors (k : Nat) (ws : List (RegKey × DWord)) : (s.writeNow k ws).monitors = s.monitors := rfl
@[simp] theorem State.writeNow_cores (k : Nat) (ws : List (RegKey × DWord)) : (s.writeNow k ws).cores = s.cores := rfl
@[simp] theorem State.writeNow_blocks (k : Nat) (ws : List (RegKey × DWord)) : (s.writeNow k ws).blocks = s.blocks := rfl
@[simp] theorem State.writeNow_grids (k : Nat) (ws : List (RegKey × DWord)) : (s.writeNow k ws).grids = s.grids := rfl
@[simp] theorem State.writeNow_waits (k : Nat) (ws : List (RegKey × DWord)) : (s.writeNow k ws).waits = s.waits := rfl
@[simp] theorem State.writeNow_heldWrites (k : Nat) (ws : List (RegKey × DWord)) :
    (s.writeNow k ws).heldWrites = s.heldWrites := rfl
@[simp] theorem State.writeNow_fe (k : Nat) (ws : List (RegKey × DWord)) : (s.writeNow k ws).fe = s.fe := rfl
@[simp] theorem State.writeNow_hk (k : Nat) (ws : List (RegKey × DWord)) : (s.writeNow k ws).hk = s.hk := rfl

end Sys2Proof.Machine
end

