-- ==== Sys2Proof/Laws/Shared.lean ====
section
/-! SUPPORT. What the operations that the meanings share can do, each said once: the tables after one of their records is
changed, the end of an issue, threads put to wait and their wait over, messages, and registers written. -/

namespace Sys2Proof.Machine

/-! ## The tables read after an update -/

theorem State.core_setCore (s : State) (c j : Nat) (f : Core → Core) :
    (s.setCore c f).core j = if j = c then f (s.core c) else s.core j := by
  unfold State.core
  rw [State.setCore_cores]
  split
  · rename_i h; subst h; rw [Tab.find_put_self]; rfl
  · rename_i h; rw [Tab.find_put_ne h]

theorem State.asid_setAsid (s : State) (a j : Nat) (f : Asid → Asid) :
    (s.setAsid a f).asid j = if j = a then f (s.asid a) else s.asid j := by
  unfold State.asid
  rw [State.setAsid_asids]
  split
  · rename_i h; subst h; rw [Tab.find_put_self]; rfl
  · rename_i h; rw [Tab.find_put_ne h]

theorem State.frame_setFrame (s : State) (n j : Nat) (f : Frame → Frame) :
    (s.setFrame n f).frame j = if j = n then f (s.frame n) else s.frame j := by
  unfold State.frame
  rw [State.setFrame_frames]
  split
  · rename_i h; subst h; rw [Tab.find_put_self]; rfl
  · rename_i h; rw [Tab.find_put_ne h]

theorem State.homeLine_setLine (s : State) (n j : Nat) (h : HomeLine) :
    (s.setLine n h).homeLine j = if j = n then h else s.homeLine j := by
  unfold State.homeLine
  rw [State.setLine_lines]
  split
  · rename_i hj; subst hj; rw [Tab.find_put_self]; rfl
  · rename_i hj; rw [Tab.find_put_ne hj, State.setLine_hbm]

/-- A block that is in the table, after a change to a block. -/
theorem State.block_setBlock (s : State) (b j : Nat) (f : Block → Block) (hb : (Tab.find s.blocks b).isSome = true) :
    (s.setBlock b f).block j = if j = b then f (s.block b) else s.block j := by
  unfold State.block
  rw [State.setBlock_blocks]
  obtain ⟨v, hv⟩ := Option.isSome_iff_exists.mp hb
  split
  · rename_i h; subst h; rw [Tab.find_upd_self, hv]; rfl
  · rename_i h; rw [Tab.find_upd_ne _ h]

theorem State.grid_setGrid (s : State) (b j : Nat) (f : Grid → Grid) (hb : (Tab.find s.grids b).isSome = true) :
    (s.setGrid b f).grid j = if j = b then f (s.grid b) else s.grid j := by
  unfold State.grid
  rw [State.setGrid_grids]
  obtain ⟨v, hv⟩ := Option.isSome_iff_exists.mp hb
  split
  · rename_i h; subst h; rw [Tab.find_upd_self, hv]; rfl
  · rename_i h; rw [Tab.find_upd_ne _ h]

theorem State.die_setDie (s : State) (b j : Nat) (f : Die → Die) (hb : (Tab.find s.dies b).isSome = true) :
    (s.setDie b f).die j = if j = b then f (s.die b) else s.die j := by
  unfold State.die
  rw [State.setDie_dies]
  obtain ⟨v, hv⟩ := Option.isSome_iff_exists.mp hb
  split
  · rename_i h; subst h; rw [Tab.find_upd_self, hv]; rfl
  · rename_i h; rw [Tab.find_upd_ne _ h]

/-! ## Chains of changes to warps -/

/-- Nothing but the warps differs. -/
abbrev State.WarpsOnly (s s' : State) : Prop := s' = { s with warps := s'.warps }

theorem State.WarpsOnly.trans {s u v : State} (h1 : s.WarpsOnly u) (h2 : u.WarpsOnly v) : s.WarpsOnly v := by
  have : v = { u with warps := v.warps } := h2
  rw [h1] at this
  exact this

/-- Changes to warps, one after another, change the warps alone. -/
theorem State.WarpsOnly.foldl {β : Type} {f : State → β → State} (hf : ∀ (s : State) x, s.WarpsOnly (f s x)) :
    (l : List β) → (s : State) → s.WarpsOnly (l.foldl f s)
  | [], _ => rfl
  | x :: rest, s => (hf s x).trans (foldl hf rest (f s x))

/-- Where none of them touches the threads, every thread is as before. -/
theorem State.foldl_thread {β : Type} {f : State → β → State} (hf : ∀ s x u, (f s x).thread u = s.thread u) :
    (l : List β) → (s : State) → (u : TRef) → (l.foldl f s).thread u = s.thread u
  | [], _, _ => rfl
  | x :: rest, s, u => by rw [List.foldl_cons, foldl_thread hf rest, hf]

/-! ## The end of an issue (R28, R332, R343) -/

/-- An issue ends: no issue is in progress, and beyond that only warps change. -/
theorem State.finish_frame (s : State) (opc : Nat) (took : List TRef) :
    s.finish opc took = { s with warps := (s.finish opc took).warps, issue := none } := by
  have h := State.WarpsOnly.foldl (f := fun (u : State) (w : Nat) => u.setWarp w fun wp =>
    { wp with icount := wp.icount + 1, idem := wp.idem && !clearsIdem opc })
    (fun _ _ => rfl) (took.map TRef.warp).dedup s
  unfold State.finish
  simp only
  rw [h]

/-- Of a warp, only the count of issues and the idempotent bit change. -/
theorem State.finish_thread (s : State) (opc : Nat) (took : List TRef) (u : TRef) : (s.finish opc took).thread u = s.thread u := by
  exact State.foldl_thread (f := fun (u : State) (w : Nat) => u.setWarp w fun wp =>
    { wp with icount := wp.icount + 1, idem := wp.idem && !clearsIdem opc })
    (fun u x v => State.thread_setWarp u x (fun wp =>
      { wp with icount := wp.icount + 1, idem := wp.idem && !clearsIdem opc }) (fun _ => rfl) v)
    (took.map TRef.warp).dedup s u

/-! ## Waits (R32) -/

/-- Threads put to wait: the record is in the table under the next number, and beyond that only warps change. -/
theorem State.park_frame (s : State) (kind : WaitKind) (warp : Nat) (ms : List TRef) :
    s.park kind warp ms = { s with
      warps := (s.park kind warp ms).warps, nextId := s.nextId + 1
      waits := Tab.put s.waits s.nextId ⟨kind, warp, ms, s.cur.pos, s.cur.next, s.nextId⟩ } := by
  exact State.WarpsOnly.foldl (fun _ _ => rfl) ms
    { s.fresh with waits := Tab.put s.waits s.nextId ⟨kind, warp, ms, s.cur.pos, s.cur.next, s.nextId⟩ }

/-- The record of a wait that begins. -/
theorem State.park_record (s : State) (kind : WaitKind) (warp : Nat) (ms : List TRef) :
    Tab.find (s.park kind warp ms).waits s.nextId = some ⟨kind, warp, ms, s.cur.pos, s.cur.next, s.nextId⟩ := by
  rw [State.park_frame]; exact Tab.find_put_self _ _ _

/-- A wait that is over leaves the table, and beyond that only warps change; no such wait, and nothing does. -/
theorem State.completeWait_frame (s : State) (id : Nat) :
    s.completeWait id = { s with warps := (s.completeWait id).warps, waits := (s.completeWait id).waits } := by
  unfold State.completeWait
  split
  · rfl
  · rename_i r _
    have h := State.WarpsOnly.foldl (f := fun (u : State) (t : TRef) => u.setThread t fun th => 
        if th.wait = some id then { th with wait := none, pos := r.next, distMet := false, waitRem := 0 } else th) (fun _ _ => rfl) r.members { s with waits := Tab.del s.waits id }
    rw [State.WarpsOnly] at h
    rw [h]

theorem State.unpark_frame (s : State) (id : Nat) :
    s.unpark id = { s with warps := (s.unpark id).warps, waits := (s.unpark id).waits } := by
  unfold State.unpark
  split
  · rfl
  · rename_i r _
    have h := State.WarpsOnly.foldl (f := fun (u : State) (t : TRef) => u.setThread t fun th => if th.wait = some id then { th with wait := none } else th) (fun _ _ => rfl) r.members { s with waits := Tab.del s.waits id }
    rw [State.WarpsOnly] at h
    rw [h]

/-! ## Registers (R33, R34) -/

/-- A fixed-latency write is on its way, and nothing else of the warp changes. -/
theorem Warp.addPend_frame (w : Warp) (p : PendWrite) : w.addPend p = { w with pend := (w.addPend p).pend } := rfl

/-- A warp whose lane's registers are marked changes nothing but its full/empty bits. -/
theorem Warp.markEmpty_frame (w : Warp) (l r c : Nat) (e : Bool) :
    w.markEmpty l r c e = { w with empty := (w.markEmpty l r c e).empty } := by
  unfold Warp.markEmpty
  induction List.range c generalizing w with
  | nil => rfl
  | cons x rest ih =>
    rw [List.foldl_cons, ih]

end Sys2Proof.Machine
end

