-- ==== Sys2Proof/Tests/Slice0.lean ====
section
/-! SUPPORT. The model's own tests: the words of the spec's encodings, the well-formedness checks, single steps with results
worked out by hand from the spec, and for each statement states and operands that meet its hypotheses. -/

namespace Sys2Proof.Machine.Slice0

set_option maxRecDepth 100000
set_option Elab.async false

def g : Guard := ⟨false, 7, .lane⟩
def gw : Guard := ⟨false, 7, .warp⟩
def gs : Guard := ⟨false, 7, .set⟩
def gb : Guard := ⟨false, 7, .block⟩

/-! ## Decoding -/

/-- The encodings that the spec works out (R51, R142 to R154, R174, R214, R263, R296, R314 to R318, R333, R339, R367, R398), and
the literal forms of R35, R37 and R42. -/
theorem test_worked_words :
    decodeWords [0x10219070] = .ok (.iadd g 2 1 3, []) ∧
    decodeWords [0x2062B220] = .ok (.ffma ⟨false, 2, .lane⟩ 4 3 5, []) ∧
    decodeWords [0x08013170] = .ok (.fmul g 1 0 2, []) ∧
    decodeWords [0x0041B970] = .ok (.rcp g 2 3, []) ∧
    decodeWords [0x18002B70] = .ok (.movi g 3 0, []) ∧
    decodeWords [0x00208B70] = .ok (.rdsr g 1 1, []) ∧
    decodeWords [0x00077E70] = .ok (.time g 0 14, []) ∧
    decodeWords [0x00000670] = .ok (.exit g, []) ∧
    decodeWords [0x9800097C] = .ok (.barNamed ⟨false, 7, .block⟩ 3, []) ∧
    decodeWords [0xFFFD0110] = .ok (.bra ⟨false, 1, .lane⟩ (-6), []) ∧
    decodeWords [0x09655570] = .ok (.ldw g 1 11 10, []) ∧
    decodeWords [0x01064A74] = .ok (.redux ⟨false, 7, .warp⟩ 8 12, []) ∧
    decodeWords [0x00005870] = .ok (.fence g 0, []) ∧
    decodeWords [0x08005870] = .ok (.fence g 1, []) ∧
    decodeWords [0x18005870] = .ok (.fence g 3, []) ∧
    decodeWords [0x20005870] = .ok (.fence g 4, []) ∧
    decodeWords [0x28005870] = .ok (.fence g 5, []) ∧
    decodeWords [0x30005870] = .ok (.fence g 6, []) ∧
    decodeWords [0x38005870] = .ok (.fence g 7, []) ∧
    decodeWords [0x48005870] = .ok (.fence g 9, []) ∧
    decodeWords [0x1800587C] = .ok (.fence ⟨false, 7, .block⟩ 3, []) := by
  refine ⟨?_, ?_, ?_, ?_, ?_, ?_, ?_, ?_, ?_, ?_, ?_, ?_, ?_, ?_, ?_, ?_, ?_, ?_, ?_, ?_, ?_⟩ <;> rfl

theorem test_worked_extended_words :
    decodeWords [0x00001071, 0x01900B2C, 0x000020C0] =
      .ok (.iaddX g ⟨false, .vec 300, .vec 5 false, .imm 100, .vec 0 false, 0, .s32, .rn, false, 0⟩, []) ∧
    decodeWords [0x00005671, 0x001C0C00, 0x00200000] =
      .ok (.stwX g ⟨false, .vec 0, .vec 6 false, .vec 7 false, .vec 0 false, 16, .u32, .rn, false, 0⟩, []) ∧
    decodeWords [0x00004875, 0x00040805, 0x0003A0C0] =
      .ok (.shflX gw ⟨false, .vec 5, .vec 4 false, .imm 1, .vec 0 false, 1, .b32, .rn, false, 0⟩, []) ∧
    decodeWords [0x00002871, 0x40180A07, 0x00002000] =
      .ok (.iaddmin g ⟨false, .vec 7, .vec 5 false, .vec 6 false, .vec 8 false, 0, .s32, .rn, false, 0⟩, []) ∧
    decodeWords [0x00002771, 0x00001401, 0x800200C0] =
      .ok (.icmpX g ⟨false, .pred 1, .vec 10 false, .imm 0, .vec 0 false, 1, .u32, .rn, false, 0⟩, []) ∧
    decodeWords [0x00005A75, 0x00081403, 0x400200D0] =
      .ok (.rdeg gw ⟨false, .uni 3, .uni 10, .imm 2, .vec 0 false, 1, .u32, .rn, false, 0⟩, []) ∧
    decodeWords [0x00000A75, 0x00000C00, 0x00000010] =
      .ok (.setdecl gw ⟨false, .vec 0, .uni 6, .vec 0 false, .vec 0 false, 0, .u32, .rn, false, 0⟩, []) ∧
    decodeWords [0x00007A75, 0x00000C01, 0x80000010] =
      .ok (.migrate gw ⟨false, .pred 1, .uni 6, .vec 0 false, .vec 0 false, 0, .u32, .rn, false, 0⟩, []) ∧
    decodeWords [0x0000787D, 0x00000004, 0x40000000] =
      .ok (.fetchtTile ⟨false, 7, .block⟩ ⟨false, .uni 4, .vec 0 false, .vec 0 false, .vec 0 false, 0, .u32, .rn, false, 0⟩, []) ∧
    decodeWords [0x00007875, 0x00000004, 0x40020000] =
      .ok (.fetchtTask gw ⟨false, .uni 4, .vec 0 false, .vec 0 false, .vec 0 false, 1, .u32, .rn, false, 0⟩, []) ∧
    decodeWords [0x00007975, 0x00000C00, 0x00000010] =
      .ok (.enqt gw ⟨false, .vec 0, .uni 6, .vec 0 false, .vec 0 false, 0, .u32, .rn, false, 0⟩, []) ∧
    decodeWords [0x00006071, 0xA050080A, 0x00020300] =
      .ok (.latomX g ⟨false, .vec 10, .vec 4 false, .vec 20 false, .imm 20, 1, .u32, .rn, false, 0⟩, []) ∧
    decodeWords [0x00006071, 0x5030000A, 0x00040310] =
      .ok (.latomX g ⟨false, .vec 10, .uni 0, .vec 12 false, .imm 10, 2, .u32, .rn, false, 0⟩, []) ∧
    decodeWords [0x00006171, 0x48000000, 0x000203D0] =
      .ok (.latoms g ⟨false, .vec 0, .uni 0, .imm 0, .imm 9, 1, .u32, .rn, false, 0⟩, []) ∧
    decodeWords [0x00006875, 0x00200800, 0x00208050] =
      .ok (.xcopy gw ⟨false, .vec 0, .uni 4, .uni 8, .vec 0 false, 16, .f32, .rn, false, 0⟩, []) ∧
    decodeWords [0x00007479, 0x00001000, 0x000083D0] =
      .ok (.accld gs ⟨false, .vec 0, .uni 8, .imm 0, .imm 0, 0, .f32, .rn, false, 0⟩, []) ∧
    decodeWords [0x00007179, 0x18180800, 0x0003C350] =
      .ok (.mma gs ⟨false, .vec 0, .uni 4, .uni 6, .imm 3, 1, .fmt, .rn, false, 0⟩, []) ∧
    decodeWords [0x00007675, 0x00000002, 0x00000300] =
      .ok (.acck gw ⟨false, .vec 2, .vec 0 false, .vec 0 false, .imm 0, 0, .u32, .rn, false, 0⟩, []) ∧
    decodeWords [0x00219072, 0x9ABCDEF0, 0x00000000] =
      .ok (.iaddX g ⟨true, .vec 3, .vec 1 false, .lit 0x9ABCDEF0, .vec 0 false, 0, .s32, .rn, false, 0⟩, []) ∧
    decodeWords [0x00000172, 0xFFFFFFFA, 0xFFFFFFFF] = .ok (.braLit g (-6), []) ∧
    decodeWords [0x00000372, 0x00000006, 0x00000000] = .ok (.callLit g 6, []) ∧
    decodeWords [0x00001273, 0x1400032C, 0x000020C0, 0x00000007, 0x00000000, 0x00000070] =
      .ok (.iadd3 g ⟨false, .vec 300, .vec 1 false, .lit 7, .vec 2 false, 0, .s32, .rn, false, 0⟩, [0x70]) := by
  refine ⟨?_, ?_, ?_, ?_, ?_, ?_, ?_, ?_, ?_, ?_, ?_, ?_, ?_, ?_, ?_, ?_, ?_, ?_, ?_, ?_, ?_, ?_⟩ <;> rfl

/-- R36, R38, R39, R42 to R47: words that are no instruction are refused by name. -/
theorem test_refused_words :
    decodeWords [] = .error .truncated ∧
    decodeWords [0x00001071, 0x01900B2C] = .error .truncated ∧
    decodeWords [0x00002F70] = .error .unassignedOpcode ∧
    decodeWords [0x00007F70] = .error .unassignedOpcode ∧
    decodeWords [0x00001270] = .error .formNotListed ∧
    decodeWords [0x00001671, 0x01900B2C, 0x0001E0C0] = .error .reservedField ∧
    decodeWords [0x00001071, 0x01900B2C, 0xC00020C0] = .error .reservedField ∧
    decodeWords [0x00001071, 0x01900B2C, 0x028020C0] = .error .reservedField ∧
    decodeWords [0x00001071, 0x01900B40, 0x000020C0] = .error .reservedNumber ∧
    decodeWords [0x00001071, 0x01900B2C, 0x000028C0] = .error .trapBit ∧
    decodeWords [0x00001071, 0x04000B2C, 0x000020C0] = .error .literalUse ∧
    decodeWords [0x00008971, 0x00000000, 0x00000000] = .error .mustBeZeroOrReservedSub ∧
    decodeWords [0x00000A75, 0x00000C00, 0x00040010] = .error .reservedSub := by
  refine ⟨?_, ?_, ?_, ?_, ?_, ?_, ?_, ?_, ?_, ?_, ?_, ?_, ?_⟩ <;> rfl

theorem test_one_word_0 :
    decodeWords [0x00000070] = .ok (.nop ⟨false, 7, .lane⟩, []) ∧
    decodeWords [0x080000D8] = .ok (.yield ⟨true, 5, .set⟩, []) ∧
    decodeWords [0xB4B48134] = .ok (.bra ⟨false, 3, .warp⟩ 92521, []) ∧
    decodeWords [0x05200280] = .ok (.brx ⟨true, 0, .lane⟩ 41, []) ∧
    decodeWords [0xB4B48370] = .ok (.call ⟨false, 7, .lane⟩ 92521, []) ∧
    decodeWords [0x052004D0] = .ok (.callx ⟨true, 5, .lane⟩ 41, []) ∧
    decodeWords [0x00000530] = .ok (.ret ⟨false, 3, .lane⟩, []) ∧
    decodeWords [0x00000680] = .ok (.exit ⟨true, 0, .lane⟩, []) ∧
    decodeWords [0x00148770] = .ok (.trap ⟨false, 7, .lane⟩ 41, []) ∧
    decodeWords [0x081487D8] = .ok (.brk ⟨true, 5, .set⟩ 41, []) ∧
    decodeWords [0x00008830] = .ok (.trapret ⟨false, 3, .lane⟩ 1, []) ∧
    decodeWords [0x0000098C] = .ok (.bar ⟨true, 0, .block⟩, []) ∧
    decodeWords [0xC800097C] = .ok (.barNamed ⟨false, 7, .block⟩ 9, []) ∧
    decodeWords [0x052B0BD8] = .ok (.rdsr ⟨true, 5, .set⟩ 41 22, []) ∧
    decodeWords [0x00000C34] = .ok (.idemb ⟨false, 3, .warp⟩, []) ∧
    decodeWords [0x08000C84] = .ok (.ideme ⟨true, 0, .warp⟩, []) ∧
    decodeWords [0x48000D70] = .ok (.prog ⟨false, 7, .lane⟩ 9, []) ∧
    decodeWords [0x052B0ED8] = .ok (.waitf ⟨true, 5, .set⟩ 41 22, []) ∧
    decodeWords [0x4AC71034] = .ok (.iadd ⟨false, 3, .warp⟩ 9 22 14, []) ∧
    decodeWords [0x4AC7118C] = .ok (.isub ⟨true, 0, .block⟩ 9 22 14, []) ∧
    decodeWords [0x4AC71370] = .ok (.imul ⟨false, 7, .lane⟩ 9 22 14, []) ∧
    decodeWords [0x4AC714D8] = .ok (.imulh ⟨true, 5, .set⟩ 9 22 14, []) :=
  ⟨rfl, rfl, rfl, rfl, rfl, rfl, rfl, rfl, rfl, rfl, rfl, rfl, rfl, rfl, rfl, rfl, rfl, rfl, rfl, rfl, rfl, rfl⟩

theorem test_one_word_1 :
    decodeWords [0x4AC71534] = .ok (.imad ⟨false, 3, .warp⟩ 9 22 14, []) ∧
    decodeWords [0x4AC7178C] = .ok (.shl ⟨true, 0, .block⟩ 9 22 14, []) ∧
    decodeWords [0x4AC71870] = .ok (.shr ⟨false, 7, .lane⟩ 9 22 14, []) ∧
    decodeWords [0x4AC719D8] = .ok (.sar ⟨true, 5, .set⟩ 9 22 14, []) ∧
    decodeWords [0x4AC71B34] = .ok (.and ⟨false, 3, .warp⟩ 9 22 14, []) ∧
    decodeWords [0x4AC71C8C] = .ok (.or ⟨true, 0, .block⟩ 9 22 14, []) ∧
    decodeWords [0x4AC71D70] = .ok (.xor ⟨false, 7, .lane⟩ 9 22 14, []) ∧
    decodeWords [0x052B1FD8] = .ok (.popc ⟨true, 5, .set⟩ 41 22, []) ∧
    decodeWords [0x0D2B1F34] = .ok (.clz ⟨false, 3, .warp⟩ 41 22, []) ∧
    decodeWords [0x152B1F8C] = .ok (.brev ⟨true, 0, .block⟩ 41 22, []) ∧
    decodeWords [0x4AC72370] = .ok (.imin ⟨false, 7, .lane⟩ 9 22 14, []) ∧
    decodeWords [0x4AC724D8] = .ok (.imax ⟨true, 5, .set⟩ 9 22 14, []) ∧
    decodeWords [0x052B2534] = .ok (.iabs ⟨false, 3, .warp⟩ 41 22, []) ∧
    decodeWords [0x4AC3278C] = .ok (.icmp ⟨true, 0, .block⟩ 9 22 6, []) ∧
    decodeWords [0x052B2A70] = .ok (.mov ⟨false, 7, .lane⟩ 41 22, []) ∧
    decodeWords [0x480B2BD8] = .ok (.movi ⟨true, 5, .set⟩ 9 22, []) ∧
    decodeWords [0x0014AC34] = .ok (.movqPack ⟨false, 3, .warp⟩ 41, []) ∧
    decodeWords [0x0D202C8C] = .ok (.movqUnpack ⟨true, 0, .block⟩ 41, []) ∧
    decodeWords [0x4AC72E70] = .ok (.cvti ⟨false, 7, .lane⟩ 9 22 14, []) ∧
    decodeWords [0x4AC730D8] = .ok (.fadd ⟨true, 5, .set⟩ 9 22 14, []) ∧
    decodeWords [0x4AC73134] = .ok (.fmul ⟨false, 3, .warp⟩ 9 22 14, []) ∧
    decodeWords [0x4AC7328C] = .ok (.ffma ⟨true, 0, .block⟩ 9 22 14, []) :=
  ⟨rfl, rfl, rfl, rfl, rfl, rfl, rfl, rfl, rfl, rfl, rfl, rfl, rfl, rfl, rfl, rfl, rfl, rfl, rfl, rfl, rfl, rfl⟩

theorem test_one_word_2 :
    decodeWords [0x4AC73370] = .ok (.fmin ⟨false, 7, .lane⟩ 9 22 14, []) ∧
    decodeWords [0x4AC734D8] = .ok (.fmax ⟨true, 5, .set⟩ 9 22 14, []) ∧
    decodeWords [0x4AC33534] = .ok (.fcmp ⟨false, 3, .warp⟩ 9 22 6, []) ∧
    decodeWords [0x052B378C] = .ok (.fclass ⟨true, 0, .block⟩ 41 22, []) ∧
    decodeWords [0x052B3870] = .ok (.frnd ⟨false, 7, .lane⟩ 41 22, []) ∧
    decodeWords [0x052B39D8] = .ok (.rcp ⟨true, 5, .set⟩ 41 22, []) ∧
    decodeWords [0x0D2B3934] = .ok (.rsq ⟨false, 3, .warp⟩ 41 22, []) ∧
    decodeWords [0x152B398C] = .ok (.sqrt ⟨true, 0, .block⟩ 41 22, []) ∧
    decodeWords [0x052B3A70] = .ok (.exp2 ⟨false, 7, .lane⟩ 41 22, []) ∧
    decodeWords [0x0D2B3AD8] = .ok (.log2 ⟨true, 5, .set⟩ 41 22, []) ∧
    decodeWords [0x052B3B34] = .ok (.sin ⟨false, 3, .warp⟩ 41 22, []) ∧
    decodeWords [0x0D2B3B8C] = .ok (.cos ⟨true, 0, .block⟩ 41 22, []) ∧
    decodeWords [0x152B3B70] = .ok (.tanh ⟨false, 7, .lane⟩ 41 22, []) ∧
    decodeWords [0x4AC73CD8] = .ok (.hadd2 ⟨true, 5, .set⟩ 9 22 14, []) ∧
    decodeWords [0x4AC73D34] = .ok (.hmul2 ⟨false, 3, .warp⟩ 9 22 14, []) ∧
    decodeWords [0x4AC73E8C] = .ok (.hfma2 ⟨true, 0, .block⟩ 9 22 14, []) ∧
    decodeWords [0x4AC73F70] = .ok (.dot4 ⟨false, 7, .lane⟩ 9 22 14, []) ∧
    decodeWords [0x4AC740D8] = .ok (.cvtf ⟨true, 5, .set⟩ 9 22 14, []) ∧
    decodeWords [0x4AC74134] = .ok (.cvtfi ⟨false, 3, .warp⟩ 9 22 14, []) ∧
    decodeWords [0x4AC7428C] = .ok (.cvtif ⟨true, 0, .block⟩ 9 22 14, []) ∧
    decodeWords [0x4AC74870] = .ok (.shfl ⟨false, 7, .lane⟩ 9 22 14, []) ∧
    decodeWords [0x052349D8] = .ok (.vote ⟨true, 5, .set⟩ 41 6, []) :=
  ⟨rfl, rfl, rfl, rfl, rfl, rfl, rfl, rfl, rfl, rfl, rfl, rfl, rfl, rfl, rfl, rfl, rfl, rfl, rfl, rfl, rfl, rfl⟩

theorem test_one_word_3 :
    decodeWords [0x052B4A34] = .ok (.redux ⟨false, 3, .warp⟩ 41 22, []) ∧
    decodeWords [0x052B4B8C] = .ok (.matchAny ⟨true, 0, .block⟩ 41 22, []) ∧
    decodeWords [0x052B4C70] = .ok (.scan ⟨false, 7, .lane⟩ 41 22, []) ∧
    decodeWords [0x4AC750D0] = .ok (.ld ⟨true, 5, .lane⟩ 9 22 14, []) ∧
    decodeWords [0x4AC75130] = .ok (.st ⟨false, 3, .lane⟩ 9 22 14, []) ∧
    decodeWords [0x4AC75280] = .ok (.lds ⟨true, 0, .lane⟩ 9 22 14, []) ∧
    decodeWords [0x4AC75370] = .ok (.sts ⟨false, 7, .lane⟩ 9 22 14, []) ∧
    decodeWords [0x4AC754D0] = .ok (.ldc ⟨true, 5, .lane⟩ 9 22 14, []) ∧
    decodeWords [0x0AC75530] = .ok (.ldw ⟨false, 3, .lane⟩ 1 22 14, []) ∧
    decodeWords [0x4AC05680] = .ok (.stw ⟨true, 0, .lane⟩ 9 22, []) ∧
    decodeWords [0x0AC05770] = .ok (.pref ⟨false, 7, .lane⟩ 1 22, []) ∧
    decodeWords [0x0AC05BD0] = .ok (.cinv ⟨true, 5, .lane⟩ 1 22, []) ∧
    decodeWords [0x48005834] = .ok (.fence ⟨false, 3, .warp⟩ 9, []) ∧
    decodeWords [0x0000598C] = .ok (.opfence ⟨true, 0, .block⟩, []) ∧
    decodeWords [0x4AC76070] = .ok (.latom ⟨false, 7, .lane⟩ 9 22 14, []) ∧
    decodeWords [0x4AC364D0] = .ok (.waitcmp ⟨true, 5, .lane⟩ 9 22 6, []) ∧
    decodeWords [0x05206530] = .ok (.moncan ⟨false, 3, .lane⟩ 41, []) ∧
    decodeWords [0x4AC36D84] = .ok (.rpush ⟨true, 0, .warp⟩ 9 22 6, []) ∧
    decodeWords [0x480B6E74] = .ok (.rpop ⟨false, 7, .warp⟩ 9 22, []) ∧
    decodeWords [0x052B7CD8] = .ok (.csrr ⟨true, 5, .set⟩ 41 22, []) ∧
    decodeWords [0x4AC07D34] = .ok (.csrw ⟨false, 3, .warp⟩ 9 22, []) ∧
    decodeWords [0x080B7E8C] = .ok (.time ⟨true, 0, .block⟩ 1 22, []) :=
  ⟨rfl, rfl, rfl, rfl, rfl, rfl, rfl, rfl, rfl, rfl, rfl, rfl, rfl, rfl, rfl, rfl, rfl, rfl, rfl, rfl, rfl, rfl⟩

theorem test_three_word_0 :
    decodeWords [0x00000211, 0xBADA7501, 0x08007408] =
      .ok (.brxX ⟨false, 1, .lane⟩ ⟨false, .vec 0x101, .vec 0x13A true, .vec 0x0B6 false, .vec 0x117 true, 0, .s64, .rn, false, 1⟩, []) ∧
    decodeWords [0x000004E5, 0xBAD85A0F, 0x60815018] =
      .ok (.callxX ⟨true, 6, .warp⟩ ⟨false, .uni 0x0F, .uni 0x2D, .vec 0x0B6 false, .vec 0x117 true, 0, .s16, .rz, false, 4⟩, []) ∧
    decodeWords [0x00000949, 0xB8B42405, 0xBD005068] =
      .ok (.barX ⟨false, 4, .set⟩ ⟨false, .pred 5, .special 0x12, .uni 0x2D, .vec 0x117 true, 0, .u64, .rm, true, 7⟩, []) ∧
    decodeWords [0x00000AAD, 0xF0B7E701, 0x15812171] =
      .ok (.setdecl ⟨true, 2, .block⟩ ⟨false, .vec 0x101, .imm 0x1F3, .uni 0x2D, .uni 0x3E, 0, .u16, .rp, true, 2⟩, []) ∧
    decodeWords [0x00000A01, 0xF046740F, 0x6A022581] =
      .ok (.setfree ⟨false, 0, .lane⟩ ⟨false, .uni 0x0F, .vec 0x13A true, .special 0x11, .uni 0x3E, 1, .s32, .ra, false, 5⟩, []) ∧
    decodeWords [0x00000BD5, 0xF0445A05, 0x80010191] =
      .ok (.rdsrX ⟨true, 5, .warp⟩ ⟨false, .pred 5, .uni 0x2D, .special 0x11, .uni 0x3E, 0, .bf16x2, .rn, false, 0⟩, []) ∧
    decodeWords [0x00000D39, 0x33F82501, 0x1C8002E0] =
      .ok (.progX ⟨false, 3, .set⟩ ⟨false, .vec 0x101, .special 0x12, .imm 0x0FE, .special 6, 0, .u32, .rz, true, 3⟩, []) ∧
    decodeWords [0x00000E9D, 0x33FBE60F, 0x7500E2F0] =
      .ok (.waitfX ⟨true, 1, .block⟩ ⟨false, .uni 0x0F, .imm 0x1F3, .imm 0x0FE, .special 6, 0, .f16x2, .rm, true, 6⟩, []) ∧
    decodeWords [0x00000F61, 0x32DA7405, 0x8981C600] =
      .ok (.reggive ⟨false, 6, .lane⟩ ⟨false, .pred 5, .vec 0x13A true, .vec 0x0B6 false, .special 6, 0, .fmt, .rp, false, 1⟩, []) ∧
    decodeWords [0x00000FC5, 0x0AD85B01, 0x2202C318] =
      .ok (.regclaim ⟨true, 4, .warp⟩ ⟨false, .vec 0x101, .uni 0x2D, .vec 0x0B6 false, .imm 0x101, 1, .bf16, .ra, false, 4⟩, []) ∧
    decodeWords [0x00001029, 0x08B4240F, 0x7C01A368] =
      .ok (.iaddX ⟨false, 2, .set⟩ ⟨false, .uni 0x0F, .special 0x12, .uni 0x2D, .imm 0x101, 0, .b32, .rn, true, 7⟩, []) ∧
    decodeWords [0x0000118D, 0x08B7E605, 0x9480A378] =
      .ok (.isubX ⟨true, 0, .block⟩ ⟨false, .pred 5, .imm 0x1F3, .uni 0x2D, .imm 0x101, 0, .f16, .rz, true, 2⟩, []) ∧
    decodeWords [0x00001251, 0xB8467501, 0x29019488] =
      .ok (.iadd3 ⟨false, 5, .lane⟩ ⟨false, .vec 0x101, .vec 0x13A true, .special 0x11, .vec 0x117 true, 0, .s8, .rm, false, 5⟩, []) ∧
    decodeWords [0x000013B5, 0xB8445A0F, 0x41809098] =
      .ok (.imulX ⟨true, 3, .warp⟩ ⟨false, .uni 0x0F, .uni 0x2D, .special 0x11, .vec 0x117 true, 0, .f32, .rp, false, 0⟩, []) ∧
    decodeWords [0x00001419, 0xBBF82405, 0x9E0170E8] =
      .ok (.imulhX ⟨false, 1, .set⟩ ⟨false, .pred 5, .special 0x12, .imm 0x0FE, .vec 0x117 true, 0, .u8, .ra, true, 3⟩, []) ∧
    decodeWords [0x000015ED, 0xF3FBE701, 0x340061F1] =
      .ok (.imadX ⟨true, 6, .block⟩ ⟨false, .vec 0x101, .imm 0x1F3, .imm 0x0FE, .uni 0x3E, 0, .s64, .rn, true, 6⟩, []) ∧
    decodeWords [0x00001641, 0xF2DA740F, 0x48814501] =
      .ok (.imadw ⟨false, 4, .lane⟩ ⟨false, .uni 0x0F, .vec 0x13A true, .vec 0x0B6 false, .uni 0x3E, 0, .s16, .rz, false, 1⟩, []) ∧
    decodeWords [0x000017A5, 0xF2D85A05, 0xA1004111] =
      .ok (.shlX ⟨true, 2, .warp⟩ ⟨false, .pred 5, .uni 0x2D, .vec 0x0B6 false, .uni 0x3E, 0, .u64, .rm, false, 4⟩, []) ∧
    decodeWords [0x00001809, 0x30B42501, 0x3D812260] =
      .ok (.shrX ⟨false, 0, .set⟩ ⟨false, .vec 0x101, .special 0x12, .uni 0x2D, .special 6, 0, .u16, .rp, true, 7⟩, []) ∧
    decodeWords [0x000019DD, 0x30B7E60F, 0x56002270] =
      .ok (.sarX ⟨true, 5, .block⟩ ⟨false, .uni 0x0F, .imm 0x1F3, .uni 0x2D, .special 6, 0, .s32, .ra, true, 2⟩, []) ∧
    decodeWords [0x00001A31, 0x30467405, 0xA8010680] =
      .ok (.shf ⟨false, 3, .lane⟩ ⟨false, .pred 5, .vec 0x13A true, .special 0x11, .special 6, 0, .bf16x2, .rn, false, 5⟩, []) ∧
    decodeWords [0x00001B95, 0x08445B01, 0x00800398] =
      .ok (.andX ⟨true, 1, .warp⟩ ⟨false, .vec 0x101, .uni 0x2D, .special 0x11, .imm 0x101, 0, .u32, .rz, false, 0⟩, []) ∧
    decodeWords [0x00001C69, 0x0BF8240F, 0x5D00E3E8] =
      .ok (.orX ⟨false, 6, .set⟩ ⟨false, .uni 0x0F, .special 0x12, .imm 0x0FE, .imm 0x101, 0, .f16x2, .rm, true, 3⟩, []) :=
  ⟨rfl, rfl, rfl, rfl, rfl, rfl, rfl, rfl, rfl, rfl, rfl, rfl, rfl, rfl, rfl, rfl, rfl, rfl, rfl, rfl, rfl, rfl, rfl⟩

theorem test_three_word_1 :
    decodeWords [0x00001DCD, 0x0BFBE605, 0xB581C3F8] =
      .ok (.xorX ⟨true, 4, .block⟩ ⟨false, .pred 5, .imm 0x1F3, .imm 0x0FE, .imm 0x101, 0, .fmt, .rp, true, 6⟩, []) ∧
    decodeWords [0x00001E21, 0xBADA7501, 0x0A00D408] =
      .ok (.bfn ⟨false, 2, .lane⟩ ⟨false, .vec 0x101, .vec 0x13A true, .vec 0x0B6 false, .vec 0x117 true, 0, .bf16, .ra, false, 1⟩, []) ∧
    decodeWords [0x00001F85, 0xBAD85A0F, 0x6001B018] =
      .ok (.popcX ⟨true, 0, .warp⟩ ⟨false, .uni 0x0F, .uni 0x2D, .vec 0x0B6 false, .vec 0x117 true, 0, .b32, .rn, false, 4⟩, []) ∧
    decodeWords [0x00001F59, 0xB8B42405, 0xBC82B068] =
      .ok (.clzX ⟨false, 5, .set⟩ ⟨false, .pred 5, .special 0x12, .uni 0x2D, .vec 0x117 true, 1, .f16, .rz, true, 7⟩, []) ∧
    decodeWords [0x00001FBD, 0xF0B7E701, 0x15058171] =
      .ok (.brevX ⟨true, 3, .block⟩ ⟨false, .vec 0x101, .imm 0x1F3, .uni 0x2D, .uni 0x3E, 2, .s8, .rm, true, 2⟩, []) ∧
    decodeWords [0x00002011, 0xF046740F, 0x69808581] =
      .ok (.bfx ⟨false, 1, .lane⟩ ⟨false, .uni 0x0F, .vec 0x13A true, .special 0x11, .uni 0x3E, 0, .f32, .rp, false, 5⟩, []) ∧
    decodeWords [0x000021E5, 0xF0445A05, 0x82016191] =
      .ok (.bfi ⟨true, 6, .warp⟩ ⟨false, .pred 5, .uni 0x2D, .special 0x11, .uni 0x3E, 0, .u8, .ra, false, 0⟩, []) ∧
    decodeWords [0x00002249, 0x33F82501, 0x1C0062E0] =
      .ok (.bpack ⟨false, 4, .set⟩ ⟨false, .vec 0x101, .special 0x12, .imm 0x0FE, .special 6, 0, .s64, .rn, true, 3⟩, []) ∧
    decodeWords [0x000023AD, 0x33FBE60F, 0x748142F0] =
      .ok (.iminX ⟨true, 2, .block⟩ ⟨false, .uni 0x0F, .imm 0x1F3, .imm 0x0FE, .special 6, 0, .s16, .rz, true, 6⟩, []) ∧
    decodeWords [0x00002401, 0x32DA7405, 0x89004600] =
      .ok (.imaxX ⟨false, 0, .lane⟩ ⟨false, .pred 5, .vec 0x13A true, .vec 0x0B6 false, .special 6, 0, .u64, .rm, false, 1⟩, []) ∧
    decodeWords [0x000025D5, 0x0AD85B01, 0x21812318] =
      .ok (.iabsX ⟨true, 5, .warp⟩ ⟨false, .vec 0x101, .uni 0x2D, .vec 0x0B6 false, .imm 0x101, 0, .u16, .rp, false, 4⟩, []) ∧
    decodeWords [0x00002639, 0x08B4240F, 0x7E002368] =
      .ok (.isel ⟨false, 3, .set⟩ ⟨false, .uni 0x0F, .special 0x12, .uni 0x2D, .imm 0x101, 0, .s32, .ra, true, 7⟩, []) ∧
    decodeWords [0x0000279D, 0x08B7E605, 0x94010378] =
      .ok (.icmpX ⟨true, 1, .block⟩ ⟨false, .pred 5, .imm 0x1F3, .uni 0x2D, .imm 0x101, 0, .bf16x2, .rn, true, 2⟩, []) ∧
    decodeWords [0x00002861, 0xB8467501, 0x28801488] =
      .ok (.iaddmin ⟨false, 6, .lane⟩ ⟨false, .vec 0x101, .vec 0x13A true, .special 0x11, .vec 0x117 true, 0, .u32, .rz, false, 5⟩, []) ∧
    decodeWords [0x000028C5, 0xB8445A0F, 0x4102F098] =
      .ok (.iaddmax ⟨true, 4, .warp⟩ ⟨false, .uni 0x0F, .uni 0x2D, .special 0x11, .vec 0x117 true, 1, .f16x2, .rm, false, 0⟩, []) ∧
    decodeWords [0x00002929, 0xBBF82405, 0x9D81D0E8] =
      .ok (.lea ⟨false, 2, .set⟩ ⟨false, .pred 5, .special 0x12, .imm 0x0FE, .vec 0x117 true, 0, .fmt, .rp, true, 3⟩, []) ∧
    decodeWords [0x00002A8D, 0xF3FBE701, 0x3600C1F1] =
      .ok (.movX ⟨true, 0, .block⟩ ⟨false, .vec 0x101, .imm 0x1F3, .imm 0x0FE, .uni 0x3E, 0, .bf16, .ra, true, 6⟩, []) ∧
    decodeWords [0x00002B51, 0xF2DA740F, 0x4801A501] =
      .ok (.moviX ⟨false, 5, .lane⟩ ⟨false, .uni 0x0F, .vec 0x13A true, .vec 0x0B6 false, .uni 0x3E, 0, .b32, .rn, false, 1⟩, []) ∧
    decodeWords [0x00002CB5, 0xF2D85A05, 0xA080A111] =
      .ok (.movqX ⟨true, 3, .warp⟩ ⟨false, .pred 5, .uni 0x2D, .vec 0x0B6 false, .uni 0x3E, 0, .f16, .rz, false, 4⟩, []) ∧
    decodeWords [0x00002D19, 0x30B42501, 0x3D018260] =
      .ok (.qop ⟨false, 1, .set⟩ ⟨false, .vec 0x101, .special 0x12, .uni 0x2D, .special 6, 0, .s8, .rm, true, 7⟩, []) ∧
    decodeWords [0x00002EED, 0x30B7E60F, 0x55808270] =
      .ok (.cvtiX ⟨true, 6, .block⟩ ⟨false, .uni 0x0F, .imm 0x1F3, .uni 0x2D, .special 6, 0, .f32, .rp, true, 2⟩, []) ∧
    decodeWords [0x00003041, 0x30467405, 0xAA016680] =
      .ok (.faddX ⟨false, 4, .lane⟩ ⟨false, .pred 5, .vec 0x13A true, .special 0x11, .special 6, 0, .u8, .ra, false, 5⟩, []) ∧
    decodeWords [0x000031A5, 0x08445B01, 0x00006398] =
      .ok (.fmulX ⟨true, 2, .warp⟩ ⟨false, .vec 0x101, .uni 0x2D, .special 0x11, .imm 0x101, 0, .s64, .rn, false, 0⟩, []) :=
  ⟨rfl, rfl, rfl, rfl, rfl, rfl, rfl, rfl, rfl, rfl, rfl, rfl, rfl, rfl, rfl, rfl, rfl, rfl, rfl, rfl, rfl, rfl, rfl⟩

theorem test_three_word_2 :
    decodeWords [0x00003209, 0x0BF8240F, 0x5C8143E8] =
      .ok (.ffmaX ⟨false, 0, .set⟩ ⟨false, .uni 0x0F, .special 0x12, .imm 0x0FE, .imm 0x101, 0, .s16, .rz, true, 3⟩, []) ∧
    decodeWords [0x000033DD, 0x0BFBE605, 0xB50043F8] =
      .ok (.fminX ⟨true, 5, .block⟩ ⟨false, .pred 5, .imm 0x1F3, .imm 0x0FE, .imm 0x101, 0, .u64, .rm, true, 6⟩, []) ∧
    decodeWords [0x00003431, 0xBADA7501, 0x09813408] =
      .ok (.fmaxX ⟨false, 3, .lane⟩ ⟨false, .vec 0x101, .vec 0x13A true, .vec 0x0B6 false, .vec 0x117 true, 0, .u16, .rp, false, 1⟩, []) ∧
    decodeWords [0x00003595, 0xBAD85A0F, 0x62003018] =
      .ok (.fcmpX ⟨true, 1, .warp⟩ ⟨false, .uni 0x0F, .uni 0x2D, .vec 0x0B6 false, .vec 0x117 true, 0, .s32, .ra, false, 4⟩, []) ∧
    decodeWords [0x00003669, 0xB8B42405, 0xBC011068] =
      .ok (.faddmin ⟨false, 6, .set⟩ ⟨false, .pred 5, .special 0x12, .uni 0x2D, .vec 0x117 true, 0, .bf16x2, .rn, true, 7⟩, []) ∧
    decodeWords [0x000037CD, 0xF0B7E701, 0x14800171] =
      .ok (.fclassX ⟨true, 4, .block⟩ ⟨false, .vec 0x101, .imm 0x1F3, .uni 0x2D, .uni 0x3E, 0, .u32, .rz, true, 2⟩, []) ∧
    decodeWords [0x00003821, 0xF046740F, 0x6900E581] =
      .ok (.frndX ⟨false, 2, .lane⟩ ⟨false, .uni 0x0F, .vec 0x13A true, .special 0x11, .uni 0x3E, 0, .f16x2, .rm, false, 5⟩, []) ∧
    decodeWords [0x00003985, 0xF0445A05, 0x8185C191] =
      .ok (.rcpRsqSqrtX ⟨true, 0, .warp⟩ ⟨false, .pred 5, .uni 0x2D, .special 0x11, .uni 0x3E, 2, .fmt, .rp, false, 0⟩, []) ∧
    decodeWords [0x00003A59, 0x33F82501, 0x1E02C2E0] =
      .ok (.exp2Log2X ⟨false, 5, .set⟩ ⟨false, .vec 0x101, .special 0x12, .imm 0x0FE, .special 6, 1, .bf16, .ra, true, 3⟩, []) ∧
    decodeWords [0x00003BBD, 0x33FBE60F, 0x7403A2F0] =
      .ok (.sinCosTanhX ⟨true, 3, .block⟩ ⟨false, .uni 0x0F, .imm 0x1F3, .imm 0x0FE, .special 6, 1, .b32, .rn, true, 6⟩, []) ∧
    decodeWords [0x00003C11, 0x32DA7405, 0x8880A600] =
      .ok (.hadd2X ⟨false, 1, .lane⟩ ⟨false, .pred 5, .vec 0x13A true, .vec 0x0B6 false, .special 6, 0, .f16, .rz, false, 1⟩, []) ∧
    decodeWords [0x00003DE5, 0x0AD85B01, 0x21018318] =
      .ok (.hmul2X ⟨true, 6, .warp⟩ ⟨false, .vec 0x101, .uni 0x2D, .vec 0x0B6 false, .imm 0x101, 0, .s8, .rm, false, 4⟩, []) ∧
    decodeWords [0x00003E49, 0x08B4240F, 0x7D808368] =
      .ok (.hfma2X ⟨false, 4, .set⟩ ⟨false, .uni 0x0F, .special 0x12, .uni 0x2D, .imm 0x101, 0, .f32, .rp, true, 7⟩, []) ∧
    decodeWords [0x00003FAD, 0x08B7E605, 0x96016378] =
      .ok (.dot4X ⟨true, 2, .block⟩ ⟨false, .pred 5, .imm 0x1F3, .uni 0x2D, .imm 0x101, 0, .u8, .ra, true, 2⟩, []) ∧
    decodeWords [0x00004001, 0xB8467501, 0x28007488] =
      .ok (.cvtfX ⟨false, 0, .lane⟩ ⟨false, .vec 0x101, .vec 0x13A true, .special 0x11, .vec 0x117 true, 0, .s64, .rn, false, 5⟩, []) ∧
    decodeWords [0x000041D5, 0xB8445A0F, 0x40815098] =
      .ok (.cvtfiX ⟨true, 5, .warp⟩ ⟨false, .uni 0x0F, .uni 0x2D, .special 0x11, .vec 0x117 true, 0, .s16, .rz, false, 0⟩, []) ∧
    decodeWords [0x00004239, 0xBBF82405, 0x9D0050E8] =
      .ok (.cvtifX ⟨false, 3, .set⟩ ⟨false, .pred 5, .special 0x12, .imm 0x0FE, .vec 0x117 true, 0, .u64, .rm, true, 3⟩, []) ∧
    decodeWords [0x0000439D, 0xF3FBE701, 0x358121F1] =
      .ok (.quant ⟨true, 1, .block⟩ ⟨false, .vec 0x101, .imm 0x1F3, .imm 0x0FE, .uni 0x3E, 0, .u16, .rp, true, 6⟩, []) ∧
    decodeWords [0x00004461, 0xF2DA740F, 0x4A002501] =
      .ok (.deq ⟨false, 6, .lane⟩ ⟨false, .uni 0x0F, .vec 0x13A true, .vec 0x0B6 false, .uni 0x3E, 0, .s32, .ra, false, 1⟩, []) ∧
    decodeWords [0x000045C5, 0xF2D85A05, 0xA0010111] =
      .ok (.blkmax ⟨true, 4, .warp⟩ ⟨false, .pred 5, .uni 0x2D, .vec 0x0B6 false, .uni 0x3E, 0, .bf16x2, .rn, false, 4⟩, []) ∧
    decodeWords [0x00004829, 0x30B42501, 0x3C800260] =
      .ok (.shflX ⟨false, 2, .set⟩ ⟨false, .vec 0x101, .special 0x12, .uni 0x2D, .special 6, 0, .u32, .rz, true, 7⟩, []) ∧
    decodeWords [0x0000498D, 0x30B7E60F, 0x5500E270] =
      .ok (.voteX ⟨true, 0, .block⟩ ⟨false, .uni 0x0F, .imm 0x1F3, .uni 0x2D, .special 6, 0, .f16x2, .rm, true, 2⟩, []) ∧
    decodeWords [0x00004A51, 0x30467405, 0xA981C680] =
      .ok (.reduxX ⟨false, 5, .lane⟩ ⟨false, .pred 5, .vec 0x13A true, .special 0x11, .special 6, 0, .fmt, .rp, false, 5⟩, []) :=
  ⟨rfl, rfl, rfl, rfl, rfl, rfl, rfl, rfl, rfl, rfl, rfl, rfl, rfl, rfl, rfl, rfl, rfl, rfl, rfl, rfl, rfl, rfl, rfl⟩

theorem test_three_word_3 :
    decodeWords [0x00004BB5, 0x08445B01, 0x0200C398] =
      .ok (.matchX ⟨true, 3, .warp⟩ ⟨false, .vec 0x101, .uni 0x2D, .special 0x11, .imm 0x101, 0, .bf16, .ra, false, 0⟩, []) ∧
    decodeWords [0x00004C19, 0x0BF8240F, 0x5C01A3E8] =
      .ok (.scanX ⟨false, 1, .set⟩ ⟨false, .uni 0x0F, .special 0x12, .imm 0x0FE, .imm 0x101, 0, .b32, .rn, true, 3⟩, []) ∧
    decodeWords [0x000050ED, 0x0BFBE605, 0xB480A3F8] =
      .ok (.ldX ⟨true, 6, .block⟩ ⟨false, .pred 5, .imm 0x1F3, .imm 0x0FE, .imm 0x101, 0, .f16, .rz, true, 6⟩, []) ∧
    decodeWords [0x00005141, 0xBADA7501, 0x09019408] =
      .ok (.stX ⟨false, 4, .lane⟩ ⟨false, .vec 0x101, .vec 0x13A true, .vec 0x0B6 false, .vec 0x117 true, 0, .s8, .rm, false, 1⟩, []) ∧
    decodeWords [0x000052A5, 0xBAD85A0F, 0x61809018] =
      .ok (.ldsX ⟨true, 2, .warp⟩ ⟨false, .uni 0x0F, .uni 0x2D, .vec 0x0B6 false, .vec 0x117 true, 0, .f32, .rp, false, 4⟩, []) ∧
    decodeWords [0x00005309, 0xB8B42405, 0xBE017068] =
      .ok (.stsX ⟨false, 0, .set⟩ ⟨false, .pred 5, .special 0x12, .uni 0x2D, .vec 0x117 true, 0, .u8, .ra, true, 7⟩, []) ∧
    decodeWords [0x000054DD, 0xF0B7E701, 0x14006171] =
      .ok (.ldcX ⟨true, 5, .block⟩ ⟨false, .vec 0x101, .imm 0x1F3, .uni 0x2D, .uni 0x3E, 0, .s64, .rn, true, 2⟩, []) ∧
    decodeWords [0x00005531, 0xF046740F, 0x68814581] =
      .ok (.ldwX ⟨false, 3, .lane⟩ ⟨false, .uni 0x0F, .vec 0x13A true, .special 0x11, .uni 0x3E, 0, .s16, .rz, false, 5⟩, []) ∧
    decodeWords [0x00005695, 0xF0445A05, 0x81004191] =
      .ok (.stwX ⟨true, 1, .warp⟩ ⟨false, .pred 5, .uni 0x2D, .special 0x11, .uni 0x3E, 0, .u64, .rm, false, 0⟩, []) ∧
    decodeWords [0x00005769, 0x33F82501, 0x1D8122E0] =
      .ok (.prefX ⟨false, 6, .set⟩ ⟨false, .vec 0x101, .special 0x12, .imm 0x0FE, .special 6, 0, .u16, .rp, true, 3⟩, []) ∧
    decodeWords [0x00005BCD, 0x33FBE60F, 0x760022F0] =
      .ok (.cinvX ⟨true, 4, .block⟩ ⟨false, .uni 0x0F, .imm 0x1F3, .imm 0x0FE, .special 6, 0, .s32, .ra, true, 6⟩, []) ∧
    decodeWords [0x00005821, 0x32DA7405, 0x88010600] =
      .ok (.fenceX ⟨false, 2, .lane⟩ ⟨false, .pred 5, .vec 0x13A true, .vec 0x0B6 false, .special 6, 0, .bf16x2, .rn, false, 1⟩, []) ∧
    decodeWords [0x00005A85, 0x0AD85B01, 0x20800318] =
      .ok (.rdeg ⟨true, 0, .warp⟩ ⟨false, .vec 0x101, .uni 0x2D, .vec 0x0B6 false, .imm 0x101, 0, .u32, .rz, false, 4⟩, []) ∧
    decodeWords [0x00006059, 0x08B4240F, 0x7D00E368] =
      .ok (.latomX ⟨false, 5, .set⟩ ⟨false, .uni 0x0F, .special 0x12, .uni 0x2D, .imm 0x101, 0, .f16x2, .rm, true, 7⟩, []) ∧
    decodeWords [0x000061BD, 0x08B7E605, 0x9581C378] =
      .ok (.latoms ⟨true, 3, .block⟩ ⟨false, .pred 5, .imm 0x1F3, .uni 0x2D, .imm 0x101, 0, .fmt, .rp, true, 2⟩, []) ∧
    decodeWords [0x00006211, 0xB8467501, 0x2A00D488] =
      .ok (.rtinst ⟨false, 1, .lane⟩ ⟨false, .vec 0x101, .vec 0x13A true, .special 0x11, .vec 0x117 true, 0, .bf16, .ra, false, 5⟩, []) ∧
    decodeWords [0x000063E5, 0xB8445A0F, 0x4001B098] =
      .ok (.rtrem ⟨true, 6, .warp⟩ ⟨false, .uni 0x0F, .uni 0x2D, .special 0x11, .vec 0x117 true, 0, .b32, .rn, false, 0⟩, []) ∧
    decodeWords [0x00006449, 0xBBF82405, 0x9C80B0E8] =
      .ok (.waitcmpX ⟨false, 4, .set⟩ ⟨false, .pred 5, .special 0x12, .imm 0x0FE, .vec 0x117 true, 0, .f16, .rz, true, 3⟩, []) ∧
    decodeWords [0x000065AD, 0xF3FBE701, 0x350181F1] =
      .ok (.moncanX ⟨true, 2, .block⟩ ⟨false, .vec 0x101, .imm 0x1F3, .imm 0x0FE, .uni 0x3E, 0, .s8, .rm, true, 6⟩, []) ∧
    decodeWords [0x00006801, 0xF2DA740F, 0x49808501] =
      .ok (.xcopy ⟨false, 0, .lane⟩ ⟨false, .uni 0x0F, .vec 0x13A true, .vec 0x0B6 false, .uni 0x3E, 0, .f32, .rp, false, 1⟩, []) ∧
    decodeWords [0x000069D5, 0xF2D85A05, 0xA2016111] =
      .ok (.xgather ⟨true, 5, .warp⟩ ⟨false, .pred 5, .uni 0x2D, .vec 0x0B6 false, .uni 0x3E, 0, .u8, .ra, false, 4⟩, []) ∧
    decodeWords [0x00006939, 0x30B42501, 0x3C026260] =
      .ok (.xscat ⟨false, 3, .set⟩ ⟨false, .vec 0x101, .special 0x12, .uni 0x2D, .special 6, 1, .s64, .rn, true, 7⟩, []) ∧
    decodeWords [0x00006A9D, 0x30B7E60F, 0x54814270] =
      .ok (.xfill ⟨true, 1, .block⟩ ⟨false, .uni 0x0F, .imm 0x1F3, .uni 0x2D, .special 6, 0, .s16, .rz, true, 2⟩, []) :=
  ⟨rfl, rfl, rfl, rfl, rfl, rfl, rfl, rfl, rfl, rfl, rfl, rfl, rfl, rfl, rfl, rfl, rfl, rfl, rfl, rfl, rfl, rfl, rfl⟩

theorem test_three_word_4 :
    decodeWords [0x00006B61, 0x30467405, 0xA9004680] =
      .ok (.xread ⟨false, 6, .lane⟩ ⟨false, .pred 5, .vec 0x13A true, .special 0x11, .special 6, 0, .u64, .rm, false, 5⟩, []) ∧
    decodeWords [0x00006CC5, 0x08445B01, 0x01812398] =
      .ok (.qcwset ⟨true, 4, .warp⟩ ⟨false, .vec 0x101, .uni 0x2D, .special 0x11, .imm 0x101, 0, .u16, .rp, false, 0⟩, []) ∧
    decodeWords [0x00006D29, 0x0BF8240F, 0x5E0023E8] =
      .ok (.rpushX ⟨false, 2, .set⟩ ⟨false, .uni 0x0F, .special 0x12, .imm 0x0FE, .imm 0x101, 0, .s32, .ra, true, 3⟩, []) ∧
    decodeWords [0x00006E8D, 0x0BFBE605, 0xB40103F8] =
      .ok (.rpopX ⟨true, 0, .block⟩ ⟨false, .pred 5, .imm 0x1F3, .imm 0x0FE, .imm 0x101, 0, .bf16x2, .rn, true, 6⟩, []) ∧
    decodeWords [0x00006F51, 0xBADA7501, 0x08801408] =
      .ok (.bgive ⟨false, 5, .lane⟩ ⟨false, .vec 0x101, .vec 0x13A true, .vec 0x0B6 false, .vec 0x117 true, 0, .u32, .rz, false, 1⟩, []) ∧
    decodeWords [0x00006FB5, 0xBAD85A0F, 0x6104F018] =
      .ok (.bgiveFree ⟨true, 3, .warp⟩ ⟨false, .uni 0x0F, .uni 0x2D, .vec 0x0B6 false, .vec 0x117 true, 2, .f16x2, .rm, false, 4⟩, []) ∧
    decodeWords [0x00006F19, 0xB8B42405, 0xBD83D068] =
      .ok (.btake ⟨false, 1, .set⟩ ⟨false, .pred 5, .special 0x12, .uni 0x2D, .vec 0x117 true, 1, .fmt, .rp, true, 7⟩, []) ∧
    decodeWords [0x00006FED, 0xF0B7E701, 0x1606C171] =
      .ok (.btakeNew ⟨true, 6, .block⟩ ⟨false, .vec 0x101, .imm 0x1F3, .uni 0x2D, .uni 0x3E, 3, .bf16, .ra, true, 2⟩, []) ∧
    decodeWords [0x00007041, 0xF046740F, 0x6801A581] =
      .ok (.fmtset ⟨false, 4, .lane⟩ ⟨false, .uni 0x0F, .vec 0x13A true, .special 0x11, .uni 0x3E, 0, .b32, .rn, false, 5⟩, []) ∧
    decodeWords [0x000071A5, 0xF0445A05, 0x8080A191] =
      .ok (.mma ⟨true, 2, .warp⟩ ⟨false, .pred 5, .uni 0x2D, .special 0x11, .uni 0x3E, 0, .f16, .rz, false, 0⟩, []) ∧
    decodeWords [0x00007209, 0x33F82501, 0x1D0182E0] =
      .ok (.mmas ⟨false, 0, .set⟩ ⟨false, .vec 0x101, .special 0x12, .imm 0x0FE, .special 6, 0, .s8, .rm, true, 3⟩, []) ∧
    decodeWords [0x000073DD, 0x33FBE60F, 0x758082F0] =
      .ok (.accz ⟨true, 5, .block⟩ ⟨false, .uni 0x0F, .imm 0x1F3, .imm 0x0FE, .special 6, 0, .f32, .rp, true, 6⟩, []) ∧
    decodeWords [0x00007431, 0x32DA7405, 0x8A016600] =
      .ok (.accld ⟨false, 3, .lane⟩ ⟨false, .pred 5, .vec 0x13A true, .vec 0x0B6 false, .special 6, 0, .u8, .ra, false, 1⟩, []) ∧
    decodeWords [0x00007595, 0x0AD85B01, 0x20006318] =
      .ok (.accst ⟨true, 1, .warp⟩ ⟨false, .vec 0x101, .uni 0x2D, .vec 0x0B6 false, .imm 0x101, 0, .s64, .rn, false, 4⟩, []) ∧
    decodeWords [0x00007669, 0x08B4240F, 0x7C814368] =
      .ok (.acck ⟨false, 6, .set⟩ ⟨false, .uni 0x0F, .special 0x12, .uni 0x2D, .imm 0x101, 0, .s16, .rz, true, 7⟩, []) ∧
    decodeWords [0x000078CD, 0x08B7E605, 0x95004378] =
      .ok (.fetchtTile ⟨true, 4, .block⟩ ⟨false, .pred 5, .imm 0x1F3, .uni 0x2D, .imm 0x101, 0, .u64, .rm, true, 2⟩, []) ∧
    decodeWords [0x00007821, 0xB8467501, 0x29833488] =
      .ok (.fetchtTask ⟨false, 2, .lane⟩ ⟨false, .vec 0x101, .vec 0x13A true, .special 0x11, .vec 0x117 true, 1, .u16, .rp, false, 5⟩, []) ∧
    decodeWords [0x00007985, 0xB8445A0F, 0x42003098] =
      .ok (.enqt ⟨true, 0, .warp⟩ ⟨false, .uni 0x0F, .uni 0x2D, .special 0x11, .vec 0x117 true, 0, .s32, .ra, false, 0⟩, []) ∧
    decodeWords [0x00007A59, 0xBBF82405, 0x9C0110E8] =
      .ok (.migrate ⟨false, 5, .set⟩ ⟨false, .pred 5, .special 0x12, .imm 0x0FE, .vec 0x117 true, 0, .bf16x2, .rn, true, 3⟩, []) ∧
    decodeWords [0x00007CBD, 0xF3FBE701, 0x348001F1] =
      .ok (.csrrX ⟨true, 3, .block⟩ ⟨false, .vec 0x101, .imm 0x1F3, .imm 0x0FE, .uni 0x3E, 0, .u32, .rz, true, 6⟩, []) ∧
    decodeWords [0x00007D11, 0xF2DA740F, 0x4900E501] =
      .ok (.csrwX ⟨false, 1, .lane⟩ ⟨false, .uni 0x0F, .vec 0x13A true, .vec 0x0B6 false, .uni 0x3E, 0, .f16x2, .rm, false, 1⟩, []) ∧
    decodeWords [0x00007EE5, 0xF2D85A05, 0xA181C111] =
      .ok (.timeX ⟨true, 6, .warp⟩ ⟨false, .pred 5, .uni 0x2D, .vec 0x0B6 false, .uni 0x3E, 0, .fmt, .rp, false, 4⟩, []) :=
  ⟨rfl, rfl, rfl, rfl, rfl, rfl, rfl, rfl, rfl, rfl, rfl, rfl, rfl, rfl, rfl, rfl, rfl, rfl, rfl, rfl, rfl, rfl⟩

/-! ## States to test in: from reset, a one-block grid with a warp of 32 threads at 0x1_0000, and a writable page at 0x2_0000 -/

def dataPage : TlbEntry := ⟨1, 2, 16, 0, 0, 0x20000, true, true, false⟩
def hostPage : TlbEntry := ⟨1, 3, 16, 0, 1, 0x50000, true, true, false⟩

/-- Warps 2 and 3 of block 1 of grid 0 on core 0, the 32 threads of warp 2 issuing; the pages of address space 1 at 0x2_0000 (device memory)
and 0x3_0000 (host memory) are readable and writable. -/
def base : State :=
  let s := State.reset.withFetchWord 160 0x70
  let s := (s.setCore 0 fun c => { c with tlb := dataPage :: hostPage :: c.tlb }).setFrame 2 fun f =>
    { f with owner := 1, state := 1, sfn := 1 }
  { s with
    issue := s.issue.map fun i => { i with next := 0x10001, nextClause := 0x10020 }
    warps := Tab.put s.warps 3 { s.warp 2 with index := 1, slot := 1 }
    blocks := Tab.upd s.blocks 1 fun b => { b with warps := [2, 3], wpc := 2, scratch := 0x20000 }
    nextId := 4 }

def t0 : TRef := ⟨2, 0⟩
def t1 : TRef := ⟨2, 1⟩
def both : List TRef := [t0, t1]

/-- The state with another group in the issue. -/
def issuing (ts : List TRef) (s : State) : State := { s with issue := s.issue.map fun i => { i with group := ts } }
/-- One thread issues. -/
def lone : State := issuing [t0] base
/-- Two threads of the warp issue. -/
def pair : State := issuing both base
/-- R340: the set register of warps 0 and 1. -/
def twoSet : DWord := 2#64 <<< 54 ||| 1#64 <<< 9
/-- Two threads of a warp issue, whose set is warps 0 and 1. -/
def inSet : State := (pair.setWarp 2 fun w => { w with setReg := twoSet }).setWarp 3 fun w => { w with setReg := twoSet }

/-- Registers of lane 0, predicates of lane 0, and uniform registers given values. -/
def withRegs (rs : List (Nat × Word)) (s : State) : State :=
  s.setWarp 2 fun w => { w with regs := rs.foldl (fun m r => SMap.set 0 m (32 * r.1) r.2) w.regs }
def withUni (us : List (Nat × DWord)) (s : State) : State :=
  s.setWarp 2 fun w => { w with uregs := us.foldl (fun m u => SMap.set 0 m u.1 u.2) w.uregs }
def withPreds (qs : List Nat) (s : State) : State :=
  s.setWarp 2 fun w => { w with preds := qs.foldl (fun m q => SMap.set false m q true) w.preds }
/-- The stack pointer of lane 0. -/
def withSp (v : DWord) (s : State) : State := s.setThread t0 fun th => { th with sp := v }

/-! ### What hypotheses say, as functions that compute -/

def holdsB (s : State) (t : TRef) : Bool :=
  match Tab.find s.warps t.warp with
  | some w => decide (t.lane < w.threads.length)
  | none => false

def passesB (s : State) (t : TRef) (i : Instr) : Bool :=
  holdsB s t && s.legal t i.form && s.guardHolds t i.form.g && (s.gate t i.form).isNone
def runsB (s : State) (t : TRef) (i : Instr) : Bool :=
  s.cur.group == [t] && passesB s t i && !s.mustStamp i.form
def runsOnceB (s : State) (ts : List TRef) (i : Instr) : Bool :=
  s.cur.group == ts && !ts.isEmpty && (ts.all fun t => passesB s t i) && !s.mustStamp i.form
def runsAllB (s : State) (ts : List TRef) (i : Instr) : Bool :=
  s.cur.group == ts && !ts.isEmpty && decide ts.Nodup && (ts.all fun t => passesB s t i) && !s.mustStamp i.form
def isOkB {ε α : Type} : Except ε α → Bool
  | .ok _ => true
  | .error _ => false
def okD {ε α : Type} (d : α) : Except ε α → α
  | .ok v => v
  | .error _ => d

theorem holds_of {s : State} {t : TRef} (h : holdsB s t = true) : s.Holds t := by
  unfold holdsB at h
  split at h
  · rename_i w hw
    exact ⟨w, hw, of_decide_eq_true h⟩
  · simp at h

theorem passes_of {s : State} {t : TRef} {i : Instr} (h : passesB s t i = true) : s.Passes t i := by
  simp only [passesB, Bool.and_eq_true, Option.isNone_iff_eq_none] at h
  exact ⟨holds_of h.1.1.1, h.1.1.2, h.1.2, h.2⟩

theorem runs_of {s : State} {t : TRef} {i : Instr} (h : runsB s t i = true) : s.Runs t i := by
  simp only [runsB, Bool.and_eq_true, beq_iff_eq, Bool.not_eq_true'] at h
  exact ⟨h.1.1, passes_of h.1.2, h.2⟩

theorem once_of {s : State} {ts : List TRef} {i : Instr} (h : runsOnceB s ts i = true) : s.RunsOnce ts i := by
  simp only [runsOnceB, Bool.and_eq_true, beq_iff_eq, Bool.not_eq_true', List.all_eq_true, List.isEmpty_eq_false_iff] at h
  exact ⟨h.1.1.1, h.1.1.2, fun t ht => passes_of (h.1.2 t ht), h.2⟩

theorem all_of {s : State} {ts : List TRef} {i : Instr} (h : runsAllB s ts i = true) : s.RunsAll ts i := by
  simp only [runsAllB, Bool.and_eq_true, beq_iff_eq, Bool.not_eq_true', List.all_eq_true, List.isEmpty_eq_false_iff,
    decide_eq_true_eq] at h
  exact ⟨h.1.1.1.1, h.1.1.1.2, h.1.1.2, fun t ht => (passes_of (h.1.2 t ht)).holds,
    fun t ht => (passes_of (h.1.2 t ht)).legal, fun t ht _ => (passes_of (h.1.2 t ht)).gate, h.2⟩

theorem ok_of {ε α : Type} (d : α) {e : Except ε α} (h : isOkB e = true) : e = .ok (okD d e) := by
  cases e with
  | ok v => rfl
  | error e => simp [isOkB] at h

/-! ## Every instruction's form is well-formed, and has its effect in some state -/

def laneSamples0 : List Instr := [
  .nop g,
  .yield g,
  .bra g 3,
  .brx g 6,
  .call g 3,
  .callx g 6,
  .ret g,
  .exit g,
  .trap g 3,
  .brk g 3,
  .trapret g 1,
  .rdsr g 2 3,
  .waitf g 2 3,
  .iadd g 1 2 3,
  .isub g 1 2 3,
  .imul g 1 2 3,
  .imulh g 1 2 3,
  .imad g 1 2 3,
  .shl g 1 2 3,
  .shr g 1 2 3,
  .sar g 1 2 3,
  .and g 1 2 3,
  .or g 1 2 3,
  .xor g 1 2 3]

def laneSamples1 : List Instr := [
  .popc g 2 3,
  .clz g 2 3,
  .brev g 2 3,
  .imin g 1 2 3,
  .imax g 1 2 3,
  .iabs g 2 3,
  .icmp g 1 2 3,
  .mov g 2 3,
  .movi g 2 3,
  .movqPack g 3,
  .movqUnpack g 3,
  .cvti g 1 2 3,
  .fadd g 1 2 3,
  .fmul g 1 2 3,
  .ffma g 1 2 3,
  .fmin g 1 2 3,
  .fmax g 1 2 3,
  .fcmp g 1 2 3,
  .fclass g 2 3,
  .frnd g 2 3,
  .rcp g 2 3,
  .rsq g 2 3,
  .sqrt g 2 3,
  .exp2 g 2 3]

def laneSamples2 : List Instr := [
  .log2 g 2 3,
  .sin g 2 3,
  .cos g 2 3,
  .tanh g 2 3,
  .hadd2 g 1 2 3,
  .hmul2 g 1 2 3,
  .hfma2 g 1 2 3,
  .dot4 g 1 2 3,
  .cvtf g 4 8 12,
  .cvtfi g 1 2 3,
  .cvtif g 1 2 3,
  .ld g 1 2 3,
  .st g 1 2 3,
  .lds g 1 2 3,
  .sts g 1 2 3,
  .ldc g 1 2 3,
  .ldw g 1 2 3,
  .stw g 2 3,
  .pref g 0 6,
  .cinv g 0 6,
  .fence g 3,
  .latom g 2 4 6,
  .waitcmp g 1 2 3,
  .moncan g 6]

def laneSamples3 : List Instr := [
  .csrr g 4 6,
  .csrw g 8 4,
  .time g 0 6,
  .brxX g ⟨false, noDst, noSrc, noSrc, noSrc, 0, .u32, .rn, false, 0⟩,
  .callxX g ⟨false, noDst, noSrc, noSrc, noSrc, 0, .u32, .rn, false, 0⟩,
  .waitfX g ⟨false, noDst, .uni 8, noSrc, noSrc, 0, .u32, .rn, false, 0⟩,
  .iaddX g ⟨false, .vec 4, noSrc, noSrc, noSrc, 0, .u32, .rn, false, 0⟩,
  .isubX g ⟨false, .vec 4, noSrc, noSrc, noSrc, 0, .u32, .rn, false, 0⟩,
  .iadd3 g ⟨false, .vec 4, noSrc, noSrc, noSrc, 0, .u32, .rn, false, 0⟩,
  .imulX g ⟨false, .vec 4, noSrc, noSrc, noSrc, 0, .u32, .rn, false, 0⟩,
  .imulhX g ⟨false, .vec 4, noSrc, noSrc, noSrc, 0, .u32, .rn, false, 0⟩,
  .imadX g ⟨false, .vec 4, noSrc, noSrc, noSrc, 0, .u32, .rn, false, 0⟩,
  .imadw g ⟨false, .vec 4, noSrc, noSrc, noSrc, 0, .u32, .rn, false, 0⟩,
  .shlX g ⟨false, .vec 4, noSrc, noSrc, noSrc, 0, .u32, .rn, false, 0⟩,
  .shrX g ⟨false, .vec 4, noSrc, noSrc, noSrc, 0, .u32, .rn, false, 0⟩,
  .sarX g ⟨false, .vec 4, noSrc, noSrc, noSrc, 0, .s32, .rn, false, 0⟩,
  .shf g ⟨false, .vec 4, noSrc, noSrc, noSrc, 0, .u32, .rn, false, 0⟩,
  .andX g ⟨false, .vec 4, noSrc, noSrc, noSrc, 0, .u32, .rn, false, 0⟩,
  .orX g ⟨false, .vec 4, noSrc, noSrc, noSrc, 0, .u32, .rn, false, 0⟩,
  .xorX g ⟨false, .vec 4, noSrc, noSrc, noSrc, 0, .u32, .rn, false, 0⟩,
  .bfn g ⟨false, .vec 4, noSrc, noSrc, noSrc, 0, .b32, .rn, false, 0⟩,
  .popcX g ⟨false, .vec 4, noSrc, noSrc, noSrc, 0, .u32, .rn, false, 0⟩,
  .clzX g ⟨false, .vec 4, noSrc, noSrc, noSrc, 1, .u32, .rn, false, 0⟩,
  .brevX g ⟨false, .vec 4, noSrc, noSrc, noSrc, 2, .u32, .rn, false, 0⟩]

def laneSamples4 : List Instr := [
  .bfx g ⟨false, .vec 4, noSrc, noSrc, noSrc, 0, .u32, .rn, false, 0⟩,
  .bfi g ⟨false, .vec 4, noSrc, noSrc, noSrc, 0, .u32, .rn, false, 0⟩,
  .bpack g ⟨false, .vec 4, noSrc, noSrc, noSrc, 0, .b32, .rn, false, 0⟩,
  .iminX g ⟨false, .vec 4, noSrc, noSrc, noSrc, 0, .u32, .rn, false, 0⟩,
  .imaxX g ⟨false, .vec 4, noSrc, noSrc, noSrc, 0, .u32, .rn, false, 0⟩,
  .iabsX g ⟨false, .vec 4, noSrc, noSrc, noSrc, 0, .s32, .rn, false, 0⟩,
  .isel g ⟨false, .vec 4, noSrc, noSrc, noSrc, 0, .u32, .rn, false, 0⟩,
  .icmpX g ⟨false, .vec 4, noSrc, noSrc, noSrc, 0, .u32, .rn, false, 0⟩,
  .iaddmin g ⟨false, .vec 4, noSrc, noSrc, noSrc, 0, .u32, .rn, false, 0⟩,
  .iaddmax g ⟨false, .vec 4, noSrc, noSrc, noSrc, 1, .u32, .rn, false, 0⟩,
  .lea g ⟨false, .vec 4, noSrc, noSrc, noSrc, 0, .u64, .rn, false, 0⟩,
  .movX g ⟨false, .vec 4, noSrc, noSrc, noSrc, 0, .u32, .rn, false, 0⟩,
  .moviX g ⟨false, .vec 4, noSrc, .imm 0, noSrc, 0, .u32, .rn, false, 0⟩,
  .movqX g ⟨false, .vec 4, noSrc, noSrc, noSrc, 0, .b32, .rn, false, 0⟩,
  .qop g ⟨false, .pred 1, noSrc, noSrc, noSrc, 0, .b32, .rn, false, 0⟩,
  .cvtiX g ⟨false, .vec 4, noSrc, noSrc, noSrc, 0, .u32, .rn, false, 0⟩,
  .faddX g ⟨false, .vec 4, noSrc, noSrc, noSrc, 0, .f32, .rn, false, 0⟩,
  .fmulX g ⟨false, .vec 4, noSrc, noSrc, noSrc, 0, .f32, .rn, false, 0⟩,
  .ffmaX g ⟨false, .vec 4, noSrc, noSrc, noSrc, 0, .f32, .rn, false, 0⟩,
  .fminX g ⟨false, .vec 4, noSrc, noSrc, noSrc, 0, .f32, .rn, false, 0⟩,
  .fmaxX g ⟨false, .vec 4, noSrc, noSrc, noSrc, 0, .f32, .rn, false, 0⟩,
  .fcmpX g ⟨false, .vec 4, noSrc, noSrc, noSrc, 0, .f32, .rn, false, 0⟩,
  .faddmin g ⟨false, .vec 4, noSrc, noSrc, noSrc, 0, .f32, .rn, false, 0⟩,
  .fclassX g ⟨false, .vec 4, noSrc, noSrc, noSrc, 0, .f32, .rn, false, 0⟩]

def laneSamples5 : List Instr := [
  .frndX g ⟨false, .vec 4, noSrc, noSrc, noSrc, 0, .f32, .rn, false, 0⟩,
  .rcpRsqSqrtX g ⟨false, .vec 4, noSrc, noSrc, noSrc, 0, .f32, .rn, false, 0⟩,
  .exp2Log2X g ⟨false, .vec 4, noSrc, noSrc, noSrc, 0, .f32, .rn, false, 0⟩,
  .sinCosTanhX g ⟨false, .vec 4, noSrc, noSrc, noSrc, 0, .f32, .rn, false, 0⟩,
  .hadd2X g ⟨false, .vec 4, noSrc, noSrc, noSrc, 0, .f16x2, .rn, false, 0⟩,
  .hmul2X g ⟨false, .vec 4, noSrc, noSrc, noSrc, 0, .f16x2, .rn, false, 0⟩,
  .hfma2X g ⟨false, .vec 4, noSrc, noSrc, noSrc, 0, .f16x2, .rn, false, 0⟩,
  .dot4X g ⟨false, .vec 4, noSrc, noSrc, noSrc, 0, .s8, .rn, false, 0⟩,
  .cvtfX g ⟨false, .vec 4, noSrc, noSrc, noSrc, 4, .f32, .rn, false, 0⟩,
  .cvtfiX g ⟨false, .vec 4, noSrc, noSrc, noSrc, 0, .f32, .rn, false, 0⟩,
  .cvtifX g ⟨false, .vec 4, noSrc, noSrc, noSrc, 0, .f32, .rn, false, 0⟩,
  .quant g ⟨false, .vec 4, noSrc, noSrc, noSrc, 0, .fmt, .rn, false, 0⟩,
  .deq g ⟨false, .vec 4, noSrc, noSrc, noSrc, 0, .fmt, .rn, false, 0⟩,
  .ldX g ⟨false, .vec 4, noSrc, noSrc, noSrc, 0, .u32, .rn, false, 0⟩,
  .stX g ⟨false, noDst, noSrc, noSrc, noSrc, 0, .u32, .rn, false, 0⟩,
  .ldsX g ⟨false, .vec 4, noSrc, noSrc, noSrc, 0, .u32, .rn, false, 0⟩,
  .stsX g ⟨false, noDst, noSrc, noSrc, noSrc, 0, .u32, .rn, false, 0⟩,
  .ldcX g ⟨false, .vec 4, noSrc, noSrc, noSrc, 0, .u32, .rn, false, 0⟩,
  .ldwX g ⟨false, .vec 4, noSrc, noSrc, noSrc, 0, .u32, .rn, false, 0⟩,
  .stwX g ⟨false, noDst, noSrc, noSrc, noSrc, 0, .u32, .rn, false, 0⟩,
  .prefX g ⟨false, noDst, noSrc, noSrc, noSrc, 0, .u32, .rn, false, 0⟩,
  .cinvX g ⟨false, noDst, noSrc, noSrc, noSrc, 0, .u32, .rn, false, 0⟩,
  .fenceX g ⟨false, noDst, noSrc, noSrc, noSrc, 0, .u32, .rn, false, 0⟩,
  .latomX g ⟨false, .vec 4, noSrc, noSrc, noSrc, 0, .u32, .rn, false, 0⟩]

def laneSamples6 : List Instr := [
  .latoms g ⟨false, noDst, noSrc, noSrc, noSrc, 0, .u32, .rn, false, 0⟩,
  .waitcmpX g ⟨false, .pred 1, noSrc, noSrc, noSrc, 0, .u32, .rn, false, 0⟩,
  .moncanX g ⟨false, noDst, noSrc, noSrc, noSrc, 0, .u32, .rn, false, 0⟩,
  .enqt g ⟨false, noDst, noSrc, noSrc, noSrc, 0, .u32, .rn, false, 0⟩,
  .csrrX g ⟨false, .vec 4, .imm 0, noSrc, noSrc, 0, .u32, .rn, false, 0⟩,
  .csrwX g ⟨false, noDst, .imm 0, noSrc, noSrc, 0, .u32, .rn, false, 0⟩,
  .timeX g ⟨false, .vec 4, noSrc, noSrc, noSrc, 0, .u64, .rn, false, 0⟩,
  .braLit g 8,
  .callLit g 8,
  .rdsrX g ⟨false, .vec 4, .special 1, noSrc, noSrc, 0, .u32, .rn, false, 0⟩]

/-- A well-formed instruction of each form at lane scope. -/
def laneSamples : List Instr := laneSamples0 ++ laneSamples1 ++ laneSamples2 ++ laneSamples3 ++ laneSamples4 ++ laneSamples5 ++ laneSamples6

def wideSamples0 : List Instr := [
  .bar gw,
  .barNamed gb 3,
  .idemb gw,
  .ideme gw,
  .prog gw 3,
  .shfl gw 1 2 3,
  .vote gw 2 3,
  .redux gw 2 3,
  .matchAny gw 2 3,
  .scan gw 2 3,
  .opfence gw,
  .rpush gw 1 2 3,
  .rpop gw 2 3,
  .barX gw ⟨false, noDst, noSrc, noSrc, noSrc, 0, .u32, .rn, false, 0⟩,
  .setdecl gw ⟨false, noDst, .uni 8, noSrc, noSrc, 0, .u32, .rn, false, 0⟩,
  .setfree gw ⟨false, noDst, noSrc, noSrc, noSrc, 1, .u32, .rn, false, 0⟩,
  .progX gw ⟨false, noDst, .uni 8, noSrc, noSrc, 0, .u32, .rn, false, 0⟩,
  .reggive gw ⟨false, noDst, .uni 8, noSrc, noSrc, 0, .u32, .rn, false, 0⟩,
  .regclaim gw ⟨false, noDst, .uni 8, noSrc, noSrc, 1, .u32, .rn, false, 0⟩,
  .blkmax gw ⟨false, .vec 4, noSrc, noSrc, noSrc, 0, .fmt, .rn, false, 0⟩,
  .shflX gw ⟨false, .vec 4, noSrc, noSrc, noSrc, 0, .b32, .rn, false, 0⟩,
  .voteX gw ⟨false, .vec 4, noSrc, noSrc, noSrc, 0, .b32, .rn, false, 0⟩,
  .reduxX gw ⟨false, .vec 4, noSrc, noSrc, noSrc, 0, .u32, .rn, false, 0⟩,
  .matchX gw ⟨false, .vec 4, noSrc, noSrc, noSrc, 0, .b32, .rn, false, 0⟩]

def wideSamples1 : List Instr := [
  .scanX gw ⟨false, .vec 4, noSrc, noSrc, noSrc, 0, .u32, .rn, false, 0⟩,
  .rdeg gw ⟨false, .uni 4, .uni 8, noSrc, noSrc, 0, .u32, .rn, false, 0⟩,
  .rtinst gw ⟨false, .uni 4, .uni 8, .uni 10, noSrc, 0, .u32, .rn, false, 0⟩,
  .rtrem gw ⟨false, .uni 4, noSrc, .uni 10, noSrc, 0, .u32, .rn, false, 0⟩,
  .xread gw ⟨false, noDst, .uni 8, .uni 10, .uni 12, 0, .u32, .rn, false, 0⟩,
  .qcwset gw ⟨false, noDst, .uni 8, .uni 10, noSrc, 0, .u32, .rn, false, 0⟩,
  .rpushX gw ⟨false, noDst, noSrc, .uni 10, noSrc, 0, .u32, .rn, false, 0⟩,
  .rpopX gw ⟨false, .vec 4, noSrc, .uni 10, noSrc, 0, .u32, .rn, false, 0⟩,
  .bgive gw ⟨false, noDst, .uni 8, .uni 10, noSrc, 0, .u32, .rn, false, 0⟩,
  .bgiveFree gw ⟨false, noDst, .uni 8, noSrc, noSrc, 2, .u32, .rn, false, 0⟩,
  .btake gw ⟨false, .uni 4, .uni 8, noSrc, noSrc, 1, .u32, .rn, false, 0⟩,
  .btakeNew gw ⟨false, .uni 4, .uni 8, noSrc, noSrc, 3, .u32, .rn, false, 0⟩,
  .fmtset gw ⟨false, .uni 4, .uni 8, noSrc, noSrc, 0, .u32, .rn, false, 0⟩,
  .mma gs ⟨false, noDst, .uni 8, .uni 10, .uni 12, 0, .fmt, .rn, false, 0⟩,
  .mmas gs ⟨false, noDst, .uni 8, .uni 10, .uni 12, 0, .fmt, .rn, false, 0⟩,
  .accz gs ⟨false, noDst, noSrc, noSrc, .imm 0, 0, .u32, .rn, false, 0⟩,
  .accld gs ⟨false, noDst, .uni 8, .uni 10, .imm 0, 0, .f32, .rn, false, 0⟩,
  .accst gs ⟨false, noDst, .uni 8, .uni 10, .imm 0, 0, .f32, .rn, false, 0⟩,
  .acck gw ⟨false, .vec 4, noSrc, noSrc, .imm 0, 0, .u32, .rn, false, 0⟩,
  .fetchtTile gw ⟨false, .uni 4, noSrc, noSrc, noSrc, 0, .u32, .rn, false, 0⟩,
  .fetchtTask gw ⟨false, .uni 4, noSrc, noSrc, noSrc, 1, .u32, .rn, false, 0⟩,
  .migrate gw ⟨false, .pred 1, .uni 8, noSrc, noSrc, 0, .u32, .rn, false, 0⟩,
  .xcopy gw ⟨false, noDst, .uni 4, .uni 8, noSrc, 0, .f32, .rn, false, 0⟩,
  .xgather gw ⟨false, noDst, .uni 4, .uni 8, .vec 1 false, 0, .f32, .rn, false, 0⟩]

def wideSamples2 : List Instr := [
  .xscat gw ⟨false, noDst, .uni 4, .uni 8, .vec 1 false, 1, .f32, .rn, false, 0⟩,
  .xfill gw ⟨false, noDst, .uni 4, .uni 8, .uni 1, 0, .f32, .rn, false, 0⟩]

/-- A well-formed instruction of each form that has a wider scope only. -/
def wideSamples : List Instr := wideSamples0 ++ wideSamples1 ++ wideSamples2

theorem test_samples_well_formed : (laneSamples ++ wideSamples).all Instr.wellFormed = true := by decide +kernel

theorem witness_lane_runs : ∀ i ∈ laneSamples, lone.Runs t0 i := fun _ hi =>
  runs_of (List.all_eq_true.mp (by decide +kernel : (laneSamples.all fun i => runsB lone t0 i) = true) _ hi)

theorem witness_lane_runs_all : ∀ i ∈ laneSamples, pair.RunsAll both i := fun _ hi =>
  all_of (List.all_eq_true.mp (by decide +kernel : (laneSamples.all fun i => runsAllB pair both i) = true) _ hi)

theorem witness_wide_runs : ∀ i ∈ wideSamples, inSet.RunsOnce both i := fun _ hi =>
  once_of (List.all_eq_true.mp (by decide +kernel : (wideSamples.all fun i => runsOnceB inSet both i) = true) _ hi)

/-! ## Each check of well-formedness refuses -/

/-- A three-word integer form: IADD of v8 and v10 to v4. -/
def form : XForm := ⟨false, .vec 4, .vec 8 false, .vec 10 false, noSrc, 0, .s32, .rn, false, 0⟩

/-- R35 to R48: a guard of q7 negated; a scope, type, SUB, RND, SAT or FMT that the opcode does not have; a destination or source
of a class, a width or a range that the operand does not have; a vector source beside a uniform destination; a rule of the
description. -/
theorem test_form_checks_refuse :
    [Instr.iadd ⟨true, 7, .lane⟩ 1 2 3, .exit gw, .bar g, .iaddX g { form with ty := .f32 }, .iaddX g { form with sub := 1 },
      .iaddX g { form with rnd := .rz }, .andX g { form with sat := true }, .iaddX g { form with fmt := 1 },
      .iaddX g { form with dst := .pred 1 }, .icmpX g { form with dst := .pred 7 }, .iaddX g { form with c := .uni 1 },
      .setdecl gw { form with dst := noDst, a := .vec 8 false, b := noSrc, ty := .u32 },
      .iaddX g { form with ty := .s64, dst := .vec 5 }, .iaddX g { form with ty := .s64, a := .vec 9 false },
      .iaddX gw { form with dst := .uni 4 }, .iaddX gw { form with dst := .uni 4, a := .special 0, b := .imm 1 },
      .csrrX g { form with a := .imm 6, b := noSrc, ty := .u64 }, .xread gw { form with dst := noDst, a := .uni 9, b := .uni 8, c := .uni 8, ty := .u32 },
      .progX gw { form with dst := noDst, a := .lit 65537, b := noSrc, ty := .u32 }].all
      (fun i => !i.wellFormed) = true := by decide +kernel

/-- R35 to R46: a number that its class cannot carry, two literals, a form that the shape does not list, a literal form that is not
R37's, a SUB value of another mnemonic. -/
theorem test_word_checks_refuse :
    [Instr.iaddX g { form with a := .vec 320 false }, .iaddX g { form with a := .uni 64 }, .iaddX g { form with a := .special 0x13 },
      .iaddX g { form with a := .imm 0x100 }, .iaddX g { form with dst := .vec 320 }, .iaddX gw { form with dst := .uni 32, a := .uni 1, b := .uni 2 },
      .iaddX g { form with a := .lit 1, b := .lit 2 }, .iadd3 g { form with short := true, b := .lit 1 },
      .iaddX g { form with short := true, a := .vec 70 false, b := .lit 1 }, .iaddX g { form with short := true, b := .lit 1, ty := .u32 },
      .popcX g { form with b := noSrc, sub := 1 }].all (fun i => !i.wellFormed) = true := by decide +kernel

theorem test_forms_pass :
    [Instr.iaddX g form, .iaddX g { form with ty := .s64 }, .iaddX gw { form with dst := .uni 4, a := .uni 1, b := .uni 2 },
      .iaddX g { form with short := true, b := .lit 1 }, .iaddX g { form with sat := true }, .popcX g { form with b := noSrc },
      .csrrX g { form with a := .imm 5, b := noSrc, ty := .u64 }].all Instr.wellFormed = true := by decide +kernel

/-! ## Single steps, with results worked out by hand from the rules named -/

def next (i : Instr) (s : State) : State :=
  match exec i s with
  | .next s' => s'
  | _ => s
def stepped (s : State) : State :=
  match step s with
  | .next s' => s'
  | _ => s
/-- The fixed-latency writes that an instruction of lane 0 puts on their way, and the flags of its thread. -/
def writes (i : Instr) (rs : List (Nat × Word)) : List (Nat × RegKey × DWord) × BitVec 4 :=
  let s := next i (withRegs rs lone)
  ((s.warp 2).pend.map fun p => (p.land, p.key, p.value), (s.thread t0).fflags)
def v (r : Nat) : RegKey := .vec r 0

/-- R244 to R248. -/
theorem test_integer_results :
    writes (.iadd g 2 1 3) [(1, 0xFFFFFFFF), (2, 2)] = ([(4, v 3, 1)], 0) ∧
    writes (.isub g 2 1 3) [(1, 5), (2, 7)] = ([(4, v 3, 0xFFFFFFFE)], 0) ∧
    writes (.iaddX g { form with sat := true }) [(8, 0x7FFFFFFF), (10, 1)] = ([(4, v 4, 0x7FFFFFFF)], ofFlag) ∧
    writes (.imulh g 2 1 3) [(1, 0xFFFFFFFE), (2, 3)] = ([(6, v 3, 0xFFFFFFFF)], 0) ∧
    writes (.imad g 2 1 3) [(1, 7), (2, 6), (3, 0xFFFFFFFF)] = ([(4, v 3, 41)], 0) ∧
    writes (.imadw g { form with c := .vec 12 false, ty := .s32 }) [(8, 0xFFFFFFFF), (10, 2), (12, 1), (13, 0)] =
      ([(6, v 4, 0xFFFFFFFF), (6, v 5, 0xFFFFFFFF)], 0) ∧
    writes (.sarX g { form with b := .imm 40 }) [(8, 0x80000000)] = ([(4, v 4, 0xFFFFFFFF)], 0) ∧
    writes (.shl g 4 1 3) [(1, 0xF0000001)] = ([(4, v 3, 0x10)], 0) ∧
    writes (.shf g { form with c := .imm 8, sub := 1 }) [(8, 0x11223344), (10, 0xAABBCCDD)] = ([(4, v 4, 0xDD112233)], 0) ∧
    writes (.bfn g { form with c := .vec 12 false, sub := 8, ty := .b32 }) [(8, 0xFF), (10, 0xF00), (12, 0x0F)] = ([(4, v 4, 0xF0F)], 0) ∧
    writes (.popc g 1 3) [(1, 0xF0F0)] = ([(4, v 3, 8)], 0) ∧
    writes (.clz g 1 3) [] = ([(4, v 3, 32)], 0) ∧
    writes (.bfx g { form with b := .imm 0 }) [(8, 0xFFFF)] = ([(4, v 4, 0)], 0) ∧
    writes (.iabs g 1 3) [(1, 0x80000000)] = ([(4, v 3, 0x80000000)], 0) ∧
    writes (.imin g 2 1 3) [(1, 0xFFFFFFFF), (2, 1)] = ([(4, v 3, 0xFFFFFFFF)], 0) ∧
    writes (.icmpX g { form with dst := .pred 1, sub := 2 }) [(8, 0xFFFFFFFF), (10, 1)] = ([(4, .pred 0 1, 1)], 0) ∧
    writes (.iaddmin g { form with c := .vec 12 false }) [(8, 3), (10, 1), (12, 5)] = ([(4, v 4, 4)], 0) ∧
    writes (.lea g { form with a := .vec 8 false, c := .imm 2, ty := .s64 }) [(8, 0x1000), (9, 1), (10, 0xFFFFFFFF)] =
      ([(4, v 4, 0xFFC), (4, v 5, 1)], 0) ∧
    writes (.movi g 0x1F 3) [] = ([(4, v 3, 0xFFFFFFFF)], 0) ∧
    writes (.cvtiX g { form with b := noSrc, sub := 1, ty := .u8, sat := true }) [(8, 300)] = ([(6, v 4, 255)], ofFlag) := by
  repeat' apply And.intro
  all_goals decide +kernel

/-- R220, R249 to R256. -/
theorem test_float_results :
    writes (.fadd g 2 1 3) [(1, 0x3F800000), (2, 0x40000000)] = ([(4, v 3, 0x40400000)], 0) ∧
    writes (.fmul g 2 1 3) [(1, 0x00000000), (2, 0xFF800000)] = ([(4, v 3, 0x7FC00000)], nvFlag) ∧
    writes (.ffma g 2 1 3) [(1, 0x40000000), (2, 0x40400000), (3, 0x3F800000)] = ([(4, v 3, 0x40E00000)], 0) ∧
    writes (.fmin g 2 1 3) [(1, 0x00000000), (2, 0x80000000)] = ([(4, v 3, 0x80000000)], 0) ∧
    writes (.fcmp g 2 1 3) [(1, 0x80000000), (2, 0)] = ([(4, .pred 0 3, 1)], 0) ∧
    writes (.fclass g 1 3) [(1, 0x80000000)] = ([(4, v 3, 8)], 0) ∧
    writes (.rcp g 1 3) [(1, 0x80000000)] = ([(16, v 3, 0xFF800000)], 0) ∧
    writes (.hadd2 g 2 1 3) [(1, 0x40003C00), (2, 0x3C003C00)] = ([(4, v 3, 0x42004000)], 0) ∧
    writes (.dot4 g 2 1 3) [(1, 0x04030201), (2, 0xFF010101), (3, 10)] = ([(6, v 3, 12)], 0) ∧
    writes (.cvtif g 1 1 3) [(1, 3)] = ([(6, v 3, 0x40400000)], 0) ∧
    writes (.cvtfi g 1 1 3) [(1, 0x40200000)] = ([(6, v 3, 2)], nxFlag) ∧
    writes (.rdsr g 1 3) [] = ([(4, v 3, 0)], 0) := by
  repeat' apply And.intro
  all_goals decide +kernel

/-- R247: QOP and MOVQ on predicates. -/
theorem test_predicate_moves :
    ((next (.movqPack g 3) (withPreds [1, 4] lone)).warp 2).pend = [⟨4, v 3, 0x92⟩] ∧
    ((next (.movqUnpack g 3) (withRegs [(3, 0x41)] lone)).warp 2).pend.map (fun p => (p.key, p.value)) =
      [(.pred 0 0, 1), (.pred 0 1, 0), (.pred 0 2, 0), (.pred 0 3, 0), (.pred 0 4, 0), (.pred 0 5, 0), (.pred 0 6, 1)] := by
  repeat' apply And.intro
  all_goals decide +kernel

/-- Lanes 0 and 1 with a value each in v8. -/
def lanePair (a b : Word) : State := withRegs [(8, a)] (pair.setWarp 2 fun w => { w with regs := SMap.set 0 w.regs (32 * 8 + 1) b })

/-- R262 to R267. -/
theorem test_lane_results :
    let w (i : Instr) (a b : Word) := ((next i (lanePair a b)).warp 2).pend.map fun p => (p.land, p.key, p.value)
    let x : XForm := { form with b := noSrc, ty := .b32 }
    w (.shflX gw { x with b := .imm 1, sub := 1 }) 3 9 = [(8, .vec 4 0, 3), (8, .vec 4 1, 3)] ∧
    w (.redux gw 8 4) 3 0xFFFFFFFF = [(8, .vec 4 0, 2), (8, .vec 4 1, 2)] ∧
    w (.scan gw 8 4) 3 4 = [(8, .vec 4 0, 3), (8, .vec 4 1, 7)] ∧
    w (.matchAny gw 8 4) 3 3 = [(8, .vec 4 0, 3), (8, .vec 4 1, 3)] ∧
    w (.voteX gw { x with sub := 3 }) 0 5 = [(8, .vec 4 0, 2), (8, .vec 4 1, 2)] := by
  repeat' apply And.intro
  all_goals decide +kernel

/-- R35, R50, R333 to R336, R345 to R347. -/
theorem test_control_steps :
    ((next (.bra g (-6)) lone).thread t0).pos = 0xFFD0 ∧
    ((next (.bra ⟨false, 1, .lane⟩ (-6)) lone).thread t0).pos = 0x10001 ∧
    ((next (.exit g) lone).thread t0).exited = true ∧
    ((next (.csrw g 10 4) (withRegs [(10, 0x1234), (11, 0)] lone)).thread t0).tscr = 0x1234 ∧
    ((next (.csrw g 10 0) (withRegs [(10, 0x1F)] lone)).thread t0).fflags = 0xF ∧
    ((next (.waitf g 0 1) lone).thread t0).pos = 0x10001 ∧
    ((next (.trapret g 0) (lone.setThread t0 fun th => { th with inHandler := true, tpos := 0x20 })).thread t0).pos = 0x20 ∧
    ((next (.trap g 9) (lone.setGrid 0 fun gr => { gr with kernel := { gr.kernel with traph := some 0x10040 } })).thread t0).pos = 0x10040 ∧
    ((next (.trap g 9) (lone.setGrid 0 fun gr => { gr with kernel := { gr.kernel with traph := some 0x10040 } })).thread t0).tcause = 14 := by
  repeat' apply And.intro
  all_goals decide +kernel

/-- R209, R210, R106: a store to 0x2_0004 reaches its line with its bytes lowest first, and a load of it returns them. -/
theorem test_store_then_load :
    let s1 := next (.st g 1 8 10) (withRegs [(8, 0x20000), (10, 0x11223344)] lone)
    let m := s1.net.getLast?
    let s2 := match m with
      | some (.sliceWrite r) => next (.sliceWrite r) s1
      | _ => s1
    let s3 := next (.ld g 1 8 12) { s2 with net := [], issue := lone.issue }
    let s4 := match s3.net.getLast? with
      | some (.sliceRead r) => next (.sliceRead r) s3
      | some (.vclassWriteBack wb) => next (.vclassWriteBack wb) s3
      | _ => s3
    let s5 := match s4.net.getLast? with
      | some (.vclassWriteBack wb) => next (.vclassWriteBack wb) s4
      | _ => s4
    (s1.thread t0).pos = 0x10001 ∧ (s2.homeLine 0x400).value.extractLsb' 32 8 = 0x44 ∧
      (s3.warp 2).isEmpty 0 12 = true ∧ (s5.warp 2).vreg 0 12 = 0x11223344 ∧ (s5.warp 2).isEmpty 0 12 = false := by
  repeat' apply And.intro
  all_goals decide +kernel

/-- R212: a store to the scratchpad. -/
theorem test_scratch_store :
    let s1 := next (.sts g 1 8 10) (withRegs [(8, 0x40), (10, 0xA1B2C3D4)] lone)
    ((s1.block 1).byte 0 0x44 = 0xD4 ∧ (s1.block 1).byte 0 0x47 = 0xA1 ∧ SMap.get false (s1.block 1).touched 0 = true) := by
  repeat' apply And.intro
  all_goals decide +kernel

/-- R26, R35: the step fetches the words placed at the position, and executes them. -/
theorem test_step_fetches :
    (((stepped (State.reset.withFetchWord 32 0x18002B70)).warp 2).pend.map fun p => (p.key, p.value)).head? = some (.vec 0 0, 3) ∧
    (((stepped (State.reset.withFetchWord 96 0x000020C001900B2C00001071)).warp 2).pend.map fun p => (p.key, p.value)).head? =
      some (.vec 300 0, 100) := by
  repeat' apply And.intro
  all_goals decide +kernel

/-! ## Witnesses: states and operands that meet the hypotheses of each statement -/

/-- Two instructions in one clause at 0x1_0000: MOVI v0, 3 twice (R25, R26). -/
def coded : State :=
  { base with hbm := Memory.write base.hbm 0x10000 ((leBytes 8 0x2E5A) ++ leBytes 4 0x18002B70 ++ leBytes 4 0x18002B70) }

/-- StepRunsDecoded. -/
theorem witness_step :
    (base.look 0 1 0x10000).isSome = true ∧ ((base.look 0 1 0x10000).all fun e => e.x && base.frameReadable 1 (base.genAt 0 1) (e.tgt == 1) (e.at 0x10000)) = true ∧
    (match coded.header 0 1 0x10000, coded.slotAddr 0 1 0x10000 0, coded.fetchAt 0 1 0x10000, coded.fetchAt 0 1 0x10001,
        coded.clauseAfter 0 1 0x10000 1 with
      | .ok h, .ok a, .ok f, .ok f', .ok c => h.ok && h.cnt == 1 && a == 0x10008 && f.next == 0x10001 && f'.next == c && c == 0x10010 &&
        isOkB (coded.codeWord 0 1 a) && isOkB (decodeWords [0x18002B70]) &&
        (match coded.padOk 0 1 0x10010 with
          | .ok b => b
          | .error _ => false)
      | _, _, _, _, _ => false) = true ∧
    base.issue.isSome = true ∧ isOkB (base.fetchAt 0 1 0x10000) = true ∧
    (State.reset.issue = none ∧ State.reset.net[0]? = some .coldReset ∧ State.reset.mayDeliver 0 = true ∧
      eventOf .coldReset = some .coldReset ∧ ∃ s', exec .coldReset { State.reset with agenda := [], net := [] } = .next s') := by
  refine ⟨?_, ?_, ?_, ?_, ?_, ?_, ?_, ?_, rfl, ⟨_, rfl⟩⟩ <;> decide +kernel

/-- StepKeepsCanonical, MemoryFrame. -/
theorem witness_canonical : base.Canonical ∧ ∃ s', step base = .next s' := by
  refine ⟨⟨?_, ?_⟩, ⟨stepped base, rfl⟩⟩ <;> decide +kernel

/-- IntegerResults to ClampedResults: Ready in each thread and with a uniform destination; a select predicate that agrees. -/
theorem witness_ready :
    pair.Ready both (.iaddX g { form with sat := true }) ∧
    pair.Ready both (.iaddX gw { form with dst := .uni 4, a := .uni 1, b := .uni 2 }) ∧
    pair.Ready both (.isel g { form with ty := .b32, sub := 1 }) ∧
    pair.Ready both (.isel gw { form with dst := .uni 4, a := .uni 1, b := .uni 2, ty := .b32, sub := 7 }) ∧
    pair.Ready both (.cvtiX g { form with b := noSrc, sub := 1, ty := .u8, sat := true }) ∧
    pair.Ready both (.rdsrX gw { form with a := .special 1, b := noSrc, ty := .u32 }) ∧ tyOfSub 1 = some .s32 ∧
    (∀ t ∈ both, ∀ w, (fun t => iselField pair t { form with sub := 7 }) ⟨w, 0⟩ = iselField pair t { form with sub := 7 }) := by
  refine ⟨⟨all_of (by decide +kernel), fun h => absurd h (by decide)⟩, once_of (by decide +kernel),
    ⟨all_of (by decide +kernel), fun h => absurd h (by decide)⟩, once_of (by decide +kernel),
    ⟨all_of (by decide +kernel), fun h => absurd h (by decide)⟩, ⟨all_of (by decide +kernel), fun _ => .inr (.inl (by decide +kernel))⟩,
    rfl, fun t _ w => ?_⟩
  simp [iselField, Warp.pred]

/-- ComputedResults: what an operation answers. -/
theorem witness_computes :
    floatOp (fun fl f m sat a b _ => fAdd fl f m sat a b) (Instr.fadd g 2 1 3).form
      ((withRegs [(1, 0x3F800000), (2, 0x40000000)] lone).operands t0 (Instr.fadd g 2 1 3).form) t0 lone
      = .ok 0x40400000 false 0 ∧
    ∃ v sg fl, rdsrOp (Instr.rdsr g 1 3).form (lone.operands t0 (Instr.rdsr g 1 3).form) t0 lone = .ok v sg fl :=
  ⟨rfl, _, _, _, rfl⟩

/-- RoundedResults: 1.0 in fp32 and 0.5 in E2M1. -/
theorem witness_representable :
    fp32.decode 0x3F800000 = .fin false 0x800000 (-23) false ∧ (Fmt.ofWord 0x00001912).decode 1 = .fin false 1 (-1) false := by
  decide +kernel

/-- FloatSpecials: a NaN, ∞ − ∞, 0 × ∞ in fp16; a negative number. -/
theorem witness_float_specials :
    (fp16.decode 0x7E01).isNan = true ∧ (fp16.decode 0x7C00).isInf = true ∧ (fp16.decode 0xFC00).isInf = true ∧
    (fp16.decode 0x7C00).neg? ≠ (fp16.decode 0xFC00).neg? ∧ (fp16.decode 0).isZero = true ∧
    fp16.decode 0xBC00 = .fin true 1024 (-10) false := by decide +kernel

/-- MinMaxCompareClass: NaN and number, two numbers, the two zeros. -/
theorem witness_min_max :
    (fp32.decode 0x7FC00000).isNan = true ∧ (fp32.decode 0x3F800000).isNan = false ∧ (fp32.decode 0x80000000).isZero = true ∧
    (fp32.decode 0x80000000).neg? = true ∧ (fp32.decode 0).neg? = false ∧ (fp32.decode 0x7F800000) = .inf false := by decide +kernel

/-- ElementwiseFrame. -/
theorem witness_elementwise : ∃ s', elementwiseOpc (Instr.iadd g 2 1 3).form.opc = true ∧ exec (.iadd g 2 1 3) lone = .next s' :=
  ⟨_, rfl, rfl⟩

/-- RegistersLand: a write due, one on its way, one to a predicate. -/
theorem witness_lands :
    let w : Warp := { lone.warp 2 with pend := [⟨1, .vec 3 0, 7⟩, ⟨9, .vec 4 0, 8⟩, ⟨1, .uni 2, 5⟩, ⟨1, .pred 0 6, 1⟩] }
    SMap.wf 0 w.regs = true ∧ SMap.wf 0 w.uregs = true ∧ SMap.wf false w.preds = true ∧ SMap.wf false w.empty = true ∧
      (w.pend.filter fun p => decide (p.land ≤ 1)).length = 3 ∧ Tab.find lone.warps 2 = some (lone.warp 2) := by
  refine ⟨?_, ?_, ?_, ?_, ?_, ?_⟩ <;> decide +kernel

/-- LaneResults, LaneReductions: two places. -/
theorem witness_places :
    let ps := (lanePair 3 9).places (Instr.redux gw 8 4).form
    (ps.map Place.pos) = [0, 1] ∧ (ps.map fun p => p.t.lane) = [0, 1] ∧ (ps.map fun p => p.o.a) = [3, 9] ∧
    (ps.all fun p => decide (p.pos < (lanePair 3 9).positions .warp t0)) = true ∧
    (lanePair 3 9).RunsAll both (.redux gw 8 4) ∧
    (lanePair 3 9).RunsOnce both (.reduxX gw { form with dst := .uni 4, b := noSrc }) ∧
    (lanePair 3 9).RunsAll both (.blkmax gw { form with b := noSrc, ty := .fmt }) ∧
    (lanePair 3 9).RunsOnce both (.blkmax gw { form with dst := .uni 4, b := noSrc, ty := .fmt }) := by
  refine ⟨?_, ?_, ?_, ?_, all_of ?_, once_of ?_, all_of ?_, once_of ?_⟩ <;> decide +kernel

/-- The kernel of grid 0 has a trap handler at 0x1_0040. -/
def trapping (s : State) : State := s.setGrid 0 fun gr => { gr with kernel := { gr.kernel with traph := some 0x10040 } }
/-- Warp 2 has a single thread. -/
def single (s : State) : State := s.setWarp 2 fun w => { w with threads := w.threads.take 1 }

/-- BranchesGo: a target that is a clause header, and one that is not. -/
theorem witness_branches :
    let s := withRegs [(2, 0x10000), (4, 0x20000)] lone
    s.Runs t0 (.brx g 2) ∧ s.targetOk 0 1 (s.operands t0 (Instr.brx g 2).form).a = true ∧
    s.Runs t0 (.brx g 4) ∧ s.targetOk 0 1 (s.operands t0 (Instr.brx g 4).form).a = false ∧
    pair.RunsOnce both (.bra gw 0) ∧ pair.RunsOnce both (.nop gb) ∧ pair.RunsOnce both (.yield gw) := by
  refine ⟨runs_of ?_, ?_, runs_of ?_, ?_, once_of ?_, once_of ?_, once_of ?_⟩ <;> decide +kernel

/-- CallsGo: room in the area, and at its ends. -/
def calling : State := withSp 0x20108 lone
def returning : State := { calling with hbm := Memory.write calling.hbm 0x20108 (leBytes 8 0x10000) }

theorem witness_calls :
    calling.Runs t0 (.call g 4) ∧ (calling.areaBase t0).toNat + 8 ≤ (calling.thread t0).sp.toNat ∧
    calling.accessCheck t0 ((calling.thread t0).sp - 8) 8 false true = .ok (okD base (calling.accessCheck t0 ((calling.thread t0).sp - 8) 8 false true)) ∧
    returning.Runs t0 (.ret g) ∧ (returning.thread t0).sp ≠ returning.areaTop t0 ∧
    returning.accessCheck t0 0x20108 8 true false = .ok (okD base (returning.accessCheck t0 0x20108 8 true false)) ∧
    (let s1 := ((okD base (returning.accessCheck t0 0x20108 8 true false)).retReach t0).1
     (s1.retReach t0).2 = true ∧ s1.loadWaits t0 0x20108 8 = false ∧ s1.look 0 1 0x20108 = some dataPage ∧
      s1.frameReadable 1 (s1.genAt 0 1) (dataPage.tgt == 1) (dataPage.at 0x20108) = true ∧
      s1.targetOk 0 1 (BitVec.ofNat 64 (ofLeBytes ((List.range 8).map fun k =>
        s1.byteFor (dieOfCore 0) (dataPage.tgt == 1) (dataPage.at 0x20108 + k)))) = true) ∧
    lone.Runs t0 (.call g 4) ∧ (lone.thread t0).sp.toNat < (lone.areaBase t0).toNat + 8 ∧
    lone.Runs t0 (.ret g) ∧ (lone.thread t0).sp = lone.areaTop t0 := by
  refine ⟨runs_of ?_, ?_, ok_of _ ?_, runs_of ?_, ?_, ok_of _ ?_, ⟨?_, ?_, ?_, ?_, ?_⟩, runs_of ?_, ?_, runs_of ?_, ?_⟩ <;> decide +kernel

/-- ExitEndsThread: another thread is left, or none. -/
theorem witness_exits :
    lone.Runs t0 (.exit g) ∧ (∃ l, l ≠ t0.lane ∧ ((lone.warp t0.warp).thread l).exited = false) ∧
    (single lone).Runs t0 (.exit g) ∧ (∀ l, l ≠ t0.lane → (((single lone).warp t0.warp).thread l).exited = true) ∧
    ((single lone).warp 2).freed = false ∧ (single lone).quiet 2 = true ∧ ((single lone).warp 2).task = none ∧
    ((single lone).warp 2).setReg = 0 ∧ (single lone).waits = [] := by
  refine ⟨runs_of ?_, ⟨1, ?_⟩, runs_of ?_, fun l hl => ?_, ?_, ?_, ?_, ?_, ?_⟩
  case refine_4 =>
    cases l with
    | zero => exact absurd rfl hl
    | succ l => rfl
  all_goals decide +kernel

/-- TrapsAndReturns, FaultsTaken: with a handler and without one, in a handler, and at warp scope. -/
theorem witness_traps :
    (trapping lone).Runs t0 (.trap g 9) ∧ (trapping lone).Runs t0 (.brk g 9) ∧
    ((trapping lone).grid ((trapping lone).warp 2).grid).kernel.traph = some 0x10040 ∧ ((trapping lone).thread t0).inHandler = false ∧
    pair.RunsOnce both (.trap gw 9) ∧ (lone.grid (lone.warp 2).grid).kernel.traph = none ∧ lone.Holds t0 ∧ (trapping lone).Holds t0 ∧
    (let s := lone.setThread t0 fun th => { th with inHandler := true, tpos := 0x10000 }
     s.Runs t0 (.trapret g 0) ∧ s.Runs t0 (.trapret g 1) ∧ (s.thread t0).inHandler = true ∧
      s.posAfter 0 1 0x10000 = .ok (okD 0 (s.posAfter 0 1 0x10000))) := by
  refine ⟨runs_of ?_, runs_of ?_, ?_, ?_, once_of ?_, ?_, holds_of ?_, holds_of ?_, runs_of ?_, runs_of ?_, ?_, ok_of _ ?_⟩ <;>
    decide +kernel

/-- The clause at 0x1_0000 with this header and first word. -/
def clause (h w : Nat) (s : State) : State := { s with hbm := Memory.write s.hbm 0x10000 (leBytes 8 h ++ leBytes 4 w) }
def errB {ε α : Type} : Except ε α → Bool
  | .ok _ => false
  | .error _ => true

/-- IllegalInstructions: no mark, CNT 3, a distance beyond CNT; an unassigned opcode; a form that is not legal. -/
theorem witness_illegal :
    (match (clause 0 0 base).header 0 1 0x10000, (clause 0x6E5A 0 base).header 0 1 0x10000, (clause 0x800000E5A 0 base).header 0 1 0x10000 with
      | .ok h, .ok h', .ok h'' => h.mark != 0xE5A && h'.cnt == 3 && h''.cnt == 0 && h''.dist 1 != 0
      | _, _, _ => false) = true ∧
    (match base.header 0 1 0x10000, base.slotAddr 0 1 0x10000 0 with
      | .ok h, .ok a => h.ok && isOkB (base.codeWord 0 1 a) && (match (clause 0xE5A 0x2F70 base).codeWord 0 1 a with
        | .ok w => w == 0x2F70 && errB (decodeWords [w])
        | .error _ => false)
      | _, _ => false) = true ∧
    (let s := single (clause 0 0 base)
     (s.warp 2).threads.length = 1 ∧ (s.thread t0).exited = false ∧ (s.thread t0).dead = false ∧ (s.thread t0).wait = none ∧
      (s.thread t0).arrival = none ∧ (s.thread t0).entering = false ∧ s.codeHere 0 1 (s.thread t0).pos = true ∧ s.mayIssue t0 = true ∧ s.stopped t0 = false ∧ errB (s.fetchOf t0) = true) ∧
    errB ((clause 0 0 lone).fetchAt 0 1 0x10000) = true ∧ errB ((single (clause 0xE5A 0x2F70 base)).fetchOf t0) = true ∧
    (match (clause 0 0 lone).header 0 1 0x10000, (clause 0xE5A 0x2F70 lone).header 0 1 0x10000 with
      | .ok h, .ok h' => !h.ok && h'.ok
      | _, _ => false) = true ∧ (lone.thread t0).pos = 0x10000 ∧
    (lone.legal t0 (Instr.iadd ⟨true, 7, .lane⟩ 2 1 3).form = false ∧ lone.mustStamp (Instr.iadd ⟨true, 7, .lane⟩ 2 1 3).form = false ∧
      lone.cur.group = [t0] ∧ lone.cur.released = false) := by
  refine ⟨?_, ?_, ⟨?_, ?_, ?_, ?_, ?_, ?_, ?_, ?_, ?_, ?_⟩, ?_, ?_, ?_, ?_, ?_, ?_, ?_, ?_⟩ <;> decide +kernel

/-- MarkersAndPredicates: a false predicate; flags that are set, and one that is not. -/
theorem witness_markers :
    (let i := Instr.iadd ⟨false, 1, .lane⟩ 2 1 3
     lone.cur.group = [t0] ∧ lone.Holds t0 ∧ lone.legal t0 i.form = true ∧ lone.guardHolds t0 i.form.g = false ∧
      lone.mustStamp i.form = false ∧ lone.cur.released = false ∧ (lone.thread t0).exited = false) ∧
    pair.RunsOnce both (.idemb gw) ∧ pair.RunsOnce both (.ideme gw) ∧ pair.RunsOnce both (.prog gw 9) ∧
    lone.Runs t0 (.waitf g 0 1) ∧ (lone.operands t0 (Instr.waitf g 0 1).form).a.toNat % 4096 = 1 ∧
    (lone.warp 2).cf.getLsbD 0 = true ∧ lone.deferredAt t0 1 = none ∧
    ((lone.setWarp 2 fun w => { w with cf := 0 }).warp 2).cf.getLsbD 0 = false ∧
    (lone.setWarp 2 fun w => { w with cf := 0 }).Runs t0 (.waitf g 0 1) ∧
    pair.RunsOnce both (.waitf gw 0 1) ∧ pair.deferredAt t0 1 = none ∧ pair.deferredAt t1 1 = none := by
  refine ⟨⟨?_, holds_of ?_, ?_, ?_, ?_, ?_, ?_⟩, once_of ?_, once_of ?_, once_of ?_, runs_of ?_, ?_, ?_, ?_, ?_, runs_of ?_,
    once_of ?_, ?_, ?_⟩ <;> decide +kernel

/-- Lane 0 holds addresses: v2 0x2_0004, v4 0x3_0008, v6 0x1_0000, v12 unmapped, v14 misaligned. -/
def addressed : State :=
  withRegs [(2, 0x20004), (4, 0x30008), (6, 0x10000), (12, 0x90000), (14, 0x20002), (16, 0x22000), (20, 0x40)] lone
def checked (va : DWord) (n : Nat) (r w : Bool) : State := okD base (addressed.accessCheck t0 va n r w)
/-- A load with a uniform destination. -/
def ldUni : Instr := .ldX gw ⟨false, .uni 4, .uni 2, .imm 0, noSrc, 0, .b32, .rn, false, 0⟩
def ldcUni : Instr := .ldcX gw ⟨false, .uni 4, .uni 3, .imm 0, noSrc, 0, .b32, .rn, false, 0⟩
def addressedPair : State := withUni [(2, 0x20004), (3, 8)] pair
/-- Grid 0 has a constant section of 64 bytes at 0x2_0000. -/
def withConst (s : State) : State := s.setGrid 0 fun gr => { gr with kernel := { gr.kernel with constBase := 0x20000, constSize := 64 } }

/-- AccessesChecked: misaligned; not mapped; not permitted; permitted; LDC past its section. -/
theorem witness_access :
    (0x20002#64).toNat % 4 ≠ 0 ∧ addressed.look 0 1 0x90000 = none ∧
    ((addressed.look 0 1 0x10000).any fun e => e.r && !e.w) = true ∧ (addressed.look 0 1 0x20004).isSome = true ∧
    addressed.Runs t0 (.ld g 0 14 10) ∧ addressed.Runs t0 (.sts g 0 14 10) ∧
    ((addressed.operands t0 (Instr.sts g 0 14 10).form).a.toNat) % 4 ≠ 0 ∧
    (withConst addressed).Runs t0 (.ldc g 0 20 10) ∧
    ((withConst addressed).grid 0).kernel.constSize < 0x40 + accessBytes (Instr.ldc g 0 20 10).form.x := by
  refine ⟨?_, ?_, ?_, ?_, runs_of ?_, runs_of ?_, ?_, runs_of ?_, ?_⟩ <;> decide +kernel

/-- LoadsReturn: a load from device memory and one from host memory, with a uniform destination, from the constant section; a hit in
the L1, a rime copy. -/
theorem witness_loads :
    addressed.Runs t0 (.ld g 0 2 10) ∧ addressed.accessCheck t0 0x20004 4 true false = .ok (checked 0x20004 4 true false) ∧
    (checked 0x20004 4 true false).loadWaits t0 0x20004 4 = false ∧
    addressedPair.RunsOnce both ldUni ∧ (addressedPair.leadOps ldUni).a = 0x20004 ∧
    addressedPair.accessCheck (addressedPair.lead ldUni) 0x20004 4 true false =
      .ok (okD base (addressedPair.accessCheck (addressedPair.lead ldUni) 0x20004 4 true false)) ∧
    (withConst addressed).Runs t0 (.ldc g 0 0 10) ∧ isOkB ((withConst addressed).constCheck t0 0 4) = true ∧
    (withConst addressedPair).RunsOnce both ldcUni ∧
    isOkB ((withConst addressedPair).constCheck ((withConst addressedPair).lead ldcUni) 8 4) = true ∧
    addressed.look 0 1 0x20004 = some dataPage ∧ addressed.look 0 1 0x30008 = some hostPage ∧
    ((addressed.setCore 0 fun c => { c with l1 := [⟨1, 0, false, 0x400, 5⟩] }).l1Hit 0 1 0 false 0x400) = some 5 ∧
    (({ addressed with copies := [⟨dieOfCore 0, 0x400, 5, 99⟩] } : State).copyAt (dieOfCore 0) 0x400).isSome = true ∧
    (Tab.find addressed.warps 2 = some (addressed.warp 2) ∧ SMap.wf 0 (addressed.warp 2).regs = true ∧
      SMap.wf false (addressed.warp 2).empty = true) := by
  refine ⟨runs_of ?_, ok_of _ ?_, ?_, once_of ?_, ?_, ok_of _ ?_, runs_of ?_, ?_, once_of ?_, ?_, ?_, ?_, ?_, ?_, ?_, ?_, ?_⟩ <;>
    decide +kernel

/-- StoresComplete: to device memory and to host memory. -/
theorem witness_stores :
    addressed.Runs t0 (.st g 0 2 10) ∧ addressed.accessCheck t0 0x20004 4 false true = .ok (checked 0x20004 4 false true) ∧
    (checked 0x20004 4 false true).look 0 1 0x20004 = some dataPage ∧
    addressed.Runs t0 (.st g 0 4 10) ∧ addressed.accessCheck t0 0x30008 4 false true = .ok (checked 0x30008 4 false true) ∧
    (checked 0x30008 4 false true).look 0 1 0x30008 = some hostPage ∧ hostPage.tgt = 1 := by
  refine ⟨runs_of ?_, ok_of _ ?_, ?_, runs_of ?_, ok_of _ ?_, ?_, ?_⟩ <;> decide +kernel

/-- ScratchpadAccess. -/
theorem witness_scratch :
    addressed.Runs t0 (.lds g 1 20 10) ∧ addressed.Runs t0 (.sts g 1 20 10) ∧ addressed.saPlace 2 0x44 4 = .ok ⟨0, 0x44⟩ ∧
    addressed.saOwned 1 [2] ⟨0, 0x44⟩ 4 = true ∧ SMap.wf 0 (addressed.block 1).bytes = true ∧
    SMap.wf false (addressed.block 1).touched = true := by
  refine ⟨runs_of ?_, runs_of ?_, by rfl, ?_, ?_, ?_⟩ <;> decide +kernel

/-- WindowsOpen: register 7 of lane 5 of warp index 1; an address without a warp, and a register beyond the warp's. -/
def windowed : State := withRegs [(2, 0x00103805)] lone
/-- Grid 0 is deterministic, and the request that issues has been released (R375). -/
def determined (s : State) : State :=
  let s1 := s.setGrid 0 fun gr => { gr with det := true }
  { s1 with issue := s1.issue.map fun i => { i with released := true } }
def wwrite : WinWrite := ⟨4, 2, 0, 3, 7, 5, 9, 0x10000, 0⟩
def wread (take : Bool) : WriteBack := ⟨4, 2, 0, .vec 10 1, .window 3 7 5 take, 0x10000, 0⟩

theorem witness_windows :
    windowed.Runs t0 (.ldw g 1 2 10) ∧ windowed.Runs t0 (.stw g 10 2) ∧ windowed.rwa 2 0x00103805 = .ok ⟨3, 7, 5⟩ ∧
    (windowed.operands t0 (Instr.ldw g 1 2 10).form).a.toNat = 0x00103805 ∧
    windowed.warpOfIndex 1 1 = some 3 ∧ windowed.warpOfIndex 1 2 = none ∧ (windowed.warp 3).freed = false ∧
    dieOfCore (windowed.warp 3).core = (windowed.block 1).die ∧ (windowed.warp 3).alloc ≤ 0x001FF805 / 2 ^ 11 % 2 ^ 9 ∧
    Tab.find windowed.warps 3 = some (windowed.warp 3) ∧ windowed.writeBefore wwrite = false ∧
    (let s := { windowed with heldWrites := [wwrite] }
     s.heldWrites.contains wwrite = true ∧ s.writeBefore wwrite = false ∧
      ((s.setWarp 3 fun w => w.markEmpty 5 7 1 true).warp 3).isEmpty 5 7 = true ∧ (s.warp 3).isEmpty 5 7 = false) ∧
    (wread true).src = .window 3 7 5 true ∧ (windowed.grid 0).det = false ∧
    (let s := determined windowed
     s.Runs t0 (.ldw g 1 2 10) ∧ s.Runs t0 (.stw g 10 2) ∧ s.rwa 2 0x00103805 = .ok ⟨3, 7, 5⟩ ∧ (s.grid 0).det = true ∧
      (s.warp 3).isEmpty 5 7 = false ∧ (s.setWarp 3 fun w => w.markEmpty 5 7 1 true).Runs t0 (.ldw g 1 2 10) ∧
      (s.setWarp 3 fun w => w.markEmpty 5 7 1 true).Runs t0 (.stwX g ⟨false, .vec 0, .vec 2 false, .vec 10 false, noSrc, 16, .u32, .rn, false, 0⟩)) := by
  refine ⟨runs_of ?_, runs_of ?_, by rfl, ?_, ?_, ?_, ?_, ?_, ?_, ?_, ?_, ⟨?_, ?_, ?_, ?_⟩, ?_, ?_, runs_of ?_, runs_of ?_, by rfl, ?_, ?_,
    runs_of ?_, runs_of ?_⟩ <;> decide +kernel

/-- CacheHints: a readable page and one that is not mapped; a line in L1, one whose frame is no longer the space's; where the home
grants a copy; a write of the core on its way; a read on its way. -/
def hinted : State :=
  { addressed with keepers := [⟨keeperDie 1 0, 1, 0, 7, true, 0, 0, 0, 0⟩]
                   degCache := [⟨homeSlice 0x440, 1, 0, some 7⟩]
                   issue := addressed.issue.map fun i => { i with group := [t0] } }

theorem witness_hints :
    hinted.Runs t0 (.pref g 0 16) ∧ hinted.Runs t0 (.pref g 1 16) ∧ hinted.Runs t0 (.pref g 0 12) ∧
    errB (hinted.accessCheck t0 0x90000 4 true false) = true ∧
    (let s1 := okD base (hinted.accessCheck t0 0x22000 4 true false)
     hinted.accessCheck t0 0x22000 4 true false = .ok s1 ∧ s1.look 0 1 0x22000 = some dataPage ∧ dataPage.tgt = 0 ∧
      (s1.prefetch 1 (s1.genAt 0 1) (dieOfCore 0) false 0x22000 (dataPage.at 0x22000)).2.isSome = true ∧
      s1.l1Hit 0 1 (s1.genAt 0 1) false 0x440 = none ∧ s1.copyAt (dieOfCore 0) 0x440 = none ∧
      ((s1.prefetch 1 (s1.genAt 0 1) (dieOfCore 0) false 0x22000 (dataPage.at 0x22000)).1.writing 0 false 0x440 = false) ∧
      ((s1.setWarp 2 fun w => { w with stores := [⟨4, 0, false, 0x22000, 4, .blk, 0, false, false⟩] }).writing 0 false 0x440 = true) ∧
      (match s1.frameCheck 1 (s1.genAt 0 1) (dataPage.at 0x22000) false with
        | .serve s2 =>
          let s3 := ((s2.reachHome 0x440 (dieOfCore 0)).askDegree (homeSlice 0x440) 1 (regionOf 0x22000)).countRegion 1 0x22000 1 0 0
          s3.mayGrant 1 (regionOf 0x22000) 0x440 (dieOfCore 0) (s3.homeLine 0x440) && (s3.grantCopy 0x440 (dieOfCore 0)).isSome
        | _ => false) = true) ∧
    (let s := (hinted.setFrame 2 fun f => { f with owner := 2 })
     s.Runs t0 (.pref g 0 16) ∧ (s.prefetch 1 (s.genAt 0 1) (dieOfCore 0) false 0x22000 (dataPage.at 0x22000)).2 = none) ∧
    (let s := hinted.setCore 0 fun c => { c with l1 := [⟨1, 0, false, 0x440, 5⟩] }
     s.Runs t0 (.pref g 0 16) ∧ (s.l1Hit 0 1 (s.genAt 0 1) false 0x440).isSome = true) ∧
    (∃ r, Msg.sliceRead r ∈ (addressed.send (.sliceRead ⟨5, 2, 0, 0, 1, 0, 0x20004, 0x20004, false, 4, .b32, true, .vec 10 1, 0x10000, 8, false⟩)).net ∧
      r.core = 0 ∧ r.pa / 128 = 0x400) ∧
    hinted.Runs t0 (.cinv g 1 0) ∧ hinted.Runs t0 (.cinv g 0 16) ∧ hinted.Runs t0 (.cinv g 0 12) ∧
    hinted.look 0 1 0x22000 = some dataPage ∧ hinted.look 0 1 0x90000 = none := by
  refine ⟨runs_of ?_, runs_of ?_, runs_of ?_, ?_, ⟨ok_of _ ?_, ?_, ?_, ?_, ?_, ?_, ?_, ?_, ?_⟩, ⟨runs_of ?_, ?_⟩, ⟨runs_of ?_, ?_⟩,
    ⟨_, List.mem_append_right _ (List.mem_singleton.mpr rfl), rfl, rfl⟩, runs_of ?_, runs_of ?_, runs_of ?_, ?_, ?_⟩ <;> decide +kernel

/-- A wait of one thread of a warp. -/
def waiting (kind : WaitKind) (w : Nat) (t : TRef) (s : State) : State :=
  ({ s with waits := [(9, ⟨kind, w, [t], 0x10000, 0x10001, 9⟩)], nextId := 10 } : State).setThread t fun th => { th with wait := some 9 }
/-- A thousand ticks later. -/
def aged (s : State) : State := { s with dies := s.dies.map fun e => (e.1, { e.2 with cnt := 1000 }) }
def declSet : Instr := .setdecl gw ⟨false, .vec 0, .uni 8, noSrc, noSrc, 0, .u32, .rn, false, 0⟩
def freeSet : Instr := .setfree gw ⟨false, .vec 0, noSrc, noSrc, noSrc, 1, .u32, .rn, false, 0⟩
def giver : Instr := .reggive gw ⟨false, .vec 0, .uni 8, noSrc, noSrc, 0, .u32, .rn, false, 0⟩
def claimer : Instr := .regclaim gw ⟨false, .vec 0, .uni 8, noSrc, noSrc, 1, .u32, .rn, false, 0⟩
def declaring : State := withUni [(8, twoSet)] { pair with net := [] }
def asking (n : DWord) (s : State) : State := withUni [(8, n)] s
def pooled (n : Nat) (s : State) : State := s.setBlock 1 fun b => { b with pools := SMap.set 0 b.pools 0 n }
def holding (n : Nat) (s : State) : State := s.setWarp 2 fun w => { w with alloc := n }

/-- BarriersAndSets: barriers, with a count that is legal and one that is not; a thread that arrives at a named barrier; a set whose
other member waits, and one whose other member does not. -/
theorem witness_barriers :
    pair.RunsOnce both (.bar gw) ∧ (∀ m ∈ pair.net, m = .coldReset) ∧ pair.RunsOnce both (.barNamed gb 3) ∧ both.Nodup ∧
    ((pair.operands ⟨pair.leader .block t0, t0.lane⟩ (Instr.barNamed gb 3).form).b.setWidth 32).toNat ≤ 512 ∧
    (let i : Instr := .barX gb ⟨false, noDst, .imm 3, .uni 8, noSrc, 1, .u32, .rn, false, 0⟩
     (asking 513 pair).RunsOnce both i ∧ 512 < (((asking 513 pair).operands ⟨(asking 513 pair).leader .block t0, t0.lane⟩ i.form).b.setWidth 32).toNat) ∧
    (formNamed (Instr.barNamed gb 3).form = some 3 ∧ (Instr.barNamed gb 3).form.g.scope = .block ∧
      base.legal t0 (Instr.barNamed gb 3).form = true ∧ base.Holds t0) := by
  refine ⟨once_of ?_, ?_, once_of ?_, ?_, ?_, ⟨once_of ?_, ?_⟩, ?_, ?_, ?_, holds_of ?_⟩ <;> decide +kernel

theorem witness_sets :
    (declaring.RunsOnce both declSet ∧ declaring.setListOk 2 twoSet = true ∧ (declaring.warp 2).setReg = 0 ∧
      declaring.setWaiters 1 0 (setMembers twoSet) = [] ∧ (declaring.warp 3).setReg = 0 ∧ (setMembers twoSet) = [0, 1] ∧
      declaring.warpOfIndex 1 1 = some 3 ∧ ∃ th ∈ (declaring.warp 3).threads, th.exited = false) ∧
    (let s := waiting (.setdecl twoSet) 3 ⟨3, 0⟩ declaring
     s.RunsOnce both declSet ∧ (s.setWaiters 1 0 (setMembers twoSet)).map (fun e => (e.2.1.warp, e.2.2)) = [(3, twoSet)]) ∧
    pair.RunsOnce both freeSet ∧ setMembers (pair.warp 2).setReg = [] ∧
    inSet.RunsOnce both freeSet ∧ inSet.setOf 2 = [2, 3] ∧ (∃ th ∈ (inSet.warp 3).threads, th.exited = false) ∧ inSet.waits = [] ∧
    (let s := waiting .setfree 3 ⟨3, 0⟩ inSet
     s.RunsOnce both freeSet ∧ (∀ e ∈ s.waits, e.1 < s.nextId) ∧ ∃ e ∈ s.waits, e.2.warp = 3 ∧ e.2.kind = .setfree) := by
  refine ⟨⟨once_of ?_, ?_, ?_, ?_, ?_, ?_, ?_, ?_⟩, ⟨once_of ?_, ?_⟩, once_of ?_, ?_, once_of ?_, ?_, ?_, ?_, once_of ?_, ?_, ?_⟩ <;>
    decide +kernel

/-- RegistersAndPools: 64 of 320 registers kept, with a result on its way to another, in a cairn slot; 320 claimed by a warp of 64, with room in the pool and without; a count that is no
multiple of 8. -/
theorem witness_pools :
    (let s := asking 64 pair
     s.RunsOnce both giver ∧ ((s.leadOps giver).a.setWidth 32).toNat = 64 ∧ (s.warp 2).alloc = 320 ∧ s.regBusy 2 64 = false ∧
      (s.warp 2).slot ≠ 12 ∧ Tab.find s.warps 2 = some (s.warp 2) ∧ Tab.find s.blocks 1 = some (s.block 1) ∧
      SMap.wf 0 (s.block 1).pools = true) ∧
    (let s := asking 64 (pair.send (.vclassWriteBack ⟨4, 2, 0, .vec 100 1, .value 0, 0x10000, 0⟩))
     s.RunsOnce both giver ∧ s.regBusy 2 64 = true) ∧
    (let s := asking 64 (pair.setWarp 2 fun w => { w with slot := 12 })
     s.RunsOnce both giver ∧ s.regBusy 2 64 = false ∧ (s.warp 2).slot = 12) ∧
    (asking 63 pair).RunsOnce both giver ∧ (asking 63 pair).RunsOnce both claimer ∧ (asking 320 pair).RunsOnce both claimer ∧
    (let s := asking 320 ((holding 64 pair).setWarp 2 fun w => { w with slot := 12 })
     s.RunsOnce both claimer ∧ (s.warp 2).slot = 12 ∧ (s.warp 2).alloc = 64) ∧
    (let s := asking 320 (pooled 40 (holding 64 pair))
     s.RunsOnce both claimer ∧ (320 - 64) / 8 ≤ SMap.get 0 (s.block 1).pools (8 * (s.block 1).places.idxOf (s.warp 2).core + (s.warp 2).part) ∧
      SMap.wf 0 (s.block 1).pools = true) ∧
    (let s := asking 320 (pooled 3 (holding 64 pair))
     s.RunsOnce both claimer ∧ SMap.get 0 (s.block 1).pools (8 * (s.block 1).places.idxOf (s.warp 2).core + (s.warp 2).part) < (320 - 64) / 8 ∧
      (s.grid 0).det = false) ∧
    (let s := determined (asking 320 (pooled 3 (holding 64 pair)))
     s.RunsOnce both claimer ∧ (s.warp 2).slot ≠ 12 ∧ (s.grid 0).det = true) := by
  refine ⟨⟨once_of ?_, ?_, ?_, ?_, ?_, ?_, ?_, ?_⟩, ⟨once_of ?_, ?_⟩, ⟨once_of ?_, ?_, ?_⟩, once_of ?_, once_of ?_, once_of ?_,
    ⟨once_of ?_, ?_, ?_⟩, ⟨once_of ?_, ?_, ?_⟩, ⟨once_of ?_, ?_, ?_⟩, once_of ?_, ?_, ?_⟩ <;> decide +kernel

theorem witness_csr :
    lone.Runs t0 (.csrr g 5 10) ∧ lone.Runs t0 (.csrw g 10 4) ∧
    pair.RunsOnce both (.csrrX gw ⟨false, .uni 4, .imm 5, noSrc, noSrc, 0, .u64, .rn, false, 0⟩) ∧
    pair.RunsOnce both (.csrwX gw ⟨false, .vec 0, .imm 4, .uni 4, noSrc, 0, .u32, .rn, false, 0⟩) := by
  refine ⟨runs_of ?_, runs_of ?_, once_of ?_, once_of ?_⟩ <;> decide +kernel

/-- FencesComplete: nothing outstanding, and a load outstanding; a store without its GWCT; the parts of a fence, with its time passed and
not passed. -/
theorem witness_fences :
    lone.Runs t0 (.fence g 1) ∧ lone.loadsDone 2 (some 0) = true ∧ lone.Runs t0 (.fence g 3) ∧
    pair.RunsOnce both (.fence gw 1) ∧ pair.loadsDone 2 none = true ∧ pair.RunsOnce both (.fence gw 2) ∧
    (let s := pair.send (.sliceRead ⟨5, 2, 0, 0, 1, 0, 0x20004, 0x20004, false, 4, .b32, true, .vec 10 1, 0x10000, 8, false⟩)
     s.RunsOnce both (.fence gw 1) ∧ s.loadsDone 2 none = false ∧ s.loadsDone 2 (some 0) = false ∧ (issuing [t0] s).Runs t0 (.fence g 1)) ∧
    (lone.fenceDue 9 [2] .dev).isSome = true ∧
    ((lone.setWarp 2 fun w => { w with stores := [⟨4, 0, false, 0x20000, 4, .blk, 0, false, false⟩] }).fenceDue 9 [2] .dev) = none ∧
    (∀ k < 4, let r : WaitRec := ⟨.fence k 0 (some 5), 2, [t0], 0x10000, 0x10001, 9⟩
     let s := aged (waiting (.fence k 0 (some 5)) 2 t0 base)
     Tab.find s.waits 9 = some r ∧ s.released r = true ∧ s.fenceLoadsDone false r.members = true) ∧
    (let r : WaitRec := ⟨.fence 0 0 none, 2, [t0], 0x10000, 0x10001, 9⟩
     let s := aged (waiting (.fence 0 0 none) 2 t0 base)
     Tab.find s.waits 9 = some r ∧ s.released r = false) ∧
    (let s := waiting (.fence 1 2 none) 2 t0 base
     Tab.find s.waits 9 = some ⟨.fence 1 2 none, 2, [t0], 0x10000, 0x10001, 9⟩ ∧ s.fenceLoadsDone false [t0] = true ∧
      (s.send (.sliceRead ⟨5, 2, 0, 0, 1, 0, 0x20004, 0x20004, false, 4, .b32, true, .vec 10 1, 0x10000, 8, false⟩)).fenceLoadsDone false [t0]
        = false) ∧
    (let s := waiting (.fence 3 1 none) 2 t0 base
     Tab.find s.waits 9 = some ⟨.fence 3 1 none, 2, [t0], 0x10000, 0x10001, 9⟩ ∧ SMap.wf 0 s.fe.scOrder = true ∧
      s.fenceLoadsDone false [t0] = true ∧ s.Holds t0 ∧ (s.thread t0).wait = some 9) := by
  refine ⟨runs_of ?_, ?_, runs_of ?_, once_of ?_, ?_, once_of ?_, ⟨once_of ?_, ?_, ?_, runs_of ?_⟩, ?_, ?_, ?_, ⟨?_, ?_⟩, ⟨?_, ?_, ?_⟩,
    ?_, ?_, ?_, holds_of ?_, ?_⟩ <;> decide +kernel

/-- InvocationsAndBuiltins: a built-in routine, one of the program's own; not aligned; beyond 63. -/
def invoke (id : BitVec 9) : Instr := .latomX g ⟨false, .vec 10, .vec 2 false, noSrc, .imm id, 0, .u32, .rn, false, 0⟩

theorem witness_invocations :
    addressed.Runs t0 (invoke 3) ∧ addressed.Runs t0 (invoke 20) ∧
    addressed.accessCheck t0 0x20004 4 true true = .ok (checked 0x20004 4 true true) ∧
    (checked 0x20004 4 true true).look 0 1 0x20004 = some dataPage ∧ dataPage.tgt ≠ 1 ∧ (addressed.warp 2).stores = [] ∧
    SMap.wf false (addressed.warp 2).empty = true ∧ (withRegs [(2, 0x20002)] lone).Runs t0 (invoke 3) ∧
    ((addressed.operands t0 (invoke 20).form).c.setWidth 32).toNat = 20 ∧
    ((determined addressed).Runs t0 (invoke 3) ∧ ((determined addressed).grid 0).det = true ∧
      isOkB ((determined addressed).accessCheck t0 0x20004 4 true true) = true) ∧
    (let i : Instr := .latomX g ⟨false, .vec 10, .vec 2 false, noSrc, .vec 20 false, 0, .u32, .rn, false, 0⟩
     addressed.Runs t0 i ∧ 63 < ((addressed.operands t0 i.form).c.setWidth 32).toNat) := by
  refine ⟨runs_of ?_, runs_of ?_, ok_of _ ?_, ?_, ?_, ?_, ?_, runs_of ?_, ?_, ⟨runs_of ?_, ?_, ?_⟩, runs_of ?_, ?_⟩ <;> decide +kernel

/-- ControlFrame. -/
theorem witness_frame :
    (∃ s', writesNoRegister (.bra g 0) = true ∧ exec (.bra g 0) lone = .next s') ∧
    (∃ s', comesBack (.ld g 0 2 10) = true ∧ exec (.ld g 0 2 10) addressed = .next s') ∧
    (∀ t ∈ addressed.cur.group, t.lane < 32) ∧ SMap.wf false (addressed.warp 2).empty = true :=
  ⟨⟨_, rfl, rfl⟩, ⟨_, rfl, rfl⟩, by decide +kernel, by decide +kernel⟩

/-- Address space 1 has page tables that map 0x2_0000 to device memory and 0x3_0000 to host memory, as the cores' TLB entries do. -/
def withTables (s : State) : State :=
  let m (a v : Nat) (b : Memory) : Memory := Memory.write b a (leBytes 8 v)
  { s.setAsid 1 fun a => { a with root := 0x40000, st := 1 } with
    hbm := m 0x43018 (mkPte true true true true false false 1 0x50000) (m 0x43010 (mkPte true true true true false false 0 0x20000)
      (m 0x42000 (mkPte true false false false false false 0 0x43000) (m 0x41000 (mkPte true false false false false false 0 0x42000)
        (m 0x40000 (mkPte true false false false false false 0 0x41000) s.hbm)))) }
def stored (a : Nat) (bs : List Byte) (s : State) : State := { s with hbm := Memory.write s.hbm a bs }
def xw (dst : Dst) (a b c : Src) (sub : BitVec 6) : XForm := ⟨false, dst, a, b, c, sub, .u32, .rn, false, 0⟩

/-- RoutinesInstalled: an image that is readable; a table that is not there, and one that holds a routine. -/
def rtReq (install : Bool) (rid : Nat) : RtReq := ⟨5, 1, install, 1, 0, rid, 0x20000, 9⟩
def tabled : State :=
  stored 0x20108 (leBytes 8 (2 ^ 20)) ((withTables pair).setAsid 1 fun a => { a with rtab := 0x20100 })

theorem witness_routine_requests :
    (let s := withUni [(8, 0x20000)] (withTables pair)
     s.RunsOnce both (.rtinst gw (xw (.uni 4) (.uni 8) (.imm 20) noSrc 0)) ∧
      s.RunsOnce both (.rtrem gw (xw (.uni 4) noSrc (.imm 20) noSrc 0)) ∧
      ∀ va ∈ s.rtChecks t0 true 0x20000, ∃ s1, s.accessCheck t0 va 1 true false = .ok s1) ∧
    (pair.asid 1).rtab = 0 ∧ (tabled.asid 1).rtab ≠ 0 ∧ tabled.feRead 1 0x20100 8 = some 0 ∧
    tabled.feRead 1 0x20108 8 = some (2 ^ 20) ∧ (2 ^ 20).testBit 20 = true ∧ (2 ^ 20).testBit 21 = false ∧
    (tabled.feBytes 1 (0x20100 + BitVec.ofNat 64 (0x40 + 0x90 * (20 - 16))) 144).isSome = true ∧
    ((tabled.setAsid 1 fun a => { a with rtab := 0x3FFF0 }).feBytes 1 (0x3FFF0 + BitVec.ofNat 64 (0x40 + 0x90 * (20 - 16))) 144) = none := by
  refine ⟨⟨once_of ?_, once_of ?_, fun va h => ⟨_, ok_of base (List.all_eq_true.mp (by decide +kernel :
    (((withUni [(8, 0x20000)] (withTables pair)).rtChecks t0 true 0x20000).all fun va =>
      isOkB ((withUni [(8, 0x20000)] (withTables pair)).accessCheck t0 va 1 true false)) = true) va h)⟩⟩, ?_, ?_, ?_, ?_, ?_, ?_, ?_, ?_⟩ <;>
    decide +kernel

/-- WaitsAndWakes: a condition that holds, one that does not, on a page of host memory; a slice whose entries are taken. -/
def waitEq : Instr := .waitcmp g 10 2 1
def servesB (c : Check) : Bool :=
  match c with
  | .serve _ | .wait _ => true
  | _ => false
def waitedOn (va : Word) (v : Word) : State := withRegs [(2, va), (10, v)] lone
/-- The state after a line's home has served a read. -/
def served (s : State) (pa : Nat) : State :=
  match s.frameCheck 1 (s.genAt 0 1) pa false with
  | .serve s1 => s1.homeFor (pa / 128) (dieOfCore 0)
  | _ => s
def otherKey (n : Nat) : MonKey := ⟨1, 0x20004, false, false, .eq, BitVec.ofNat 64 (n + 100)⟩

theorem witness_waits :
    (waitedOn 0x20004 0).Runs t0 waitEq ∧ (waitedOn 0x20004 7).Runs t0 waitEq ∧ (waitedOn 0x30008 7).Runs t0 waitEq ∧
    isOkB ((waitedOn 0x20004 7).accessCheck t0 0x20004 4 true false) = true ∧
    ((waitedOn 0x20004 7).grid 0).det = false ∧ (waitedOn 0x20004 7).look 0 1 0x20004 = some dataPage ∧
    (waitedOn 0x30008 7).look 0 1 0x30008 = some hostPage ∧ (waitedOn 0x20004 7).loadWaits t0 0x20004 4 = false ∧
    (served (waitedOn 0x20004 0) 0x20004).keyHolds (waitKey 1 waitEq.form ((waitedOn 0x20004 0).operands t0 waitEq.form) dataPage) = true ∧
    (served (waitedOn 0x20004 7) 0x20004).keyHolds (waitKey 1 waitEq.form ((waitedOn 0x20004 7).operands t0 waitEq.form) dataPage) = false ∧
    (served (waitedOn 0x20004 7) 0x20004).monitors = [] ∧
    servesB ((waitedOn 0x20004 7).frameCheck 1 ((waitedOn 0x20004 7).genAt 0 1) 0x20004 false) = true ∧
    (∀ a ∈ [(0x20004 : Word), 0x30008], (determined (waitedOn a 7)).Runs t0 waitEq) ∧
    (waitedOn 0x30008 7).keyHolds (waitKey 1 waitEq.form ((waitedOn 0x30008 7).operands t0 waitEq.form) hostPage) = false ∧
    (waitedOn 0x30008 0).keyHolds (waitKey 1 waitEq.form ((waitedOn 0x30008 0).operands t0 waitEq.form) hostPage) = true ∧
    (let s : State := { waitedOn 0x20004 7 with monitors := (List.range 256).map fun n => ⟨homeSlice 0x400, otherKey n, [0], [some n]⟩ }
     ((served s 0x20004).monitors.all fun m => m.key != waitKey 1 waitEq.form (s.operands t0 waitEq.form) dataPage) = true ∧
      Config.monitorEntries ≤ ((served s 0x20004).monitors.filter fun m => m.slice == homeSlice 0x400).length) ∧
    (waitedOn 0x20004 0).Runs t0 (.moncan g 2) ∧ pair.RunsOnce both (.waitcmpX gw { xw (.pred 1) (.uni 8) (.uni 10) (.imm 0) 0 with ty := .u64 }) ∧
    pair.RunsOnce both (.moncanX gw (xw (.vec 0) (.vec 2 false) (.vec 0 false) (.vec 0 false) 0)) ∧
    (Instr.moncan gw 2).form.ok = false := by
  refine ⟨runs_of ?_, runs_of ?_, runs_of ?_, ?_, ?_, ?_, ?_, ?_, ?_, ?_, ?_, ?_, ?det, ?_, ?_, ⟨?_, ?_⟩, runs_of ?_, once_of ?_, once_of ?_, ?_⟩
  case det => exact fun a ha => runs_of (List.all_eq_true.mp (by decide +kernel :
    ([(0x20004 : Word), 0x30008].all fun a => runsB (determined (waitedOn a 7)) t0 waitEq) = true) a ha)
  all_goals decide +kernel

/-- CopiesMove: a fill whose checks pass; an external read. -/
def fill : Instr := .xfill gw ⟨false, .vec 0, .uni 4, .uni 8, .uni 1, 0, .f32, .rn, false, 0⟩
def xrd : Instr := .xread gw (xw (.vec 0) (.uni 2) (.uni 4) (.uni 5) 0)
def reading : State := withUni [(2, 1 + 2 ^ 32 * 4096), (3, 0x20008), (5, 0x21000)] pair

theorem witness_copies :
    pair.RunsOnce both fill ∧
    isOkB (pair.prepareCopy fill.form (copyOp fill.form 3 (pair.lead fill) (pair.leadOps fill) pair) (pair.leadOps fill).a [0, 0]) = true ∧
    pair.copyRoom 2 0 = true ∧ (pair.grid 0).det = false ∧
    ((determined pair).RunsOnce both fill ∧ ((determined pair).grid 0).det = true ∧ (copyOp fill.form 3 (pair.lead fill) (pair.leadOps fill) pair).ring = false ∧
      (copyOp fill.form 3 (pair.lead fill) (pair.leadOps fill) pair).named = false) ∧
    reading.RunsOnce both xrd ∧ (reading.warp 2).ureg 3 = 0x20008 ∧
    isOkB (reading.xlatePages 0 1 false true (touchedPages 0x20008 8 ++ touchedPages 0x21000 4096)) = true ∧
    reading.fe.xreads = [] ∧ pair.RunsOnce both (.opfence gw) := by
  refine ⟨once_of ?_, ?_, ?_, ?_, ⟨once_of ?_, ?_, ?_, ?_⟩, once_of ?_, ?_, ?_, ?_, once_of ?_⟩ <;> decide +kernel

/-- RingsAndBuffers: a control word for two slots at SA 0x10 with its slots at 0x200; a buffer held, one offered, a handle of another
generation. -/
def qcwWord : DWord := 0x200 ||| 2#64 <<< 32 ||| 1#64 <<< 48
def setter : Instr := .qcwset gw (xw (.vec 0) (.uni 8) (.uni 9) noSrc 0)
def ringed (s : State) : State := s.setBlock 1 fun b => b.put 0 0x10 (leBytes 8 qcwWord.toNat)
def pusher : Instr := .rpush gw 1 8 0
def popper : Instr := .rpop gw 1 10
def releaser : Instr := .rpopX gw (xw (.vec 0) noSrc (.imm 16) noSrc 1)
def buffered (st : Nat) (warp : Nat) : State := withUni [(8, BitVec.ofNat 64 (bufferHandle 0 0 5).toNat)] (pair.setBuffer 0 0 ⟨st, 1, warp, 5, 0x100, 0x80⟩)
def taker : Instr := .btakeNew gw (xw (.uni 4) (.uni 8) noSrc noSrc 3)
def bgiver : Instr := .bgive gw (xw (.vec 0) (.uni 8) (.uni 9) noSrc 0)
def bfreer : Instr := .bgiveFree gw (xw (.vec 0) (.uni 8) noSrc noSrc 2)
def btaker : Instr := .btake gw (xw (.uni 4) (.uni 8) noSrc noSrc 1)

theorem witness_rings :
    (let s := withUni [(8, 0x10), (9, qcwWord)] pair
     s.RunsOnce both setter ∧ s.qcwPlace 2 0x10 = .ok ⟨0, 0x10⟩ ∧ Qcw.ok ⟨0x200, 2, 1, 0, 0, 0, 0⟩ (s.block 1).scratch = true ∧
      s.saOwned 1 [2] ⟨0, 0x10⟩ 16 = true ∧ s.saOwned 1 [2] ⟨0, 0x200⟩ (Qcw.bytes ⟨0x200, 2, 1, 0, 0, 0, 0⟩) = true) ∧
    (let s := ringed pair
     s.RunsOnce both pusher ∧ s.RunsOnce both popper ∧ s.RunsOnce both releaser ∧ isOkB (s.ringCheck 2 0x10) = true ∧
      (match s.ringCheck 2 0x10 with
        | .ok (p, q) => decide (1 ≤ q.esize) && q.room != 0 && !s.ringBusy 0 s.nextId 1 p.place p.ofs
        | .error _ => false) = true ∧ s.qcwPending 2 0x10 = false ∧ (s.block 1).qcwSet 0 0x10 = false ∧ (s.grid 0).det = false ∧
      s.takeWaits 2 ⟨0, 0x10⟩ = false ∧
      (s.setBlock 1 fun b => { b with qcws := SMap.set false b.qcws 0x10 true }).RunsOnce both pusher) := by
  refine ⟨⟨once_of ?_, by rfl, ?_, ?_, ?_⟩, once_of ?_, once_of ?_, once_of ?_, ?_, ?_, ?_, ?_, ?_, ?_, once_of ?_⟩ <;> decide +kernel

theorem witness_buffers :
    (let s := withUni [(8, 0x100 + 2 ^ 32 * 0x80)] pair
     s.RunsOnce both taker ∧ (s.leadOps taker).a = 0x100 + 2 ^ 32 * 0x80 ∧ (s.core 0).buffers = [] ∧ (s.buffer 0 0).state = 0 ∧
      (s.warp 2).core ∈ (s.block 1).places ∧ 0x180 ≤ (s.block 1).scratch ∧
      (s.setBlock 1 fun b => { b with places := [5] }).RunsOnce both taker) ∧
    ((buffered 1 2).RunsOnce both bgiver ∧ (buffered 1 2).RunsOnce both bfreer ∧
      (buffered 1 2).bufferOf 2 ((buffered 1 2).leadOps bgiver).a.toNat = some (0, 0) ∧ (buffered 1 2).warpOfIndex 1 0 = some 2) ∧
    ((buffered 2 2).RunsOnce both btaker ∧ (buffered 2 2).bufferOf 2 ((buffered 2 2).leadOps btaker).a.toNat = some (0, 0)) ∧
    (pair.RunsOnce both bgiver ∧ (withUni [(8, 0x4000)] pair).bufferOf 2 0x4000 = none) := by
  refine ⟨⟨once_of ?_, ?_, ?_, ?_, ?_, ?_, once_of ?_⟩, ⟨once_of ?_, once_of ?_, ?_, ?_⟩, ⟨once_of ?_, ?_⟩, once_of ?_, ?_⟩ <;> decide +kernel

/-- MatrixAccepted: each kind of operation passes its checks, with the file free; FMTSET of a valid word and of one that is not. -/
def matOk (i : Instr) (kind : Nat) (s : State) : Bool :=
  let ld := s.lead i
  let ms := s.setOf ld.warp
  let op := matrixOp i.form kind ld ms (s.leadOps i) s
  (if kind < 2 then (s.mmaCheck ld ms op).isNone else kind == 2 || isOkB (s.rowsCheck ld ms op)) &&
    s.accFree (s.warp ld.warp).core op.block && s.matRoom (s.warp ld.warp).core ms op.token
def matUni : State := withUni [(8, 0x4000), (10, 0x8000)] inSet
def mmaI : Instr := .mma gs ⟨false, .vec 0, .uni 8, .uni 10, .imm 1, 1, .fmt, .rn, false, 0⟩
def mmasI : Instr := .mmas gs ⟨false, .vec 0, .uni 8, .uni 10, .imm 1, 1, .fmt, .rn, false, 0⟩
def acczI : Instr := .accz gs ⟨false, .vec 0, noSrc, noSrc, .imm 3, 1, .u32, .rn, false, 0⟩
def accldI : Instr := .accld gs ⟨false, .vec 0, .uni 8, .imm 0, .imm 3, 1, .f32, .rn, false, 0⟩
def accstI : Instr := .accst gs ⟨false, .vec 0, .uni 8, .imm 0, .imm 3, 1, .f32, .rn, false, 0⟩
def fmtI : Instr := .fmtset gw (xw (.uni 4) (.uni 8) noSrc noSrc 1)

theorem witness_matrix :
    (matUni.RunsOnce both mmaI ∧ matOk mmaI 0 matUni = true) ∧ (matUni.RunsOnce both mmasI ∧ matOk mmasI 1 matUni = true) ∧
    (matUni.RunsOnce both acczI ∧ matOk acczI 2 matUni = true) ∧ (matUni.RunsOnce both accldI ∧ matOk accldI 3 matUni = true) ∧
    (matUni.RunsOnce both accstI ∧ matOk accstI 4 matUni = true) ∧ (Tab.find matUni.warps 2).isSome = true ∧
    pair.RunsAll both (.acck gw ⟨false, .vec 2, noSrc, noSrc, .imm 0, 0, .u32, .rn, false, 0⟩) ∧
    (pair.core 0).tile 0 = ⟨false, 0, 0, 0⟩ ∧ (asking 0xFD25 pair).RunsOnce both fmtI ∧
    ((0xFD25 : Word).toNat / 2 ^ 20 = 0 ∧ (0xFD25 : Word).getLsbD 3 = false ∧ (Fmt.ofWord 0xFD25).valid = true) ∧
    ¬((0x100000 : Word).toNat / 2 ^ 20 = 0) := by
  refine ⟨⟨once_of ?_, ?_⟩, ⟨once_of ?_, ?_⟩, ⟨once_of ?_, ?_⟩, ⟨once_of ?_, ?_⟩, ⟨once_of ?_, ?_⟩, ?_, all_of ?_, ?_, once_of ?_,
    ⟨?_, ?_, ?_⟩, ?_⟩ <;> decide +kernel

/-- TasksAndMigration: a coordinate handed back, and none left; a record in the core's deque at 0x2_0800; a record to push; a page at
home on another die, on this one, and in host memory. -/
def tiler : Instr := .fetchtTile gw (xw (.uni 4) noSrc noSrc noSrc 0)
def tasker : Instr := .fetchtTask gw (xw (.uni 4) noSrc noSrc noSrc 1)
def pushTask : Instr := .enqt g (xw (.vec 0) (.vec 2 false) noSrc noSrc 0)
def pushTaskW : Instr := .enqt gw (xw (.vec 0) (.uni 8) noSrc noSrc 0)
def tilerB : Instr := .fetchtTile gb (xw (.uni 4) noSrc noSrc noSrc 0)
def tasked (s : State) : State :=
  stored 0x20808 (leBytes 8 1) (aged ((withTables s).setGrid 0 fun gr => { gr with packet := List.replicate 0x48 0 ++ leBytes 8 0x20800 ++ List.replicate 48 1 }))
def migrator : Instr := .migrate gw (xw (.pred 1) (.uni 8) noSrc noSrc 0)

theorem witness_tasks :
    (let s := pair.setGrid 0 fun gr => { gr with handedBack := [0] }
     s.RunsOnce both tiler ∧ ((s.dropCoord 0 none).grid 0).nextTile.isSome = true) ∧
    (pair.RunsOnce both tiler ∧ ((pair.dropCoord 0 none).grid 0).nextTile = none) ∧ pair.RunsOnce both tilerB ∧
    (let s := tasked pair
     s.RunsOnce both tasker ∧ field (s.grid 0).packet 0x48 8 ≠ 0 ∧ s.loadsDone 2 none = true ∧ (s.warp 2).task = none ∧
      s.fe.lends = [] ∧ (s.dequeHead 0 0 false).top < (s.dequeHead 0 0 false).bot ∧ (s.dequeHead 0 0 false).lent = false) ∧
    (let s := stored 0x20400 (leBytes 8 0x10000) (tasked (withRegs [(2, 0x20400)] lone))
     let s0 := (s.recordReach t0 0x20400).1
     s.Runs t0 pushTask ∧ (s.operands t0 pushTask.form).a = 0x20400 ∧ (s.recordReach t0 0x20400).2 = true ∧ s0.warpReleased 2 = true ∧
      isOkB (enqtCheck pushTask.form true t0 (s.operands t0 pushTask.form) s0) = true ∧
      (s0.dequeHead 0 0 false).bot - (s0.dequeHead 0 0 false).top + 1 ≤ (s0.grid 0).deqn) ∧
    (let s := stored 0x20400 (leBytes 8 0x10000) (tasked (withUni [(8, 0x20400)] pair))
     s.RunsOnce both pushTaskW ∧ (s.operands t0 pushTaskW.form).a = 0x20400 ∧ (s.operands t1 pushTaskW.form).a = 0x20400 ∧
      ((s.recordReach t0 0x20400).1.recordReach t1 0x20400).2 = true) := by
  refine ⟨⟨once_of ?_, ?_⟩, ⟨once_of ?_, ?_⟩, once_of ?_, ⟨once_of ?_, ?_, ?_, ?_, ?_, ?_, ?_⟩, ⟨runs_of ?_, ?_, ?_, ?_, ?_, ?_⟩, once_of ?_, ?_, ?_, ?_⟩ <;>
    decide +kernel

theorem witness_migrations :
    (let s := asking 0x22000 pair
     s.RunsOnce both migrator ∧ (s.warp 2).setReg = 0 ∧ (s.grid 0).det = false ∧ isOkB (s.accessCheck t0 0x22000 1 true false) = true ∧
      s.look 0 1 0x22000 = some dataPage ∧ homeDie (dataPage.at 0x22000 / 128) ≠ dieOfCore 0 ∧
      homeDie (dataPage.at 0x22000 / 128) ≠ (s.block 1).die ∧ s.windowBusy 2 = false ∧ (s.warp 2).cf = 0xFFF ∧ (s.warp 2).inFlight = 0) ∧
    (homeDie (dataPage.at 0x20000 / 128) = dieOfCore 0 ∧ (asking 0x20000 pair).RunsOnce both migrator) ∧
    (determined (asking 0x22000 pair)).RunsOnce both migrator ∧
    (let s : State := { asking 0x22000 pair with heldWrites := [⟨4, 2, 0, 3, 7, 5, 9, 0x10000, 0⟩] }
     s.RunsOnce both migrator ∧ s.windowBusy 2 = true) ∧
    (let s := (asking 0x22000 pair).setWarp 2 fun w => { w with inFlight := 1 }
     s.RunsOnce both migrator ∧ s.windowBusy 2 = false ∧ (s.warp 2).inFlight ≠ 0) ∧
    (let s := (asking 0x22000 pair).setBlock 1 fun b => { b with die := homeDie (dataPage.at 0x22000 / 128) }
     s.RunsOnce both migrator ∧ (s.warp 2).origin = none ∧
      (s.setWarp 2 fun w => { w with origin := some (20, 1, 2) }).RunsOnce both migrator) ∧
    ((asking 0x30008 pair).RunsOnce both migrator ∧ (asking 0x30008 pair).look 0 1 0x30008 = some hostPage ∧ hostPage.tgt = 1) ∧
    (inSet.RunsOnce both migrator ∧ (inSet.warp 2).setReg ≠ 0) := by
  refine ⟨⟨once_of ?_, ?_, ?_, ?_, ?_, ?_, ?_, ?_, ?_, ?_⟩, ⟨?_, once_of ?_⟩, once_of ?_, ⟨once_of ?_, ?_⟩, ⟨once_of ?_, ?_, ?_⟩,
    ⟨once_of ?_, ?_, once_of ?_⟩, ⟨once_of ?_, ?_, ?_⟩, once_of ?_, ?_⟩ <;> decide +kernel

/-- SliceAccesses: a line of a frame of address space 1, and one of a frame that is free; a line of host memory. -/
def readAt (pa : Nat) (host : Bool) : ReadReq := ⟨5, 2, 0, 0, 1, 0, 0x20004, pa, host, 4, .b32, true, .vec 10 1, 0x10000, 8, false⟩
def writeAt (pa : Nat) (host : Bool) : WriteReq := ⟨.store 2 0 5, 0, 1, 0, 0x20004, pa, host, 4, 7, 0⟩

theorem witness_slices :
    base.admits 1 0 0x20004 ∧ (base.die (homeDie (0x20004 / 128))).lost = false ∧ (readAt 0x20004 false).host = false ∧
    base.rejects 1 0 0x90004 ∧ (base.die (homeDie (0x90004 / 128))).lost = false ∧ (readAt 0x50004 true).host = true ∧
    (writeAt 0x20004 false).host = false ∧ (writeAt 0x50004 true).host = true ∧ base.Canonical ∧
    (base.dieSilent (homeDie 0x400) = false ∧ base.badLines.contains 0x400 = false ∧ (base.homeLine 0x400).heldFor = none ∧
      (base.enterHome 0x400).isSome = true) ∧
    (base.readMates (readAt 0x20004 false) = [] ∧ base.readMates (readAt 0x50004 true) = []) ∧
    (match base.frameCheck 1 0 0x20004 false, base.frameCheck 1 0 0x20004 true with
      | .serve s1, .serve _ => (s1.readAt 1 0x20004 0x400 (dieOfCore 0)).isSome
      | _, _ => false) = true ∧
    (match base.frameCheck 1 0 0x90004 false, base.frameCheck 1 0 0x90004 true with
      | .stale, .stale => true
      | _, _ => false) = true := by
  unfold State.admits State.rejects
  refine ⟨?_, ?_, ?_, ?_, ?_, ?_, ?_, ?_, ⟨?_, ?_⟩, ⟨?_, ?_, ?_, ?_⟩, ⟨?_, ?_⟩, ?_, ?_⟩ <;> decide +kernel

/-- A line of the frame of 0x2_0000 as its home holds it. -/
def lineAs (f : HomeLine → HomeLine) : State := aged { base with lines := [(0x400, f (HomeLine.enter 5))] }

/-- CollapsesEnd: one holder, two holders; the lease over, and not over; a copy; an owner; an acknowledgement. -/
theorem witness_collapses :
    (let s := lineAs fun h => { h with cpend := true, hold := 4, waiters := [(.store 2 0 5, 3)] }
     (s.homeLine 0x400).cpend = true ∧ (s.homeLine 0x400).hold &&& ~~~(BitVec.ofNat 8 (2 ^ 2)) = 0 ∧
      (s.homeLine 0x400).emax + (s.die (homeDie 0x400)).skew.toNat ≤ s.homeTime 0x400 ∧ (s.homeLine 0x400).grants = []) ∧
    (let s := lineAs fun h => { h with cpend := true, hold := 6, emax := 5000 }
     (s.homeLine 0x400).hold &&& ~~~(BitVec.ofNat 8 (2 ^ 2)) ≠ 0 ∧ s.homeTime 0x400 < (s.homeLine 0x400).emax) ∧
    (let s : State := { aged base with copies := [⟨2, 0x400, 5, 99⟩] }
     (∃ c ∈ s.copies, c.die = 2 ∧ c.line = 0x400) ∧
      ∀ c ∈ s.copies, c.die = 2 → c.line = 0x400 → c.expiry ≤ (s.common 2).toNat + s.skew2 (homeDie 0x400) 2) ∧
    ((lineAs fun h => { h with ownerDie := some 3, state := .owned }).homeLine 0x400).ownerDie = some 3 ∧
    (Tab.find base.warps 2).isSome = true := by
  refine ⟨⟨?_, ?_, ?_, ?_⟩, ⟨?_, ?_⟩, ⟨?_, ?_⟩, ?_, ?_⟩ <;> decide +kernel

/-- ErrorsAndLosses: the dies are there; one of them has no block, and its lines are at rest; a live address space. -/
theorem witness_losses :
    (Tab.find base.dies 3).isSome = true ∧ base.blocksOn 3 = [] ∧
    (∀ e ∈ base.lines, homeDie e.1 = 3 → e.2.cpend = false) ∧ ((base.asid (base.frame (0x400 / 512)).owner).st = 1) ∧
    ((base.asid 1).gen < 0xFFFFF) ∧ (∀ e ∈ base.grids, e.2.asid = 1 ∧ e.2.fault = none) ∧ (8#8).toNat ≤ 8 ∧
    (let s : State := { base with lines := [(0x400, { HomeLine.enter 5 with state := .dirty }), (0x500, { HomeLine.enter 5 with ownerDie := some 3 })] }
     Tab.find s.lines 0x400 = some { HomeLine.enter 5 with state := .dirty } ∧
      Tab.find s.lines 0x500 = some { HomeLine.enter 5 with ownerDie := some 3 }) := by
  refine ⟨?_, ?_, ?_, ?_, ?_, ?_, ?_, ?_, ?_⟩ <;> decide +kernel

/-- DegreesOfRegions: an address beyond 48 bits; each form; a degree above 7; entries there, free, and none free. -/
def rdegI (sub : BitVec 6) (b : Src) : Instr := .rdeg gw (xw (.uni 4) (.uni 8) b noSrc sub)
def kept (deg : Nat) (pin : Bool) (rr wr coll : Nat) : Keeper := ⟨keeperDie 1 0, 1, 0, deg, pin, rr, wr, coll, 0⟩
def fullKeepers : State := { asking 0x20000 pair with keepers := List.replicate 8192 ⟨keeperDie 1 0, 1, 8, 3, true, 0, 0, 0, 0⟩ }

theorem witness_degrees :
    (asking 0x20000 pair).RunsOnce both (rdegI 0 noSrc) ∧ (asking 0x20000 pair).RunsOnce both (rdegI 1 (.imm 7)) ∧
    (asking 0x20000 pair).RunsOnce both (rdegI 2 noSrc) ∧ ((asking 0x20000 pair).pinRegion 1 0 7).2 = true ∧
    (asking (2 ^ 48) pair).RunsOnce both (rdegI 0 noSrc) ∧
    (let s := withUni [(10, 8)] (asking 0x20000 pair)
     s.RunsOnce both (rdegI 1 (.uni 10)) ∧ 7 < ((s.leadOps (rdegI 1 (.uni 10))).b.setWidth 32).toNat) ∧
    (64 ≤ (kept 3 false 0 0 64).coll ∧ (8 ≤ (kept 3 false 9 2 8).coll ∧ (kept 3 false 9 2 8).wr ≤ (kept 3 false 9 2 8).rr) ∧
      (64 ≤ (kept 3 false 64 16 7).rr ∧ 4 * (kept 3 false 64 16 7).wr ≤ (kept 3 false 64 16 7).rr) ∧
      ((kept 3 false 63 2 7).wr ≤ 63)) ∧
    (∃ k ∈ [kept 3 false 0 0 0], k.asid = 1 ∧ k.region = 0) := by
  refine ⟨once_of ?_, once_of ?_, once_of ?_, ?_, once_of ?_, ⟨once_of ?_, ?_⟩, ?_, ?_⟩ <;> decide +kernel

theorem witness_no_keeper : fullKeepers.keeperFor 1 0 = none ∧ fullKeepers.RunsOnce both (rdegI 1 (.imm 7)) := by
  have hk : fullKeepers.keepers = List.replicate 8192 ⟨keeperDie 1 0, 1, 8, 3, true, 0, 0, 0, 0⟩ := rfl
  refine ⟨?_, once_of (by decide +kernel)⟩
  simp only [State.keeperFor, hk, List.any_replicate, List.filter_replicate, Config.keeperEntries]
  decide +kernel

/-- A request of address space 1, and one of address space 5, which is free. -/
def req (asid va len : Nat) (attr : Word) : MemRequest := ⟨0, asid, BitVec.ofNat 64 va, BitVec.ofNat 64 len, 0, attr, 7, 0, none⟩
/-- Address space 1 with its tables and without grids; the page at 0x2_0000 mapped by its frame 2. -/
def managed : State := { withTables base with grids := [] }
def cold (n : Nat) (s : State) : State :=
  (s.setAsid 1 fun a => { a with cold := n, vbase := 0x20000, vlen := 0x10000 }).setFrame 2 fun f => { f with va := 0x20000 }

/-- MemoryRequests: an acceptable record in the ring, wherever the ring is; a request on each path. -/
def ringing : State :=
  let rec_ := leBytes 8 (8 + 2 ^ 16) ++ List.replicate 56 0
  { base with mem := { base.mem with mrLog2n := 4, mrTail := 1 }
              hbm := Memory.write base.hbm 128 rec_, hostMem := Memory.write base.hostMem 128 rec_ }

theorem witness_mr_accept :
    ringing.mrOn = true ∧ ringing.mem.mrRead.toNat < max ringing.mem.mrTail.toNat 0 ∧ (∀ e ∈ ringing.mreqs, e.2.req.slot = none) ∧
    base.mrOn = false ∧ ringing.mrChanging = false ∧ ringing.mem.mrRead.toNat < ringing.ringTail ∧ base.ringTail ≤ base.mem.mrRead.toNat ∧
    ∀ host, let f (o n : Nat) : Nat := ringing.peek host (ringing.mrSlot 0 + o) n
      let r : MemRequest := ⟨f 1 1, f 2 2, BitVec.ofNat 64 (f 8 8), BitVec.ofNat 64 (f 0x10 8), BitVec.ofNat 64 (f 0x18 8),
        BitVec.ofNat 32 (f 0x20 4), ringing.fe.nextSeq, BitVec.ofNat 64 (f 0x30 8), some 0⟩
      reqMsg (f 0 1) r = some (.setcold r) ∧ f 0x24 4 = 0 ∧ f 0x38 8 = 0 ∧ reqBad r = false := by
  refine ⟨?_, ?_, ?_, ?_, ?_, ?_, ?_, fun host => ?_⟩
  case refine_6 => unfold State.ringTail; generalize ringing.mrInHost = host; cases host <;> decide +kernel
  case refine_7 => unfold State.ringTail; generalize base.mrInHost = host; cases host <;> decide +kernel
  case refine_8 => cases host <;> refine ⟨?_, ?_, ?_, ?_⟩ <;> decide +kernel
  all_goals decide +kernel

theorem witness_requests :
    (let r := req 5 0 0 0
     managed.reqWaits r = false ∧ reqBad r = false ∧ attrBad r.attr = false ∧ (managed.allocTable 4096).2.fits = true ∧ managed.peek true (r.addr.toNat + 0x0D) 1 ≤ 2 ∧
      managed.peek true (r.addr.toNat + 0x10) 8 % 128 = 0 ∧ managed.peek true (r.addr.toNat + 0x0E) 2 = 0 ∧ managed.peek true (r.addr.toNat + 0x48) 56 = 0 ∧
      managed.peek true (r.addr.toNat + 0x30) 24 = 0 ∧ (managed.asid 5).st = 0 ∧
      (managed.asid 5).gen < 0xFFFFF ∧ managed.spare 1 = true ∧ (managed.asid 5).gen + 1 < 0xFFFFF) ∧
    (managed.reqCheck (req 1 0 0 0) false true = none ∧ managed.asidBusy 1 = false ∧ managed.canBump 1 = true ∧ base.asidBusy 1 = true ∧
      base.reqCheck (req 1 0 0 0) false true = none ∧ base.reqWaits (req 1 0 0 0) = false) ∧
    (let r := req 1 0x90000 0x10000 3
     managed.reqCheck r true true = none ∧ managed.leavesIn 1 0x90000 0x10000 = [] ∧ r.attr.getLsbD 2 = false ∧ r.attr.extractLsb' 5 2 = 0 ∧
      (managed.mapEach r (managed.asid 1).gen).fits = true ∧ (req 1 0x90000 0x10000 0x23).attr.extractLsb' 5 2 = 1 ∧
      managed.leaves 1 0x90000 0x10000 = none) ∧
    (let r := req 1 0x20000 0x10000 0
     managed.reqCheck r true true = none ∧ (managed.leaves 1 0x20000 0x10000).isSome = true ∧
      ((managed.leaves 1 0x20000 0x10000).getD []).all (fun l => !sticksOut r l && !managed.leafLeased 1 l && pteV l.e && pteR l.e) = true) ∧
    (let s := managed.setFrame 2 fun f => { f with lease := 1 }
     ((s.leaves 1 0x20000 0x10000).getD []).any (fun l => s.leafLeased 1 l) = true) := by
  refine ⟨⟨?_, ?_, ?_, ?_, ?_, ?_, ?_, ?_, ?_, ?_, ?_, ?_, ?_⟩, ⟨?_, ?_, ?_, ?_, ?_, ?_⟩, ⟨?_, ?_, ?_, ?_, ?_, ?_, ?_⟩, ⟨?_, ?_, ?_⟩, ?_⟩ <;> decide +kernel

/-- PagesAndSweeping: a resident page to move out; nothing to move; the sweeper on and off; frames to compress and to evict; an
acknowledgement that ends a bump. -/
def swept (free : Nat) : State := { managed with mem := { managed.mem with swFree := free, swHand := 2 } }

theorem witness_pages :
    (let r := req 1 0x20000 0x10000 0
     let s := cold 2 managed
     s.moveFixed r = none ∧ s.reqWaits r = false ∧ s.reqCheck r true true = none ∧
      ((s.leaves 1 0x20000 0x10000).getD []).all (fun l => pteV l.e && pteTgt l.e == 0 && l.log2 == 16 && !s.leafLeased 1 l) = true ∧
      (pageList 0x20000 0x10000).all (fun q => s.backed 1 q) = true ∧ s.canBump 1 = true ∧ s.spare 0 = true ∧
      ({ s with mem := { s.mem with swFree := 10 } } : State).spare 0 = false ∧
      ({ s with mreqs := [(4, ⟨r, none, 7, [0x20000], true, false, false, none, []⟩)] } : State).moveFixed r = some 1 ∧
      s.squeezed ((s.leaves 1 0x20000 0x10000).getD []) = [] ∧
      State.squeezed (s.setFrame 2 fun f => { f with state := 2, mlen := 4 }) ((s.leaves 1 0x20000 0x10000).getD []) = [2] ∧
      ({ s with lines := [(0x400, HomeLine.enter 5)] } : State).liveLeases 0x400 (HomeLine.enter 5) = []) ∧
    (let b : Bump := ⟨1, 1, [], [3], [2], []⟩
     let s : State := { managed with bumps := [b], net := [] }
     s.bumps = [b] ∧ 3 ∉ s.outstanding 1 b.gen ∧
      3 ∈ ({ s with net := [.sliceRead ⟨5, 2, 0, 3, 1, 0, 0x20004, 0x20004, false, 4, .b32, true, .vec 10 1, 0x10000, 8, false⟩] } : State).outstanding 1 b.gen ∧
      (3 ∈ ({ b with installs := [3] } : Bump).installs)) := by
  refine ⟨⟨?_, ?_, ?_, ?_, ?_, ?_, ?_, ?_, ?_, ?_, ?_, ?_⟩, ?_, ?_, ?_, ?_⟩ <;> decide +kernel

theorem witness_sweeper :
    (swept 20000).sweepOn = false ∧ (swept 100).sweepOn = true ∧
    (((swept 100).frame 2).state = 1 ∧ ((swept 100).frame 2).pin = false ∧ ((swept 100).frame 2).owner ≠ 0) ∧
    ((swept 100).setFrame 2 fun f => { f with accessed := true }).sweepOn = true ∧
    (let s := cold 1 (swept 100)
     s.eligible (s.frame 2) = true ∧ (s.frame 2).accessed = false ∧ s.mem.swQ.length < 1024 ∧ (s.asid (s.frame 2).owner).cold = 1) ∧
    (let s := cold 2 (swept 100)
     s.eligible (s.frame 2) = true ∧ (s.asid (s.frame 2).owner).cold = 2 ∧ s.canBump 1 = true ∧ s.mreqs = []) ∧
    (swept 100).eligible ((swept 100).frame 2) = false ∧
    ((swept 100).setFrame 2 fun f => { f with state := 4 }).frame 2 = { (swept 100).frame 2 with state := 4 } ∧
    (∀ e ∈ (swept 100).lines, e.1 / 512 = 2 → e.2.cpend = false ∧ (swept 100).liveLeases e.1 e.2 = []) ∧
    (swept 100).freeGranules 3 = some 0 ∧ ({ swept 100 with mem := { (swept 100).mem with moraine := 0 } } : State).freeGranules 3 = none ∧
    0 < (swept 100).mem.swFree ∧
    (let s := cold 2 (swept 100)
     s.opposed 1 0x20000 7 = false ∧
      ({ s with mreqs := [(4, ⟨req 1 0x20000 0x10000 0, none, 6, [0x20000], false, false, false, none, []⟩)] } : State).opposed 1 0x20000 7 = true) := by
  refine ⟨?_, ?_, ⟨?_, ?_, ?_⟩, ?_, ⟨?_, ?_, ?_, ?_⟩, ⟨?_, ?_, ?_, ?_⟩, ?_, ?_, ?_, ?_, ?_, ?_, ?_, ?_⟩ <;> decide +kernel

/-! ### Rendezvous, tasks, grids and blocks -/

/-- No issue in progress and nothing on its way. -/
def quiet : State := { base with issue := none, net := [] }
/-- Warp 2 alone in its block, with `n` threads. -/
def narrow (n : Nat) (s : State) : State :=
  (s.setWarp 2 fun w => { w with threads := w.threads.take n }).setBlock 1 fun b => { b with warps := [2], wpc := 1 }
def arriving (t : TRef) (pos : DWord) (s : State) : State := s.setThread t fun th => { th with pos := pos, arrival := some ⟨1, true, .warp, none, none⟩ }
/-- Warp 2, alone in its block and with one thread, stands at the named BAR 3 (the word 0x9800097C). -/
def barring : State :=
  (narrow 1 (clause 0xE5A 0x9800097C quiet)).setThread t0 fun th => { th with pos := 0x10000, arrival := some ⟨1, true, .block, none, some 3⟩ }
/-- The instruction at a thread is ready for every member. -/
def readyB (s : State) (t : TRef) (ms : List TRef) : Bool :=
  match s.fetchOf t with
  | .ok f => ms.all fun u => (s.warp u.warp).flagsSet f.waits && (s.deferredAt u f.waits).isNone &&
      (s.emptyTrap u f.instr.form).isNone && s.full u f.instr.form
  | .error _ => false

/-- RendezvousEnd: one thread that is the whole instance, and one whose 31 fellows have not come; two threads that wait at different
positions; a stamped request; a REGCLAIM that its pool covers, and one that it does not. -/
theorem witness_rendezvous :
    (let s := arriving t0 0x10000 (narrow 1 quiet)
     (s.thread t0).arrival = some ⟨1, true, .warp, none, none⟩ ∧ (s.thread t0).exited = false ∧ (s.thread t0).wait = none ∧
      s.members ⟨1, true, .warp, none, none⟩ 2 = [t0] ∧ s.gathered t0 ⟨1, true, .warp, none, none⟩ = true ∧ s.mayIssue t0 = true ∧
      s.stopped t0 = false ∧ s.issue = none ∧ readyB s t0 [t0] = true) ∧
    (arriving t0 0x10000 quiet).gathered t0 ⟨1, true, .warp, none, none⟩ = false ∧
    (arriving t1 0x10020 (arriving t0 0x10000 (narrow 2 quiet))).stuckNarrow 1 = [[2]] ∧
    (let s := waiting (.stamped none) 2 t0 (narrow 1 quiet)
     s.stampedOf 0 = [(9, ⟨.stamped none, 2, [t0], 0x10000, 0x10001, 9⟩)] ∧ s.issue = none ∧ s.stampedOut 0 = false ∧
      (s.warp 2).suspended = none ∧ (∀ v ∈ s.gridWarps 0 0, v = 2 ∨ s.outOfWay v = true ∨ (s.warp 2).stampLt (s.warp v) = true) ∧
      s.stopped t0 = false ∧ ([t0].filter fun u => (s.thread u).wait == some 9).head? = some t0 ∧
      isOkB ((s.unpark 9).fetchOf t0) = true) ∧
    (let s := waiting (.regclaim 320) 2 t0 (holding 64 quiet)
     Tab.find s.waits 9 = some ⟨.regclaim 320, 2, [t0], 0x10000, 0x10001, 9⟩ ∧ (Tab.find s.warps 2).isSome = true ∧
      (pooled 40 s).poolHas 2 320 = true ∧ (pooled 3 s).poolHas 2 320 = false) := by
  refine ⟨⟨?_, ?_, ?_, ?_, ?_, ?_, ?_, ?_, ?_⟩, ?_, ?_, ⟨?_, ?_, ?_, ?_, ?_, ?_, ?_, ?_⟩, ?_, ?_, ?_, ?_⟩ <;> decide +kernel

/-- NamedBarrierOpens. -/
theorem witness_named_barrier :
    let s1 := barring.barArrive 1 3 (barring.block 1).warps
    barring.issue = none ∧ s1.barReady 1 3 = some [2] ∧ (s1.live [2]).head? = some t0 ∧ s1.atBarrier 3 t0 = true ∧
      t0.warp ∈ (s1.block 1).warps ∧ s1.complete t0 = some [t0] ∧ s1.partsFree [t0] = true ∧ isOkB (s1.fetchOf t0) = true := by
  refine ⟨?_, ?_, ?_, ?_, ?_, ?_, ?_, ?_⟩ <;> decide +kernel

/-- TasksEnd: a lend accepted in time, one that expires; a task whose writes are over, and one whose are not; a migration for which a
cairn slot is free, one for which none is; its deadline. -/
def lend0 (thief : Nat) : Lend := ⟨0, false, thief, 0, 9, 5000, List.replicate 64 0⟩
def lent (thief : Nat) : State :=
  let s := waiting (.fetchTask 4) 2 t0 (stored 0x20810 (leBytes 4 (1 + 2 ^ 16 * thief)) (tasked quiet))
  { s with fe := { s.fe with lends := [(0, lend0 thief)] } }
def lendAt (s : State) (l : Lend) : Nat :=
  match s.fePlace (s.grid l.grid).asid ((s.grid l.grid).deque l.victim l.data) false with
  | some (false, pa) => s.homeTime (pa / 128)
  | _ => s.now
def migrating (dl : Option Nat) : State := aged (waiting (.migrate 1 0x22000 1 dl) 2 t0 quiet)

theorem witness_tasks_end :
    (let s := lent 0
     Tab.find s.fe.lends 0 = some (lend0 0) ∧ Tab.find s.waits 9 = some ⟨.fetchTask 4, 2, [t0], 0x10000, 0x10001, 9⟩ ∧
      (s.warp 2).core = 0 ∧ (s.feRead 1 ((s.grid 0).deque 0 false + 0x10) 1).getD 0 % 2 = 1 ∧
      (s.feRead 1 ((s.grid 0).deque 0 false + 0x12) 2).getD 0 = 0 ∧ lendAt s (lend0 0) + 20 < 5000 ∧ (s.grid 0).fault = none) ∧
    (let s := aged (aged (lent 0))
     let late : State := { s with dies := s.dies.map fun e => (e.1, { e.2 with cnt := 9000 }) }
     5000 + 20 ≤ lendAt late (lend0 0)) ∧
    (let s := aged (quiet.setWarp 2 fun w => { w with task := some ⟨List.replicate 64 0, 0⟩ })
     (s.warp 2).task = some ⟨List.replicate 64 0, 0⟩ ∧ s.warpReleased 2 = true ∧
      (s.setWarp 2 fun w => { w with stores := [⟨3, 0, false, 0x20000, 4, .blk, 0, false, false⟩] }).warpReleased 2 = false) ∧
    (let s := migrating none
     Tab.find s.waits 9 = some ⟨.migrate 1 0x22000 1 none, 2, [t0], 0x10000, 0x10001, 9⟩ ∧ (Tab.find s.warps 2).isSome = true ∧
      s.look 0 1 0x22000 = some dataPage ∧ (s.cairnFor 1 (homeSlice (0x22000 / 128))).isSome = true) ∧
    (let s := migrating (some 900)
     Tab.find s.waits 9 = some ⟨.migrate 1 0x22000 1 (some 900), 2, [t0], 0x10000, 0x10001, 9⟩ ∧ 900 ≤ (s.common (dieOfCore 0)).toNat ∧
      (s.common (dieOfCore 0)).toNat < 2000 ∧ ({ s with dies := s.dies.map fun e => (e.1, { e.2 with lost := true }) } : State).cairnFor 1 0 = none) := by
  refine ⟨⟨?_, ?_, ?_, ?_, ?_, ?_, ?_⟩, ?_, ⟨?_, ?_, ?_⟩, ⟨?_, ?_, ?_, ?_⟩, ?_, ?_, ?_, ?_⟩ <;> decide +kernel

/-! ### Grids and blocks -/

def waitingGrid (f : Grid → Grid) : State :=
  quiet.setGrid 0 fun gr => f { gr with state := .waitingPlacement, toPlace := [1], wpb := 1, cpb := 1, blocks := 2, seq := 1 }
/-- Every die of the package lost. -/
def dark (s : State) : State := { s with dies := s.dies.map fun e => (e.1, { e.2 with lost := true }) }
/-- Block 1 with one thread, no scratchpad and eight registers. -/
def small : State := holding 8 ((narrow 1 quiet).setBlock 1 fun b => { b with scratch := 0 })
/-- Block 1 run for a while. -/
def ran (s : State) : State := s.setBlock 1 fun b => { b with prog := 100 }
def copy0 (kind : Nat) (started : Bool) : CopyOp :=
  ⟨5, 2, 1, 1, 0, some 0, 0x10000, kind, false, false, false, .b32, .rn, false, 0, [], [], [], [], [], 0, 0, 0, none, started, false, [], 0, 0, none⟩
def copying (o : CopyOp) (s : State) : State := s.setCore 0 fun c => { c with copies := [o] }
/-- A second grid that waits with a bound on its latency, and of a higher priority. -/
def bounded : State :=
  let s := dark quiet
  let pk := List.replicate 0x28 0 ++ leBytes 4 100 ++ List.replicate 84 0
  let gr : Grid := { s.grid 0 with state := .waitingPlacement, toPlace := [0], wpb := 1, cpb := 1, prio := 5, packet := pk }
  let s1 : State := { s with grids := Tab.put s.grids 4 gr, nextId := 5 }
  s1.setDie 0 fun d => { d with lost := false }

theorem witness_grids :
    (let s := waitingGrid id
     (Tab.find s.grids 0).isSome = true ∧ (s.grid 0).waits = true ∧ (s.grid 0).det = false ∧ (s.grid 0).toPlace = [1] ∧
      (s.turnOf fun e => e.record.isNone && e.grid == 0) = true ∧ (s.coresFor 0).isSome = true) ∧
    (let s := dark (waitingGrid id)
     (s.turnOf fun e => e.record.isNone && e.grid == 0) = true ∧ s.coresFor 0 = none) ∧
    ((quiet.setGrid 0 fun gr => { gr with blocks := 1, doneBlocks := 1 }).gridDone 0 = true ∧ quiet.gridDone 0 = false) ∧
    ((quiet.grid 0).state ≠ .ending ∧ quiet.enginesDone 0 = true ∧ (copying (copy0 0 true) quiet).enginesDone 0 = false ∧
      (quiet.grid 0).fault = none) ∧
    (let s := bounded
     (s.grid 4).waits = true ∧ (s.grid 4).latb ≠ 0 ∧ s.fe.peEn = true ∧ (s.grid 4).fault = none ∧ s.net = [] ∧
      (s.provisional 4).isSome = true) ∧
    (let s := ran small
     (Tab.find s.blocks 1).isSome = true ∧ s.decision [1] 0 false = 2 ∧
      (s.setWarp 2 fun w => { w with idem := true }).decision [1] 0 false = 1) ∧
    (let s := quiet.setBlock 1 fun b => { b with drain := some 900, mark := some 0 }
     (s.block 1).stopping = none ∧ s.now < 900 ∧ 900 ≤ (aged s).now) := by
  refine ⟨⟨?_, ?_, ?_, ?_, ?_, ?_⟩, ⟨?_, ?_⟩, ⟨?_, ?_⟩, ⟨?_, ?_, ?_, ?_⟩, ⟨?_, ?_, ?_, ?_, ?_, ?_⟩, ⟨?_, ?_, ?_⟩, ?_, ?_, ?_⟩ <;> decide +kernel

/-- BlocksMove: every thread at a clause's start; a store that is not over; a heap with room, and one without; a record of the block. -/
def saving (s : State) : State := s.setBlock 1 fun b => { b with stopping := some 1 }
def recorded : State :=
  let v := small.snapshot 1
  let s : State := { quiet with fe := { quiet.fe with saved := [(7, v)] }, blocks := [], warps := [] }
  s
def cmpKey : MonKey := ⟨1, 0x20004, false, false, .eq, 1⟩
def idle : State :=
  let s := (narrow 1 quiet).setBlock 1 fun b => { b with idleSince := some 0 }
  waiting (.cmp cmpKey false none 1 0) 2 t0 s

theorem witness_blocks :
    (let s := quiet.startFlush 1
     (quiet.grid 0).fault = none ∧ s.allStopped 1 = true ∧ s.flushed 1 = true ∧ (base.startFlush 1).allStopped 1 = false ∧
      (s.setWarp 2 fun w => { w with stores := [⟨3, 0, false, 0x20000, 4, .blk, 0, false, false⟩] }).flushed 1 = false) ∧
    (let s := saving small
     Tab.find s.blocks 1 = some (s.block 1) ∧ (s.block 1).stopping = some 1 ∧ (s.grid 0).det = false ∧ s.allStopped 1 = true ∧
      s.drained 1 = true ∧ Tab.find s.fe.saved s.nextId = none ∧ (saving base).allStopped 1 = false ∧
      (∃ r ∈ s.heapFree, (s.firnBytes false true (s.snapshot 1)).length ≤ r.2) ∧
      ∀ r ∈ State.heapFree { s with fe := { s.fe with peHeapSize := 0 } }, r.2 < (s.firnBytes false true (s.snapshot 1)).length) ∧
    (let s := recorded
     (∃ v, Tab.find s.fe.saved 7 = some v ∧ v.queued = true) ∧
      (s.turnOf fun e => e.record == some 7 || (e.record.isSome && e.grid == 0 && (s.grid 0).det)) = true ∧
      (s.coresForSaved 7).isSome = true ∧ (dark s).coresForSaved 7 = none ∧
      ((dark s).turnOf fun e => e.record == some 7 || (e.record.isSome && e.grid == 0 && (s.grid 0).det)) = true ∧
      Msg.restore 7 ∉ s.net) ∧
    (let s := idle
     s.mem.yldt ≠ 0 ∧ (s.block 1).stopping = none ∧ (s.block 1).idleSince = some 0 ∧ s.allWaiting 1 = true ∧
      s.now < 0 + s.mem.yldt ∧ 0 + s.mem.yldt ≤ State.now { s with dies := s.dies.map fun e => (e.1, { e.2 with cnt := 9000 }) }) := by
  refine ⟨⟨?_, ?_, ?_, ?_, ?_⟩, ⟨?_, ?_, ?_, ?_, ?_, ?_, ?_, ?_, ?_⟩, ⟨⟨_, rfl, ?_⟩, ?_, ?_, ?_, ?_, ?_⟩, ?_, ?_, ?_, ?_, ?_, ?_⟩ <;> decide +kernel

/-! ### The front end -/

/-- QUEUE_CREATE's descriptor: a ring at 0x2_1000, a control word at 0x2_1800, a status line at 0x2_1880, address space 1, 16 slots. -/
def fronted : State :=
  let s : State := withTables { quiet with grids := [] }
  { s with fe := { s.fe with qdesc := [(0, 0x21000), (1, 0x21800), (2, 0x21880), (3, 1 + 2 ^ 16 * 4)] } }
def queue0 (ps : List Packet) : Queue := ⟨0x21000, 0x21800, 0x21880, 1, 4, 0, 0, 1, 0, 0, none, [], ps, some 0, 0, 0, 0⟩
/-- A packet of a type with fields at offset 8. -/
def packet0 (type : Nat) (fields : List Byte) : Packet := ⟨0, 1, leBytes 8 type ++ fields ++ List.replicate (120 - fields.length) 0, 0, false, false, none, none⟩
def queued (q : Queue) (s : State) : State := { s with fe := { s.fe with queues := [(3, q)], nextSeq := 2 } }

theorem witness_queue_commands :
    (let s := fronted
     descOk s.qdescBytes = true ∧ (s.asid (Queue.ofDesc s.qdescBytes 0 s.now).asid).st = 1 ∧
      s.feBoth 1 (Queue.ofDesc s.qdescBytes 0 s.now).ctrl = true ∧ s.feBoth 1 (Queue.ofDesc s.qdescBytes 0 s.now).stat = true ∧
      s.queue? 3 = none ∧ descOk quiet.qdescBytes = false ∧ (s.feReach 1 false [(0x21800, 8)]).2 = true) ∧
    (let s := queued (queue0 []) fronted
     (s.queue? 3).isSome = true ∧ (∀ g ∈ s.grids, g.2.queue ≠ 3) ∧ (queue0 []).packets = [] ∧ (queue0 [packet0 3 []]).packets ≠ [] ∧
      (queue0 []).held = [] ∧ ({ queue0 [] with held := [⟨1, 0, 1, 0⟩] } : Queue).held ≠ []) := by
  refine ⟨⟨?_, ?_, ?_, ?_, ?_, ?_, ?_⟩, ?_, ?_, ?_, ?_, ?_, ?_⟩ <;> decide +kernel

/-- The frame of 0x2_0000 is compressed: what FE reaches there waits (R80, R95). -/
def squeezed (s : State) : State := s.setFrame 2 fun f => { f with state := 2, mlen := 4 }

theorem witness_packets :
    ((queued (queue0 []) fronted).feReach 1 false [(0x21800, 8)]).2 = true ∧ ((queued (queue0 []) (squeezed fronted)).feReach 1 false [(0x21800, 8)]).2 = false ∧
    ((stored 0x21000 (leBytes 8 3) (queued (queue0 []) fronted)).feReach 1 false [(0x21000, 128)]).2 = true ∧
    (let s := queued (queue0 []) fronted
     max (7 : DWord).toNat ((s.feRead 1 0x21800 8).getD 0) > (queue0 []).tail.toNat ∧ (queue0 []).rdidx.toNat < (queue0 []).tail.toNat ∧
      (let t := stored 0x21000 (leBytes 8 3) s
       (t.feBytes 1 0x21000 128).isSome = true ∧ field ((t.feBytes 1 0x21000 128).getD []) 0 1 ≠ 0 ∧
        (field ((t.feBytes 1 0x21000 128).getD []) 4 4 + 2 ^ 32 - (queue0 []).rdidx.toNat % 2 ^ 32) % 2 ^ 32 = 0) ∧
      (let t := stored 0x21000 (leBytes 4 3 ++ leBytes 4 100) s
       2 ^ 4 ≤ (field ((t.feBytes 1 0x21000 128).getD []) 4 4 + 2 ^ 32 - (queue0 []).rdidx.toNat % 2 ^ 32) % 2 ^ 32) ∧
      (({ queue0 [] with ring := 0x90000 } : Queue).slotVa = 0x90000 ∧ s.feBytes 1 0x90000 128 = none)) ∧
    (let p := packet0 3 []
     let q := queue0 [p]
     let s := queued q fronted
     s.packet? 3 1 = some p ∧ p.started = false ∧ q.mayStart p = true ∧ s.net = [] ∧ field p.bytes 0 4 < 2 ^ 10 ∧ p.type = 3 ∧
      ({ q with mapped := none } : Queue).mayStart p = false ∧
      (let t := queued { q with mapped := none } fronted
       (t.fe.queues.filter fun e => e.2.pending) = [(3, { q with mapped := none })] ∧ t.freeSlot.isSome = true)) := by
  refine ⟨?_, ?_, ?_, ⟨?_, ?_, ⟨?_, ?_, ?_⟩, ?_, ?_, ?_⟩, ?_, ?_, ?_, ?_, ?_, ?_, ?_, ?_, ?_⟩ <;> decide +kernel

/-- PacketEffects: one signal that is 0, and one that is not; a deadline passed; a signal's address that is not aligned. -/
theorem witness_signals :
    (let p := packet0 2 (leBytes 8 1 ++ leBytes 8 0x22000)
     let s := queued (queue0 [p]) fronted
     field p.bytes 8 1 = 1 ∧ field p.bytes 9 1 ≤ 1 ∧ zeros p.bytes 10 2 = true ∧ zeros p.bytes 0x40 64 = true ∧
      (∀ k, k < 6 → k < 1 ∨ zeros p.bytes (0x10 + 8 * k) 8 = true) ∧ p.signals = [0x22000] ∧ s.feReadable 1 0x22000 = true ∧
      s.signalsMet 1 p = true ∧ (stored 0x22000 [1] s).signalsMet 1 p = false ∧ field p.bytes 0x0C 4 = 0 ∧
      ({ p with deadline := some 900 } : Packet).deadline = some 900 ∧ s.now < 900 ∧ 900 ≤ (aged s).now ∧
      (s.feReach 1 false (p.signals.map fun va => (va.toNat, 8))).2 = true) ∧
    (let p := packet0 3 (leBytes 8 0x22000)
     field p.bytes 0x10 1 ≤ 1 ∧ zeros p.bytes 0x11 7 = true ∧ zeros p.bytes 0x20 96 = true ∧ (0x22000#64).toNat % 8 = 0 ∧
      (fronted.fePlace 1 0x22000 true).isSome = true ∧ (0x22004#64).toNat % 8 ≠ 0 ∧
      (fronted.feReach 1 true [(0x22000, 8)]).2 = true ∧ ((squeezed fronted).feReach 1 true [(0x22000, 8)]).2 = false) ∧
    zeros (packet0 5 []).bytes 8 120 = true := by
  refine ⟨⟨?_, ?_, ?_, ?_, ?_, ?_, ?_, ?_, ?_, ?_, ?_, ?_, ?_, ?_⟩, ⟨?_, ?_, ?_, ?_, ?_, ?_, ?_, ?_⟩, ?_⟩ <;> decide +kernel

/-- A code object: one clause with an EXIT, a kernel descriptor of 8 registers, and the clause's row of liveness. -/
def object : List Byte :=
  leBytes 4 0x4C41494E ++ leBytes 2 1 ++ leBytes 2 3 ++ leBytes 8 64 ++ List.replicate 48 0
    ++ (leBytes 8 1 ++ leBytes 8 160 ++ leBytes 8 16 ++ leBytes 8 8) ++ (leBytes 8 4 ++ leBytes 8 176 ++ leBytes 8 128 ++ leBytes 8 8)
    ++ (leBytes 8 5 ++ leBytes 8 304 ++ leBytes 8 64 ++ leBytes 8 8)
    ++ (leBytes 8 0x1E5A ++ leBytes 8 0x670) ++ (List.replicate 16 0 ++ leBytes 8 8 ++ List.replicate 16 0 ++ leBytes 8 1 ++ List.replicate 80 0)
    ++ List.replicate 64 0
/-- A module with its code on the page 0x1_0000 and the kernel descriptor at 0x2_2080. -/
def moduled : State :=
  let s := stored 0x22080 ((object.drop 176).take 128) (stored 0x43008 (leBytes 8 (mkPte true true true false true false 0 0x10000)) fronted)
  { s with fe := { s.fe with modules := [⟨1, 0x10000, 0x20000, [(1, 0x10000, 16), (4, 0x22080, 128)]⟩] } }
def launcher : Packet :=
  packet0 1 (leBytes 8 0x22080 ++ leBytes 8 0 ++ leBytes 4 1 ++ leBytes 4 1 ++ leBytes 4 1 ++ leBytes 2 1 ++ List.replicate 10 0 ++
    leBytes 8 0x22000 ++ leBytes 8 1)
def launching : State := stored 0x22000 (leBytes 8 0x20000 ++ leBytes 8 1) moduled

theorem witness_objects :
    objCheck object = none ∧ placedEnd (placeSections object 0x100000) 0x100000 ≤ 0x100000 + 0x40000 ∧
    fronted.rangeMapped 1 0x100000 0x40000 = none ∧ isOkB (loadChecks object (placeSections object 0x100000)) = true ∧
    objCheck (object.drop 1) = some 0 ∧
    isOkB (loadChecks (object.take 160 ++ object.drop 168) (placeSections (object.take 160 ++ object.drop 168) 0x100000)) = false ∧
    (fronted.spare ((placedEnd (placeSections object 0x100000) 0x100000 - 0x100000) / 65536)) = true ∧
    ((placeSections object 0x100000).foldl (fun s p => s.mapSection 1 p) fronted).fits = true := by
  refine ⟨?_, ?_, ?_, ?_, ?_, ?_, ?_, ?_⟩ <;> decide +kernel

theorem witness_launch :
    (launching.feReach 1 false [(field launcher.bytes 8 8, 128), (field launcher.bytes 0x30 8, 16 * field launcher.bytes 0x38 1)]).2 = true ∧
    (let s := queued (queue0 [launcher]) launching
     let s0 := (s.feReach 1 false [(field launcher.bytes 8 8, 128), (field launcher.bytes 0x30 8, 16 * field launcher.bytes 0x38 1)]).1
     (match s0.launchCheck 1 launcher.bytes with
      | .ok plan => (s0.newGrid 1 3 1 launcher plan).fits && (s0.newGrid 1 3 1 launcher plan).spare
          ((rangePages plan.ranges).filter fun r => s0.pageAt 1 r.1 == .away).length
      | .error _ => false) = true) ∧
    isOkB (launching.launchCheck 1 launcher.bytes) = true ∧ isOkB (fronted.launchCheck 1 launcher.bytes) = false ∧ launcher.grid = none ∧
    (queued (queue0 [launcher]) launching).packet? 3 1 = some launcher ∧
    (let s := stored 0x22000 (leBytes 8 0x20000 ++ leBytes 8 1) (withTables quiet)
     let s := s.setGrid 0 fun gr => { gr with asid := 1, state := .waitingLeases, packet := launcher.bytes }
     isOkB (s.ranges 1 launcher.bytes) = true ∧
      ((rangePages [(0x20000, 1, false)]).foldl (fun s p => s.leasePage 0 p.1 p.2 false) s).allLeased 0 (rangePages [(0x20000, 1, false)]) = true) := by
  refine ⟨?_, ?_, ?_, ?_, ?_, ?_, ?_, ?_⟩ <;> decide +kernel

theorem witness_routine_load :
    (let p := packet0 4 (leBytes 8 0x22000 ++ leBytes 8 64 ++ leBytes 8 0x100000 ++ leBytes 8 0x40000 ++ leBytes 8 0x23000)
     field p.bytes 0x18 8 = 0x100000 ∧ field p.bytes 0x20 8 = 0x40000 ∧ 0x100000 % 65536 = 0 ∧ 0x40000 % 65536 = 0 ∧ (fronted.feReach 1 false [(0x22000, 64)]).2 = true ∧
      0x100000 + 0x40000 ≤ 2 ^ 48 ∧ zeros p.bytes 0x30 80 = true ∧ (fronted.feBytes 1 0x22000 64).isSome = true ∧
      (fronted.fePlace 1 (BitVec.ofNat 64 (field p.bytes 0x28 8)) true).isSome = true ∧
      (fronted.fePlace 1 (BitVec.ofNat 64 (field p.bytes 0x28 8) + 127) true).isSome = true) := by
  refine ⟨?_, ?_, ?_, ?_, ?_, ?_, ?_, ?_, ?_, ?_⟩ <;> decide +kernel

/-- EventsWritten: a ring of 16 slots with room, and full; the three kinds of event; events held and none. -/
def ring0 (wr : DWord) : EventRing := ⟨0x60000, true, 5, 4, 0, 0, wr, 0, [], []⟩
def evented (wr : DWord) : State := { quiet with fe := { quiet.fe with ev := ring0 wr } }
def event0 (type : Nat) : EventRec := ⟨type, 3, 0, 1, 0, 0⟩

theorem witness_events :
    (ring0 3).room = true ∧ (ring0 16).room = false ∧ (event0 2).type = 2 ∧ (event0 3).type = 3 ∧ (event0 1).type = 1 ∧
    (ring0 16).stale.length < 512 ∧ 512 ≤ ({ ring0 16 with stale := List.replicate 512 (event0 2) } : EventRing).stale.length ∧
    (ring0 16).losses.length < 64 ∧ (queued (queue0 []) quiet).queue? (event0 1).qid = some (queue0 []) ∧
    (evented 3).heldEvents = [] ∧ (evented 3).Canonical ∧ (ring0 3).host = true ∧
    (let s : State := { withTables quiet with fe := { quiet.fe with ev := { ring0 3 with base := 0x20000, host := false } } }
     let s0 := (s.setAsid 0 fun a => { a with root := 0x40000, st := 1 }).setFrame 2 fun f => { f with owner := 0 }
     s0.evReach.2 = true ∧ (squeezed s0).evReach.2 = false) := by
  refine ⟨?_, ?_, ?_, ?_, ?_, ?_, ?_, ?_, ?_, ?_, ⟨?_, ?_⟩, ?_, ?_, ?_⟩ <;> decide +kernel

/-! ### Routines, monitors and copies -/

/-- RoutineSteps: an atomic add to a line at its home and to one lent out; a rejected one; a return; a routine's fault; two requests. -/
def invoc (rid pa core : Nat) (ret : Option Nat) : Invocation :=
  ⟨7, 2, 0, core, 1, 0, 0, BitVec.ofNat 64 pa, pa, rid, 4, 1, 0, 0, 0, false, ret, .dev, 0, 0⟩
def requesting (reqs : List RtReq) (s : State) : State := waiting (.routineReq 5 (.uni 4)) 2 t0 { s with rtReqs := reqs }

theorem witness_routines :
    (let v := invoc 3 0x20004 (homeDie 0x400 * 18) (some 10)
     v.batch = 0 ∧ v.rid < 16 ∧ quiet.admits 1 0 0x20004 ∧ quiet.runsAtHome v 0x400 = true ∧
      Msg.routineInvocation v ∉ quiet.net ∧ (quiet.die (homeDie 0x400)).lost = false ∧ expectsReturn v = true ∧
      quiet.rejects 1 0 0x90004 ∧ quiet.batchMates v = [] ∧
      (match (quiet.freeLine v 0x400).frameCheck 1 0 0x20004 true with
        | .serve s1 => s1.runsAtHome v 0x400
        | _ => false) = true ∧
      (match (quiet.freeLine v 0x400).frameCheck 1 0 0x90004 true with
        | .stale => true
        | _ => false) = true ∧
      (({ quiet with lines := [(0x400, { HomeLine.enter 5 with ownerDie := some 3 })] } : State).homeLine 0x400).ownerDie = some 3) ∧
    ((invoc 3 0x20004 0 (some 10)).ret = some 10 ∧ Tab.find quiet.warps 2 = some (quiet.warp 2) ∧ SMap.wf 0 (quiet.warp 2).regs = true ∧
      SMap.wf false (quiet.warp 2).empty = true ∧ (invoc 3 0x20004 0 none).ret = none ∧ quiet.invocationWait 7 = none) ∧
    (let q := rtReq true 20
     let s := requesting [q] quiet
     s.rtReqs.find? (fun o => o.id == 5) = some q ∧ (∀ o ∈ s.rtReqs, o.asid = 1 → 1 ≤ o.seq) ∧
      Tab.find s.waits 9 = some ⟨.routineReq 5 (.uni 4), 2, [t0], 0x10000, 0x10001, 9⟩ ∧ SMap.wf 0 (s.warp 2).uregs = true ∧
      SMap.wf 0 s.rtVers = true ∧ (s.rtSpans q).2 = true ∧
      ((squeezed ((withTables (requesting [q] quiet)).setAsid 1 fun a => { a with rtab := 0x20100 })).rtSpans q).2 = false ∧
      ∃ o ∈ (requesting [q, { q with id := 4, seq := 0 }] quiet).rtReqs, o.asid = 1 ∧ o.seq < 1) := by
  unfold State.admits State.rejects
  refine ⟨⟨?_, ?_, ?_, ?_, ?_, ?_, ?_, ?_, ?_, ?_, ?_, ?_⟩, ⟨?_, ?_, ?_, ?_, ?_, ?_⟩, ?_, ?_, ?_, ?_, ?_, ?_, ?_, ?_⟩ <;> decide +kernel

/-- WaitsAndWakes, MonitorSteps: an armed wait; a poll before and after its time, of a condition that holds and of one that does not;
a deadline; a cancel with one acknowledgement to come, and with two. -/
def keyOf (v : DWord) : MonKey := ⟨1, 0x20004, false, false, .eq, v⟩
def polling (v : DWord) (polled : Bool) (dl : Option Nat) (next : Nat) : State := aged (waiting (.cmp (keyOf v) polled dl 1 next) 2 t0 quiet)
def cancelling (left : Nat) : State :=
  let s := waiting (.moncan left) 3 ⟨3, 0⟩ quiet
  { s with waits := (8, ⟨.cmp (keyOf 1) false none 1 0, 2, [t0], 0x10000, 0x10001, 8⟩) :: s.waits
           monitors := [⟨homeSlice 0x400, keyOf 1, [0], [some 8]⟩] }

theorem witness_monitors :
    (let s := polling 1 false none 0
     s.savedOn (fun k => k == keyOf 1) = [] ∧
      s.waits.filter (s.armedWait (keyOf 1) 0) = [(9, ⟨.cmp (keyOf 1) false none 1 0, 2, [t0], 0x10000, 0x10001, 9⟩)]) ∧
    (let s := polling 0 true none 900
     Tab.find s.waits 9 = some ⟨.cmp (keyOf 0) true none 1 900, 2, [t0], 0x10000, 0x10001, 9⟩ ∧ 900 ≤ (s.common 0).toNat ∧
      (s.common 0).toNat < 2000 ∧ (s.pollKey (keyOf 0) 0 (s.genAt 0 1) 0).2 = some true ∧ (s.pollKey (keyOf 1) 0 (s.genAt 0 1) 0).2 = none ∧
      (s.pollKey { keyOf 0 with pa := 0x90004 } 0 (s.genAt 0 1) 0).2 = some false ∧
      (s.pollKey { keyOf 0 with host := true, pa := 0x50004 } 0 (s.genAt 0 1) 0).2 = some true ∧
      ((squeezed s).pollKey (keyOf 0) 0 (s.genAt 0 1) 0).2 = none) ∧
    (Tab.find (polling 0 true (some 900) 900).waits 9 = some ⟨.cmp (keyOf 0) true (some 900) 1 900, 2, [t0], 0x10000, 0x10001, 9⟩) ∧
    (((cancelling 1).waits.map (·.1)).Nodup ∧ Tab.find (cancelling 1).waits 9 = some ⟨.moncan 1, 3, [⟨3, 0⟩], 0x10000, 0x10001, 9⟩ ∧
      (cancelling 1).cancelled 1 (placeNo false 0x20004) (some 0) none = [8] ∧
      (cancelling 1).cancelled 1 (placeNo false 0x20004) none none = [8] ∧
      Tab.find (cancelling 2).waits 9 = some ⟨.moncan 2, 3, [⟨3, 0⟩], 0x10000, 0x10001, 9⟩) := by
  refine ⟨⟨?_, ?_⟩, ⟨?_, ?_, ?_, ?_, ?_, ?_, ?_, ?_⟩, ?_, ?_, ?_, ?_, ?_, ?_⟩ <;> decide +kernel

/-- CopiesMove, CopySteps: QCWSET on a quiet ring and on one that fills; a fill of the scratchpad, and of a tensor of four words at
0x2_0000 in a line that is leased; a warp with a write that its home has not applied; a copy that has moved; a push into a ring with room, and into a full one. -/
def copyB (kind : Nat) (started : Bool) (token : Option Nat) : CopyOp :=
  ⟨5, 2, 1, 1, 0, token, 0x10000, kind, false, false, kind == 4, .b32, .rn, false, 0, [], [], [0, 0, 0, 0, 0], [4, 1, 1, 1, 1], [0, 0, 0, 0, 0], 7,
    0, 0x10, none, started, false, [], 0, 0, none⟩
def tensor0 : List Byte :=
  leBytes 8 0x20000 ++ leBytes 8 0x100 ++ leBytes 4 4 ++ List.replicate 38 0 ++ leBytes 1 1 ++ leBytes 1 2 ++ List.replicate 4 0
def withCopy (o : CopyOp) (s : State) : State := s.setCore 0 fun c => { c with copies := [o] }
def filler : State := withCopy (copyB 3 false (some 0)) quiet
def storer : State := withCopy { copyB 3 false (some 0) with store := true, entry := tensor0 }
  { withTables quiet with lines := [(0x400, { HomeLine.enter 5 with hold := 2, emax := 5000, grants := [(1, 5000)] })] }
def movedB (s : State) (p : CopyOp → Bool) : Bool :=
  match (s.core 0).copies with
  | o :: _ => (s.copyReach 0 o).2 && ((((s.copyReach 0 o).1.moveCopy 0 o).core 0).copies.find? (fun o => o.id == 5)).any p
  | [] => false
def ringAt (wr fill rl : Nat) (s : State) : State :=
  s.setBlock 1 fun b => b.put 0 0x10 (leBytes 8 qcwWord.toNat ++ leBytes 2 wr ++ leBytes 2 fill ++ leBytes 2 rl ++ leBytes 2 rl)

theorem witness_copy_steps :
    (let s := ringAt 0 0 0 (withCopy (copyB 5 false none) quiet)
     (s.core 0).copies.find? (fun o => o.id == 5) = some (copyB 5 false none) ∧ ((s.block 1).qcw 0 0x10).wr = ((s.block 1).qcw 0 0x10).fill ∧
      s.qcwBefore 0 (copyB 5 false none) = false ∧ s.ringBusy 0 5 1 0 0x10 = false ∧ (((ringAt 1 0 0 s).block 1).qcw 0 0x10).wr ≠ (((ringAt 1 0 0 s).block 1).qcw 0 0x10).fill) ∧
    (filler.writtenBefore [2] 5 = true ∧ movedB filler (fun o => o.outstanding == 0) = true ∧
      movedB storer (fun o => o.outstanding != 0) = true ∧
      (filler.setWarp 2 fun w => { w with stores := [⟨3, 0, false, 0x20000, 4, .blk, 0, false, false⟩] }).writtenBefore [2] 5 = false ∧
      (let o := { copyB 3 false (some 0) with store := true, entry := tensor0 }
       ((squeezed (withCopy o (withTables quiet))).copyReach 0 o).2 = false)) ∧
    ((copyB 3 true (some 0)).ring = false ∧ (copyB 3 true (some 0)).fault = none ∧ SMap.wf 0 (quiet.warp 2).tokens = true) ∧
    (let s := withCopy (copyB 4 false none) quiet
     (ringAt 0 0 0 s).ringBusy 0 5 1 0 0x10 = false ∧ ((((ringAt 0 0 0 s).block 1).qcw 0 0x10).room ≠ 0) ∧
      ((((ringAt 2 0 0 s).block 1).qcw 0 0x10).room = 0)) := by
  refine ⟨⟨?_, ?_, ?_, ?_, ?_⟩, ⟨?_, ?_, ?_, ?_, ?_⟩, ⟨?_, ?_, ?_⟩, ?_, ?_, ?_⟩ <;> decide +kernel

/-! ### The matrix engine, external reads, links and housekeeping -/

def matOp (id kind : Nat) (started : Bool) : MatrixOp :=
  ⟨id, [2], 1, 1, 0, 8, 0x10000, kind, true, kind == 4, false, false, .f16, 0, [], .rn, false, 0, 0x20000, 0, 0x2000, 256, 0, 2, started, [], [], 0, 0, none, false⟩
def arrayed (o : MatrixOp) (s : State) : State := s.setCore 0 fun c => { c with arrayQ := [o] }
def draining (o : MatrixOp) (s : State) : State := s.setCore 0 fun c => { c with drainQ := [o] }
def spoiled (s : State) : State := s.setBlock 1 fun b => b.put 0 0x20000 (List.replicate 64 0x3F)
def badFmt (o : MatrixOp) : MatrixOp := { o with ty := .fmt, fmts := [0xFFFFF, 0xFFFFF] }

/-- ACCLD of rows of memory that stand a byte apart, so that they lie in three lines. -/
def nearRows : MatrixOp := { matOp 5 3 true with stride := 1 }

/-- MatrixSteps: a step of two, with sound data and with a format that is not valid; ACCZ, ACCLD, and a drain that is over; a line of an
adding drain. -/
theorem witness_matrix_steps :
    (let o := matOp 5 0 true
     let s := arrayed o quiet
     (s.core 0).arrayQ = [o] ∧ o.kind < 2 ∧ (s.core 0).arrayMay o = true ∧ o.started = true ∧ o.kDone + 1 < o.kTot ∧
      s.racedNow 0 o = false ∧ (arrayed { o with raced := true } quiet).racedNow 0 { o with raced := true } = true ∧
      isOkB (s.stepData 0 o o.kDone) = true ∧ isOkB ((spoiled (arrayed (badFmt o) quiet)).stepData 0 (badFmt o) 0) = false) ∧
    ((arrayed (matOp 5 2 true) quiet).core 0).arrayMay (matOp 5 2 true) = true ∧
    ((arrayed (matOp 5 3 true) quiet).writtenBefore [2] 5 = true ∧
      (quiet.setWarp 2 fun w => { w with stores := [⟨3, 0, false, 0x20000, 4, .blk, 0, false, false⟩] }).writtenBefore [2] 5 = false ∧
      ((arrayed nearRows (withTables quiet)).rowsReach 0 nearRows false).2 = true ∧
      ((dark (arrayed nearRows (withTables quiet))).rowsReach 0 nearRows false).2 = false) ∧
    (((draining (matOp 5 4 true) quiet).core 0).drainQ.find? (fun p => p.id == 5) = some (matOp 5 4 true) ∧
      (matOp 5 4 true).linesLeft = [] ∧ (matOp 5 4 true).outstanding = 0 ∧
      ((draining (matOp 5 4 false) quiet).core 0).drainMay (matOp 5 4 false) = true ∧
      (draining (matOp 5 4 false) quiet).writtenBefore [2] 5 = true ∧
      ((draining (matOp 5 4 false) quiet).rowsReach 0 (matOp 5 4 false) true).2 = true) ∧
    (let o := { matOp 5 4 true with linesLeft := [0x400] }
     let s := draining o (withTables quiet)
     let r := s.reachSpans o.asid o.gen Config.feDie true [(128 * 0x400, 128)]
     (s.core 0).drainQ.find? (fun p => p.id == 5) = some o ∧ r.2 = true ∧
      r.1.enginePlace 1 0 (128 * 0x400) true = some (false, 0x20000) ∧
      ((squeezed s).reachSpans o.asid o.gen Config.feDie true [(128 * 0x400, 128)]).2 = false) := by
  refine ⟨⟨?_, ?_, ?_, ?_, ?_, ?_, ?_, ?_, ?_⟩, ?_, ⟨?_, ?_, ?_, ?_⟩, ⟨?_, ?_, ?_, ?_, ?_, ?_⟩, ?_, ?_, ?_, ?_⟩ <;> decide +kernel

/-- ReadsAndLinks: no endpoint; an endpoint of a port for a read in its limit, beyond it, and of no bytes; a command that completes, one
that is silent; a write outside the peer window's pages, and into one. -/
def xr (len : Nat) (cmds : List NvCommand) : Xread := ⟨5, 2, 0, 0, 1, 0, 0, len, 0x20008, 0, 0x21000, 0, 0, 0, 0, 0, 0, cmds, 0, 0, []⟩
def withXread (x : Xread) (s : State) : State := { s with fe := { s.fe with xreads := [x] } }
def endpointBytes (kind lbash : Nat) : List Byte :=
  leBytes 1 kind ++ leBytes 1 1 ++ leBytes 2 3 ++ leBytes 4 7 ++ leBytes 8 0 ++ leBytes 8 8192 ++ leBytes 1 lbash ++ List.replicate 7 0
def tabledEp (kind lbash : Nat) (x : Xread) : State :=
  let s := stored 0x22000 (endpointBytes kind lbash) ((withTables quiet).setAsid 1 fun a => { a with eptab := 0x22000, eptn := 1 })
  withXread x { s with fe := { s.fe with attached := [(3, ⟨List.replicate 64 0, 0⟩)] } }
def command : NvCommand := ⟨1, 0, 4096, 0, false⟩
def clockAt (n : DWord) (s : State) : State := { s with dies := s.dies.map fun e => (e.1, { e.2 with cnt := n }) }

theorem witness_reads :
    ((withXread (xr 4096 []) quiet).xread 5 = some (xr 4096 []) ∧ (withXread (xr 4096 []) quiet).endpoint (xr 4096 []) = none ∧
      quiet.writtenBefore [2] 5 = true ∧ ((withXread (xr 4096 []) quiet).entryReach (xr 4096 [])).2 = true) ∧
    (let s := tabledEp 2 0 (xr 4096 [])
     (s.entryReach (xr 4096 [])).2 = true ∧ ((squeezed s).entryReach (xr 4096 [])).2 = false ∧
      ((s.entryReach (xr 4096 [])).1.endpoint (xr 4096 [])).any (fun e => e.check (xr 4096 []) == 0 && e.kind == 2) = true ∧
      (s.endpoint (xr 9000 [])).any (fun e => e.check (xr 9000 []) != 0) = true ∧ (xr 0 []).len = 0) ∧
    (let s := tabledEp 1 12 (xr 4096 [])
     ((s.entryReach (xr 4096 [])).1.endpoint (xr 4096 [])).any (fun e => e.check (xr 4096 []) == 0 && e.kind == 1) = true ∧
      ((s.entryReach (xr 4096 [])).1.assignPeers (xr 4096 [])).isSome = true) ∧
    (let x := xr 4096 [command]
     (withXread x quiet).xread 5 = some x ∧ x.cmds.find? (fun c => c.cid == 1 && !c.done) = some command ∧
      command.start + 5000000000 ≤ (clockAt 5000000001 quiet).now ∧ quiet.now < command.start + 5000000000) ∧
    ((xr 4096 []).outstanding = 0 ∧ (xr 4096 []).gwct = 0 ∧ ({ xr 4096 [] with outstanding := 1 } : Xread).outstanding ≠ 0) ∧
    (quiet.fe.peers = [] ∧ linePieces 0x3008 [1, 2] = [(0x3008, [1, 2])] ∧
      [(3, 5, 0)].find? (fun q : Nat × Nat × Nat => q.1 == 0x3008 / 4096) = some (3, 5, 0)) ∧
    (let s := withXread { xr 4096 [] with dst := 0x20000 } (withTables quiet)
     (s.xreadReach [(5, 0x20008, [1, 2])]).2 = true ∧ ((squeezed s).xreadReach [(5, 0x20008, [1, 2])]).2 = false) := by
  refine ⟨⟨?_, ?_, ?_, ?_⟩, ⟨?_, ?_, ?_, ?_, ?_⟩, ⟨?_, ?_⟩, ⟨?_, ?_, ?_, ?_⟩, ⟨?_, ?_, ?_⟩, ⟨?_, ?_, ?_⟩, ?_, ?_⟩ <;> decide +kernel

/-- A port that is up, with flits sent; a remote read that an export covers, and one that none does; an entry to attach, one in use. -/
def linked (po : Port) (s : State) : State := { s with hk := { s.hk with ports := [(2, po)] } }
def up : Port := { Port.reset with st := 2, keygen := 1 }
def flit0 (seq : Nat) : Flit := ⟨seq, true, false, 1, 32, [], 0, 0⟩
/-- The same flit with the CRC of its bytes. -/
def sealedFlit (seq : Nat) : Flit := { flit0 seq with crc := Config.crc64 (flitBytes (flit0 seq)) }
def exporting (s : State) : State :=
  { s with hk := { s.hk with kwexp := [(0, BitVec.ofNat 64 (2 ^ 31 + 2 ^ 18 + 1)), (1, 0x20000), (2, 0x10000)] } }
def nvEntry : SMap DWord := [(3, 0x00010001)]

theorem witness_flits :
    ((linked up quiet).port 2).st = 2 ∧ (linked up quiet).portReady 2 = true ∧ (linked up quiet).flitOk 2 (flit0 9) = false ∧
    up.replays < 15 ∧ ({ up with replays := 15 } : Port).replays ≥ 15 ∧ (sealedFlit 0).type = 1 ∧
    (∃ f ∈ ({ up with buffer := [flit0 4, flit0 5] } : Port).buffer, f.seq = 5) ∧ (∀ f ∈ up.buffer, f.seq ≠ 5) ∧ up.roll = 0 ∧
    ({ up with roll := 1 } : Port).roll ≠ 0 ∧ (Port.reset).st ≠ 2 ∧
    ((exporting (linked up quiet)).exported 2 1 0x20000 224 = true ∧ (linked up quiet).exported 2 1 0x20000 224 = false ∧
      ((exporting (linked up (withTables quiet))).feBytes 1 0x20000 224).isSome = true) ∧
    (let s : State := { quiet with fe := { quiet.fe with nvdesc := nvEntry } }
     Attachment.ok ⟨s.nvDescriptor, 0⟩ = true ∧ Tab.find s.fe.attached 3 = none) ∧
    ((Tab.find (tabledEp 1 12 (xr 4096 [])).fe.attached 3).isSome = true ∧ (tabledEp 1 12 (xr 4096 [])).entryInUse 3 = true ∧
      (tabledEp 2 0 (xr 4096 [])).entryInUse 3 = false) := by
  refine ⟨?_, ?_, ?_, ?_, ?_, ?_, ?_, ?_, ?_, ?_, ?_, ⟨?_, ?_, ?_⟩, ⟨?_, ?_⟩, ?_, ?_, ?_⟩ <;> decide +kernel

theorem witness_good_flit : (linked up quiet).flitOk 2 (sealedFlit 0) = true := by
  simp [State.flitOk, sealedFlit, flit0, flitBytes, linked, up, State.port, Port.reset, Tab.find]

/-- DeviceRegisters: a device that is ready, and one that is not; a container that is sound if its signature is and its slot takes it, and one
that is too short; a slot staged, and none; images whose active slot is missing, and a flash whose one slot is sound if its signature
is; grids, and none; a governor's clock. -/
def ready (s : State) : State := { s with hk := { s.hk with ready := true, recov := false } }
def flashed (fs : List FlashSlot) : State := { ready quiet with hk := { (ready quiet).hk with slots := fs, flLen := 256 } }
def container0 : List Byte :=
  leBytes 4 0x44464C48 ++ leBytes 2 1 ++ leBytes 2 2 ++ leBytes 4 0 ++ leBytes 4 5 ++ leBytes 8 78 ++ List.replicate 40 0 ++ List.replicate 192 7

theorem witness_housekeeping :
    (ready quiet).hk.ready = true ∧ (ready quiet).Canonical ∧ quiet.hk.ready = false ∧ quiet.hk.recov = false ∧
    ({ flashed [] with hk := { (flashed []).hk with flLen := 3 } } : State).containerCheck [1, 2, 3] ≠ 0 ∧
    (∀ f ∈ (flashed [⟨2, 0, 1, [], true, false⟩]).hk.slots, f.staged = false) ∧
    (flashed [⟨2, 0, 1, [], true, false⟩, ⟨2, 0, 2, [], false, true⟩]).hk.slots.find? FlashSlot.staged = some ⟨2, 0, 2, [], false, true⟩ ∧
    checkImages (images [⟨1, 0, 1, [], false, false⟩]) [⟨1, 0, 1, [], false, false⟩] = none ∧
    checkImages (images [⟨2, 0, 1, [], true, false⟩]) [⟨2, 0, 1, [], true, false⟩] = some [⟨2, 0, 1, [], true, false⟩] ∧
    quiet.grids ≠ [] ∧ (∀ e ∈ quiet.grids, e.2.fault = none) ∧ (1000 % 50 = 0 ∧ 500 ≤ 1000 ∧ 1000 ≤ 1050) ∧ 1050 < (1100#16).toNat := by
  refine ⟨?_, ⟨?_, ?_⟩, ?_, ?_, ?_, ?_, ?_, ?_, ?_, ?_, ?_, ⟨?_, ?_, ?_⟩, ?_⟩ <;> decide +kernel

theorem witness_container (hs : 78 ≤ Config.slotBytes 2 0) (hg : Config.signatureOk 2 0 5 container0 = true) :
    (flashed [⟨2, 0, 1, [], true, false⟩]).containerCheck container0 = 0 := by
  have h1 : field container0 6 2 = 2 := by decide +kernel
  have h2 : field container0 8 4 = 0 := by decide +kernel
  have h3 : field container0 0x10 8 = 78 := by decide +kernel
  have h4 : field container0 0x0C 4 = 5 := by decide +kernel
  have h5 : field container0 0 4 = 0x44464C48 := by decide +kernel
  have h6 : field container0 4 2 = 1 := by decide +kernel
  have h7 : zeros container0 0x18 40 = true := by decide +kernel
  simp [State.containerCheck, h1, h2, h3, h4, h5, h6, h7, hg, flashed, activeSlot, Nat.not_lt.mpr hs]

theorem witness_boot (hg : Config.signatureOk 2 0 1 [] = true) :
    checkPair [⟨2, 0, 1, [], true, false⟩] 2 0 = some [⟨2, 0, 1, [], true, false⟩] := by
  simp [checkPair, activeSlot, FlashSlot.ok, hg]

/-- R368: the interrupt of a grid is withheld while its signal's GWCT has not passed, and raised afterwards. -/
theorem test_interrupt_follows_gwct :
    let at_ (n : Nat) : State := { State.reset with
      fe := { State.reset.fe with owed := [.interrupt 5 100] }
      dies := [(Config.feDie, { State.reset.die Config.feDie with cnt := BitVec.ofNat 64 n, skew := 8 })] }
    ((at_ 107).payOwed.fe.msixRaised = [] ∧ (at_ 107).payOwed.fe.owed = [.interrupt 5 100]) ∧
    ((at_ 108).payOwed.fe.msixRaised = [5] ∧ (at_ 108).payOwed.fe.owed = []) := by decide +kernel

/-- R383: places are taken so that every place has a core: the first place leaves the only core of the second one. -/
theorem test_places_are_matched :
    takePlaces (fun c i => i == 0 || c == 3) 2 0 [3, 4] = some [4, 3] := by decide

end Sys2Proof.Machine.Slice0
end

section
/-! SUPPORT. Integers of a type (R240, R244, R245, R248): what the clamp of .sat gives, and the words that hold it. -/

namespace Sys2Proof.Machine

/-! ## Types and their ranges -/

/-- The types that the instructions with .sat accept are as wide as the words they work on. -/
theorem bits_eq_intW {ty : Ty} (h : ty ∈ int4) : ty.bits = ty.intW := by
  revert h; cases ty <;> decide

theorem bits_pos (ty : Ty) : 0 < ty.bits := by cases ty <;> decide

/-- A legal form has one of the types of its opcode (R43). -/
theorem type_mem_of_ok {f : Form} (h : f.ok = true) : f.x.ty ∈ (opRule f.opc f.g f.x).types := by
  simp only [Form.ok, Bool.and_eq_true, List.contains_iff_mem] at h
  obtain ⟨⟨⟨⟨⟨⟨⟨⟨⟨⟨_, _⟩, ht⟩, _⟩, _⟩, _⟩, _⟩, _⟩, _⟩, _⟩, _⟩ := h
  exact ht

/-- The clamp of the model, by the signedness of the type. -/
theorem clamp_intRange (ty : Ty) (v : Int) : max (intMin ty) (min (intMax ty) v) =
    if ty.signed then max (-2 ^ (ty.bits - 1)) (min (2 ^ (ty.bits - 1) - 1) v) else max 0 (min (2 ^ ty.bits - 1) v) := by
  unfold intMin intMax
  split <;> rfl

theorem clamp_eq_clampTo {ty : Ty} (h : ty ∈ int4) (v : Int) : max (intMin ty) (min (intMax ty) v) = clampTo ty v := by
  rw [clamp_intRange, bits_eq_intW h]; rfl

theorem wrapInt_eq_wordOf (w : Nat) (v : Int) : wrapInt w v = wordOf w v := rfl

/-- The flags of a clamp: OF where it changed the value (R245). -/
theorem flagIf_ne (c v : Int) : flagIf (c ≠ v) ofFlag = if c = v then 0 else ofFlag := by
  by_cases h : c = v <;> simp [flagIf, h]

/-- An integer in the range of its type is read back from the word that holds it. -/
theorem intVal_wordOf_clampTo {ty : Ty} (h : ty ∈ int4) (v : Int) :
    intVal ty (wordOf ty.intW (clampTo ty v)) = clampTo ty v := by
  simp only [int4, List.mem_cons, List.not_mem_nil, or_false] at h
  rcases h with rfl | rfl | rfl | rfl <;>
    simp [intVal, wordOf, clampTo, Ty.intW, Ty.signed, Int.bmod_def] <;> omega

/-- R240, R248: a value written extended is that of its low bits, by the signedness of its type. -/
theorem extended_eq_wordOf (ty : Ty) (v : Int) : extended ty v =
    wordOf ty.intW (if ty.signed then (BitVec.ofInt ty.bits v).toInt else (BitVec.ofInt ty.bits v).toNat) := by
  have hn : (2 : Int) ^ ty.bits = 2 * 2 ^ (ty.bits - 1) := by
    rw [← pow_succ', Nat.sub_add_cancel (bits_pos ty)]
  have hm : ((BitVec.ofInt ty.bits v).toNat : Int) = v % 2 ^ ty.bits := by
    rw [BitVec.toNat_ofInt, Int.toNat_of_nonneg (Int.emod_nonneg _ (by positivity))]
    push_cast; rfl
  unfold extended
  rw [wrapInt_eq_wordOf, BitVec.toInt_eq_toNat_cond]
  zify
  rw [hm, hn]
  refine congrArg (wordOf ty.intW) ?_
  cases ty.signed with
  | false => rfl
  | true =>
    simp only [true_and, if_true]
    split_ifs <;> omega

/-- R245: an exact result under .sat. -/
theorem intResult_sat {f : Form} (hs : f.x.sat = true) (ht : f.x.ty ∈ int4) (v : Int) :
    intResult f v = .ok (wordOf f.x.ty.intW (clampTo f.x.ty v)) f.x.ty.signed
      (if clampTo f.x.ty v = v then 0 else ofFlag) := by
  simp only [intResult, hs, if_true, clamp_eq_clampTo ht, flagIf_ne, wrapInt_eq_wordOf]

/-! ## Instructions with .sat -/

/-- The instructions that clamp are the element-wise operation on integers that `clampsOf` names, four clocks long. -/
theorem exec_of_clampsOf {i : Instr} {op : Int → Int → Int → Int} (h : clampsOf i = some op) (s : State) :
    exec i s = .next (s.alu i latF4 (intOp op)) := by
  unfold clampsOf at h
  split at h <;> cases h
  -- IABS: the model spells the absolute value as a case split
  case h_6 =>
    have habs : (fun a _ _ : Int => |a|) = fun a _ _ => if a < 0 then -a else a := by
      funext a _ _
      split
      · exact abs_of_neg ‹_›
      · exact abs_of_nonneg (not_lt.mp ‹_›)
    rw [habs]; rfl
  all_goals rfl

/-- The instructions that clamp work on 32-bit or 64-bit integers (R244). -/
theorem types_of_clampsOf {i : Instr} {op : Int → Int → Int → Int} (h : clampsOf i = some op) (hok : i.form.ok = true) :
    i.form.x.ty ∈ int4 := by
  have ht := type_mem_of_ok hok
  unfold clampsOf at h
  split at h <;> cases h
  case h_6 => exact List.mem_of_mem_filter (p := Ty.signed) ht
  all_goals exact ht

/-- R245: the clamped sum of IADDMIN and IADDMAX, compared with C. -/
theorem addMinMax_sat {f : Form} (mx : Bool) (hs : f.x.sat = true) (ht : f.x.ty ∈ int4) (o : Operands) (t : TRef) (s : State) :
    let v := intVal f.x.ty o.a + intVal f.x.ty o.b
    let c := intVal f.x.ty o.c
    addMinMax mx f o t s = .ok
      (wordOf f.x.ty.intW (if mx then max (clampTo f.x.ty v) c else min (clampTo f.x.ty v) c)) f.x.ty.signed
      (if clampTo f.x.ty v = v then 0 else ofFlag) := by
  intro v c
  have larger (p : Int) : (if p < c then c else p) = max p c := by rw [max_def_lt]
  have smaller (p : Int) : (if c < p then c else p) = min p c := by rw [min_comm, min_def_lt]
  simp only [addMinMax, intResult_sat hs ht, intVal_wordOf_clampTo ht, wrapInt_eq_wordOf, v, c] at larger smaller ⊢
  rw [larger, smaller]

/-- R245: the instructions with .sat clamp their exact result. -/
theorem saturatedResults : Claim.SaturatedResults := by
  refine ⟨fun i op hi s ts hr hs => ?_, fun g x mx s ts hs => ?_⟩
  · rw [exec_of_clampsOf hi]
    refine congrArg _ (State.alu_ready hr _ _ _ fun t _ s' _ => ?_)
    exact intResult_sat hs (types_of_clampsOf hi hr.ok) _
  · intro i hr
    have hf : i.form = ⟨0x28, g, x⟩ := by cases mx <;> rfl
    have he : exec i s = .next (s.alu i latF4 (addMinMax mx)) := by cases mx <;> rfl
    have ht : x.ty ∈ int4 := by
      have h := type_mem_of_ok hr.ok
      rwa [hf] at h
    rw [he]
    refine congrArg _ (State.alu_ready hr _ _ _ fun t _ s' _ => ?_)
    rw [hf]
    exact addMinMax_sat mx hs ht _ t s'

/-! ## Conversions -/

/-- R248: CVTI of a source type that SUB names. -/
theorem cvtiOp_of_source {f : Form} {src : Ty} (h : tyOfSub f.x.sub = some src) (o : Operands) (t : TRef) (s : State) :
    let ty := f.x.ty
    let v := intVal src o.a
    let c := max (intMin ty) (min (intMax ty) v)
    cvtiOp f o t s = .ok (extended ty (if f.x.sat then c else v)) ty.signed (if f.x.sat ∧ c ≠ v then ofFlag else 0) := by
  simp only [cvtiOp, h, Option.getD_some]
  cases f.x.sat with
  | false => rfl
  | true => simp only [if_true, flagIf, true_and, decide_eq_true_eq]

/-- R248: integer conversions read the source type and write the destination's, clamped under .sat. -/
theorem integerConversions : Claim.IntegerConversions := by
  intro i hi s ts src hr hsrc
  have he : exec i s = .next (s.alu i latM6 cvtiOp) := by
    rcases hi with ⟨g, t, a, d, rfl⟩ | ⟨g, x, rfl⟩ <;> rfl
  rw [he]
  refine congrArg _ (State.alu_ready hr _ _ _ fun t _ s' _ => ?_)
  rw [cvtiOp_of_source hsrc]
  simp only [extended_eq_wordOf, clamp_intRange]

/-- Settles O9: under .sat the instructions clamp their exact results, and CVTI converts between integer types. -/
theorem clampedResults : Obligations.ClampedResults :=
  ⟨saturatedResults, integerConversions⟩

end Sys2Proof.Machine
end

section
/-! SUPPORT. The lane instructions (R260 to R266): their completion, the participating places, and the values of SHFL, VOTE
and MATCH. -/

namespace Sys2Proof.Machine

/-! ## Completion (R260, R325) -/

/-- A thread receives its lane result, if there is one. -/
def State.receive (s : State) (f : Form) (t : TRef) : Option LaneRes → State
  | some r => (s.writeFixed t.warp 8 (aluWrites f t.lane r.v f.x.ty.signed)).setFlags t r.fl
  | none => s

/-- A lane result changes no thread but the one that receives it. -/
theorem State.Alike.receive {us : List TRef} {s s' : State} (h : s.Alike us s') (f : Form) {t : TRef} (r : Option LaneRes)
    (ht : t ∉ us) : s.Alike us (s'.receive f t r) := by
  cases r with
  | none => exact h
  | some r => exact (h.writeFixed _ _ _).setFlags t _ ht

/-- A lane instruction whose destination is not uniform: each thread whose predicate holds receives its result. -/
theorem State.laneOp_all {s : State} {ts : List TRef} {i : Instr} (h : s.RunsAll ts i) (hd : ∀ n, i.form.x.dst ≠ .uni n)
    (op : Form → List Place → State → List LaneRes) :
    s.laneOp i op = s.retireEach ts i fun t s' =>
      s'.receive i.form t ((op i.form (s.places i.form) s).find? fun r => r.t = t) := by
  unfold State.laneOp
  simp only
  apply State.eachThread_all h
  · intro t _ _ s' _
    refine .inl ⟨?_, rfl⟩
    cases (op i.form (s.places i.form) s).find? fun r => r.t = t <;> rfl
  · exact fun t _ us s' hu ha => ha.receive _ _ hu

/-- A lane instruction is the operation that `lanesOf` names over the participating places. -/
theorem exec_of_lanesOf {i : Instr} {res : Form → List Place → State → List LaneRes} (h : lanesOf i = some res) (s : State) :
    exec i s = .next (s.laneOp i res) := by
  unfold lanesOf at h
  split at h <;> cases h <;> rfl

/-- R260, R325: lane instructions complete. -/
theorem laneCompletes : Claim.LaneCompletes := by
  intro i res hi
  refine ⟨fun s ts hd hr => ?_, fun s ts n hd hr => ?_⟩
  · exact (exec_of_lanesOf hi s).trans (congrArg _ (State.laneOp_all hr hd res))
  · have hl (r : LaneRes) : aluWrites i.form 0 r.v i.form.x.ty.signed =
        [(.uni (n.toNat % 32), widen ((opRule i.form.opc i.form.g i.form.x).d.regs == 2) i.form.x.ty.signed r.v)] := by
      simp only [aluWrites, hd]
    rw [exec_of_lanesOf hi]
    unfold State.laneOp
    simp only [hd, hl, State.onceFor_runs hr]
    rfl

/-! ## Places (R260) -/

theorem insertPlace_eq_orderedInsert : insertPlace = List.orderedInsert fun p q => p.pos ≤ q.pos := by
  funext p ps
  induction ps with
  | nil => rfl
  | cons q rest ih => simp only [insertPlace, List.orderedInsert_cons, ih]

/-- R260: the participating places are the threads of the issue whose predicate holds, sorted by position. -/
theorem State.places_eq_insertionSort (s : State) (f : Form) : s.places f =
    ((s.cur.group.filter fun t => s.guardHolds t f.g).map fun t =>
      (⟨s.position f.g.scope t, t, s.operands t f⟩ : Place)).insertionSort fun p q => p.pos ≤ q.pos := by
  unfold State.places
  rw [insertPlace_eq_orderedInsert]; rfl

theorem State.pairwise_places (s : State) (f : Form) : (s.places f).Pairwise fun p q => p.pos ≤ q.pos := by
  have total : Std.Total fun p q : Place => p.pos ≤ q.pos := ⟨fun p q => Nat.le_total p.pos q.pos⟩
  have trans : IsTrans Place fun p q => p.pos ≤ q.pos := ⟨fun _ _ _ => Nat.le_trans⟩
  rw [State.places_eq_insertionSort]
  exact List.pairwise_insertionSort _ _

theorem State.mem_places {s : State} {f : Form} {p : Place} : p ∈ s.places f ↔
    ∃ t ∈ s.cur.group, s.guardHolds t f.g = true ∧ p = ⟨s.position f.g.scope t, t, s.operands t f⟩ := by
  rw [State.places_eq_insertionSort, List.mem_insertionSort]
  simp only [List.mem_map, List.mem_filter, and_assoc, eq_comm]

/-! ## SHFL (R263) -/

/-- The place that SHFL reads for a place: the participating one at its source position, where the scope has that position. -/
def shflPlace (f : Form) (n : Nat) (ps : List Place) (p : Place) : Option Place :=
  ps.find? fun q => decide ((q.pos : Int) = shflSource (f.x.sub.toNat % 4) p.pos (p.o.b.setWidth 32).toNat ∧ q.pos < n)

theorem shflOne_eq (f : Form) (n : Nat) (ps : List Place) (p : Place) :
    shflOne f n ps p = ⟨p.t, ((shflPlace f n ps p).getD p).o.a, 0⟩ := by
  unfold shflOne shflPlace
  simp only
  split
  · rename_i q hq
    rw [hq]; rfl
  · rename_i hq
    rw [hq]; rfl

/-- Positions are different, so the participating place at the source position is the one that is read. -/
theorem shflPlace_eq_some {f : Form} {n : Nat} {ps : List Place} (hn : (ps.map Place.pos).Nodup) {p q : Place}
    (hq : q ∈ ps) (hs : (q.pos : Int) = shflSource (f.x.sub.toNat % 4) p.pos (p.o.b.setWidth 32).toNat) (hl : q.pos < n) :
    shflPlace f n ps p = some q := by
  unfold shflPlace
  cases hu : ps.find? fun q => decide ((q.pos : Int) =
      shflSource (f.x.sub.toNat % 4) p.pos (p.o.b.setWidth 32).toNat ∧ q.pos < n) with
  | none => exact absurd (decide_eq_true ⟨hs, hl⟩) (List.find?_eq_none.mp hu q hq)
  | some u =>
    have hsu := List.find?_some hu
    simp only [decide_eq_true_eq] at hsu
    rw [List.inj_on_of_nodup_map hn (List.mem_of_find?_eq_some hu) hq (by omega)]

theorem shflPlace_eq_none {f : Form} {n : Nat} {ps : List Place} {p : Place}
    (h : ∀ q ∈ ps, (q.pos : Int) = shflSource (f.x.sub.toNat % 4) p.pos (p.o.b.setWidth 32).toNat → ¬ q.pos < n) :
    shflPlace f n ps p = none :=
  List.find?_eq_none.mpr fun q hq hd => (of_decide_eq_true hd).elim (h q hq)

/-- R260, R263: the participating places, and the values of SHFL. -/
theorem shuffleValues : Claim.ShuffleValues := by
  refine ⟨fun s f => ⟨s.pairwise_places f, fun p => State.mem_places⟩, ?_⟩
  intro f s p0 rest hn ps n
  refine ⟨?_, fun p hp => ⟨shflOne f n ps p, List.mem_map_of_mem hp, ?_⟩⟩
  · change (ps.map (shflOne f n ps)).map LaneRes.t = _
    simp only [List.map_map, Function.comp_def, shflOne_eq]
  · exact ⟨by rw [shflOne_eq], by rw [shflOne_eq],
      fun q hq hs hl => by rw [shflOne_eq, shflPlace_eq_some hn hq hs hl]; rfl,
      fun h => by rw [shflOne_eq, shflPlace_eq_none h]; rfl⟩

/-! ## Masks of lanes (R264, R266) -/

/-- The mask of some places' lanes. -/
def laneMask (ps : List Place) : DWord := BitVec.ofNat 64 (ps.foldl (fun acc p => acc + 2 ^ p.t.lane) 0)

/-- A bit of a sum of different powers of two. -/
theorem testBit_sum_two_pow {ls : List Nat} (h : ls.Nodup) (k : Nat) : (ls.map (2 ^ ·)).sum.testBit k = true ↔ k ∈ ls := by
  rw [← List.sum_toFinset _ h, ← Nat.mem_bitIndices, ← List.mem_toFinset, Finset.toFinset_bitIndices_sum_two_pow,
    List.mem_toFinset]

/-- Places of one warp: different lanes, of the 32 that there are. -/
def WarpWide (ps : List Place) : Prop := (ps.map fun p => p.t.lane).Nodup ∧ ∀ p ∈ ps, p.t.lane < 32

theorem WarpWide.filter {ps : List Place} (h : WarpWide ps) (c : Place → Bool) : WarpWide (ps.filter c) :=
  ⟨h.1.sublist (List.filter_sublist.map _), fun p hp => h.2 p (List.mem_of_mem_filter hp)⟩

/-- The model adds up a mask under a condition without filtering first. -/
theorem laneMask_filter (ps : List Place) (c : Place → Prop) [DecidablePred c] :
    laneMask (ps.filter fun p => c p) = BitVec.ofNat 64 (ps.foldl (fun acc p => if c p then acc + 2 ^ p.t.lane else acc) 0) := by
  simp only [laneMask, List.foldl_filter, decide_eq_true_eq]

/-- The mask of the places that meet a condition has the bits of their lanes. -/
theorem getLsbD_laneMask_filter {ps : List Place} (h : WarpWide ps) (c : Place → Bool) (k : Nat) :
    (laneMask (ps.filter c)).getLsbD k = true ↔ ∃ p ∈ ps, p.t.lane = k ∧ c p = true := by
  obtain ⟨hn, hl⟩ := h.filter c
  have hsum : (ps.filter c).foldl (fun acc p => acc + 2 ^ p.t.lane) 0
      = (((ps.filter c).map fun p => p.t.lane).map (2 ^ ·)).sum := by
    rw [List.sum_eq_foldl, List.map_map, List.foldl_map]; rfl
  rw [laneMask, BitVec.getLsbD_ofNat, hsum, Bool.and_eq_true, testBit_sum_two_pow hn, decide_eq_true_eq, List.mem_map]
  constructor
  · rintro ⟨_, p, hp, hk⟩
    obtain ⟨hp, hc⟩ := List.mem_filter.mp hp
    exact ⟨p, hp, hk, hc⟩
  · rintro ⟨p, hp, rfl, hc⟩
    have hp' := List.mem_filter.mpr ⟨hp, hc⟩
    exact ⟨(hl p hp').trans (by decide), p, hp', rfl⟩

theorem getLsbD_laneMask {ps : List Place} (h : WarpWide ps) (k : Nat) :
    (laneMask ps).getLsbD k = true ↔ ∃ p ∈ ps, p.t.lane = k := by
  simpa using getLsbD_laneMask_filter h (fun _ => true) k

/-! ## VOTE and MATCH (R264, R266) -/

/-- A place's A, of the width of TYPE. -/
def laneVal (f : Form) (p : Place) : Nat := p.o.a.toNat % 2 ^ f.x.ty.intW

/-- R264: the one value that VOTE gives every participating place. -/
def voteVal (f : Form) (ps : List Place) : DWord :=
  match f.x.sub.toNat % 4 with
  | 0 => if ∀ p ∈ ps, laneVal f p ≠ 0 then 1 else 0
  | 1 => if ∃ p ∈ ps, laneVal f p ≠ 0 then 1 else 0
  | 2 => if ∀ p ∈ ps, ∀ q ∈ ps, laneVal f p = laneVal f q then 1 else 0
  | _ => laneMask (ps.filter fun p => laneVal f p ≠ 0)

theorem voteRes_eq (f : Form) (ps : List Place) (s : State) : voteRes f ps s = ps.map fun p => ⟨p.t, voteVal f ps, 0⟩ := by
  unfold voteRes voteVal
  simp only [laneVal, List.all_eq_true, List.any_eq_true, decide_eq_true_eq]
  generalize f.x.sub.toNat % 4 = mode
  match mode with
  | 0 => rfl
  | 1 => rfl
  | 2 => rfl
  | _ + 3 =>
    have hm := laneMask_filter ps fun p => laneVal f p ≠ 0
    exact congrArg (fun v => ps.map fun p => (⟨p.t, v, 0⟩ : LaneRes)) hm.symm

/-- R266: the value that MATCH gives a participating place. -/
def matchVal (f : Form) (ps : List Place) (p : Place) : DWord :=
  if f.x.sub.getLsbD 0 then if ∀ q ∈ ps, ∀ u ∈ ps, laneVal f q = laneVal f u then laneMask ps else 0
  else laneMask (ps.filter fun q => laneVal f q = laneVal f p)

theorem matchRes_eq (f : Form) (ps : List Place) (s : State) : matchRes f ps s = ps.map fun p => ⟨p.t, matchVal f ps p, 0⟩ := by
  unfold matchRes matchVal
  simp only [laneMask, laneVal, List.all_eq_true, decide_eq_true_eq]
  split <;> rfl

/-- A word that tells whether a condition holds. -/
theorem ite_one_zero_iff (c : Prop) [Decidable c] :
    ((if c then (1 : DWord) else 0) = 1 ∨ (if c then (1 : DWord) else 0) = 0) ∧ ((if c then (1 : DWord) else 0) = 1 ↔ c) := by
  by_cases h : c <;> simp [h]

/-- R264: .all, .any and .eq answer 1 or 0, and .ballot the mask of the lanes whose A is not 0. -/
theorem voteVal_by_mode (f : Form) (ps : List Place) : match f.x.sub.toNat % 4 with
    | 0 => (voteVal f ps = 1 ∨ voteVal f ps = 0) ∧ (voteVal f ps = 1 ↔ ∀ p ∈ ps, laneVal f p ≠ 0)
    | 1 => (voteVal f ps = 1 ∨ voteVal f ps = 0) ∧ (voteVal f ps = 1 ↔ ∃ p ∈ ps, laneVal f p ≠ 0)
    | 2 => (voteVal f ps = 1 ∨ voteVal f ps = 0) ∧ (voteVal f ps = 1 ↔ ∀ p ∈ ps, ∀ q ∈ ps, laneVal f p = laneVal f q)
    | _ => WarpWide ps → ∀ k, (voteVal f ps).getLsbD k = true ↔ ∃ p ∈ ps, p.t.lane = k ∧ laneVal f p ≠ 0 := by
  unfold voteVal
  generalize f.x.sub.toNat % 4 = mode
  match mode with
  | 0 => exact ite_one_zero_iff _
  | 1 => exact ite_one_zero_iff _
  | 2 => exact ite_one_zero_iff _
  | _ + 3 =>
    intro hw k
    simpa only [decide_eq_true_eq] using getLsbD_laneMask_filter hw (fun p => laneVal f p ≠ 0) k

/-- R266: MATCH masks the lanes whose A is the place's own, or .all the whole of the places where they have one A. -/
theorem getLsbD_matchVal (f : Form) {ps : List Place} (hw : WarpWide ps) (p : Place) (k : Nat) :
    (matchVal f ps p).getLsbD k = true ↔ if f.x.sub.getLsbD 0
      then (∀ q ∈ ps, ∀ u ∈ ps, laneVal f q = laneVal f u) ∧ ∃ q ∈ ps, q.t.lane = k
      else ∃ q ∈ ps, q.t.lane = k ∧ laneVal f q = laneVal f p := by
  unfold matchVal
  split
  · split
    · rename_i h
      rw [getLsbD_laneMask hw, and_iff_right h]
    · rename_i h
      simp [h]
  · simpa only [decide_eq_true_eq] using getLsbD_laneMask_filter hw (fun q => laneVal f q = laneVal f p) k

/-- R264, R266: the values of VOTE and MATCH. -/
theorem votesAndMatches : Claim.VotesAndMatches := by
  intro f s ps warpWide a
  rw [voteRes_eq, matchRes_eq]
  refine ⟨by simp, by simp, ?_, fun hw p hp => ⟨_, List.mem_map_of_mem hp, rfl, rfl, getLsbD_matchVal f hw p⟩⟩
  intro r hr
  obtain ⟨p, _, rfl⟩ := List.mem_map.mp hr
  exact ⟨rfl, voteVal_by_mode f ps⟩

/-- Settles O18: the lane instructions complete, with the values of SHFL, VOTE and MATCH. -/
theorem laneResults : Obligations.LaneResults :=
  ⟨laneCompletes, shuffleValues, votesAndMatches⟩

end Sys2Proof.Machine
end

section
/-! SUPPORT. Decoding inverts encoding, over all instructions (R35 to R46). -/

namespace Sys2Proof.Laws.Encoding

set_option Elab.async false

/-- Every instruction's words decode to it: the law of its constructor; the device's own steps have no words. -/
theorem statement (i : Instr) : Statement i := by
  cases i with
  | nop g => exact nop g
  | yield g => exact yield g
  | bra g o => exact bra g o
  | braLit g lit => exact braLit g lit
  | brx g a => exact brx g a
  | brxX g x => exact brxX g x
  | call g o => exact call g o
  | callLit g lit => exact callLit g lit
  | callx g a => exact callx g a
  | callxX g x => exact callxX g x
  | ret g => exact ret g
  | exit g => exact exit g
  | trap g c => exact trap g c
  | brk g c => exact brk g c
  | trapret g k => exact trapret g k
  | bar g => exact bar g
  | barNamed g i => exact barNamed g i
  | barX g x => exact barX g x
  | setdecl g x => exact setdecl g x
  | setfree g x => exact setfree g x
  | rdsr g a d => exact rdsr g a d
  | rdsrX g x => exact rdsrX g x
  | idemb g => exact idemb g
  | ideme g => exact ideme g
  | prog g v => exact prog g v
  | progX g x => exact progX g x
  | waitf g a d => exact waitf g a d
  | waitfX g x => exact waitfX g x
  | reggive g x => exact reggive g x
  | regclaim g x => exact regclaim g x
  | iadd g b a d => exact iadd g b a d
  | iaddX g x => exact iaddX g x
  | isub g b a d => exact isub g b a d
  | isubX g x => exact isubX g x
  | iadd3 g x => exact iadd3 g x
  | imul g b a d => exact imul g b a d
  | imulX g x => exact imulX g x
  | imulh g b a d => exact imulh g b a d
  | imulhX g x => exact imulhX g x
  | imad g b a d => exact imad g b a d
  | imadX g x => exact imadX g x
  | imadw g x => exact imadw g x
  | shl g i a d => exact shl g i a d
  | shlX g x => exact shlX g x
  | shr g i a d => exact shr g i a d
  | shrX g x => exact shrX g x
  | sar g i a d => exact sar g i a d
  | sarX g x => exact sarX g x
  | shf g x => exact shf g x
  | and g b a d => exact and g b a d
  | andX g x => exact andX g x
  | or g b a d => exact or g b a d
  | orX g x => exact orX g x
  | xor g b a d => exact xor g b a d
  | xorX g x => exact xorX g x
  | bfn g x => exact bfn g x
  | popc g a d => exact popc g a d
  | popcX g x => exact popcX g x
  | clz g a d => exact clz g a d
  | clzX g x => exact clzX g x
  | brev g a d => exact brev g a d
  | brevX g x => exact brevX g x
  | bfx g x => exact bfx g x
  | bfi g x => exact bfi g x
  | bpack g x => exact bpack g x
  | imin g b a d => exact imin g b a d
  | iminX g x => exact iminX g x
  | imax g b a d => exact imax g b a d
  | imaxX g x => exact imaxX g x
  | iabs g a d => exact iabs g a d
  | iabsX g x => exact iabsX g x
  | isel g x => exact isel g x
  | icmp g b a d => exact icmp g b a d
  | icmpX g x => exact icmpX g x
  | iaddmin g x => exact iaddmin g x
  | iaddmax g x => exact iaddmax g x
  | lea g x => exact lea g x
  | mov g a d => exact mov g a d
  | movX g x => exact movX g x
  | movi g i d => exact movi g i d
  | moviX g x => exact moviX g x
  | movqPack g d => exact movqPack g d
  | movqUnpack g a => exact movqUnpack g a
  | movqX g x => exact movqX g x
  | qop g x => exact qop g x
  | cvti g t a d => exact cvti g t a d
  | cvtiX g x => exact cvtiX g x
  | fadd g b a d => exact fadd g b a d
  | faddX g x => exact faddX g x
  | fmul g b a d => exact fmul g b a d
  | fmulX g x => exact fmulX g x
  | ffma g b a d => exact ffma g b a d
  | ffmaX g x => exact ffmaX g x
  | fmin g b a d => exact fmin g b a d
  | fminX g x => exact fminX g x
  | fmax g b a d => exact fmax g b a d
  | fmaxX g x => exact fmaxX g x
  | fcmp g b a d => exact fcmp g b a d
  | fcmpX g x => exact fcmpX g x
  | faddmin g x => exact faddmin g x
  | fclass g a d => exact fclass g a d
  | fclassX g x => exact fclassX g x
  | frnd g a d => exact frnd g a d
  | frndX g x => exact frndX g x
  | rcp g a d => exact rcp g a d
  | rsq g a d => exact rsq g a d
  | sqrt g a d => exact sqrt g a d
  | rcpRsqSqrtX g x => exact rcpRsqSqrtX g x
  | exp2 g a d => exact exp2 g a d
  | log2 g a d => exact log2 g a d
  | exp2Log2X g x => exact exp2Log2X g x
  | sin g a d => exact sin g a d
  | cos g a d => exact cos g a d
  | tanh g a d => exact tanh g a d
  | sinCosTanhX g x => exact sinCosTanhX g x
  | hadd2 g b a d => exact hadd2 g b a d
  | hadd2X g x => exact hadd2X g x
  | hmul2 g b a d => exact hmul2 g b a d
  | hmul2X g x => exact hmul2X g x
  | hfma2 g b a d => exact hfma2 g b a d
  | hfma2X g x => exact hfma2X g x
  | dot4 g b a d => exact dot4 g b a d
  | dot4X g x => exact dot4X g x
  | cvtf g t a d => exact cvtf g t a d
  | cvtfX g x => exact cvtfX g x
  | cvtfi g t a d => exact cvtfi g t a d
  | cvtfiX g x => exact cvtfiX g x
  | cvtif g t a d => exact cvtif g t a d
  | cvtifX g x => exact cvtifX g x
  | quant g x => exact quant g x
  | deq g x => exact deq g x
  | blkmax g x => exact blkmax g x
  | shfl g b a d => exact shfl g b a d
  | shflX g x => exact shflX g x
  | vote g a d => exact vote g a d
  | voteX g x => exact voteX g x
  | redux g a d => exact redux g a d
  | reduxX g x => exact reduxX g x
  | matchAny g a d => exact matchAny g a d
  | matchX g x => exact matchX g x
  | scan g a d => exact scan g a d
  | scanX g x => exact scanX g x
  | ld g o a d => exact ld g o a d
  | ldX g x => exact ldX g x
  | st g o a d => exact st g o a d
  | stX g x => exact stX g x
  | lds g o a d => exact lds g o a d
  | ldsX g x => exact ldsX g x
  | sts g o a d => exact sts g o a d
  | stsX g x => exact stsX g x
  | ldc g o a d => exact ldc g o a d
  | ldcX g x => exact ldcX g x
  | ldw g k a d => exact ldw g k a d
  | ldwX g x => exact ldwX g x
  | stw g b a => exact stw g b a
  | stwX g x => exact stwX g x
  | pref g c a => exact pref g c a
  | prefX g x => exact prefX g x
  | cinv g c a => exact cinv g c a
  | cinvX g x => exact cinvX g x
  | fence g k => exact fence g k
  | fenceX g x => exact fenceX g x
  | opfence g => exact opfence g
  | rdeg g x => exact rdeg g x
  | latom g i a d => exact latom g i a d
  | latomX g x => exact latomX g x
  | latoms g x => exact latoms g x
  | rtinst g x => exact rtinst g x
  | rtrem g x => exact rtrem g x
  | waitcmp g b a d => exact waitcmp g b a d
  | waitcmpX g x => exact waitcmpX g x
  | moncan g a => exact moncan g a
  | moncanX g x => exact moncanX g x
  | xcopy g x => exact xcopy g x
  | xgather g x => exact xgather g x
  | xscat g x => exact xscat g x
  | xfill g x => exact xfill g x
  | xread g x => exact xread g x
  | qcwset g x => exact qcwset g x
  | rpush g q a c => exact rpush g q a c
  | rpushX g x => exact rpushX g x
  | rpop g q d => exact rpop g q d
  | rpopX g x => exact rpopX g x
  | bgive g x => exact bgive g x
  | bgiveFree g x => exact bgiveFree g x
  | btake g x => exact btake g x
  | btakeNew g x => exact btakeNew g x
  | fmtset g x => exact fmtset g x
  | mma g x => exact mma g x
  | mmas g x => exact mmas g x
  | accz g x => exact accz g x
  | accld g x => exact accld g x
  | accst g x => exact accst g x
  | acck g x => exact acck g x
  | fetchtTile g x => exact fetchtTile g x
  | fetchtTask g x => exact fetchtTask g x
  | enqt g x => exact enqt g x
  | migrate g x => exact migrate g x
  | csrr g a d => exact csrr g a d
  | csrrX g x => exact csrrX g x
  | csrw g b a => exact csrw g b a
  | csrwX g x => exact csrwX g x
  | time g c d => exact time g c d
  | timeX g x => exact timeX g x
  | _ => exact of_none rfl

@[simp] theorem length_one (g : Guard) (opc : BitVec 7) (b : BitVec 5) (a d : BitVec 6) : (one g opc b a d).length = 1 := rfl

@[simp] theorem length_litWords (v : DWord) : (litWords v).length = 2 := rfl

@[simp] theorem length_litOffsetWords (opc : BitVec 7) (g : Guard) (v : DWord) : (litOffsetWords opc g v).length = 3 := rfl

@[simp] theorem length_xWords_pos (opc : BitVec 7) (g : Guard) (x : XForm) : 0 < (xWords opc g x).length := by
  unfold xWords
  split <;> simp

@[simp] theorem length_xWords_le (opc : BitVec 7) (g : Guard) (x : XForm) : (xWords opc g x).length ≤ 5 := by
  unfold xWords
  split
  · simp
  · cases x.literal <;> simp

/-- R35: an instruction has one to five words. -/
theorem length_encode {i : Instr} {ws : List Word} (h : encode? i = some ws) : 0 < ws.length ∧ ws.length ≤ 5 := by
  unfold encode? at h
  split at h <;> cases h
  all_goals simp

end Sys2Proof.Laws.Encoding

namespace Sys2Proof

/-- Settles O3: each layout of words decodes to the fields it was made of. -/
theorem encodeDecode : Obligations.EncodeDecode := by
  intro i ws hw he
  exact ⟨Laws.Encoding.length_encode he, Laws.Encoding.statement i hw ws he⟩

end Sys2Proof
end

section
/-! SUPPORT. The memories under the operations of the state: the operations that leave both memories and the home lines as
they are, one lemma each, and the shared operations over issues for any relation that such operations respect. -/

namespace Sys2Proof.Machine

set_option Elab.async false

/-! ## The memories of a state -/

/-- The memories of the package and the home lines. -/
def State.mems (s : State) : Memory × Memory × Tab HomeLine := (s.hbm, s.hostMem, s.lines)

@[simp] theorem State.eta_mems (s : State) : (s.hbm, s.hostMem, s.lines) = s.mems := (rfl)

/-- The memories of a state written out are those written. -/
@[simp] theorem State.mems_mk {agenda net issue turn freeCtr nextId clock tickAcc dies hbm hostMem frames asids bumps tableNext mem
    mreqs lines copies badLines reached keepers degCache rtCache rtReqs rtVers monitors cores warps blocks grids waits heldWrites
    fe hk} : (State.mk agenda net issue turn freeCtr nextId clock tickAcc dies hbm hostMem frames asids bumps tableNext mem
    mreqs lines copies badLines reached keepers degCache rtCache rtReqs rtVers monitors cores warps blocks grids waits heldWrites
    fe hk).mems = (hbm, hostMem, lines) := (rfl)

@[simp] theorem State.mems_ite (c : Prop) [Decidable c] (a b : State) :
    (if c then a else b).mems = if c then a.mems else b.mems := apply_ite State.mems c a b

/-- A chain of operations, each of which leaves the memories alone, leaves them alone. -/
@[simp] theorem State.mems_foldl {β : Type} {f : State → β → State} (hf : ∀ s x, (f s x).mems = s.mems) :
    (l : List β) → (s : State) → (l.foldl f s).mems = s.mems
  | [], _ => rfl
  | x :: rest, s => (mems_foldl hf rest (f s x)).trans (hf s x)

/-- The same for a chain that may stop with an error. -/
theorem State.mems_foldl_except {β ε : Type} {f : Except ε State → β → Except ε State} (he : ∀ r x, f (.error r) x = .error r)
    (hf : ∀ s x s', f (.ok s) x = .ok s' → s'.mems = s.mems) :
    (l : List β) → {s s' : State} → l.foldl f (.ok s) = .ok s' → s'.mems = s.mems
  | [], _, _, h => by cases h; rfl
  | x :: rest, s, s', h => by
    rw [List.foldl_cons] at h
    cases hx : f (.ok s) x with
    | ok u => exact (mems_foldl_except he hf rest (hx ▸ h)).trans (hf s x u hx)
    | error r =>
      have hr : rest.foldl f (.error r) = .error r := List.foldl_fixed' (he r) rest
      rw [hx, hr] at h
      cases h

/-- Every state that an effect leaves behind has a property. -/
def Eff.All (P : State → Prop) : Eff → Prop
  | .done s | .jump s _ | .held s | .stay s | .wait s => P s
  | .retry | .fault _ => True

@[simp] theorem Eff.all_done (P : State → Prop) (s : State) : (Eff.done s).All P = P s := rfl
@[simp] theorem Eff.all_jump (P : State → Prop) (s : State) (p : DWord) : (Eff.jump s p).All P = P s := rfl
@[simp] theorem Eff.all_held (P : State → Prop) (s : State) : (Eff.held s).All P = P s := rfl
@[simp] theorem Eff.all_stay (P : State → Prop) (s : State) : (Eff.stay s).All P = P s := rfl
@[simp] theorem Eff.all_wait (P : State → Prop) (s : State) : (Eff.wait s).All P = P s := rfl
@[simp] theorem Eff.all_retry (P : State → Prop) : Eff.retry.All P = True := rfl
@[simp] theorem Eff.all_fault (P : State → Prop) (r : Report) : (Eff.fault r).All P = True := rfl

end Sys2Proof.Machine
end

section
/-! SUPPORT. The operations of the state that leave the memories and the home lines as they are, in the order in which they use
each other. -/

namespace Sys2Proof.Machine

set_option Elab.async false

@[simp] theorem State.mems_setCore (s : State) (c : Nat) (f : Core → Core) : (s.setCore c f).mems = s.mems := (rfl)

@[simp] theorem State.mems_setWarp (s : State) (w : Nat) (f : Warp → Warp) : (s.setWarp w f).mems = s.mems := (rfl)

@[simp] theorem State.mems_takeToken (s : State) (w flag : Nat) : (s.takeToken w flag).mems = s.mems := (rfl)

@[simp] theorem State.mems_fresh (s : State) : (s.fresh).mems = s.mems := (rfl)

@[simp] theorem State.mems_send (s : State) (m : Msg) : (s.send m).mems = s.mems := (rfl)

@[simp] theorem State.mems_setCopy (s : State) (core id : Nat) (f : CopyOp → CopyOp) :
    (s.setCopy core id f).mems = s.mems := (rfl)

@[simp] theorem State.mems_setBlock (s : State) (b : Nat) (f : Block → Block) : (s.setBlock b f).mems = s.mems := (rfl)

@[simp] theorem State.mems_reserve (s : State) (core : Nat) (o : CopyOp) : (s.reserve core o).mems = s.mems := (rfl)

@[simp] theorem State.mems_acceptCopy (s : State) (o : CopyOp) (det : Bool) : (s.acceptCopy o det).mems = s.mems := by
  simp [State.acceptCopy]

@[simp] theorem State.mems_claimAcc (s : State) (core block : Nat) : (s.claimAcc core block).mems = s.mems := by
  simp [State.claimAcc]

@[simp] theorem State.mems_acceptMatrix (s : State) (core : Nat) (o : MatrixOp) : (s.acceptMatrix core o).mems = s.mems := by
  simp [State.acceptMatrix]

@[simp] theorem State.mems_takeSeq (s : State) : (s.takeSeq).2.mems = s.mems := (rfl)

@[simp] theorem State.mems_setQueue (s : State) (q : Nat) (f : Queue → Queue) : (s.setQueue q f).mems = s.mems := (rfl)

@[simp] theorem State.mems_owe (s : State) (o : Owed) : (s.owe o).mems = s.mems := (rfl)

@[simp] theorem State.mems_ackWrite (s : State) (w : Waiter) (gwct : Nat) : (s.ackWrite w gwct).mems = s.mems := by
  unfold State.ackWrite
  split <;> simp

@[simp] theorem State.mems_setFrame (s : State) (n : Nat) (f : Frame → Frame) : (s.setFrame n f).mems = s.mems := (rfl)

@[simp] theorem State.mems_sweepSense (s : State) : (s.sweepSense).mems = s.mems := (rfl)

@[simp] theorem State.mems_setFree (s : State) (n : Nat) : (s.setFree n).mems = s.mems := (rfl)

@[simp] theorem State.mems_expand (s : State) (n : Nat) : (s.expand n).mems = s.mems := by
  simp [State.expand]

@[simp] theorem State.mems_dropCopy (s : State) (die line : Nat) : (s.dropCopy die line).mems = s.mems := (rfl)

@[simp] theorem State.mems_postEvent (s : State) (type qid : Nat) (d0 d1 : DWord) :
    (s.postEvent type qid d0 d1).mems = s.mems := (rfl)

@[simp] theorem State.mems_staleWrite (s : State) (asid gen pa : Nat) : (s.staleWrite asid gen pa).mems = s.mems := (rfl)

@[simp] theorem State.mems_setDie (s : State) (d : Nat) (f : Die → Die) : (s.setDie d f).mems = s.mems := (rfl)

@[simp] theorem State.mems_countRoutine (s : State) (d k : Nat) : (s.countRoutine d k).mems = s.mems := (rfl)

@[simp] theorem State.mems_fireMonitor (s : State) (m : Monitor) (result : Bool) : (s.fireMonitor m result).mems = s.mems := by
  simp [State.fireMonitor]

@[simp] theorem State.mems_fireLine (s : State) (line : Nat) : (s.fireLine line).mems = s.mems :=
  State.mems_foldl (fun u m => u.mems_fireMonitor m true) _ s

@[simp] theorem State.mems_countRegion (s : State) (asid : Nat) (va : DWord) (rr wr coll : Nat) :
    (s.countRegion asid va rr wr coll).mems = s.mems := (rfl)

@[simp] theorem State.mems_sendOnce (s : State) (m : Msg) : (s.sendOnce m).mems = s.mems := by
  simp [State.sendOnce]

@[simp] theorem State.mems_reissue (s : State) (m : MemOp) (status : Nat) : (s.reissue m status).mems = s.mems := by
  simp [State.reissue]

@[simp] theorem State.mems_raiseMsix (s : State) (v : Nat) : (s.raiseMsix v).mems = s.mems := (rfl)

@[simp] theorem State.mems_xlate (s : State) (core asid : Nat) (va : DWord) : (s.xlate core asid va).2.mems = s.mems := by
  unfold State.xlate
  (repeat' split) <;> simp

theorem State.mems_accessCheck {s : State} {t : TRef} {va : DWord} {n : Nat} {r w : Bool} {s' : State}
    (h : s.accessCheck t va n r w = .ok s') :
    s'.mems = s.mems := by
  unfold State.accessCheck at h
  dsimp only at h
  repeat' split at h
  all_goals cases h
  all_goals simp

@[simp] theorem State.mems_mapRaces (s : State) (block : Nat) (f : Race → Race) : (s.mapRaces block f).mems = s.mems := (rfl)

@[simp] theorem State.mems_acquireRaces (s : State) (ms : List Nat) : (s.acquireRaces ms).mems = s.mems := by
  simp [State.acquireRaces]

@[simp] theorem State.mems_acquire (s : State) (ms : List Nat) (sc : MemScope) : (s.acquire ms sc).mems = s.mems := by
  simp [State.acquire]

@[simp] theorem State.mems_dropOp (s : State) (core id : Nat) : (s.dropOp core id).mems = s.mems := (rfl)

@[simp] theorem State.mems_advanceFill (core block place ofs : Nat) : (fuel : Nat) → (s : State) →
    (s.advanceFill core block place ofs fuel).mems = s.mems
  | 0, _ => (rfl)
  | fuel + 1, s => by
    unfold State.advanceFill
    dsimp only
    split
    · rfl
    · rw [mems_advanceFill core block place ofs fuel]; rfl

@[simp] theorem State.mems_finish (s : State) (opc : Nat) (took : List TRef) : (s.finish opc took).mems = s.mems := by
  simp [State.finish]

@[simp] theorem State.mems_fatal (s : State) (warp : Nat) (r : Report) (pos : DWord) :
    (s.fatal warp r pos).mems = s.mems := (rfl)

@[simp] theorem State.mems_setThread (s : State) (t : TRef) (f : Thread → Thread) : (s.setThread t f).mems = s.mems := (rfl)

@[simp] theorem State.mems_raise (s : State) (t : TRef) (r : Report) : (s.raise t r).mems = s.mems := by
  unfold State.raise
  simp only []
  (repeat' split) <;> simp

@[simp] theorem State.mems_suspend (s : State) (members : List Nat) (ts : List TRef) :
    (s.suspend members ts).mems = s.mems := by
  simp [State.suspend]

@[simp] theorem State.mems_raiseAll (s : State) (ts : List TRef) (r : Report) (setWide : Bool) :
    (s.raiseAll ts r setWide).mems = s.mems := by
  unfold State.raiseAll
  simp only []
  (repeat' split) <;> simp

@[simp] theorem State.mems_park (s : State) (kind : WaitKind) (warp : Nat) (members : List TRef) :
    (s.park kind warp members).mems = s.mems := by
  simp [State.park]

@[simp] theorem State.mems_stampOne (s : State) (w : Nat) (ts : List TRef) : (s.stampOne w ts).mems = s.mems := by
  simp [State.stampOne]

@[simp] theorem State.mems_stamp (s : State) (whole : Bool) (ts : List TRef) : (s.stamp whole ts).mems = s.mems := by
  unfold State.stamp
  split <;> simp

@[simp] theorem State.mems_moveTo (s : State) (t : TRef) (pos : DWord) : (s.moveTo t pos).mems = s.mems := (rfl)

@[simp] theorem State.mems_putOff (s : State) (opc : Nat) (ts : List TRef) : (s.putOff opc ts).mems = s.mems := by
  simp [State.putOff]

@[simp] theorem State.mems_setFlags (s : State) (t : TRef) (fl : FFlags) : (s.setFlags t fl).mems = s.mems := by
  simp [State.setFlags]

@[simp] theorem State.mems_writeFixed (s : State) (warp lat : Nat) (ws : List (RegKey × DWord)) :
    (s.writeFixed warp lat ws).mems = s.mems := (rfl)

@[simp] theorem State.mems_answerDegree (s : State) (asid region : Nat) : (s.answerDegree asid region).mems = s.mems := (rfl)

@[simp] theorem State.mems_applyQcwset (s : State) (core : Nat) (o : CopyOp) : (s.applyQcwset core o).mems = s.mems := (rfl)

@[simp] theorem State.mems_armKey (s : State) (key : MonKey) (agent : Nat) (w : Option Nat) :
    (s.armKey key agent w).2.mems = s.mems := by
  unfold State.armKey
  simp only []
  (repeat' split) <;> simp

@[simp] theorem State.mems_barArrive (s : State) (b id : Nat) (ws : List Nat) : (s.barArrive b id ws).mems = s.mems := by
  simp [State.barArrive]

theorem State.mems_arrive {s : State} {t : TRef} {f : Form} {word0 : Word} {s' : State} (h : s.arrive t f word0 = some s') :
    s'.mems = s.mems := by
  unfold State.arrive at h
  dsimp only at h
  repeat' split at h
  all_goals cases h
  all_goals simp

@[simp] theorem State.mems_askDegree (s : State) (slice asid region : Nat) : (s.askDegree slice asid region).mems = s.mems := by
  simp [State.askDegree]

@[simp] theorem State.mems_askEstimator (s : State) (g : Nat) : (s.askEstimator g).mems = s.mems := by
  simp [State.askEstimator]

@[simp] theorem State.mems_setXread (s : State) (id : Nat) (f : Xread → Xread) : (s.setXread id f).mems = s.mems := (rfl)

@[simp] theorem State.mems_endXread (s : State) (id status : Nat) : (s.endXread id status).mems = s.mems := (rfl)

@[simp] theorem State.mems_hold (s : State) (m : Msg) : (s.hold m).mems = s.mems := (rfl)

@[simp] theorem State.mems_setPort (s : State) (p : Nat) (f : Port → Port) : (s.setPort p f).mems = s.mems := (rfl)

@[simp] theorem State.mems_sendFlit (s : State) (p type : Nat) (payload : List Byte) :
    (s.sendFlit p type payload).mems = s.mems := by
  simp [State.sendFlit]

@[simp] theorem State.mems_askPeer (s : State) (x : Xread) (e : Endpoint) : (s.askPeer x e).mems = s.mems := by
  simp [State.askPeer]

theorem State.mems_assignPeers {s : State} {x : Xread} {s' : State} (h : s.assignPeers x = some s') : s'.mems = s.mems := by
  unfold State.assignPeers at h
  dsimp only at h
  repeat' split at h
  all_goals cases h
  all_goals simp

@[simp] theorem State.mems_atHeader (s : State) (t : TRef) : (s.atHeader t).mems = s.mems := by
  unfold State.atHeader
  split <;> simp

@[simp] theorem State.mems_countSlice (s : State) (d k : Nat) : (s.countSlice d k).mems = s.mems := (rfl)

@[simp] theorem State.mems_mapKeeper (s : State) (asid region : Nat) (f : Keeper → Keeper) :
    (s.mapKeeper asid region f).mems = s.mems := (rfl)

@[simp] theorem State.mems_degreeCount (asid region rr wr coll : Nat) (s : State) :
    (degreeCount asid region rr wr coll s).mems = s.mems := by
  unfold degreeCount
  split <;> simp

@[simp] theorem State.mems_dieTimerCalibration (die : Nat) (cal : Calibration) (s : State) :
    (dieTimerCalibration die cal s).mems = s.mems := (rfl)

@[simp] theorem State.mems_keep (s : State) (m : Msg) : (s.keep m).mems = s.mems := by
  simp [State.keep]

@[simp] theorem State.mems_releaseRaces (s : State) (ws : List Nat) : (s.releaseRaces ws).mems = s.mems := by
  simp [State.releaseRaces]

@[simp] theorem State.mems_completeWait (s : State) (id : Nat) : (s.completeWait id).mems = s.mems := by
  unfold State.completeWait
  split <;> simp

@[simp] theorem State.mems_fencePart (s : State) (id k part : Nat) : (s.fencePart id k part).mems = s.mems := (rfl)

@[simp] theorem State.mems_fenceAcquire (s : State) (id : Nat) (r : WaitRec) (k : Nat) :
    (s.fenceAcquire id r k).mems = s.mems := by
  simp [State.fenceAcquire]

@[simp] theorem State.mems_fenceReleaseCompletion (wait : Nat) (s : State) : (fenceReleaseCompletion wait s).mems = s.mems := by
  unfold fenceReleaseCompletion
  simp only []
  (repeat' split) <;> simp

@[simp] theorem State.mems_endReleases (s : State) : (s.endReleases).mems = s.mems := by
  simp [State.endReleases]

@[simp] theorem State.mems_calibrate (s : State) (die : Nat) (cal : Calibration) : (s.calibrate die cal).mems = s.mems := (rfl)

@[simp] theorem State.mems_portUp (p : Nat) (s : State) : (portUp p s).mems = s.mems := by
  simp [portUp]

@[simp] theorem State.mems_endRemote (s : State) (p : Nat) : (s.endRemote p).mems = s.mems := by
  simp [State.endRemote]

@[simp] theorem State.mems_portDown (p : Nat) (s : State) : (portDown p s).mems = s.mems := by
  simp [portDown]

@[simp] theorem State.mems_bringUp (s : State) : (s.bringUp).mems = s.mems := by
  unfold State.bringUp
  simp only [State.mems_mk, State.eta_mems]
  rw [State.mems_foldl (fun u p => by rw [State.mems_portUp, State.mems_portDown]),
    State.mems_foldl (fun u d => State.mems_calibrate u d _)]

@[simp] theorem State.mems_setAsid (s : State) (a : Nat) (f : Asid → Asid) : (s.setAsid a f).mems = s.mems := (rfl)

@[simp] theorem State.mems_bump (s : State) (asid : Nat) (frames reqs : List Nat) :
    (s.bump asid frames reqs).mems = s.mems := by
  simp [State.bump]

@[simp] theorem State.mems_reqId (s : State) (r : MemRequest) (op : Nat) : (s.reqId r op).2.mems = s.mems := by
  unfold State.reqId
  split <;> simp

@[simp] theorem State.mems_reqInBump (s : State) (r : MemRequest) : (s.reqInBump r).mems = s.mems := (rfl)

@[simp] theorem State.mems_bumpFor (s : State) (r : MemRequest) (op : Nat) (frames : List Nat) :
    (s.bumpFor r op frames).mems = s.mems := by
  simp [State.bumpFor]

@[simp] theorem State.mems_bumpLive (s : State) (asid : Nat) : (s.bumpLive asid).mems = s.mems := by
  simp [State.bumpLive]

@[simp] theorem State.mems_free (s : State) : (s.free).2.mems = s.mems := (rfl)

@[simp] theorem State.mems_cancelLead (s : State) (f : Form) (ld : TRef) : (s.cancelLead f ld).2.mems = s.mems := by
  unfold State.cancelLead
  split <;> simp

@[simp] theorem State.mems_withdraw (s : State) (key : MonKey) (w : Option Nat) : (s.withdraw key w).mems = s.mems := (rfl)

@[simp] theorem State.mems_wakeSaved (s : State) (id : Nat) (b : Bool) : (s.wakeSaved id b).mems = s.mems := by
  unfold State.wakeSaved
  simp only []
  (repeat' split) <;> simp

@[simp] theorem State.mems_cancelSaved (s : State) (asid place : Nat) (block : Option Nat) :
    (s.cancelSaved asid place block).mems = s.mems := by
  simp [State.cancelSaved]

@[simp] theorem State.mems_writeNow (s : State) (warp : Nat) (ws : List (RegKey × DWord)) :
    (s.writeNow warp ws).mems = s.mems := (rfl)

@[simp] theorem State.mems_writeWait (s : State) (ts : List TRef) (dst : Nat) (b : Bool) :
    (s.writeWait ts dst b).mems = s.mems := by
  simp [State.writeWait]

@[simp] theorem State.mems_endCmp (s : State) (id : Nat) (b : Bool) : (s.endCmp id b).mems = s.mems := by
  unfold State.endCmp
  (repeat' split) <;> simp

@[simp] theorem State.mems_withdrawWait (s : State) (id : Nat) : (s.withdrawWait id).mems = s.mems := by
  unfold State.withdrawWait
  (repeat' split) <;> simp

@[simp] theorem State.mems_cancelWaits (s : State) (asid place : Nat) (core block : Option Nat) :
    (s.cancelWaits asid place core block).mems = s.mems := by
  simp [State.cancelWaits]

theorem State.mems_catalogueEntry {s : State} {warp slot : Nat} {r : List Byte × State}
    (h : s.catalogueEntry warp slot = .ok r) :
    r.2.mems = s.mems := by
  unfold State.catalogueEntry at h
  dsimp only at h
  repeat' split at h
  all_goals cases h
  all_goals simp

@[simp] theorem State.mems_setGrid (s : State) (g : Nat) (f : Grid → Grid) : (s.setGrid g f).mems = s.mems := (rfl)

@[simp] theorem State.mems_checkGrid (s : State) (g : Nat) : (s.checkGrid g).mems = s.mems := by
  simp [State.checkGrid]

@[simp] theorem State.mems_idleBlock (s : State) (b : Nat) : (s.idleBlock b).mems = s.mems := by
  unfold State.idleBlock
  simp only []
  (repeat' split) <;> simp

@[simp] theorem State.mems_countDegree (s : State) (asid region old new : Nat) :
    (s.countDegree asid region old new).mems = s.mems := by
  simp [State.countDegree]

@[simp] theorem State.mems_sendDegrees (s : State) : (s.sendDegrees).mems = s.mems := (rfl)

@[simp] theorem State.mems_keeperUpdate (s : State) : (keeperUpdate s).mems = s.mems := by
  simp [keeperUpdate]

@[simp] theorem State.mems_rtKeep (s : State) (e : RtEntry) : (s.rtKeep e).mems = s.mems := (rfl)

theorem State.mems_rtCode {s : State} {slice : Nat} {v : Invocation} {r : List Word × State} (h : s.rtCode slice v = .ok r) :
    r.2.mems = s.mems := by
  unfold State.rtCode at h
  dsimp only at h
  repeat' split at h
  all_goals cases h
  all_goals simp

theorem State.mems_codeFor {s : State} {slice : Nat} {v : Invocation} {r : List Word × State} (h : s.codeFor slice v = .ok r) :
    r.2.mems = s.mems := by
  unfold State.codeFor at h
  split at h
  · cases h; rfl
  · exact State.mems_rtCode h

@[simp] theorem State.mems_postToken (s : State) (w flag : Nat) (gwct : DWord) :
    (s.postToken w flag gwct).mems = s.mems := (rfl)

@[simp] theorem State.mems_deferFault (s : State) (w flag : Nat) (pos : DWord) (r : Report) (members : List Nat) :
    (s.deferFault w flag pos r members).mems = s.mems := (rfl)

@[simp] theorem State.mems_completeMatrix (s : State) (core : Nat) (o : MatrixOp) :
    (s.completeMatrix core o).mems = s.mems := by
  unfold State.completeMatrix
  split <;> simp

theorem State.mems_constCheck {s : State} {t : TRef} {ofs n : Nat} {r : State × DWord} (h : s.constCheck t ofs n = .ok r) :
    r.1.mems = s.mems := by
  unfold State.constCheck at h
  dsimp only at h
  repeat' split at h
  all_goals cases h
  exact State.mems_accessCheck ‹_›

@[simp] theorem State.mems_copyFault (s : State) (core : Nat) (o : CopyOp) (e : MoveFault) :
    (s.copyFault core o e).mems = s.mems := (rfl)

theorem State.mems_copyPages {s : State} {o : CopyOp} {handle : Nat} {s' : State} (h : s.copyPages o handle = .ok s') :
    s'.mems = s.mems := by
  unfold State.copyPages at h
  dsimp only at h
  by_cases hb : (if o.named = true then copySpans o else []).any (beyondLimit (Tensor.ofBytes o.entry)) = true
  · rw [if_pos hb] at h
    cases h
  · rw [if_neg hb] at h
    refine State.mems_foldl_except (fun _ _ => rfl) (fun u va u' hu => ?_) _ h
    dsimp only at hu
    split at hu <;> cases hu
    exact State.mems_xlate _ _ _ _

@[simp] theorem State.mems_engineStale (s : State) (asid gen va : Nat) (waiter : Waiter) :
    (s.engineStale asid gen va waiter).mems = s.mems := by
  simp [State.engineStale]

@[simp] theorem State.mems_l1Drop (s : State) (core : Nat) (host : Bool) (line : Nat) :
    (s.l1Drop core host line).mems = s.mems := (rfl)

@[simp] theorem State.mems_engineDrop (s : State) (waiter : Waiter) (die : Nat) (host : Bool) (line : Nat) :
    (s.engineDrop waiter die host line).mems = s.mems := by
  unfold State.engineDrop
  split <;> simp

@[simp] theorem State.mems_coresFreed (s : State) : (s.coresFreed).mems = s.mems := by
  simp [State.coresFreed]

@[simp] theorem State.mems_countMigrate (s : State) (moved : Bool) : (s.countMigrate moved).mems = s.mems := (rfl)

@[simp] theorem State.mems_countPassed (s : State) (ws : List Nat) (order : List (TRef × Fetched)) (group : List TRef) :
    (s.countPassed ws order group).mems = s.mems := by
  simp [State.countPassed]

@[simp] theorem State.mems_grantRegs (s : State) (w n : Nat) : (s.grantRegs w n).mems = s.mems := by
  simp [State.grantRegs]

@[simp] theorem State.mems_regclaimGrant (wait : Nat) (s : State) : (regclaimGrant wait s).mems = s.mems := by
  unfold regclaimGrant
  (repeat' split) <;> simp

@[simp] theorem State.mems_windowLand (s : State) (m : WinWrite) : (s.windowLand m).mems = s.mems := by
  simp [State.windowLand]

@[simp] theorem State.mems_windowWriteArrival (m : WinWrite) (s : State) : (windowWriteArrival m s).mems = s.mems := by
  simp [windowWriteArrival]

@[simp] theorem State.mems_stwWaitLand (m : WinWrite) (s : State) : (stwWaitLand m s).mems = s.mems := by
  simp [stwWaitLand]

@[simp] theorem State.mems_scOrderGrant (wait : Nat) (s : State) : (scOrderGrant wait s).mems = s.mems := by
  unfold scOrderGrant
  simp only []
  (repeat' split) <;> simp

@[simp] theorem State.mems_rtReturn (s : State) (v : Invocation) (r : RtResult) : (s.rtReturn v r).mems = s.mems := (rfl)

@[simp] theorem State.mems_rejectInvocation (s : State) (v : Invocation) : (s.rejectInvocation v).mems = s.mems := by
  simp [State.rejectInvocation]

@[simp] theorem State.mems_rtFault (s : State) (v : Invocation) (die code abort : Nat) :
    (s.rtFault v die code abort).mems = s.mems := (rfl)

@[simp] theorem State.mems_fixFences (s : State) (warp : Nat) : (s.fixFences warp).mems = s.mems := (rfl)

@[simp] theorem State.mems_storeGone (s : State) (warp id : Nat) : (s.storeGone warp id).mems = s.mems := (rfl)

@[simp] theorem State.mems_storeAck (a : StoreAck) (s : State) : (storeAck a s).mems = s.mems := (rfl)

@[simp] theorem State.mems_unpark (s : State) (id : Nat) : (s.unpark id).mems = s.mems := by
  unfold State.unpark
  split <;> simp

@[simp] theorem State.mems_routineReturn (r : RtReturn) (s : State) : (routineReturn r s).mems = s.mems := by
  unfold routineReturn
  simp only []
  (repeat' split) <;> simp

@[simp] theorem State.mems_feWoken (s : State) (key : MonKey) : (s.feWoken key).mems = s.mems := by
  simp [State.feWoken]

@[simp] theorem State.mems_seenBy (s : State) (core : Nat) (key : MonKey) : (s.seenBy core key).mems = s.mems := by
  simp [State.seenBy]

@[simp] theorem State.mems_monitorWake (key : MonKey) (agent : Nat) (result : Bool) (s0 : State) :
    (monitorWake key agent result s0).mems = s0.mems := by
  simp [monitorWake]

@[simp] theorem State.mems_setSavedPoll (s : State) (rec_ id : Nat) (k : WaitKind) :
    (s.setSavedPoll rec_ id k).mems = s.mems := (rfl)

@[simp] theorem State.mems_waitTimeout (wait : Nat) (s : State) : (waitTimeout wait s).mems = s.mems := by
  unfold waitTimeout
  (repeat' split) <;> simp

@[simp] theorem State.mems_monitorCancel (wait asid place : Nat) (block : Option Nat) (agent : Nat) (s : State) :
    (monitorCancel wait asid place block agent s).mems = s.mems := by
  unfold monitorCancel
  simp only []
  (repeat' split) <;> simp

@[simp] theorem State.mems_blockYield (b : Nat) (s : State) : (blockYield b s).mems = s.mems := by
  unfold blockYield
  split <;> simp

@[simp] theorem State.mems_yieldWake (k : Nat) (s : State) : (yieldWake k s).mems = s.mems := by
  simp [yieldWake]

@[simp] theorem State.mems_freeBytes (s : State) (n : Nat) : (s.freeBytes n).2.mems = s.mems := (rfl)

@[simp] theorem State.mems_scratchWrite (s : State) (block : Nat) (p : SaPlace) (bs : List Byte) (ws : List Nat) (core : Nat)
    (token : Option Nat) :
    (s.scratchWrite block p bs ws core token).mems = s.mems := (rfl)

@[simp] theorem State.mems_putImage (s : State) (core : Nat) (o : CopyOp) (bs : List Byte) :
    (s.putImage core o bs).mems = s.mems := by
  unfold State.putImage
  simp only []
  (repeat' split) <;> simp

@[simp] theorem State.mems_postCopy (s : State) (core : Nat) (o : CopyOp) : (s.postCopy core o).mems = s.mems := by
  unfold State.postCopy
  split <;> simp

@[simp] theorem State.mems_ringReserve (core op : Nat) (s : State) : (ringReserve core op s).mems = s.mems := by
  unfold ringReserve
  split <;> simp

@[simp] theorem State.mems_settleXread (s : State) (id : Nat) : (s.settleXread id).mems = s.mems := by
  unfold State.settleXread
  split <;> simp

@[simp] theorem State.mems_nvmeCompletion (id cid : Nat) (status : BitVec 16) (s : State) :
    (nvmeCompletion id cid status s).mems = s.mems := by
  unfold nvmeCompletion
  (repeat' split) <;> simp

@[simp] theorem State.mems_xreadTimeout (id : Nat) (s : State) : (xreadTimeout id s).mems = s.mems := by
  unfold xreadTimeout
  split <;> simp

@[simp] theorem State.mems_setMatrix (s : State) (core id : Nat) (f : MatrixOp → MatrixOp) :
    (s.setMatrix core id f).mems = s.mems := (rfl)

@[simp] theorem State.mems_stepped (s : State) (core : Nat) (o : MatrixOp) : (s.stepped core o).mems = s.mems := by
  simp [State.stepped]

@[simp] theorem State.mems_freeTile (s : State) (core tile : Nat) : (s.freeTile core tile).mems = s.mems := (rfl)

@[simp] theorem State.mems_runStep (s : State) (core : Nat) (o : MatrixOp) : (s.runStep core o).mems = s.mems := by
  unfold State.runStep
  simp only []
  (repeat' split) <;> simp

@[simp] theorem State.mems_startMma (s : State) (core : Nat) (o : MatrixOp) : (s.startMma core o).mems = s.mems := (rfl)

@[simp] theorem State.mems_matrixKStep (core : Nat) (s : State) : (matrixKStep core s).mems = s.mems := by
  unfold matrixKStep
  simp only []
  (repeat' split) <;> simp

@[simp] theorem State.mems_matWrite (s : State) (core : Nat) (o : MatrixOp) (sa : Nat) (bs : List Byte) :
    (s.matWrite core o sa bs).mems = s.mems := (rfl)

@[simp] theorem State.mems_drainScratch (s : State) (core : Nat) (o : MatrixOp) : (s.drainScratch core o).mems = s.mems := by
  simp [State.drainScratch]

@[simp] theorem State.mems_loadTile (s : State) (core : Nat) (o : MatrixOp) : (s.loadTile core o).1.mems = s.mems := by
  unfold State.loadTile
  simp only []
  (repeat' split) <;> simp

@[simp] theorem State.mems_giveTask (s : State) (wait warp : Nat) (bytes : List Byte) :
    (s.giveTask wait warp bytes).mems = s.mems := by
  unfold State.giveTask
  split <;> simp

@[simp] theorem State.mems_noTask (s : State) (wait warp : Nat) : (s.noTask wait warp).mems = s.mems := by
  unfold State.noTask
  split <;> simp

@[simp] theorem State.mems_dropCoord (s : State) (g : Nat) (n : Option Nat) : (s.dropCoord g n).mems = s.mems := by
  unfold State.dropCoord
  split <;> simp

@[simp] theorem State.mems_freeBuffers (s : State) (w : Nat) : (s.freeBuffers w).mems = s.mems := (rfl)

@[simp] theorem State.mems_gridWrote (s : State) (g : Nat) (ws : List Warp) : (s.gridWrote g ws).mems = s.mems := (rfl)

@[simp] theorem State.mems_freeBlock (s0 : State) (b : Nat) : (s0.freeBlock b).mems = s0.mems := by
  simp [State.freeBlock]

@[simp] theorem State.mems_reap (s : State) (w : Nat) : (s.reap w).mems = s.mems := by
  simp [State.reap]

@[simp] theorem State.mems_leaveCore (s : State) (b core : Nat) : (s.leaveCore b core).mems = s.mems := by
  simp [State.leaveCore]

@[simp] theorem State.mems_moveWarp (s : State) (w core part slot : Nat) (origin : Option (Nat × Nat × Nat)) :
    (s.moveWarp w core part slot origin).mems = s.mems := by
  simp [State.moveWarp]

@[simp] theorem State.mems_cairnGrant (wait : Nat) (s : State) : (cairnGrant wait s).mems = s.mems := by
  unfold cairnGrant
  simp only []
  (repeat' split) <;> simp

@[simp] theorem State.mems_cairnTimeout (wait : Nat) (s : State) : (cairnTimeout wait s).mems = s.mems := by
  unfold cairnTimeout
  simp only []
  (repeat' split) <;> simp

@[simp] theorem State.mems_putBack (s : State) (wb : WriteBack) (v : BitVec 128) : (s.putBack wb v).mems = s.mems := by
  unfold State.putBack
  simp only []
  (repeat' split) <;> simp

theorem State.mems_ringTake {s : State} {block place qofs : Nat} {r : Nat × State} (h : s.ringTake block place qofs = some r) :
    r.2.mems = s.mems := by
  unfold State.ringTake at h
  dsimp only at h
  repeat' split at h
  all_goals cases h
  all_goals simp

@[simp] theorem State.mems_ringValue (s : State) (block place qofs v : Nat) :
    (s.ringValue block place qofs v).2.mems = s.mems := by
  unfold State.ringValue
  split <;> simp

@[simp] theorem State.mems_vclassWriteBack (wb : WriteBack) (s : State) : (vclassWriteBack wb s).mems = s.mems := by
  unfold vclassWriteBack
  split
  · simp
  · dsimp only
    (repeat' split) <;> simp
  · split
    · simp
    · rename_i hr
      have h0 := State.mems_ringTake hr
      dsimp only
      split <;> simp [h0]

@[simp] theorem State.mems_waited (s : State) (ws : List Nat) (mask : Nat) : (s.waited ws mask).mems = s.mems := by
  simp [State.waited]

@[simp] theorem State.mems_useParts (s : State) (ts : List TRef) : (s.useParts ts).mems = s.mems := by
  simp [State.useParts]

@[simp] theorem State.mems_issueRendezvous (s : State) (t : TRef) (ms : List TRef) (again : Msg) :
    (s.issueRendezvous t ms again).mems = s.mems := by
  unfold State.issueRendezvous
  simp only []
  (repeat' split) <;> simp

@[simp] theorem State.mems_judge (s : State) (t : TRef) : (s.judge t).mems = s.mems := by
  simp [State.judge]

@[simp] theorem State.mems_raiseDeferred (s : State) (t : TRef) (d : Deferred) : (s.raiseDeferred t d).mems = s.mems := by
  simp [State.raiseDeferred]

theorem State.mems_memberFaults {s : State} {ms : List TRef} {s' : State} (h : s.memberFaults ms = some s') :
    s'.mems = s.mems := by
  unfold State.memberFaults at h
  dsimp only at h
  repeat' split at h
  all_goals cases h
  all_goals simp

@[simp] theorem State.mems_rendezvousComplete (warp lane : Nat) (s : State) :
    (rendezvousComplete warp lane s).mems = s.mems := by
  unfold rendezvousComplete
  dsimp only
  split
  · rfl
  · split
    · rfl
    · split
      · simp
      · split
        · simp
        · split
          · simp
          · rename_i hm _
            simp [State.mems_memberFaults hm]
          · simp

@[simp] theorem State.mems_namedBarrierComplete (b id : Nat) (s0 : State) : (namedBarrierComplete b id s0).mems = s0.mems := by
  have hm (u : State) (ms : List TRef) (t : TRef) : ((u.memberFaults ms).getD (u.judge t)).mems = u.mems := by
    cases h : u.memberFaults ms with
    | none => simp
    | some u' => exact State.mems_memberFaults h
  unfold namedBarrierComplete
  dsimp only
  (repeat' split) <;> simp [hm]

@[simp] theorem State.mems_leaveBarriers (s : State) (b : Nat) (ws : List Nat) : (s.leaveBarriers b ws).mems = s.mems := (rfl)

@[simp] theorem State.mems_stuckRendezvous (warp : Nat) (s : State) : (stuckRendezvous warp s).mems = s.mems := by
  simp [stuckRendezvous]

@[simp] theorem State.mems_withdrawSaved (s : State) (w : Nat × WaitRec) : (s.withdrawSaved w).mems = s.mems := by
  unfold State.withdrawSaved
  split <;> simp

@[simp] theorem State.mems_setHeap (s : State) (runs : List (Nat × Nat)) : (s.setHeap runs).mems = s.mems := (rfl)

@[simp] theorem State.mems_dropMessages (s : State) (b : Nat) : (s.dropMessages b).mems = s.mems := (rfl)

@[simp] theorem State.mems_withdrawBlock (s : State) (b : Nat) : (s.withdrawBlock b).mems = s.mems := by
  simp [State.withdrawBlock]

@[simp] theorem State.mems_refreshFrz (s : State) : (s.refreshFrz).mems = s.mems := (rfl)

@[simp] theorem State.mems_endGrid (s : State) (g : Nat) : (s.endGrid g).mems = s.mems := by
  simp [State.endGrid]

@[simp] theorem State.mems_fatalFault (g : Nat) (r : Report) (pos : DWord) (s : State) :
    (fatalFault g r pos s).mems = s.mems := by
  unfold fatalFault
  split <;> simp

@[simp] theorem State.mems_stampedRequestRelease (g : Nat) (s : State) : (stampedRequestRelease g s).mems = s.mems := by
  unfold stampedRequestRelease
  simp only []
  (repeat' split) <;> simp

@[simp] theorem State.mems_l1Fill (s : State) (core asid gen : Nat) (host : Bool) (line : Nat) (d : LineData) :
    (s.l1Fill core asid gen host line d).mems = s.mems := (rfl)

@[simp] theorem State.mems_loaded (s : State) (r : ReadReq) (d : LineData) : (s.loaded r d).mems = s.mems := by
  unfold State.loaded
  simp only []
  (repeat' split) <;> simp

@[simp] theorem State.mems_readDone (s : State) (r : ReadReq) (d : LineData) : (s.readDone r d).mems = s.mems := by
  simp [State.readDone]

@[simp] theorem State.mems_observe (s : State) (warp line : Nat) : (s.observe warp line).mems = s.mems := by
  simp [State.observe]

@[simp] theorem State.mems_markApplied (s : State) (w : WriteReq) : (s.markApplied w).mems = s.mems := by
  unfold State.markApplied
  split <;> simp

@[simp] theorem State.mems_storeApplied (s : State) (w : WriteReq) : (s.storeApplied w).mems = s.mems := by
  unfold State.storeApplied
  split <;> simp

@[simp] theorem State.mems_collapseReceipt (die line : Nat) (s : State) : (collapseReceipt die line s).mems = s.mems := (rfl)

@[simp] theorem State.mems_copyExpiry (die line : Nat) (s : State) : (copyExpiry die line s).mems = s.mems := by
  unfold copyExpiry
  split <;> simp

@[simp] theorem State.mems_pinRegion (s : State) (asid region deg : Nat) : (s.pinRegion asid region deg).1.mems = s.mems := by
  unfold State.pinRegion
  split <;> simp

@[simp] theorem State.mems_unpinRegion (s : State) (asid region : Nat) : (s.unpinRegion asid region).mems = s.mems := (rfl)

@[simp] theorem State.mems_dgpinApply (value : DWord) (s : State) : (dgpinApply value s).mems = s.mems := by
  simp [dgpinApply]

@[simp] theorem State.mems_spoil (s : State) (line cause : Nat) : (s.spoil line cause).mems = s.mems := (rfl)

@[simp] theorem State.mems_postLoss (s : State) (asid pa cause : Nat) : (s.postLoss asid pa cause).mems = s.mems := (rfl)

@[simp] theorem State.mems_endAsid (s : State) (asid : Nat) : (s.endAsid asid).mems = s.mems := by
  simp [State.endAsid]

@[simp] theorem State.mems_dropAcks (s : State) (die : Nat) : (s.dropAcks die).mems = s.mems := (rfl)

@[simp] theorem State.mems_staleXreads (s : State) (asid gen : Nat) : (s.staleXreads asid gen).mems = s.mems := by
  simp [State.staleXreads]

@[simp] theorem State.mems_installGen (s : State) (b : Bump) (agent : Nat) : (s.installGen b agent).mems = s.mems := by
  simp [State.installGen]

@[simp] theorem State.mems_fireFrame (s : State) (n : Nat) : (s.fireFrame n).mems = s.mems :=
  State.mems_foldl (fun u m => u.mems_fireMonitor m false) _ s

@[simp] theorem State.mems_sweeperVisit (s : State) : (sweeperVisit s).mems = s.mems := by
  simp [sweeperVisit]

@[simp] theorem State.mems_compression (n : Nat) (s : State) : (compression n s).mems = s.mems := by
  simp [compression]

@[simp] theorem State.mems_expansion (n : Nat) (s : State) : (expansion n s).mems = s.mems := by
  simp [expansion]

@[simp] theorem State.mems_qsts (s : State) (code st : Nat) : (s.qsts code st).mems = s.mems := (rfl)

@[simp] theorem State.mems_queueRefused (s : State) (code : Nat) : (s.queueRefused code).mems = s.mems := (rfl)

@[simp] theorem State.mems_queueOk (s : State) : (s.queueOk).mems = s.mems := (rfl)

@[simp] theorem State.mems_feUnwatch (s : State) (asid : Nat) (va : DWord) : (s.feUnwatch asid va).mems = s.mems := by
  unfold State.feUnwatch
  split <;> simp

@[simp] theorem State.mems_queueDestroy (qid : Nat) (s : State) : (queueDestroy qid s).mems = s.mems := by
  unfold queueDestroy
  split <;> simp

@[simp] theorem State.mems_setPacket (s : State) (qid seq : Nat) (f : Packet → Packet) :
    (s.setPacket qid seq f).mems = s.mems := (rfl)

@[simp] theorem State.mems_endPacket (s : State) (qid seq : Nat) (ok : Bool) : (s.endPacket qid seq ok).mems = s.mems := by
  unfold State.endPacket
  split <;> simp

@[simp] theorem State.mems_releaseLeases (s : State) (g : Nat) : (s.releaseLeases g).mems = s.mems := by
  unfold State.releaseLeases
  rw [State.mems_setGrid]
  refine State.mems_foldl (fun u p => ?_) _ s
  split <;> simp

@[simp] theorem State.mems_mapQueue (s : State) (u : Nat × Queue) : (s.mapQueue u).mems = s.mems := by
  unfold State.mapQueue
  simp only []
  (repeat' split) <;> simp

@[simp] theorem State.mems_mappingPass (s : State) : (mappingPass s).mems = s.mems := by
  simp [mappingPass]

@[simp] theorem State.mems_placeOne (s : State) (g blockNo : Nat) (cores : List Nat) :
    (s.placeOne g blockNo cores).mems = s.mems := by
  unfold State.placeOne
  rw [State.mems_acquire, State.mems_setGrid]
  refine (State.mems_foldl ?_ _ _).trans rfl
  exact fun _ _ => rfl

@[simp] theorem State.mems_placement (g : Nat) (s : State) : (placement g s).mems = s.mems := by
  unfold placement
  simp only []
  (repeat' split) <;> simp

@[simp] theorem State.mems_setEv (s : State) (f : EventRing → EventRing) : (s.setEv f).mems = s.mems := (rfl)

@[simp] theorem State.mems_markVictim (s : State) (bs : List Nat) (bav : Int) (drains : Bool) :
    (s.markVictim bs bav drains).mems = s.mems := by
  unfold State.markVictim
  simp only []
  (repeat' split) <;> simp

@[simp] theorem State.mems_estimatorRun (g : Nat) (s : State) : (estimatorRun g s).mems = s.mems := by
  unfold estimatorRun
  split <;> simp

@[simp] theorem State.mems_drainRecheck (b : Nat) (s : State) : (drainRecheck b s).mems = s.mems := by
  unfold drainRecheck
  (repeat' split) <;> simp

@[simp] theorem State.mems_startFlush (s : State) (b : Nat) : (s.startFlush b).mems = s.mems := (rfl)

@[simp] theorem State.mems_moveToFe (s : State) (id : Nat) : (s.moveToFe id).mems = s.mems := by
  unfold State.moveToFe
  (repeat' split) <;> simp

@[simp] theorem State.mems_putAway (s : State) (bs : List Nat) (vs : List Saved) (base : Nat) :
    (s.putAway bs vs base).mems = s.mems := by
  unfold State.putAway
  simp only []
  (repeat' split) <;> simp

@[simp] theorem State.mems_save (b : Nat) (s : State) : (save b s).mems = s.mems := by
  unfold save
  simp only []
  (repeat' split) <;> simp

@[simp] theorem State.mems_placeWarp (s : State) (det : Bool) (v : Saved) (cores : List Nat) (e : Nat × Warp) :
    (s.placeWarp det v cores e).mems = s.mems := (rfl)

@[simp] theorem State.mems_setBuffer (s : State) (core k : Nat) (b : Buffer) : (s.setBuffer core k b).mems = s.mems := (rfl)

@[simp] theorem State.mems_restoreMatrix (s : State) (v : Saved) (cores : List Nat) :
    (s.restoreMatrix v cores).mems = s.mems := by
  simp [State.restoreMatrix]

@[simp] theorem State.mems_resumeWait (s : State) (v : Saved) (w : Nat × WaitRec) : (s.resumeWait v w).mems = s.mems := by
  unfold State.resumeWait
  split <;> simp

@[simp] theorem State.mems_restoreOne (s : State) (v : Saved) (cores : List Nat) : (s.restoreOne v cores).mems = s.mems := by
  simp [State.restoreOne]

@[simp] theorem State.mems_restore (k : Nat) (s : State) : (restore k s).mems = s.mems := by
  unfold restore
  simp only []
  (repeat' split) <;> simp

@[simp] theorem State.mems_nvDone (s : State) (code : Nat) : (s.nvDone code).mems = s.mems := (rfl)

@[simp] theorem State.mems_nvcmdDetach (index : Nat) (s : State) : (nvcmdDetach index s).mems = s.mems := by
  simp [nvcmdDetach]

@[simp] theorem State.mems_replayFrom (s : State) (p : Nat) : (s.replayFrom p).mems = s.mems := by
  simp [State.replayFrom]

@[simp] theorem State.mems_flitAck (p seq : Nat) (s : State) : (flitAck p seq s).mems = s.mems := (rfl)

@[simp] theorem State.mems_linkRollover (p : Nat) (s : State) : (linkRollover p s).mems = s.mems := by
  simp [linkRollover]

@[simp] theorem State.mems_forcedRollover (p : Nat) (s : State) : (forcedRollover p s).mems = s.mems := by
  simp [forcedRollover]

@[simp] theorem State.mems_flashDone (s : State) (code : Nat) : (s.flashDone code).mems = s.mems := (rfl)

@[simp] theorem State.mems_flashStage (s : State) : (flashStage s).mems = s.mems := by
  simp [flashStage]

@[simp] theorem State.mems_flashActivate (s : State) : (flashActivate s).mems = s.mems := by
  unfold flashActivate
  split <;> simp

@[simp] theorem State.mems_flashAbandon (s : State) : (flashAbandon s).mems = s.mems := (rfl)

@[simp] theorem State.mems_sized (s : State) : (s.sized).mems = s.mems := (rfl)

@[simp] theorem State.mems_functionLevelReset (s : State) : (functionLevelReset s).mems = s.mems := by
  simp [functionLevelReset]

@[simp] theorem State.mems_governor (temp power : BitVec 16) (mhz : Nat) (cause : BitVec 3) (s : State) :
    (governor temp power mhz cause s).mems = s.mems := by
  simp [governor]

@[simp] theorem State.mems_thermalDieReset (die : Nat) (s : State) : (thermalDieReset die s).mems = s.mems := by
  simp [thermalDieReset]

@[simp] theorem State.mems_writeMemory (s : State) (o : Nat) (v : DWord) : (s.writeMemory o v).mems = s.mems := by
  unfold State.writeMemory
  split <;> simp

@[simp] theorem State.mems_writeSlice (s : State) (o : Nat) (v : DWord) : (s.writeSlice o v).mems = s.mems := by
  unfold State.writeSlice
  split <;> simp

@[simp] theorem State.mems_writeQcmd (s : State) (v : DWord) : (s.writeQcmd v).mems = s.mems := by
  unfold State.writeQcmd
  simp only []
  (repeat' split) <;> simp

@[simp] theorem State.mems_writeNvcmd (s : State) (v : DWord) : (s.writeNvcmd v).mems = s.mems := by
  unfold State.writeNvcmd
  simp only []
  (repeat' split) <;> simp

@[simp] theorem State.mems_writeFrontEnd (s : State) (o : Nat) (v : DWord) : (s.writeFrontEnd o v).mems = s.mems := by
  unfold State.writeFrontEnd
  simp only []
  (repeat' split) <;> simp

@[simp] theorem State.mems_writeLkcmd (s : State) (v : DWord) : (s.writeLkcmd v).mems = s.mems := by
  unfold State.writeLkcmd
  simp only []
  (repeat' split) <;> simp

@[simp] theorem State.mems_writeFlctl (s : State) (v : DWord) : (s.writeFlctl v).mems = s.mems := by
  unfold State.writeFlctl
  simp only []
  (repeat' split) <;> simp

@[simp] theorem State.mems_writeHouse (s : State) (o : Nat) (v : DWord) : (s.writeHouse o v).mems = s.mems := by
  unfold State.writeHouse
  simp only []
  (repeat' split) <;> simp

@[simp] theorem State.mems_registerWrite (offset : Nat) (v : DWord) (s : State) : (registerWrite offset v s).mems = s.mems := by
  unfold registerWrite
  simp only []
  (repeat' split) <;> simp

@[simp] theorem State.mems_setfreeAll (s : State) (members : List Nat) : (s.setfreeAll members).mems = s.mems := by
  simp [State.setfreeAll]

@[simp] theorem State.mems_setfreeExit (s : State) (w : Nat) : (s.setfreeExit w).mems = s.mems := by
  simp [State.setfreeExit]

@[simp] theorem State.mems_setdeclExit (s : State) (w : Nat) : (s.setdeclExit w).mems = s.mems := by
  simp [State.setdeclExit]

@[simp] theorem State.mems_settle (s : State) : (s.settle).mems = s.mems := by
  simp [State.settle]

@[simp] theorem State.mems_noteReached (s : State) (m : Msg) : (s.noteReached m).mems = s.mems := by
  unfold State.noteReached
  split <;> simp

@[simp] theorem State.mems_examineClaims (s : State) (block core part : Nat) :
    (s.examineClaims block core part).mems = s.mems := by
  simp [State.examineClaims]

@[simp] theorem State.mems_invalidate (s : State) (core : Nat) (gone : Nat → Bool → Nat → Bool) :
    (s.invalidate core gone).mems = s.mems := (rfl)

theorem State.mems_ldsCheck {s : State} {t : TRef} {sa n : Nat} {s' : State} (h : s.ldsCheck t sa n = .ok s') :
    s'.mems = s.mems := by
  unfold State.ldsCheck at h
  (repeat' split at h) <;> simp_all

@[simp] theorem State.mems_ldsValue (s : State) (warp : Nat) (p : SaPlace) (n : Nat) :
    (s.ldsValue warp p n).2.mems = s.mems := by
  unfold State.ldsValue
  split <;> simp

@[simp] theorem State.mems_lookAgain (s : State) (group : List TRef) : (s.lookAgain group).mems = s.mems := by
  unfold State.lookAgain
  split <;> simp

@[simp] theorem State.mems_mapWindow (s : State) (r : Rwa) : (s.mapWindow r).mems = s.mems := (rfl)

theorem State.mems_matPages {s : State} {core : Nat} {o : MatrixOp} {s' : State} (h : s.matPages core o = .ok s') :
    s'.mems = s.mems := by
  refine State.mems_foldl_except (fun _ _ => rfl) (fun u va u' hu => ?_) _ h
  dsimp only at hu
  split at hu <;> cases hu
  exact State.mems_xlate _ _ _ _

@[simp] theorem State.mems_parkCmp (s : State) (t : TRef) (ms : List TRef) (key : MonKey) (polled : Bool) (dst : Nat)
    (ticks : Option Nat) (first : Nat) :
    (s.parkCmp t ms key polled dst ticks first).mems = s.mems := by
  simp [State.parkCmp]

@[simp] theorem State.mems_reach (s : State) (ws : List Nat) : (s.reach ws).mems = s.mems := by
  refine State.mems_foldl (fun u t => ?_) _ s
  split
  · simp
  · simp
  · rename_i f _
    cases h : u.arrive t f.instr.form f.word0 with
    | none => rfl
    | some s' => exact State.mems_arrive h
  · rfl

theorem State.mems_resolve {s : State} {warp h : Nat} {write : Bool} {r : List Byte × State}
    (h : s.resolve warp h write = .ok r) :
    r.2.mems = s.mems := by
  unfold State.resolve at h
  dsimp only at h
  repeat' split at h
  all_goals cases h
  exact State.mems_catalogueEntry ‹_›

theorem State.mems_prepareCopy {s : State} {f : Form} {o0 : CopyOp} {a : DWord} {lanes : List Int} {r : CopyOp × State}
    (h : s.prepareCopy f o0 a lanes = .ok r) :
    r.2.mems = s.mems := by
  have hres {s1 : State} {entry : List Byte}
      (h : (if o0.named then s.resolve o0.warp (a.extractLsb' 0 32).toNat o0.store
        else if (a.extractLsb' 0 32).toNat ≠ 0 then .error (handleReport 5 (a.extractLsb' 0 32).toNat) else .ok ([], s)) =
        .ok (entry, s1)) : s1.mems = s.mems := by
    split at h
    · exact State.mems_resolve h
    · split at h <;> cases h
      rfl
  unfold State.prepareCopy at h
  dsimp only at h
  repeat' split at h
  all_goals cases h
  all_goals exact (State.mems_copyPages ‹_›).trans (hres ‹_›)

@[simp] theorem State.mems_putUniform (s : State) (warp : Nat) (d : Dst) (v : DWord) :
    (s.putUniform warp d v).mems = s.mems := by
  unfold State.putUniform
  split <;> simp

@[simp] theorem State.mems_putUniforms (s : State) (d : Dst) (v : DWord) : (s.putUniforms d v).mems = s.mems := by
  simp [State.putUniforms]

theorem State.mems_rowsCheck {s : State} {ld : TRef} {ms : List Nat} {o : MatrixOp} {s' : State}
    (h : s.rowsCheck ld ms o = .ok s') :
    s'.mems = s.mems := by
  unfold State.rowsCheck at h
  split at h
  · cases h
  · split at h
    · cases h
    · split at h
      · exact State.mems_matPages h
      · split at h
        · cases h
        · cases h; rfl

@[simp] theorem State.mems_nopEff (x0 : TRef) (x1 : Operands) (s : State) :
    (nopEff x0 x1 s).All fun s' => s'.mems = s.mems := (rfl)

@[simp] theorem State.mems_yieldEff (t : TRef) (x0 : Operands) (s : State) :
    (yieldEff t x0 s).All fun s' => s'.mems = s.mems := (rfl)

@[simp] theorem State.mems_brxEff (t : TRef) (o : Operands) (s : State) : (brxEff t o s).All fun s' => s'.mems = s.mems := by
  unfold brxEff
  simp only []
  (repeat' split) <;> simp

theorem State.mems_callCheck {indirect : Bool} {target : DWord} {t : TRef} {s : State} {s' : State}
    (h : callCheck indirect target t s = .ok s') :
    s'.mems = s.mems := by
  unfold callCheck at h
  dsimp only at h
  by_cases h1 : (indirect && !s.targetOk (s.warp t.warp).core (s.warp t.warp).asid target) = true
  · rw [if_pos h1] at h
    cases h
  · rw [if_neg h1] at h
    by_cases h2 : (s.thread t).sp.toNat < (s.areaBase t).toNat + 8
    · rw [if_pos h2] at h
      cases h
    · rw [if_neg h2] at h
      exact State.mems_accessCheck h

@[simp] theorem State.mems_startStore (s : State) (t : TRef) (va : DWord) (n data : Nat) :
    (s.startStore t va n data).mems = s.mems := by
  unfold State.startStore
  simp only []
  (repeat' split) <;> simp

@[simp] theorem State.mems_callTo (target : DWord) (t : TRef) (s : State) :
    (callTo target t s).All fun s' => s'.mems = s.mems := by
  simp [callTo]

@[simp] theorem State.mems_unsuspend (s : State) (t : TRef) : (s.unsuspend t).mems = s.mems := (rfl)

@[simp] theorem State.mems_exitEff (t : TRef) (x0 : Operands) (s : State) :
    (exitEff t x0 s).All fun s' => s'.mems = s.mems := by
  unfold exitEff
  simp only []
  (repeat' split) <;> simp

@[simp] theorem State.mems_trapReturn (s : State) (t : TRef) (pos : DWord) : (s.trapReturn t pos).mems = s.mems := (rfl)

@[simp] theorem State.mems_trapretEff (skip : Bool) (t : TRef) (x0 : Operands) (s : State) :
    (trapretEff skip t x0 s).All fun s' => s'.mems = s.mems := by
  unfold trapretEff
  simp only []
  (repeat' split) <;> simp

@[simp] theorem State.mems_barNamedOp (i : Instr) (s : State) : (barNamedOp i s).mems = s.mems := by
  simp [barNamedOp]

@[simp] theorem State.mems_waitfEff (t : TRef) (mask : Nat) (s : State) :
    (waitfEff t mask s).All fun s' => s'.mems = s.mems := by
  unfold waitfEff
  simp only []
  (repeat' split) <;> simp

@[simp] theorem State.mems_movqUnpackEff (t : TRef) (o : Operands) (s : State) :
    (movqUnpackEff t o s).All fun s' => s'.mems = s.mems := (rfl)

@[simp] theorem State.mems_startLoad (s : State) (t : TRef) (id : Nat) (va : DWord) (n : Nat) (ty : Ty) (ca : Bool)
    (dst : WbDst) :
    (s.startLoad t id va n ty ca dst).mems = s.mems := by
  unfold State.startLoad
  simp only []
  (repeat' split) <;> simp

@[simp] theorem State.mems_loadEff (f : Form) (va : DWord) (n : Nat) (ca : Bool) (t : TRef) (s : State) :
    (loadEff f va n ca t s).All fun s' => s'.mems = s.mems := by
  unfold loadEff
  split <;> simp

@[simp] theorem State.mems_loadUniform (f : Form) (va : DWord) (n : Nat) (ca : Bool) (ld : TRef) (s : State) :
    (loadUniform f va n ca ld s).All fun s' => s'.mems = s.mems := by
  unfold loadUniform
  split <;> simp

@[simp] theorem State.mems_setScratch (s : State) (warp : Nat) (p : SaPlace) (bs : List Byte) :
    (s.setScratch warp p bs).mems = s.mems := (rfl)

theorem State.mems_rwaCheck {t : TRef} {o : Operands} {s : State} {s' : State} (h : rwaCheck t o s = .ok s') :
    s'.mems = s.mems := by
  unfold rwaCheck at h
  (repeat' split at h) <;> simp_all

@[simp] theorem State.mems_ldwEff (f : Form) (t : TRef) (o : Operands) (s : State) :
    (ldwEff f t o s).All fun s' => s'.mems = s.mems := by
  unfold ldwEff
  simp only []
  (repeat' split) <;> simp

@[simp] theorem State.mems_stwEff (f : Form) (t : TRef) (o : Operands) (s : State) :
    (stwEff f t o s).All fun s' => s'.mems = s.mems := by
  unfold stwEff
  simp only []
  (repeat' split) <;> simp

@[simp] theorem State.mems_cinvEff (f : Form) (t : TRef) (o : Operands) (s : State) :
    (cinvEff f t o s).All fun s' => s'.mems = s.mems := by
  unfold cinvEff
  simp only []
  (repeat' split) <;> simp

@[simp] theorem State.mems_fenceEff (f : Form) (lane : Bool) (ms : TRef → State → List TRef) (t : TRef) (x0 : Operands)
    (s : State) :
    (fenceEff f lane ms t x0 s).All fun s' => s'.mems = s.mems := by
  unfold fenceEff
  simp only []
  (repeat' split) <;> simp

theorem State.mems_latomCheck {t : TRef} {o : Operands} {s : State} {s' : State} (h : latomCheck t o s = .ok s') :
    s'.mems = s.mems := by
  unfold latomCheck at h
  dsimp only at h
  repeat' split at h
  all_goals cases h
  all_goals simp

@[simp] theorem State.mems_latomEff (f : Form) (ret : Bool) (t : TRef) (o : Operands) (s : State) :
    (latomEff f ret t o s).All fun s' => s'.mems = s.mems := by
  unfold latomEff
  simp only []
  (repeat' split) <;> simp

theorem State.mems_xlatePages {core asid : Nat} {r w : Bool} : (vas : List Nat) → {s s' : State} →
    s.xlatePages core asid r w vas = .ok s' → s'.mems = s.mems
  | [], _, _, h => by cases h; rfl
  | va :: rest, s, s', h => by
    unfold State.xlatePages at h
    dsimp only at h
    split at h
    · cases h
    · exact (mems_xlatePages rest h).trans (State.mems_xlate _ _ _ _)

theorem State.mems_enqtCheck {f : Form} {full : Bool} {t : TRef} {o : Operands} {s : State} {s' : State}
    (h : enqtCheck f full t o s = .ok s') :
    s'.mems = s.mems := by
  unfold enqtCheck at h
  dsimp only at h
  repeat' split at h
  all_goals cases h
  exact State.mems_accessCheck ‹_›

@[simp] theorem State.mems_setCsr (s : State) (t : TRef) (n : Nat) (v : DWord) : (s.setCsr t n v).mems = s.mems := (rfl)

end Sys2Proof.Machine
end

section
/-! SUPPORT. The shared operations over issues, for a relation that everything respects which leaves the memories alone: what
each effect keeps, the whole instruction keeps. -/

namespace Sys2Proof.Machine

set_option Elab.async false

/-- A relation of a state to a later one that looks at the memories alone and goes on from step to step. -/
structure MemRel (R : State → State → Prop) : Prop where
  of_mems : ∀ {s s' : State}, s'.mems = s.mems → R s s'
  trans : ∀ {s u v : State}, R s u → R u v → R s v

/-- Having the same memories is such a relation. -/
theorem MemRel.mems : MemRel fun s s' => s'.mems = s.mems := ⟨id, fun h h' => h'.trans h⟩

variable {R : State → State → Prop}

theorem MemRel.refl (hR : MemRel R) (s : State) : R s s := hR.of_mems rfl

theorem MemRel.mems_right (hR : MemRel R) {s u v : State} (h : R s u) (hm : v.mems = u.mems) : R s v :=
  hR.trans h (hR.of_mems hm)

/-- `mems_right` with the later state first. -/
theorem MemRel.mems_left (hR : MemRel R) {s u v : State} (hm : v.mems = u.mems) (h : R s u) : R s v := hR.mems_right h hm

theorem MemRel.foldl (hR : MemRel R) {β : Type} {f : State → β → State} (hf : ∀ s x, R s (f s x)) :
    (l : List β) → (s : State) → R s (l.foldl f s)
  | [], s => hR.refl s
  | x :: rest, s => hR.trans (hf s x) (foldl hR hf rest (f s x))

/-- The same for a chain that carries something beside the state. -/
theorem MemRel.foldl_fst (hR : MemRel R) {β γ : Type} {f : State × γ → β → State × γ} (hf : ∀ a x, R a.1 (f a x).1) :
    (l : List β) → (s : State) → (c : γ) → R s (l.foldl f (s, c)).1
  | [], s, _ => hR.refl s
  | x :: rest, s, c => hR.trans (hf (s, c) x) (foldl_fst hR hf rest (f (s, c) x).1 (f (s, c) x).2)

theorem Eff.All.imp {P Q : State → Prop} (h : ∀ s, P s → Q s) : {e : Eff} → e.All P → e.All Q
  | .done _, hp | .jump _ _, hp | .held _, hp | .stay _, hp | .wait _, hp => h _ hp
  | .retry, _ | .fault _, _ => trivial

/-- An effect that keeps the memories stands in every such relation. -/
theorem MemRel.all_of_mems (hR : MemRel R) {s : State} {e : Eff} (h : e.All fun s' => s'.mems = s.mems) : e.All (R s) :=
  h.imp fun _ => hR.of_mems

/-- What a gate answers leaves no state behind. -/
theorem State.all_gate {s : State} {t : TRef} {f : Form} {e : Eff} (h : s.gate t f = some e) (P : State → Prop) : e.All P := by
  unfold State.gate at h
  repeat' split at h
  all_goals cases h
  all_goals trivial

theorem MemRel.applyEff (hR : MemRel R) {s : State} {e : Eff} (h : e.All (R s)) (t : TRef) (sw : Bool) (took : List TRef) :
    R s (s.applyEff t sw took e).1 := by
  cases e with
  | done s' | jump s' p | wait s' => exact hR.mems_right h rfl
  | held s' | stay s' => exact h
  | retry => exact hR.of_mems rfl
  | fault r => exact hR.of_mems (by simp [State.applyEff])

/-- R322: an instruction that acts thread by thread. -/
theorem MemRel.eachThread (hR : MemRel R) {eff : TRef → Operands → State → Eff} (h : ∀ t o s, (eff t o s).All (R s))
    (i : Instr) (s : State) : R s (s.eachThread i eff) := by
  unfold State.eachThread
  dsimp only
  split
  · exact hR.of_mems (by simp)
  · split
    on_goal 1 => refine hR.mems_left (State.mems_finish _ _ _) (hR.mems_left (State.mems_stamp _ _ _) ?_)
    on_goal 2 => refine hR.mems_left (State.mems_finish _ _ _) ?_
    all_goals
      refine hR.foldl_fst (fun acc t => ?_) _ _ _
      split
      · exact hR.of_mems (by simp)
      · split
        · exact hR.of_mems (by simp)
        · split
          · exact hR.applyEff (State.all_gate ‹_› _) t _ _
          · exact hR.applyEff (h _ _ _) t _ _

/-- R325: an instruction that acts once for its members. -/
theorem MemRel.onceFor (hR : MemRel R) {eff : TRef → Operands → State → Eff} {s : State} (h : ∀ t o, (eff t o s).All (R s))
    (i : Instr) : R s (s.onceFor i eff) := by
  unfold State.onceFor
  dsimp only
  split
  · exact hR.of_mems (by simp)
  · rename_i t0 rest hg
    generalize (s.cur.group.filterMap fun t => (s.gate t i.form).map fun e => (t, e)) = gates
    split
    · exact hR.of_mems (by simp)
    · split
      · exact hR.of_mems (by simp)
      · split
        · split
          · exact hR.of_mems (by simp)
          · have he : (if gates.isEmpty then eff ⟨s.leader i.form.g.scope t0, t0.lane⟩
                (s.operands ⟨s.leader i.form.g.scope t0, t0.lane⟩ i.form) s else .retry).All (R s) := by
              split
              · exact h _ _
              · trivial
            generalize (if gates.isEmpty then _ else Eff.retry) = e at he
            cases e with
            | done s' | jump s' p | held s' | stay s' | wait s' => exact hR.mems_right he (by simp)
            | retry | fault r => exact hR.of_mems (by simp)
        · split <;> exact hR.of_mems (by simp)

theorem MemRel.onceEach (hR : MemRel R) {eff : TRef → Operands → State → Eff} (h : ∀ t o s, (eff t o s).All (R s))
    (i : Instr) (s : State) : R s (s.onceEach i eff) := by
  unfold State.onceEach
  dsimp only
  split
  · exact hR.eachThread h i s
  · exact hR.of_mems (by simp)

theorem MemRel.laneOrOnce (hR : MemRel R) {eff : TRef → Operands → State → Eff} (h : ∀ t o s, (eff t o s).All (R s))
    (i : Instr) (s : State) : R s (s.laneOrOnce i eff) := by
  unfold State.laneOrOnce
  split
  · exact hR.eachThread h i s
  · exact hR.onceFor (fun t o => h t o s) i

/-- R210: an instruction whose checks come first. -/
theorem MemRel.eachChecked (hR : MemRel R) {chk : TRef → Operands → State → Except Report State}
    {eff : TRef → Operands → State → Eff} (hc : ∀ t o s s', chk t o s = .ok s' → R s s')
    (h : ∀ t o s, (eff t o s).All (R s)) (i : Instr) (s : State) : R s (s.eachChecked i chk eff) := by
  unfold State.eachChecked
  dsimp only
  split
  · exact hR.of_mems (by simp)
  · split
    on_goal 1 => refine hR.trans ?_ (hR.eachThread h i _)
    on_goal 2 => refine hR.mems_left (State.mems_finish _ _ _) (hR.mems_left (State.mems_raiseAll _ _ _ _) ?_)
    all_goals
      refine hR.foldl_fst (fun acc t => ?_) _ _ _
      split
      · exact hc _ _ _ _ ‹_›
      · exact hR.refl _

/-! ## Element-wise and lane instructions -/

theorem State.mems_aluWarp (f : Form) (lat : Nat) (op : AluOp) (s s' : State) (w : Nat) :
    (aluWarp f lat op s s' w).mems = s'.mems := by
  unfold aluWarp
  split <;> simp

theorem State.mems_aluUniform (f : Form) (lat : Nat) (op : AluOp) (s : State) :
    (aluUniform f lat op s).All fun s' => s'.mems = s.mems := by
  have h1 : ((s.memberWarps f.g.scope).foldl (aluWarp f lat op s) s).mems = s.mems :=
    State.mems_foldl (fun u w => State.mems_aluWarp f lat op s u w) _ s
  unfold aluUniform
  dsimp only
  split
  · exact h1
  · trivial
  · simp [h1]

theorem State.mems_aluEach (f : Form) (lat : Nat) (op : AluOp) (t : TRef) (o : Operands) (s : State) :
    (aluEach f lat op t o s).All fun s' => s'.mems = s.mems := by
  unfold aluEach
  split
  · simp
  · trivial

@[simp] theorem State.mems_alu (s : State) (i : Instr) (lat : Nat) (op : AluOp) : (s.alu i lat op).mems = s.mems := by
  unfold State.alu
  dsimp only
  split
  · exact MemRel.mems.onceFor (fun _ _ => State.mems_aluUniform _ _ _ _) i
  · split
    · exact MemRel.mems.onceEach (fun t o s => State.mems_aluEach _ _ _ t o s) i s
    · exact MemRel.mems.eachThread (fun t o s => State.mems_aluEach _ _ _ t o s) i s

@[simp] theorem State.mems_laneOp (s : State) (i : Instr) (op : Form → List Place → State → List LaneRes) :
    (s.laneOp i op).mems = s.mems := by
  unfold State.laneOp
  dsimp only
  split
  · refine MemRel.mems.onceFor (fun _ _ => ?_) i
    refine State.mems_foldl (fun u w => ?_) _ s
    split <;> simp
  · refine MemRel.mems.eachThread (fun t _ u => ?_) i s
    split <;> simp

end Sys2Proof.Machine
end

section
/-! SUPPORT. The instructions of a program that leave the memories and the home lines alone as they issue. -/

namespace Sys2Proof.Machine

set_option Elab.async false

@[simp] theorem State.mems_moncanEff (f : Form) (ms : TRef → State → List TRef) (t : TRef) (o : Operands) (s : State) :
    (moncanEff f ms t o s).All fun s' => s'.mems = s.mems := by
  unfold moncanEff
  dsimp only
  split
  · trivial
  · rename_i s1 hs
    split
    · trivial
    · exact (State.mems_foldl (fun _ _ => State.mems_send _ _) _ _).trans ((State.mems_park _ _ _ _).trans (State.mems_accessCheck hs))

@[simp] theorem State.mems_rendezvous (i : Instr) (s : State) : (rendezvous i s).mems = s.mems := by
  unfold rendezvous
  refine MemRel.mems.laneOrOnce (fun _ _ _ => ?_) i s
  exact rfl

@[simp] theorem State.mems_bra (i : Instr) (off : DWord) (s : State) : (bra i off s).mems = s.mems := by
  unfold bra
  refine MemRel.mems.laneOrOnce (fun _ _ _ => ?_) i s
  exact rfl

@[simp] theorem State.mems_brxOp (i : Instr) (s : State) : (brxOp i s).mems = s.mems :=
  MemRel.mems.laneOrOnce (fun _ _ _ => State.mems_brxEff _ _ _) i s

@[simp] theorem State.mems_callOp (i : Instr) (off : DWord) (s : State) : (callOp i off s).mems = s.mems :=
  MemRel.mems.eachChecked (fun _ _ _ _ h => State.mems_callCheck h) (fun _ _ _ => State.mems_callTo _ _ _) i s

@[simp] theorem State.mems_callxOp (i : Instr) (s : State) : (callxOp i s).mems = s.mems :=
  MemRel.mems.eachChecked (fun _ _ _ _ h => State.mems_callCheck h) (fun _ _ _ => State.mems_callTo _ _ _) i s

@[simp] theorem State.mems_exitOp (i : Instr) (s : State) : (exitOp i s).mems = s.mems :=
  (State.mems_foldl (fun u w => State.mems_reap u w) _ _).trans (MemRel.mems.eachThread (fun _ _ _ => State.mems_exitEff _ _ _) i s)

@[simp] theorem State.mems_trapOp (i : Instr) (cls : Nat) (code : BitVec 6) (s : State) :
    (trapOp i cls code s).mems = s.mems := by
  unfold trapOp
  refine MemRel.mems.laneOrOnce (fun _ _ _ => ?_) i s
  trivial

@[simp] theorem State.mems_trapretOp (i : Instr) (skip : Bool) (s : State) : (trapretOp i skip s).mems = s.mems :=
  MemRel.mems.eachThread (fun _ _ _ => State.mems_trapretEff _ _ _ _) i s

@[simp] theorem State.mems_barPlain (i : Instr) (s : State) : (barPlain i s).mems = s.mems := by
  unfold barPlain
  split
  · rfl
  · exact MemRel.mems.onceFor (fun _ _ => State.mems_nopEff _ _ _) i

@[simp] theorem State.mems_setdeclOp (i : Instr) (s : State) : (setdeclOp i s).mems = s.mems := by
  unfold setdeclOp
  refine MemRel.mems.onceFor (fun ld o => ?_) i
  dsimp only
  (repeat' split) <;> simp

@[simp] theorem State.mems_setfreeOp (i : Instr) (s : State) : (setfreeOp i s).mems = s.mems := by
  unfold setfreeOp
  refine MemRel.mems.onceFor (fun ld o => ?_) i
  dsimp only
  (repeat' split) <;> simp

@[simp] theorem State.mems_idemOp (i : Instr) (on : Bool) (s : State) : (idemOp i on s).mems = s.mems := by
  unfold idemOp
  refine MemRel.mems.onceFor (fun _ _ => ?_) i
  exact rfl

@[simp] theorem State.mems_progOp (i : Instr) (s : State) : (progOp i s).mems = s.mems := by
  unfold progOp
  refine MemRel.mems.onceFor (fun _ _ => ?_) i
  exact rfl

@[simp] theorem State.mems_waitfOp (i : Instr) (s : State) : (waitfOp i s).mems = s.mems := by
  unfold waitfOp
  split
  · exact MemRel.mems.eachThread (fun _ _ _ => State.mems_waitfEff _ _ _) i s
  · refine MemRel.mems.onceFor (fun ld o => ?_) i
    dsimp only
    split
    · split
      · refine State.mems_foldl (fun u t => ?_) _ s
        split <;> simp
      · simp
    · trivial

@[simp] theorem State.mems_reggiveOp (i : Instr) (s : State) : (reggiveOp i s).mems = s.mems := by
  unfold reggiveOp
  refine MemRel.mems.onceFor (fun ld o => ?_) i
  dsimp only
  (repeat' split) <;> simp

@[simp] theorem State.mems_regclaimOp (i : Instr) (s : State) : (regclaimOp i s).mems = s.mems := by
  unfold regclaimOp
  refine MemRel.mems.onceFor (fun ld o => ?_) i
  dsimp only
  (repeat' split) <;> simp

@[simp] theorem State.mems_iselUniform (i : Instr) (s : State) : (iselUniform i s).mems = s.mems := by
  unfold iselUniform
  refine MemRel.mems.onceFor (fun ld o => ?_) i
  dsimp only
  split
  · exact State.mems_aluUniform _ _ _ _
  · trivial

@[simp] theorem State.mems_blkmax (i : Instr) (s : State) : (blkmax i s).mems = s.mems := by
  unfold blkmax
  dsimp only
  split
  · refine MemRel.mems.onceFor (fun _ _ => ?_) i
    exact State.mems_writeFixed _ _ _ _
  · refine MemRel.mems.eachThread (fun _ _ _ => ?_) i s
    exact State.mems_writeFixed _ _ _ _

@[simp] theorem State.mems_ldOp (i : Instr) (s : State) : (ldOp i s).mems = s.mems := by
  unfold ldOp
  dsimp only
  split
  · exact MemRel.mems.eachChecked (fun _ _ _ _ h => State.mems_accessCheck h) (fun _ _ _ => State.mems_loadEff _ _ _ _ _ _) i s
  · refine MemRel.mems.onceFor (fun ld o => ?_) i
    split
    · trivial
    · rename_i s1 hs
      exact (State.mems_loadUniform _ _ _ _ _ s1).imp fun _ h => h.trans (State.mems_accessCheck hs)

@[simp] theorem State.mems_stOp (i : Instr) (s : State) : (stOp i s).mems = s.mems := by
  unfold stOp
  refine MemRel.mems.eachChecked (fun _ _ _ _ h => State.mems_accessCheck h) (fun _ _ _ => ?_) i s
  exact State.mems_startStore _ _ _ _ _

@[simp] theorem State.mems_ldsOp (i : Instr) (s : State) : (ldsOp i s).mems = s.mems := by
  unfold ldsOp
  refine MemRel.mems.eachChecked (fun _ _ _ _ h => State.mems_ldsCheck h) (fun t o u => ?_) i s
  dsimp only
  split <;> simp

@[simp] theorem State.mems_stsOp (i : Instr) (s : State) : (stsOp i s).mems = s.mems := by
  unfold stsOp
  refine MemRel.mems.eachChecked (fun _ _ _ _ h => State.mems_ldsCheck h) (fun t o u => ?_) i s
  split <;> simp

@[simp] theorem State.mems_ldcOp (i : Instr) (s : State) : (ldcOp i s).mems = s.mems := by
  unfold ldcOp
  dsimp only
  split
  · refine MemRel.mems.eachChecked (fun t o u u' h => ?_) (fun _ _ _ => State.mems_loadEff _ _ _ _ _ _) i s
    cases hc : u.constCheck t (ea32 o) (accessBytes i.form.x) with
    | ok r =>
      rw [hc] at h
      cases h
      exact State.mems_constCheck hc
    | error r =>
      rw [hc] at h
      cases h
  · refine MemRel.mems.onceFor (fun ld o => ?_) i
    split
    · trivial
    · rename_i s1 v hs
      exact (State.mems_loadUniform _ _ _ _ _ s1).imp fun _ h => h.trans (State.mems_constCheck hs)

@[simp] theorem State.mems_ldwOp (i : Instr) (s : State) : (ldwOp i s).mems = s.mems :=
  MemRel.mems.eachChecked (fun _ _ _ _ h => State.mems_rwaCheck h) (fun _ _ _ => State.mems_ldwEff _ _ _ _) i s

@[simp] theorem State.mems_stwOp (i : Instr) (s : State) : (stwOp i s).mems = s.mems :=
  MemRel.mems.eachChecked (fun _ _ _ _ h => State.mems_rwaCheck h) (fun _ _ _ => State.mems_stwEff _ _ _ _) i s

@[simp] theorem State.mems_cinvOp (i : Instr) (s : State) : (cinvOp i s).mems = s.mems :=
  MemRel.mems.eachThread (fun _ _ _ => State.mems_cinvEff _ _ _ _) i s

@[simp] theorem State.mems_fenceOp (i : Instr) (s : State) : (fenceOp i s).mems = s.mems := by
  unfold fenceOp
  dsimp only
  split
  · exact MemRel.mems.eachThread (fun _ _ _ => State.mems_fenceEff _ _ _ _ _ _) i s
  · exact MemRel.mems.onceFor (fun _ _ => State.mems_fenceEff _ _ _ _ _ _) i

@[simp] theorem State.mems_opfenceOp (i : Instr) (s : State) : (opfenceOp i s).mems = s.mems := by
  unfold opfenceOp
  refine MemRel.mems.onceFor (fun _ _ => ?_) i
  exact rfl

@[simp] theorem State.mems_rdegOp (i : Instr) (s : State) : (rdegOp i s).mems = s.mems := by
  unfold rdegOp
  refine MemRel.mems.onceFor (fun ld o => ?_) i
  (repeat' split) <;> simp

@[simp] theorem State.mems_latomOp (i : Instr) (ret : Bool) (s : State) : (latomOp i ret s).mems = s.mems :=
  MemRel.mems.eachChecked (fun _ _ _ _ h => State.mems_latomCheck h) (fun _ _ _ => State.mems_latomEff _ _ _ _ _) i s

@[simp] theorem State.mems_rtOp (i : Instr) (install : Bool) (s : State) : (rtOp i install s).mems = s.mems := by
  unfold rtOp
  refine MemRel.mems.onceFor (fun ld o => ?_) i
  dsimp only
  (repeat' split) <;> simp

@[simp] theorem State.mems_moncanOp (i : Instr) (s : State) : (moncanOp i s).mems = s.mems := by
  unfold moncanOp
  dsimp only
  split
  · exact MemRel.mems.eachThread (fun _ _ _ => State.mems_moncanEff _ _ _ _ _) i s
  · refine MemRel.mems.onceFor (fun ld o => ?_) i
    refine (State.mems_moncanEff _ _ _ _ _).imp fun s' h => ?_
    exact h.trans (State.mems_cancelLead s i.form ld)

@[simp] theorem State.mems_xreadOp (i : Instr) (s : State) : (xreadOp i s).mems = s.mems := by
  unfold xreadOp
  refine MemRel.mems.onceFor (fun ld o => ?_) i
  extract_lets wp n wa cw len
  split
  · trivial
  · split
    · trivial
    · rename_i s1 hs
      have h1 := State.mems_xlatePages _ hs
      by_cases hc : Config.xreadsPerCore ≤ (s1.fe.xreads.filter fun x => x.core == wp.core).length ∨
          Config.xreadsAtFe ≤ s1.fe.xreads.length
      · rw [if_pos hc]
        trivial
      · rw [if_neg hc]
        simp [h1]

@[simp] theorem State.mems_qcwsetOp (i : Instr) (s : State) : (qcwsetOp i s).mems = s.mems := by
  unfold qcwsetOp
  refine MemRel.mems.onceFor (fun ld o => ?_) i
  dsimp only
  (repeat' split) <;> simp

@[simp] theorem State.mems_rpushOp (i : Instr) (s : State) : (rpushOp i s).mems = s.mems := by
  unfold rpushOp
  refine MemRel.mems.onceFor (fun ld o => ?_) i
  dsimp only
  (repeat' split) <;> simp

@[simp] theorem State.mems_rpopOp (i : Instr) (s : State) : (rpopOp i s).mems = s.mems := by
  unfold rpopOp
  refine MemRel.mems.onceFor (fun ld o => ?_) i
  dsimp only
  (repeat' split) <;> simp

@[simp] theorem State.mems_bgiveOp (i : Instr) (give : Bool) (s : State) : (bgiveOp i give s).mems = s.mems := by
  unfold bgiveOp
  refine MemRel.mems.onceFor (fun ld o => ?_) i
  dsimp only
  (repeat' split) <;> simp

@[simp] theorem State.mems_btakeOp (i : Instr) (s : State) : (btakeOp i s).mems = s.mems := by
  unfold btakeOp
  refine MemRel.mems.onceFor (fun ld o => ?_) i
  dsimp only
  (repeat' split) <;> simp

@[simp] theorem State.mems_btakeNewOp (i : Instr) (s : State) : (btakeNewOp i s).mems = s.mems := by
  unfold btakeNewOp
  refine MemRel.mems.onceFor (fun ld o => ?_) i
  dsimp only
  (repeat' split) <;> simp

@[simp] theorem State.mems_fmtsetOp (i : Instr) (s : State) : (fmtsetOp i s).mems = s.mems := by
  unfold fmtsetOp
  refine MemRel.mems.onceFor (fun ld o => ?_) i
  dsimp only
  (repeat' split) <;> simp

@[simp] theorem State.mems_matrixIssue (i : Instr) (kind : Nat) (s : State) : (matrixIssue i kind s).mems = s.mems := by
  unfold matrixIssue
  refine MemRel.mems.onceFor (fun ld o => ?_) i
  dsimp only
  split
  · trivial
  · rename_i s1 hs
    have h1 : s1.mems = s.mems := by
      split at hs
      · split at hs <;> cases hs
        rfl
      · split at hs
        · cases hs
          rfl
        · exact State.mems_rowsCheck hs
    split
    · trivial
    · exact (State.mems_acceptMatrix _ _ _).trans h1

@[simp] theorem State.mems_fetchTileOp (i : Instr) (s : State) : (fetchTileOp i s).mems = s.mems := by
  unfold fetchTileOp
  refine MemRel.mems.onceFor (fun ld o => ?_) i
  dsimp only
  (repeat' split) <;> simp

@[simp] theorem State.mems_migrateOp (i : Instr) (s : State) : (migrateOp i s).mems = s.mems := by
  unfold migrateOp
  refine MemRel.mems.onceFor (fun ld o => ?_) i
  dsimp only
  split
  · trivial
  · split
    · simp
    · split
      · trivial
      · rename_i s1 hs
        have h1 := State.mems_accessCheck hs
        (repeat' split) <;> simp [h1]

@[simp] theorem State.mems_csrrOp (i : Instr) (s : State) : (csrrOp i s).mems = s.mems := by
  unfold csrrOp
  dsimp only
  split
  · refine MemRel.mems.onceFor (fun _ _ => ?_) i
    exact State.mems_writeNow _ _ _
  · refine MemRel.mems.onceEach (fun _ _ _ => ?_) i s
    exact rfl

@[simp] theorem State.mems_csrwOp (i : Instr) (s : State) : (csrwOp i s).mems = s.mems := by
  unfold csrwOp
  dsimp only
  split
  · refine MemRel.mems.eachThread (fun _ _ _ => ?_) i s
    exact State.mems_setCsr _ _ _ _
  · refine MemRel.mems.onceFor (fun _ _ => ?_) i
    exact State.mems_foldl (fun u t => State.mems_setCsr u t _ _) _ s

end Sys2Proof.Machine
end

section
/-! SUPPORT. The one form of the memories, as a property of the memories alone, and a chain of operations that keep it. -/

namespace Sys2Proof.Machine

set_option Elab.async false

/-- Both memories are in their one form. -/
def MemsForm (m : Memory × Memory × Tab HomeLine) : Prop := m.1.wf = true ∧ m.2.1.wf = true

theorem State.canonical_iff {s : State} : s.Canonical ↔ MemsForm s.mems := Iff.rfl

/-- A chain of operations, each of which keeps the form. -/
@[simp] theorem MemsForm.foldl {β : Type} {f : State → β → State} (hf : ∀ s x, MemsForm s.mems → MemsForm (f s x).mems) :
    (l : List β) → {s : State} → MemsForm s.mems → MemsForm (l.foldl f s).mems
  | [], _, h => h
  | x :: rest, _, h => foldl hf rest (hf _ x h)

/-- The same for a chain that carries something beside the state. -/
theorem MemsForm.foldl_fst {β γ : Type} {f : State × γ → β → State × γ} (hf : ∀ a x, MemsForm a.1.mems → MemsForm (f a x).1.mems) :
    (l : List β) → {a : State × γ} → MemsForm a.1.mems → MemsForm (l.foldl f a).1.mems
  | [], _, h => h
  | x :: rest, _, h => foldl_fst hf rest (hf _ x h)

/-- The state of a pair whose first component keeps the form. -/
theorem MemsForm.of_fst {γ : Type} {p : State × γ} {a : State} {b : γ} (he : p = (a, b)) (h : MemsForm p.1.mems) : MemsForm a.mems := by
  subst he; exact h

/-- The state of a pair whose second component keeps the form. -/
theorem MemsForm.of_snd {γ : Type} {p : γ × State} {a : State} {b : γ} (he : p = (b, a)) (h : MemsForm p.2.mems) : MemsForm a.mems := by
  subst he; exact h

theorem MemsForm.ite {c : Prop} [Decidable c] {a b : State} (ha : MemsForm a.mems) (hb : MemsForm b.mems) :
    MemsForm (if c then a else b).mems := by
  split
  · exact ha
  · exact hb

theorem Eff.all_ite {P : State → Prop} {c : Prop} [Decidable c] {a b : Eff} (ha : a.All P) (hb : b.All P) :
    (if c then a else b).All P := by
  split
  · exact ha
  · exact hb

/-- Keeping the form looks at the memories alone. -/
theorem MemRel.form : MemRel fun s s' => MemsForm s.mems → MemsForm s'.mems :=
  ⟨fun h hs => h.symm ▸ hs, fun h h' hs => h' (h hs)⟩

/-- Every state that a check leaves behind has a property. -/
def Check.All (P : State → Prop) : Check → Prop
  | .serve s | .wait s => P s
  | .stale => True

theorem Check.all_serve {P : State → Prop} {c : Check} {s : State} (h : c.All P) (hc : c = .serve s) : P s := by
  subst hc; exact h

theorem Check.all_wait {P : State → Prop} {c : Check} {s : State} (h : c.All P) (hc : c = .wait s) : P s := by
  subst hc; exact h

end Sys2Proof.Machine
end

section
/-! SUPPORT. The operations of the state and the steps of the device that change the memories or the home lines keep the one
form of the memories, in the order in which they use each other. -/

namespace Sys2Proof.Machine

set_option Elab.async false

@[simp] theorem State.form_setLine {s : State} (line : Nat) (hl : HomeLine) (hc : MemsForm s.mems) :
    MemsForm (s.setLine line hl).mems := hc

@[simp] theorem State.form_poke {s : State} (host : Bool) (pa : Nat) (x0 : List Byte) (hc : MemsForm s.mems) :
    MemsForm (s.poke host pa x0).mems :=
  State.Canonical.poke x0 hc

@[simp] theorem State.form_hostUpdate {s : State} (cells : List Host.Cell) (waiter : Waiter) (hc : MemsForm s.mems) :
    MemsForm (s.hostUpdate cells waiter).mems := by
  have hp : MemsForm (cells.foldl (fun s c => s.poke true c.1 [c.2]) s).mems :=
    MemsForm.foldl (fun u c hu => State.form_poke true c.1 [c.2] hu) cells hc
  unfold State.hostUpdate
  split <;> simp [hc, hp]

@[simp] theorem State.form_evict {s : State} (x0 : Way) (hc : MemsForm s.mems) : MemsForm (s.evict x0).mems :=
  State.Canonical.evict hc x0

theorem State.form_evictOne {s : State} {ws : List Way} {s' : State} (hs : s.evictOne ws = some s') (hc : MemsForm s.mems) :
    MemsForm s'.mems :=
  State.Canonical.evictOne hc hs

theorem State.form_makeRoom {s : State} {slice line : Nat} {copy : Bool} {s' : State} (hs : s.makeRoom slice line copy = some
    s') (hc : MemsForm s.mems) :
    MemsForm s'.mems := by
  unfold State.makeRoom at hs
  dsimp only at hs
  split at hs
  · exact State.form_evictOne hs hc
  · split at hs
    · cases hs; exact hc
    · exact State.form_evictOne hs hc

theorem State.form_enterHome {s : State} {line : Nat} {s' : State} (hs : s.enterHome line = some s') (hc : MemsForm s.mems) :
    MemsForm s'.mems :=
  State.Canonical.enterHome hc hs

theorem State.form_frameCheck {s : State} (asid gen pa : Nat) (write : Bool) (hc : MemsForm s.mems) :
    (s.frameCheck asid gen pa write).All fun s' => MemsForm s'.mems := by
  unfold State.frameCheck
  dsimp only
  split
  · exact hc
  · split
    · trivial
    · split
      · simpa [Check.All] using hc
      · split
        · exact hc
        · split
          · exact hc
          · split
            · refine State.form_enterHome ‹_› ?_
              exact hc
            · exact hc

theorem State.form_serve {s s' : State} {asid gen pa : Nat} {write : Bool} (hs : s.frameCheck asid gen pa write = .serve s')
    (hc : MemsForm s.mems) : MemsForm s'.mems := Check.all_serve (State.form_frameCheck asid gen pa write hc) hs

theorem State.form_waits {s s' : State} {asid gen pa : Nat} {write : Bool} (hs : s.frameCheck asid gen pa write = .wait s')
    (hc : MemsForm s.mems) : MemsForm s'.mems := Check.all_wait (State.form_frameCheck asid gen pa write hc) hs

@[simp] theorem State.form_enterOrStay {s : State} (line : Nat) (hc : MemsForm s.mems) :
    MemsForm ((s.enterHome line).getD s).mems := by
  cases he : s.enterHome line with
  | none => exact hc
  | some s' => exact State.form_enterHome he hc

@[simp] theorem State.form_touchRun {s : State} (line die : Nat) (hc : MemsForm s.mems) :
    MemsForm (s.touchRun line die).mems := by
  unfold State.touchRun
  (repeat' split) <;> simp [hc]

@[simp] theorem State.form_recall {s : State} (line byDie : Nat) (hc : MemsForm s.mems) :
    MemsForm (s.recall line byDie).mems := by
  unfold State.recall
  dsimp only
  (repeat' split) <;> simp [hc]

@[simp] theorem State.form_collapse {s : State} (line : Nat) (waiter : Waiter) (hc : MemsForm s.mems) :
    MemsForm (s.collapse line waiter).mems := by
  unfold State.collapse
  dsimp only
  (repeat' split) <;> simp [hc]

@[simp] theorem State.form_writeLine {s : State} (line die : Nat) (f : LineData → LineData) (waiter : Waiter) (hc : MemsForm
    s.mems) :
    MemsForm (s.writeLine line die f waiter).mems := by
  have h1 : MemsForm ((s.recall line die).touchRun line die).mems := by simp [hc]
  unfold State.writeLine
  dsimp only
  split <;> simp [hc, h1]

@[simp] theorem State.form_tryUpdate {s : State} (asid gen : Nat) (va : DWord) (n : Nat) (f : FeFun) (waiter : Waiter) (hc :
    MemsForm s.mems) :
    MemsForm (s.tryUpdate asid gen va n f waiter).1.mems := by
  unfold State.tryUpdate
  split
  · simp [hc]
  · dsimp only
    split <;> simp [hc]
  · split
    · simp [hc]
    · exact State.form_waits ‹_› hc
    · simp [State.form_serve ‹_› hc]

@[simp] theorem State.form_feUpdateFor {s : State} (asid gen : Nat) (va : DWord) (n : Nat) (f : FeFun) (waiter : Waiter) (hc
    : MemsForm s.mems) :
    MemsForm (s.feUpdateFor asid gen va n f waiter).mems := by
  have h1 := State.form_tryUpdate asid gen va n f waiter hc
  have h2 (b : Bool) : MemsForm (if b = true then s.owe (.update asid gen va n f waiter) else
      match s.tryUpdate asid gen va n f waiter with
      | (s1, true) => s1
      | (s1, false) => s1.owe (.update asid gen va n f waiter)).mems := by
    split
    · exact hc
    · split
      all_goals have h3 := MemsForm.of_fst ‹_› h1
      · exact h3
      · exact h3
  exact h2 _

@[simp] theorem State.form_feUpdate {s : State} (asid : Nat) (va : DWord) (n : Nat) (f : FeFun) (hc : MemsForm s.mems) :
    MemsForm (s.feUpdate asid va n f).mems := by
  simp [State.feUpdate, hc]

@[simp] theorem State.form_acceptPacket {s : State} (qid : Nat) (q : Queue) (bs : List Byte) (hc : MemsForm s.mems) :
    MemsForm (s.acceptPacket qid q bs).mems := by
  simp [State.acceptPacket, hc]

@[simp] theorem State.form_reachHome {s : State} (line die : Nat) (hc : MemsForm s.mems) :
    MemsForm (s.reachHome line die).mems := by
  simp [State.reachHome, hc]

@[simp] theorem State.form_feLines {s : State} (host : Bool) (pa n : Nat) (hc : MemsForm s.mems) :
    MemsForm (s.feLines host pa n).mems := by
  unfold State.feLines
  split
  · simp [hc]
  · exact MemsForm.foldl (fun u x hu => by simp [hu]) _ hc

@[simp] theorem State.form_fePut {s : State} (host : Bool) (pa : Nat) (bs : List Byte) (hc : MemsForm s.mems) :
    MemsForm (s.fePut host pa bs).mems := by
  unfold State.fePut
  split
  · simp [hc]
  · exact MemsForm.foldl (fun u x hu => by simp [hu]) _ hc

@[simp] theorem State.form_decSignal {s : State} (asid : Nat) (va : DWord) (err : Bool) (hc : MemsForm s.mems) :
    MemsForm (s.decSignal asid va err).mems := by
  unfold State.decSignal
  split <;> simp [hc]

@[simp] theorem State.form_completeReq {s : State} (r : MemRequest) (status : Nat) (hc : MemsForm s.mems) :
    MemsForm (s.completeReq r status).mems := by
  unfold State.completeReq
  dsimp only
  (repeat' split) <;> simp [hc]

@[simp] theorem State.form_bindFrame {s : State} (n asid gen va : Nat) (pin large : Bool) (hc : MemsForm s.mems) :
    MemsForm (s.bindFrame n asid gen va pin large).mems :=
  State.Canonical.bindFrame hc n asid gen va pin large

@[simp] theorem State.form_allocTable {s : State} (bytes : Nat) (hc : MemsForm s.mems) :
    MemsForm (s.allocTable bytes).2.mems := by
  unfold State.allocTable
  dsimp only
  (repeat' split) <;> simp [hc]

@[simp] theorem State.form_setPteFrom {s : State} (base : Nat) (va : DWord) (target e : Nat) (x0 : Nat) (hc : MemsForm
    s.mems) :
    MemsForm (s.setPteFrom base va target e x0).mems :=
  State.Canonical.setPteFrom va target e x0 hc

@[simp] theorem State.form_setPte {s : State} (asid : Nat) (va : DWord) (log2 e : Nat) (hc : MemsForm s.mems) :
    MemsForm (s.setPte asid va log2 e).mems := by
  simp [State.setPte, hc]

@[simp] theorem State.form_undoOut {s : State} (asid va : Nat) (hc : MemsForm s.mems) :
    MemsForm (s.undoOut asid va).mems := by
  simp [State.undoOut, hc]

@[simp] theorem State.form_claim {s : State} (r : MemRequest) (record : Option (Bool × Nat)) (op : Nat) (hc : MemsForm
    s.mems) :
    MemsForm (s.claim r record op).mems := by
  unfold State.claim
  dsimp only
  rw [State.mems_mk]
  simp only [State.mems_fresh, State.eta_mems]
  refine MemsForm.foldl (fun u e hu => ?_) _ hc
  exact MemsForm.foldl (fun u p hu => State.form_undoOut _ _ hu) _ hu

@[simp] theorem State.form_acceptRecord {s0 : State} (hc : MemsForm s0.mems) : MemsForm (s0.acceptRecord).mems := by
  unfold State.acceptRecord
  extract_lets i host a s f
  have h1 : MemsForm s.mems := State.form_feLines _ _ _ hc
  split
  rename_i seq s1 hq
  have h2 : MemsForm s1.mems := MemsForm.of_snd hq ((State.mems_takeSeq s).symm ▸ h1)
  extract_lets r s2 mem s3 plain
  have h3 : MemsForm s3.mems := State.form_fePut _ _ _ (State.form_fePut _ _ _ h2)
  have h4 : MemsForm plain.mems := h3
  split
  · exact State.form_completeReq _ _ h4
  · split
    · exact State.form_completeReq _ _ h4
    · split
      · exact State.form_claim r (some (host, a)) (f 0 1) h3
      · exact h4

@[simp] theorem State.form_lineReady {s : State} (asid gen die : Nat) (write : Bool) (va : DWord) (hc : MemsForm s.mems) :
    MemsForm (s.lineReady asid gen die write va).1.mems := by
  unfold State.lineReady
  dsimp only
  split
  · exact hc
  · split
    · exact hc
    · split
      · exact hc
      · split
        · exact hc
        · exact State.form_waits ‹_› hc
        · exact State.form_serve ‹_› hc

theorem State.form_grantCopy {s : State} {line die : Nat} {s' : State} (hs : s.grantCopy line die = some s') (hc : MemsForm
    s.mems) :
    MemsForm s'.mems := by
  unfold State.grantCopy at hs
  obtain ⟨s0, h0, rfl⟩ := Option.map_eq_some_iff.mp hs
  have h1 := State.form_makeRoom h0 hc
  exact ⟨h1.1, h1.2⟩

theorem State.form_readAt {s : State} {asid : Nat} {va : DWord} {line die : Nat} {s' : State} (hs : s.readAt asid va line die
    = some s') (hc : MemsForm s.mems) :
    MemsForm s'.mems := by
  unfold State.readAt at hs
  dsimp only at hs
  split at hs
  · cases hs; simp [hc]
  · split at hs
    · exact State.form_grantCopy hs (by simp [hc])
    · cases hs; simp [hc]

@[simp] theorem State.form_lineRead {s : State} (asid gen die : Nat) (va : DWord) (hc : MemsForm s.mems) :
    MemsForm (s.lineRead asid gen die va).mems := by
  unfold State.lineRead
  split
  · exact hc
  · dsimp only
    split
    · exact hc
    · split
      · simp [hc]
      · cases he : s.readAt asid va _ die with
        | none => exact hc
        | some s' => exact State.form_readAt he hc

@[simp] theorem State.form_reachSpans {s : State} (asid gen die : Nat) (write : Bool) (spans : List (Nat × Nat)) (hc :
    MemsForm s.mems) :
    MemsForm (s.reachSpans asid gen die write spans).1.mems := by
  unfold State.reachSpans
  extract_lets at_ ls r
  have h1 : MemsForm r.1.mems := by
    refine MemsForm.foldl_fst (fun a l ha => ?_) _ hc
    exact State.form_lineReady _ _ _ _ _ ha
  split
  · exact MemsForm.foldl (fun u l hu => State.form_lineRead _ _ _ _ hu) _ h1
  · exact h1

@[simp] theorem State.form_fetchReach {s : State} (core asid : Nat) (pos : DWord) (hc : MemsForm s.mems) :
    MemsForm (s.fetchReach core asid pos).mems := by
  simp [State.fetchReach, hc]

@[simp] theorem State.form_awaitCode {s : State} (ws : List Nat) (hc : MemsForm s.mems) :
    MemsForm (s.awaitCode ws).mems := by
  unfold State.awaitCode
  dsimp only
  simp +contextual [hc]

@[simp] theorem State.form_endCollapse {s : State} (line t : Nat) (hc : MemsForm s.mems) :
    MemsForm (s.endCollapse line t).mems := by
  simp [State.endCollapse, hc]

@[simp] theorem State.form_expireCollapse {s : State} (line : Nat) (hc : MemsForm s.mems) :
    MemsForm (s.expireCollapse line).mems := by
  unfold State.expireCollapse
  dsimp only
  (repeat' split) <;> simp [hc]

@[simp] theorem State.form_payOwed {s : State} (hc : MemsForm s.mems) : MemsForm (s.payOwed).mems := by
  unfold State.payOwed
  refine MemsForm.foldl (fun u o hu => ?_) _ hc
  split
  · simp [hu]
  · rw [State.mems_ackWrite]
    exact MemsForm.foldl (fun v c hv => State.form_poke true c.1 [c.2] hv) _ hu
  · split <;> simp [hu]

@[simp] theorem State.form_boundary {s : State} (hc : MemsForm s.mems) : MemsForm (s.boundary).mems := by
  unfold State.boundary
  dsimp only
  refine State.form_payOwed ?_
  rw [State.mems_endReleases]
  refine MemsForm.foldl (fun u e hu => State.form_expireCollapse _ hu) _ ?_
  refine MemsForm.foldl (fun u m hu => ?_) _ hc
  split <;> simp [hu]

@[simp] theorem State.form_bringHome {s : State} (line die : Nat) (hc : MemsForm s.mems) :
    MemsForm (s.bringHome line die).mems := by
  unfold State.bringHome
  dsimp only
  (repeat' split) <;> simp [hc]

@[simp] theorem State.form_bringIn {s : State} (asid p seq : Nat) (first : Bool) (hc : MemsForm s.mems) :
    MemsForm (s.bringIn asid p seq first).mems := by
  unfold State.bringIn
  dsimp only
  (repeat' split) <;> simp [hc]

@[simp] theorem State.form_catalogueReach {s : State} (warp h : Nat) (hc : MemsForm s.mems) :
    MemsForm (s.catalogueReach warp h).1.mems := by
  unfold State.catalogueReach
  dsimp only
  (repeat' split) <;> simp [hc]

@[simp] theorem State.form_feReach {s : State} (asid : Nat) (write : Bool) (spans : List (Nat × Nat)) (hc : MemsForm s.mems)
    :
    MemsForm (s.feReach asid write spans).1.mems := by
  simp [State.feReach, hc]

@[simp] theorem State.form_pollWord {s : State} (asid : Nat) (va : DWord) (hc : MemsForm s.mems) :
    MemsForm (s.pollWord asid va).1.mems := by
  unfold State.pollWord
  dsimp only
  split
  · exact hc
  · exact State.form_feReach asid false _ hc

@[simp] theorem State.form_poll {s : State} (hc : MemsForm s.mems) : MemsForm (s.poll).mems := by
  have h1 : MemsForm (s.fe.queues.foldl (fun (s : State) (e : Nat × Queue) =>
      match s.pollWord e.2.asid e.2.ctrl with
      | (s1, some v) => if e.2.tail.toNat < v then s1.send (.tailUpdate e.1 (BitVec.ofNat 64 v)) else s1
      | (s1, none) => s1) s).mems := by
    refine MemsForm.foldl (fun u e hu => ?_) _ hc
    have hp := State.form_pollWord e.2.asid e.2.ctrl hu
    split
    all_goals have h2 := MemsForm.of_fst ‹_› hp
    · split <;> simp [h2]
    · exact h2
  unfold State.poll
  dsimp only
  (repeat' split) <;> exact h1

@[simp] theorem State.form_duties {s : State} (a b : Nat) (hc : MemsForm s.mems) : MemsForm (s.duties a b).mems := by
  unfold State.duties
  dsimp only
  (repeat' split) <;> simp [hc]

@[simp] theorem State.form_passClock {s : State} (hc : MemsForm s.mems) : MemsForm (s.passClock).mems := by
  simp [State.passClock, hc]

@[simp] theorem State.form_collapseFrame {s : State} (n : Nat) (hc : MemsForm s.mems) :
    MemsForm (s.collapseFrame n).1.mems := by
  unfold State.collapseFrame
  dsimp only
  simp +contextual [hc]

@[simp] theorem State.form_copyReach {s : State} (core : Nat) (o : CopyOp) (hc : MemsForm s.mems) :
    MemsForm (s.copyReach core o).1.mems := by
  unfold State.copyReach
  split <;> simp [hc]

@[simp] theorem State.form_enginePiece {s : State} (asid gen die : Nat) (waiter : Waiter) (va : Nat) (f : Nat → LineData →
    LineData) (bs : List Byte) (hc : MemsForm s.mems) :
    MemsForm (s.enginePiece asid gen die waiter va f bs).1.mems := by
  unfold State.enginePiece
  split
  · simp [hc]
  · simp [hc]
  · split
    · simp [hc]
    · simp [State.form_serve ‹_› hc]
    · simp [State.form_waits ‹_› hc]

@[simp] theorem State.form_copyStore {s : State} (core : Nat) (o : CopyOp) (ws : List (Nat × List Byte)) (hc : MemsForm
    s.mems) :
    MemsForm (s.copyStore core o ws).mems := by
  unfold State.copyStore
  dsimp only
  simp +contextual [hc]

@[simp] theorem State.form_decSuccessor {s : State} (warp : Nat) (va : DWord) (hc : MemsForm s.mems) :
    MemsForm (s.decSuccessor warp va).mems := by
  unfold State.decSuccessor
  dsimp only
  (repeat' split) <;> simp [hc]

@[simp] theorem State.form_freeLine {s : State} (v : Invocation) (line : Nat) (hc : MemsForm s.mems) :
    MemsForm (s.freeLine v line).mems := by
  unfold State.freeLine
  split <;> simp [hc]

@[simp] theorem State.form_rtReach {s : State} (slice : Nat) (v : Invocation) (hc : MemsForm s.mems) :
    MemsForm (s.rtReach slice v).1.mems := by
  unfold State.rtReach
  dsimp only
  (repeat' split) <;> simp [hc]

@[simp] theorem State.form_holdLine {s : State} (v : Invocation) (line : Nat) (hc : MemsForm s.mems) :
    MemsForm (s.holdLine v line).mems := by
  simp [State.holdLine, hc]

@[simp] theorem State.form_predict {s : State} (line die : Nat) (hc : MemsForm s.mems) :
    MemsForm (s.predict line die).mems := by
  unfold State.predict
  dsimp only
  (repeat' split) <;> simp [hc]

@[simp] theorem State.form_runHome {s : State} (v : Invocation) (line : Nat) (code : List Word) (hc : MemsForm s.mems) :
    MemsForm (s.runHome v line code).mems := by
  unfold State.runHome
  extract_lets s0 s1 hl
  have h1 : MemsForm s1.mems := by
    have h0 : MemsForm s0.mems := by simp [s0, hc]
    unfold s1
    split
    · exact State.form_collapse _ _ h0
    · exact h0
  split
  · exact (State.mems_rtFault _ _ _ _ _).symm ▸ h1
  · refine State.form_collapse _ _ ?_
    split
    · exact h1
    · exact (State.mems_fireLine _ _).symm ▸ State.form_setLine _ _ h1

@[simp] theorem State.form_runOwner {s : State} (v : Invocation) (line die : Nat) (code : List Word) (hc : MemsForm s.mems) :
    MemsForm (s.runOwner v line die code).mems := by
  unfold State.runOwner
  dsimp only
  (repeat' split) <;> simp [hc]

@[simp] theorem State.form_lend {s : State} (line die : Nat) (hc : MemsForm s.mems) : MemsForm (s.lend line die).mems := by
  simp [State.lend, hc]

@[simp] theorem State.form_lendTo {s : State} (v : Invocation) (line die : Nat) (first : Bool) (hc : MemsForm s.mems) :
    MemsForm (s.lendTo v line die first).mems := by
  have h1 : MemsForm (s.bringHome line die).mems := by simp [hc]
  unfold State.lendTo
  dsimp only
  split
  · refine State.form_holdLine _ _ ?_
    (repeat' split) <;> simp [h1]
  · split
    · simp [h1]
    · have h2 := State.form_makeRoom ‹_› h1
      split
      · simp [h2]
      · have h3 := (State.mems_codeFor ‹_›).symm ▸
          State.form_lend line die ((State.mems_countRegion _ _ _ _ _ _).symm ▸ h2)
        simp [h3]

@[simp] theorem State.form_invokeAt {s : State} (v : Invocation) (line : Nat) (first : Bool) (hc : MemsForm s.mems) :
    MemsForm (s.invokeAt v line first).mems := by
  unfold State.invokeAt
  dsimp only
  split
  · have h1 : MemsForm (((s.countRegion v.asid v.va 0 1 (s.leased line).toNat).predict line (dieOfCore v.core)).bringHome line
        (dieOfCore v.core)).mems := by simp [hc]
    split
    · simp [h1]
    · have h2 := (State.mems_codeFor ‹_›).symm ▸ h1
      simp [h2]
  · split
    · split
      · simp [hc]
      · have h2 := (State.mems_codeFor ‹_›).symm ▸ hc
        simp [h2]
    · simp [hc]

@[simp] theorem State.form_routineLane (v : Invocation) {s : State} (hc : MemsForm s.mems) :
    MemsForm (routineLane v s).mems := by
  have h0 : MemsForm (s.freeLine v (v.pa / 128)).mems := by simp [hc]
  unfold routineLane
  dsimp only
  split
  · simp [h0]
  · simp [State.form_waits ‹_› h0]
  · have h1 := State.form_serve ‹_› h0
    split
    all_goals
      have h2 := MemsForm.of_fst ‹_› (State.form_rtReach _ v h1)
      simp [h2]

@[simp] theorem State.form_runMates : (vs : List Invocation) → {s : State} → MemsForm s.mems →
    MemsForm (State.runMates vs s).mems
  | [], _, hc => hc
  | u :: us, s, hc => by
    have h1 : MemsForm (routineLane u { s with net := s.net.erase (.routineInvocation u) }).mems := form_routineLane u hc
    unfold State.runMates
    dsimp only
    split
    · exact h1
    · exact form_runMates us h1

@[simp] theorem State.form_routineInvocation (v : Invocation) {s : State} (hc : MemsForm s.mems) :
    MemsForm (routineInvocation v s).mems := by
  simp [routineInvocation, hc]

@[simp] theorem State.form_rtSpans {s : State} (q : RtReq) (hc : MemsForm s.mems) : MemsForm (s.rtSpans q).1.mems := by
  unfold State.rtSpans
  dsimp only
  (repeat' split) <;> simp [hc]

@[simp] theorem State.form_tableWrite {s : State} (asid : Nat) (va : DWord) (bs : List Byte) (hc : MemsForm s.mems) :
    MemsForm (s.tableWrite asid va bs).mems := by
  unfold State.tableWrite
  refine MemsForm.foldl (fun u i hu => ?_) _ hc
  dsimp only
  split <;> simp [hu]

@[simp] theorem State.form_rtCarryOut {s : State} (q : RtReq) (hc : MemsForm s.mems) : MemsForm (s.rtCarryOut q).2.2.2.mems := by
  unfold State.rtCarryOut
  dsimp only
  repeat' split
  all_goals first | exact hc | exact State.form_tableWrite _ _ _ (State.form_tableWrite _ _ _ (State.form_tableWrite _ _ _ hc))

@[simp] theorem State.form_rtinstExecution (req : Nat) {s : State} (hc : MemsForm s.mems) :
    MemsForm (rtinstExecution req s).mems := by
  unfold rtinstExecution
  split
  · exact hc
  · rename_i q _
    split
    · simp [hc]
    · have h0 := State.form_rtSpans q hc
      split
      all_goals have h1 := MemsForm.of_fst ‹_› h0
      · simp [h1]
      · have h2 := State.form_rtCarryOut q h1
        dsimp only
        split
        · split <;> split <;> simp [h2]
        · split <;> simp [h2]

@[simp] theorem State.form_pollKey {s : State} (k : MonKey) (agent gen die : Nat) (hc : MemsForm s.mems) :
    MemsForm (s.pollKey k agent gen die).1.mems := by
  unfold State.pollKey
  split
  · exact hc
  · split
    · exact hc
    · exact State.form_waits ‹_› hc
    · have h1 := State.form_serve ‹_› hc
      dsimp only
      (repeat' split) <;> simp [h1]

@[simp] theorem State.form_monitorPoll (wait : Nat) {s : State} (hc : MemsForm s.mems) :
    MemsForm (monitorPoll wait s).mems := by
  unfold monitorPoll
  split
  · split
    · dsimp only
      split
      · simp [hc]
      · split
        all_goals
          have h1 := MemsForm.of_fst ‹_› (State.form_pollKey _ _ _ _ hc)
          simp [h1]
    · exact hc
  · split
    · split
      · split
        · simp [hc]
        · split
          all_goals
            have h1 := MemsForm.of_fst ‹_› (State.form_pollKey _ _ _ _ hc)
            simp [h1]
      · exact hc
    · exact hc

@[simp] theorem State.form_spoilMem {s : State} (core : Nat) (o : CopyOp) (spans : List (Nat × Nat)) (hc : MemsForm s.mems) :
    MemsForm (s.spoilMem core o spans).mems := by
  unfold State.spoilMem
  dsimp only
  simp +contextual [hc]

@[simp] theorem State.form_moveCopy {s : State} (core : Nat) (o : CopyOp) (hc : MemsForm s.mems) :
    MemsForm (s.moveCopy core o).mems := by
  unfold State.moveCopy
  dsimp only
  (repeat' split) <;> simp [hc]

@[simp] theorem State.form_copyPost (core op : Nat) {s : State} (hc : MemsForm s.mems) :
    MemsForm (copyPost core op s).mems := by
  unfold copyPost
  dsimp only
  (repeat' split) <;> simp [hc]

@[simp] theorem State.form_entryReach {s : State} (x : Xread) (hc : MemsForm s.mems) :
    MemsForm (s.entryReach x).1.mems := by
  unfold State.entryReach
  (repeat' split) <;> simp [hc]

@[simp] theorem State.form_issueCommand {s : State} (x : Xread) (e : Endpoint) (a : Attachment) (offset bytes : Nat) (hc :
    MemsForm s.mems) :
    MemsForm (s.issueCommand x e a offset bytes).mems := by
  simp [State.issueCommand, hc]

@[simp] theorem State.form_issueCommands (id : Nat) (e : Endpoint) : (fuel : Nat) → {s : State} → MemsForm s.mems →
    MemsForm (s.issueCommands id e fuel).1.mems
  | 0, _, hc => hc
  | fuel + 1, s, hc => by
    unfold State.issueCommands
    split
    · dsimp only
      split
      · exact hc
      · split
        · exact hc
        · exact form_issueCommands id e fuel (form_issueCommand _ _ _ _ _ hc)
    · exact hc

@[simp] theorem State.form_startNvme {s : State} (x : Xread) (e : Endpoint) (hc : MemsForm s.mems) :
    MemsForm (s.startNvme x e).mems := by
  unfold State.startNvme
  split
  · simp [hc]
  · have h1 := (State.mems_assignPeers ‹_›).symm ▸ hc
    extract_lets entry s2 s3
    have h3 : MemsForm s3.mems := by
      unfold s3
      split <;> exact h1
    have h4 := State.form_issueCommands x.id e (x.len + 1) h3
    split
    have h5 := MemsForm.of_fst ‹_› h4
    split
    · exact h5
    · exact (State.mems_hold _ _).symm ▸ h5

@[simp] theorem State.form_startXread {s : State} (x : Xread) (hc : MemsForm s.mems) : MemsForm (s.startXread x).mems := by
  unfold State.startXread
  dsimp only
  (repeat' split) <;> simp [hc]

@[simp] theorem State.form_xreadEngineStart (id : Nat) {s : State} (hc : MemsForm s.mems) :
    MemsForm (xreadEngineStart id s).mems := by
  unfold xreadEngineStart
  split
  · exact hc
  · rename_i x _
    split
    · exact hc
    · split
      · simp [hc]
      · split
        all_goals
          have h1 := MemsForm.of_fst ‹_› (State.form_entryReach x hc)
          simp [h1]

@[simp] theorem State.form_xreadCompletionWord (id : Nat) {s : State} (hc : MemsForm s.mems) :
    MemsForm (xreadCompletionWord id s).mems := by
  unfold xreadCompletionWord
  dsimp only
  (repeat' split) <;> simp [hc]

@[simp] theorem State.form_xreadReach {s : State} (ws : List (Nat × Nat × List Byte)) (hc : MemsForm s.mems) :
    MemsForm (s.xreadReach ws).1.mems := by
  unfold State.xreadReach
  refine MemsForm.foldl_fst (fun a w ha => ?_) _ hc
  split
  · exact ha
  · exact State.form_reachSpans _ _ _ _ _ ha

@[simp] theorem State.form_xreadWrite {s : State} (id : Nat) (va : Nat) (bs : List Byte) (hc : MemsForm s.mems) :
    MemsForm (s.xreadWrite id va bs).mems := by
  unfold State.xreadWrite
  dsimp only
  (repeat' split) <;> simp [hc]

@[simp] theorem State.form_xreadWrites {s : State} (ws : List (Nat × Nat × List Byte)) (hc : MemsForm s.mems) :
    MemsForm (s.xreadWrites ws).1.mems := by
  have h0 := State.form_xreadReach ws hc
  unfold State.xreadWrites
  split
  all_goals have h1 := MemsForm.of_fst ‹_› h0
  · exact h1
  · exact MemsForm.foldl (fun u w hu => State.form_xreadWrite _ _ _ hu) _ h1

@[simp] theorem State.form_peerWindowWrite (offset : Nat) (data : List Byte) {s : State} (hc : MemsForm s.mems) :
    MemsForm (peerWindowWrite offset data s).mems := by
  unfold peerWindowWrite
  split
  all_goals
    have h1 := MemsForm.of_fst ‹_› (State.form_xreadWrites _ hc)
    simp [h1]

@[simp] theorem State.form_remoteReadServe (port asid : Nat) (va : DWord) (len : Nat) {s : State} (hc : MemsForm s.mems) :
    MemsForm (remoteReadServe port asid va len s).mems := by
  unfold remoteReadServe
  dsimp only
  split
  · exact hc
  · split
    · simp [hc]
    · split
      · simp [hc]
      · split
        all_goals have h1 := MemsForm.of_fst ‹_› (State.form_feReach _ _ _ hc)
        · simp [h1]
        · split
          · simp [h1]
          · split <;> simp [h1]

@[simp] theorem State.form_accstAddLineUpdate (core op line : Nat) {s : State} (hc : MemsForm s.mems) :
    MemsForm (accstAddLineUpdate core op line s).mems := by
  unfold accstAddLineUpdate
  dsimp only
  split
  · exact hc
  · split
    all_goals have h1 := MemsForm.of_fst ‹_› (State.form_reachSpans _ _ _ _ _ hc)
    · simp [h1]
    · split <;> simp [h1]

@[simp] theorem State.form_rowsReach {s : State} (core : Nat) (o : MatrixOp) (write : Bool) (hc : MemsForm s.mems) :
    MemsForm (s.rowsReach core o write).1.mems := by
  unfold State.rowsReach
  split <;> simp [hc]

@[simp] theorem State.form_drainPiece {s : State} (core : Nat) (o : MatrixOp) (die va : Nat) (bs : List Byte) (hc : MemsForm
    s.mems) :
    MemsForm (s.drainPiece core o die va bs).mems := by
  have h1 := State.form_enginePiece o.asid o.gen die (.drain core o.id) va (fun ofs d => lineWrite ofs bs d) bs
    ((State.mems_setMatrix s core o.id fun o => { o with outstanding := o.outstanding + 1 }).symm ▸ hc)
  unfold State.drainPiece
  dsimp only
  split <;> simp [h1]

@[simp] theorem State.form_drainMem {s : State} (core : Nat) (o : MatrixOp) (hc : MemsForm s.mems) :
    MemsForm (s.drainMem core o).mems := by
  unfold State.drainMem
  dsimp only
  rw [State.mems_setCore]
  refine MemsForm.foldl (fun u r hu => ?_) _ hc
  refine MemsForm.foldl (fun v p hv => ?_) _ hu
  split
  · exact hv
  · simp [hv]

@[simp] theorem State.form_startDrain {s : State} (core : Nat) (o : MatrixOp) (hc : MemsForm s.mems) :
    MemsForm (s.startDrain core o).mems := by
  unfold State.startDrain
  dsimp only
  (repeat' split) <;> simp [hc]

@[simp] theorem State.form_matrixOpComplete (core op : Nat) {s : State} (hc : MemsForm s.mems) :
    MemsForm (matrixOpComplete core op s).mems := by
  unfold matrixOpComplete
  dsimp only
  split
  · exact hc
  · rename_i o _
    split
    · have h1 : MemsForm (if (!o.started && (s.core core).drainMay o && s.writtenBefore o.members o.id) = true then
          s.rowsReach core o true else (s, false)).1.mems := by
        split
        · exact State.form_rowsReach _ _ _ hc
        · exact hc
      generalize (if (!o.started && (s.core core).drainMay o && s.writtenBefore o.members o.id) = true then
          s.rowsReach core o true else (s, false)) = p at h1 ⊢
      have h2 : MemsForm (if p.2 = true then p.1.startDrain core o else p.1).mems := by
        split
        · exact State.form_startDrain _ _ h1
        · exact h1
      split
      · exact h2
      · split
        · exact (State.mems_completeMatrix _ _ _).symm ▸ h2
        · exact h2
    · split
      · simp [hc]
      · split
        · simp [hc]
        · split
          · simp [hc]
          · split
            all_goals have h1 := MemsForm.of_fst ‹_› (State.form_rowsReach core o false hc)
            · simp [h1]
            · simp [h1]

@[simp] theorem State.form_setDeque {s : State} (g core : Nat) (data : Bool) (o n v : Nat) (hc : MemsForm s.mems) :
    MemsForm (s.setDeque g core data o n v).mems := by
  simp [State.setDeque, hc]

@[simp] theorem State.form_skipTaken (g core : Nat) : (n : Nat) → {s : State} → MemsForm s.mems →
    MemsForm (s.skipTaken g core n).mems
  | 0, _, hc => hc
  | n + 1, s, hc => by
    unfold State.skipTaken
    dsimp only
    split
    · exact form_skipTaken g core n (form_setDeque _ _ _ _ _ _ hc)
    · exact hc

@[simp] theorem State.form_setRecord {s : State} (g core : Nat) (data : Bool) (i o v : Nat) (hc : MemsForm s.mems) :
    MemsForm (s.setRecord g core data i o v).mems := by
  simp [State.setRecord, hc]

@[simp] theorem State.form_lendTask {s : State} (g victim : Nat) (data : Bool) (thief wait : Nat) (hc : MemsForm s.mems) :
    MemsForm (s.lendTask g victim data thief wait).mems :=
  State.form_setDeque _ _ _ _ _ _ (State.form_setDeque _ _ _ _ _ _ (State.form_setDeque _ _ _ _ _ _ hc))

@[simp] theorem State.form_dispatch {s : State} (wait : Nat) (hc : MemsForm s.mems) : MemsForm (s.dispatch wait).mems := by
  unfold State.dispatch
  split
  · exact hc
  · rename_i r _
    split
    · dsimp only
      split
      · exact hc
      · split
        · split
          · exact hc
          · simp [hc]
        · split
          · refine (State.mems_giveTask _ _ _ _).symm ▸ State.form_skipTaken _ _ _ (State.form_setRecord _ _ _ _ _ _ ?_)
            exact MemsForm.foldl (fun u j hu => State.form_setRecord _ _ _ _ _ _ hu) _ hc
          · split
            · simp [hc]
            · simp [hc]
            · split
              · simp [hc]
              · split
                · rw [State.mems_send, State.mems_foldl (fun _ _ => State.mems_setThread _ _ _)]
                  simp [hc]
                · exact hc
    · exact hc

@[simp] theorem State.form_dispatchAll {s : State} (g : Nat) (hc : MemsForm s.mems) : MemsForm (s.dispatchAll g).mems := by
  unfold State.dispatchAll
  dsimp only
  simp +contextual [hc]

@[simp] theorem State.form_lendAccept (id : Nat) {s : State} (hc : MemsForm s.mems) : MemsForm (lendAccept id s).mems := by
  unfold lendAccept
  split
  · exact hc
  · rename_i l _
    extract_lets gr rd waits warp h s1 s2 s3 s4
    split
    split
    · exact hc
    · extract_lets g
      split
      · have h2 : MemsForm s2.mems := by
          have h1 : MemsForm s1.mems := State.form_setDeque _ _ _ _ _ _ (State.form_setDeque _ _ _ _ _ _ hc)
          unfold s2
          split
          · exact State.form_skipTaken _ _ _ h1
          · exact h1
        rw [State.mems_checkGrid]
        exact State.form_dispatchAll _ ((State.mems_giveTask _ _ _ _).symm ▸ h2)
      · exact State.form_dispatch _ hc

@[simp] theorem State.form_lendExpiry (id : Nat) {s : State} (hc : MemsForm s.mems) : MemsForm (lendExpiry id s).mems := by
  unfold lendExpiry
  dsimp only
  (repeat' split) <;> simp [hc]

@[simp] theorem State.form_taskEnd (warp : Nat) {s : State} (hc : MemsForm s.mems) : MemsForm (taskEnd warp s).mems := by
  unfold taskEnd
  dsimp only
  (repeat' split) <;> simp [hc]

@[simp] theorem State.form_serveRead {s : State} (r : ReadReq) (hc : MemsForm s.mems) : MemsForm (s.serveRead r).mems := by
  unfold State.serveRead
  dsimp only
  split
  · simp [hc]
  · simp [State.form_readAt ‹_› hc]

@[simp] theorem State.form_readLane (r : ReadReq) {s : State} (hc : MemsForm s.mems) : MemsForm (readLane r s).mems := by
  unfold readLane
  dsimp only
  split
  · simp [hc]
  · split
    · simp [hc]
    · split
      · simp [hc]
      · simp [State.form_waits ‹_› hc]
      · simp [State.form_serve ‹_› hc]

@[simp] theorem State.form_readAll : (rs : List ReadReq) → {s : State} → MemsForm s.mems →
    MemsForm (State.readAll rs s).mems
  | [], _, hc => hc
  | u :: us, s, hc => by
    have h1 : MemsForm (readLane u { s with net := s.net.erase (.sliceRead u) }).mems := form_readLane u hc
    unfold State.readAll
    dsimp only
    split
    · exact h1
    · exact form_readAll us h1

@[simp] theorem State.form_sliceRead (r : ReadReq) {s : State} (hc : MemsForm s.mems) : MemsForm (sliceRead r s).mems := by
  unfold sliceRead
  dsimp only
  (repeat' split) <;> simp [hc]

@[simp] theorem State.form_sliceWrite (w : WriteReq) {s : State} (hc : MemsForm s.mems) :
    MemsForm (sliceWrite w s).mems := by
  unfold sliceWrite
  dsimp only
  split
  · simp [hc]
  · split
    · simp [hc]
    · simp [State.form_waits ‹_› hc]
    · simp [State.form_serve ‹_› hc]

@[simp] theorem State.form_collapseAck (die line : Nat) {s : State} (hc : MemsForm s.mems) :
    MemsForm (collapseAck die line s).mems := by
  unfold collapseAck
  dsimp only
  (repeat' split) <;> simp [hc]

@[simp] theorem State.form_leaseExpiry (line : Nat) {s : State} (hc : MemsForm s.mems) :
    MemsForm (leaseExpiry line s).mems := by
  simp [leaseExpiry, hc]

@[simp] theorem State.form_recallLine (line byDie : Nat) {s : State} (hc : MemsForm s.mems) :
    MemsForm (recallLine line byDie s).mems := by
  simp [recallLine, hc]

@[simp] theorem State.form_softError (stage : ErrorStage) (die line : Nat) (corrected : Bool) {s : State} (hc : MemsForm
    s.mems) :
    MemsForm (softError stage die line corrected s).mems := by
  unfold softError
  dsimp only
  (repeat' split) <;> simp [hc]

@[simp] theorem State.form_lineLoss (line cause : Nat) {s : State} (hc : MemsForm s.mems) :
    MemsForm (lineLoss line cause s).mems := by
  unfold lineLoss
  simp only [State.mems_endAsid, State.mems_bumpLive, State.mems_postLoss, State.mems_countSlice, State.mems_mk, State.eta_mems]
  exact State.form_setLine _ _ hc

@[simp] theorem State.form_returnLine {s : State} (die : Nat) (e : Nat × HomeLine) (hc : MemsForm s.mems) :
    MemsForm (s.returnLine die e).mems :=
  State.Canonical.returnLine hc die e

@[simp] theorem State.form_dieReset (die : Nat) {s : State} (hc : MemsForm s.mems) : MemsForm (dieReset die s).mems := by
  have hl : MemsForm ((s.setDie die fun d => { d with resetting := true }).lines.foldl (fun s e => s.returnLine die e)
      (s.setDie die fun d => { d with resetting := true })).mems :=
    MemsForm.foldl (fun u e hu => State.form_returnLine die e hu) _ hc
  unfold dieReset
  dsimp only
  split
  · rw [State.mems_hold, State.mems_foldl (fun _ _ => State.mems_sendOnce _ _)]
    exact hc
  · split
    · exact hc
    · simpa using hl

@[simp] theorem State.form_dieLoss (die : Nat) {s : State} (hc : MemsForm s.mems) : MemsForm (dieLoss die s).mems := by
  unfold dieLoss
  dsimp only
  simp only [State.mems_setDie, State.mems_dropAcks, State.mems_postLoss]
  rw [State.mems_foldl (fun u a => by simp), State.mems_mk]
  refine MemsForm.foldl (f := fun (u : State) (e : Nat × HomeLine) =>
    (((u.setLine e.1 { e.2 with state := u.kept e.1 e.2.data, ownerDie := none, ownerDirty := false }).countSlice
      (homeDie e.1) 5).postLoss (u.frame (e.1 / 512)).owner (128 * e.1) 0).bumpLive (u.frame (e.1 / 512)).owner)
    (fun u e hu => ?_) _ hc
  simp [hu]

@[simp] theorem State.form_mrAccept (tail : DWord) {s : State} (hc : MemsForm s.mems) :
    MemsForm (mrAccept tail s).mems := by
  unfold mrAccept
  dsimp only
  (repeat' split) <;> simp [hc]

@[simp] theorem State.form_ascreate (r : MemRequest) {s : State} (hc : MemsForm s.mems) : MemsForm (ascreate r s).mems := by
  unfold ascreate
  dsimp only
  (repeat' split) <;> simp [hc]

@[simp] theorem State.form_asdestroy (r : MemRequest) {s : State} (hc : MemsForm s.mems) :
    MemsForm (asdestroy r s).mems := by
  unfold asdestroy
  dsimp only
  (repeat' split) <;> simp [hc]

@[simp] theorem State.form_mapEach {s : State} (r : MemRequest) (gen : Nat) (hc : MemsForm s.mems) :
    MemsForm (s.mapEach r gen).mems := by
  unfold State.mapEach
  dsimp only
  refine MemsForm.foldl (fun u i hu => ?_) _ hc
  split
  · exact State.form_setPte _ _ _ _ (MemsForm.foldl (fun v j hv => State.form_bindFrame _ _ _ _ _ _ hv) _ hu)
  · exact State.form_setPte _ _ _ _ hu

@[simp] theorem State.form_mapPagesOp (r : MemRequest) {s : State} (hc : MemsForm s.mems) :
    MemsForm (mapPagesOp r s).mems := by
  unfold mapPagesOp
  dsimp only
  (repeat' split) <;> simp [hc]

@[simp] theorem State.form_unmapOp (r : MemRequest) {s : State} (hc : MemsForm s.mems) : MemsForm (unmapOp r s).mems := by
  unfold unmapOp
  dsimp only
  (repeat' split) <;> simp +contextual [hc]

@[simp] theorem State.form_protectOp (r : MemRequest) {s : State} (hc : MemsForm s.mems) :
    MemsForm (protectOp r s).mems := by
  have hf (ls : List Leaf) (e : Leaf → Nat) :
      MemsForm (ls.foldl (fun (s : State) l => s.setPte r.asid (BitVec.ofNat 64 l.va) l.log2 (e l)) s).mems :=
    MemsForm.foldl (fun u l hu => State.form_setPte _ _ _ _ hu) ls hc
  unfold protectOp
  dsimp only
  repeat' split
  all_goals simp [hc, hf]

@[simp] theorem State.form_moveIn {s : State} (asid va : Nat) (hc : MemsForm s.mems) :
    MemsForm (s.moveIn asid va).mems :=
  State.Canonical.moveIn hc asid va

@[simp] theorem State.form_miginOp (r : MemRequest) {s : State} (hc : MemsForm s.mems) : MemsForm (miginOp r s).mems := by
  unfold miginOp
  split
  · simp [hc]
  · split
    · simp [hc]
    · split
      · simp [hc]
      · split
        · simp [hc]
        · rename_i ls _
          have h1 : MemsForm ((ls.filter fun l => !pteV l.e).foldl (fun s l => s.moveIn r.asid l.va) s).mems :=
            MemsForm.foldl (fun u l hu => State.form_moveIn _ _ hu) _ hc
          dsimp only
          (repeat' split) <;> simp [hc, h1]

@[simp] theorem State.form_startOut {s : State} (asid va : Nat) (hc : MemsForm s.mems) :
    MemsForm (s.startOut asid va).mems := by
  unfold State.startOut
  split <;> simp [hc]

@[simp] theorem State.form_moveOut {s : State} (r : MemRequest) (vas : List Nat) (hc : MemsForm s.mems) :
    MemsForm (s.moveOut r vas).mems := by
  unfold State.moveOut
  dsimp only
  simp +contextual [hc]

@[simp] theorem State.form_migoutOp (r : MemRequest) {s : State} (hc : MemsForm s.mems) : MemsForm (migoutOp r s).mems := by
  unfold migoutOp
  dsimp only
  (repeat' split) <;> simp [hc]

@[simp] theorem State.form_setcoldOp (r : MemRequest) {s : State} (hc : MemsForm s.mems) :
    MemsForm (setcoldOp r s).mems := by
  unfold setcoldOp
  (repeat' split) <;> simp [hc]

@[simp] theorem State.form_setpinOp (r : MemRequest) {s : State} (hc : MemsForm s.mems) : MemsForm (setpinOp r s).mems := by
  unfold setpinOp
  (repeat' split) <;> simp [hc]

@[simp] theorem State.form_releaseFrame {s : State} (n : Nat) (hc : MemsForm s.mems) :
    MemsForm (s.releaseFrame n).mems :=
  State.Canonical.releaseFrame hc n

@[simp] theorem State.form_finishOut {s : State} (asid va : Nat) (hc : MemsForm s.mems) :
    MemsForm (s.finishOut asid va).mems :=
  State.Canonical.finishOut hc asid va

@[simp] theorem State.form_unroot {s : State} (asid : Nat) (hc : MemsForm s.mems) : MemsForm (s.unroot asid).mems :=
  ⟨Memory.wf_clear hc.1 _ _, hc.2⟩

@[simp] theorem State.form_finishBump {s : State} (b : Bump) (hc : MemsForm s.mems) : MemsForm (s.finishBump b).mems := by
  have hr (ns : List Nat) {u : State} (hu : MemsForm u.mems) : MemsForm (ns.foldl (fun s n => s.releaseFrame n) u).mems :=
    MemsForm.foldl (fun v n hv => State.form_releaseFrame n hv) ns hu
  unfold State.finishBump
  refine MemsForm.foldl (fun u k hu => ?_) _ ?_
  · split
    · exact hr _ hu
    · split
      · split
        · simp [hu]
        · exact State.form_completeReq _ _ (MemsForm.foldl (fun v p hv => State.form_finishOut _ _ hv) _ hu)
      · split
        · exact State.form_unroot _ (hr _ (State.form_completeReq _ _ hu))
        · exact State.form_completeReq _ _ (hr _ hu)
  · split
    · exact hr _ hc
    · exact hc

@[simp] theorem State.form_generationAck (asid agent : Nat) {s : State} (hc : MemsForm s.mems) :
    MemsForm (generationAck asid agent s).mems := by
  have hr (ns : List Nat) {u : State} (hu : MemsForm u.mems) : MemsForm (ns.foldl (fun (acc : State × Bool) n =>
      ((acc.1.collapseFrame n).1, acc.2 && (acc.1.collapseFrame n).2)) (u, true)).1.mems := by
    refine MemsForm.foldl_fst (fun a n ha => ?_) ns hu
    exact State.form_collapseFrame n ha
  unfold generationAck
  split
  · simp [hc]
  · dsimp only
    split
    · simp [hc]
    · split
      · exact MemsForm.foldl (fun u b hu => State.form_finishBump b hu) _ (hr _ hc)
      · exact (State.mems_hold _ _).symm ▸ hr _ hc

@[simp] theorem State.form_mrbaseWrite (ctl : Bool) (value : DWord) {s : State} (hc : MemsForm s.mems) :
    MemsForm (mrbaseWrite ctl value s).mems := by
  unfold mrbaseWrite
  dsimp only
  (repeat' split) <;> simp [hc]

@[simp] theorem State.form_flushFrame {s : State} (n : Nat) (hc : MemsForm s.mems) : MemsForm (s.flushFrame n).mems :=
  State.Canonical.flushFrame hc n

@[simp] theorem State.form_compressionCommit (n granules : Nat) {s : State} (hc : MemsForm s.mems) :
    MemsForm (compressionCommit n granules s).mems := by
  unfold compressionCommit
  split
  · exact hc
  · split
    · exact hc
    · split
      · exact hc
      · split
        all_goals
          have h1 := MemsForm.of_fst ‹_› (State.form_collapseFrame n hc)
          simp [h1]

@[simp] theorem State.form_eviction (n : Nat) {s : State} (hc : MemsForm s.mems) : MemsForm (eviction n s).mems := by
  unfold eviction
  dsimp only
  (repeat' split) <;> simp [hc]

theorem State.form_feThen {s : State} (asid : Nat) (write : Bool) (spans : List (Nat × Nat)) (m : Msg) {act : State → State}
    (ha : ∀ u : State, MemsForm u.mems → MemsForm (act u).mems) (hc : MemsForm s.mems) :
    MemsForm (s.feThen asid write spans m act).mems := by
  unfold State.feThen
  split
  all_goals have h1 := MemsForm.of_fst ‹_› (State.form_feReach asid write spans hc)
  · exact ha _ h1
  · simp [h1]

@[simp] theorem State.form_feWatch {s : State} (asid : Nat) (va : DWord) (hc : MemsForm s.mems) :
    MemsForm (s.feWatch asid va).2.mems := by
  unfold State.feWatch
  split
  · dsimp only
    split
    · exact hc
    · split
      all_goals have h1 := MemsForm.of_fst ‹_› (State.form_feReach _ _ _ hc)
      · simp [h1]
      · exact h1
  · exact hc

@[simp] theorem State.form_feWrite {s : State} (asid : Nat) (va : DWord) (bs : List Byte) (hc : MemsForm s.mems) :
    MemsForm (s.feWrite asid va bs).mems := by
  unfold State.feWrite
  dsimp only
  simp +contextual [hc]

@[simp] theorem State.form_writeStatus {s : State} (qid : Nat) (hc : MemsForm s.mems) :
    MemsForm (s.writeStatus qid).mems := by
  unfold State.writeStatus
  split <;> simp [hc]

@[simp] theorem State.form_openQueue {s : State} (qid : Nat) (d : List Byte) (hc : MemsForm s.mems) :
    MemsForm (s.openQueue qid d).mems := by
  unfold State.openQueue
  dsimp only
  rw [State.mems_queueOk]
  refine State.form_feWatch _ _ (State.form_writeStatus _ (State.form_feUpdate _ _ _ _ ?_))
  exact hc

@[simp] theorem State.form_queueCreate (qid : Nat) {s : State} (hc : MemsForm s.mems) :
    MemsForm (queueCreate qid s).mems := by
  unfold queueCreate
  dsimp only
  split
  · simp [hc]
  · split
    · simp [hc]
    · exact State.form_feThen _ _ _ _ (fun u hu => State.form_openQueue _ _ hu) hc

@[simp] theorem State.form_queueResume (qid : Nat) {s : State} (hc : MemsForm s.mems) :
    MemsForm (queueResume qid s).mems := by
  unfold queueResume
  (repeat' split) <;> simp [hc]

@[simp] theorem State.form_queueHalt (qid : Nat) {s : State} (hc : MemsForm s.mems) : MemsForm (queueHalt qid s).mems := by
  unfold queueHalt
  split <;> simp [hc]

@[simp] theorem State.form_tailUpdate (qid : Nat) (value : DWord) {s : State} (hc : MemsForm s.mems) :
    MemsForm (tailUpdate qid value s).mems := by
  unfold tailUpdate
  split
  · exact hc
  · refine State.form_feThen _ _ _ _ (fun u hu => ?_) hc
    dsimp only
    (repeat' split) <;> simp [hu]

@[simp] theorem State.form_queueError {s : State} (qid : Nat) (index : DWord) (err : Nat) (detail : DWord) (hc : MemsForm
    s.mems) :
    MemsForm (s.queueError qid index err detail).mems := by
  simp [State.queueError, hc]

@[simp] theorem State.form_packetAccept (qid : Nat) {s : State} (hc : MemsForm s.mems) :
    MemsForm (packetAccept qid s).mems := by
  unfold packetAccept
  split
  · exact hc
  · refine MemsForm.ite hc ?_
    split
    · exact State.form_queueError _ _ _ _ hc
    · refine MemsForm.ite (State.form_feThen _ _ _ _ (fun u hu => State.form_acceptPacket _ _ _ hu) hc) ?_
      refine MemsForm.ite (State.form_queueError _ _ _ _ hc) ?_
      exact MemsForm.ite (State.form_feWatch _ _ hc) ((State.mems_hold _ _).symm ▸ State.form_feWatch _ _ hc)

@[simp] theorem State.form_failPacket {s : State} (qid seq err : Nat) (detail : DWord) (hc : MemsForm s.mems) :
    MemsForm (s.failPacket qid seq err detail).mems := by
  unfold State.failPacket
  split <;> simp [hc]

@[simp] theorem State.form_packetStart (qid seq : Nat) {s : State} (hc : MemsForm s.mems) :
    MemsForm (packetStart qid seq s).mems := by
  unfold packetStart
  dsimp only
  (repeat' split) <;> simp [hc]

@[simp] theorem State.form_unmapStack {s : State} (g : Nat) (hc : MemsForm s.mems) : MemsForm (s.unmapStack g).mems := by
  unfold State.unmapStack
  dsimp only
  split
  · exact hc
  · have h1 (fs : List Nat) (ps : List Nat) : MemsForm (fs.foldl (fun (s : State) k =>
        s.setFrame k fun f => { f with lease := 0 })
        (ps.foldl (fun (u : State) p => u.setPte (s.grid g).asid (BitVec.ofNat 64 p) 16 0) s)).mems := by
      rw [State.mems_foldl (fun _ _ => State.mems_setFrame _ _ _)]
      exact MemsForm.foldl (fun u p hu => State.form_setPte _ _ _ _ hu) _ hc
    split
    · rw [State.mems_bump]; exact h1 _ _
    · exact MemsForm.foldl (fun _ _ hu => State.form_releaseFrame _ hu) _ (h1 _ _)

@[simp] theorem State.form_leasePage {s : State} (g p : Nat) (expand first : Bool) (hc : MemsForm s.mems) :
    MemsForm (s.leasePage g p expand first).mems := by
  unfold State.leasePage
  dsimp only
  (repeat' split) <;> simp [hc]

@[simp] theorem State.form_leaseGrid {s : State} (qid seq g : Nat) (first : Bool) (hc : MemsForm s.mems) :
    MemsForm (s.leaseGrid qid seq g first).mems := by
  unfold State.leaseGrid
  dsimp only
  split
  · refine State.form_failPacket _ _ _ _ ?_
    rw [State.mems_mk, State.eta_mems]
    simp [hc]
  · rename_i rs _
    have h1 : MemsForm ((rangePages rs).foldl (fun s p => s.leasePage g p.1 p.2 first) s).mems :=
      MemsForm.foldl (fun u p hu => State.form_leasePage _ _ _ _ hu) _ hc
    split
    · simp [h1]
    · split
      · refine State.form_failPacket _ _ _ _ ?_
        rw [State.mems_mk, State.eta_mems]
        simp [h1]
      · simp [h1]

@[simp] theorem State.form_mapFresh {s : State} (asid va pages : Nat) (r w x pin : Bool) (hc : MemsForm s.mems) :
    MemsForm (s.mapFresh asid va pages r w x pin).mems := by
  unfold State.mapFresh
  refine MemsForm.foldl (fun u i hu => ?_) _ hc
  dsimp only
  split <;> simp [hu]

@[simp] theorem State.form_newGrid {s : State} (asid qid seq : Nat) (p : Packet) (plan : Plan) (hc : MemsForm s.mems) :
    MemsForm (s.newGrid asid qid seq p plan).mems := by
  unfold State.newGrid
  dsimp only
  rw [State.mems_setPacket]
  rw [State.mems_foldl (fun u p => by split <;> simp)]
  exact State.form_mapFresh _ _ _ _ _ _ _ hc

@[simp] theorem State.form_startLaunch {s : State} (q : Queue) (qid seq : Nat) (p : Packet) (hc : MemsForm s.mems) :
    MemsForm (s.startLaunch q qid seq p).mems := by
  unfold State.startLaunch
  dsimp only
  (repeat' split) <;> simp [hc]

@[simp] theorem State.form_launch (qid seq : Nat) {s : State} (hc : MemsForm s.mems) :
    MemsForm (launch qid seq s).mems := by
  unfold launch
  split
  · split
    · split <;> simp [hc]
    · exact State.form_feThen _ _ _ _ (fun u hu => State.form_startLaunch _ _ _ _ hu) hc
  · exact hc

@[simp] theorem State.form_waitSignals (qid seq : Nat) {s : State} (hc : MemsForm s.mems) :
    MemsForm (waitSignals qid seq s).mems := by
  unfold waitSignals
  split
  · dsimp only
    split
    · simp [hc]
    · simp [hc]
    · split
      · exact State.form_feThen _ _ _ _ (fun u hu => by simp [hu]) hc
      · split <;> simp [hc]
  · exact hc

@[simp] theorem State.form_waitSignalsTimeout (qid seq : Nat) {s : State} (hc : MemsForm s.mems) :
    MemsForm (waitSignalsTimeout qid seq s).mems := by
  unfold waitSignalsTimeout
  (repeat' split) <;> simp [hc]

@[simp] theorem State.form_signal (qid seq : Nat) {s : State} (hc : MemsForm s.mems) :
    MemsForm (signal qid seq s).mems := by
  unfold signal
  split
  · dsimp only
    split
    · simp [hc]
    · split
      · simp [hc]
      · exact State.form_feThen _ _ _ _ (fun u hu => by simp [hu]) hc
  · exact hc

@[simp] theorem State.form_fillBytes (asid : Nat) : (bs : List Byte) → (va : Nat) → {s : State} → MemsForm s.mems →
    MemsForm (s.fillBytes asid va bs).mems
  | [], _, _, hc => hc
  | b :: rest, va, s, hc => by
    unfold State.fillBytes
    split
    · exact form_fillBytes asid rest _ (form_poke _ _ _ hc)
    · exact hc

@[simp] theorem State.form_mapSection {s : State} (asid : Nat) (p : Placed) (hc : MemsForm s.mems) :
    MemsForm (s.mapSection asid p).mems := by
  simp [State.mapSection, hc]

@[simp] theorem State.form_loadObject {s : State} (asid : Nat) (obj : List Byte) (dest dlen : Nat) (hc : MemsForm s.mems) :
    MemsForm (s.loadObject asid obj dest dlen).2.mems := by
  unfold State.loadObject
  dsimp only
  (repeat' split) <;> simp +contextual [hc]

@[simp] theorem State.form_routineLoad (qid seq : Nat) {s : State} (hc : MemsForm s.mems) :
    MemsForm (routineLoad qid seq s).mems := by
  unfold routineLoad
  split
  · dsimp only
    split
    · simp [hc]
    · split
      · simp [hc]
      · split
        · simp [hc]
        · exact State.form_feThen _ _ _ _ (fun u hu => by simp [hu]) hc
  · exact hc

@[simp] theorem State.form_catalogueUpdate (qid seq : Nat) {s : State} (hc : MemsForm s.mems) :
    MemsForm (catalogueUpdate qid seq s).mems := by
  unfold catalogueUpdate
  dsimp only
  (repeat' split) <;> simp [hc]

@[simp] theorem State.form_gridSignal {s : State} (asid : Nat) (va : DWord) (err : Bool) (msix : Option Nat) (hc : MemsForm
    s.mems) :
    MemsForm (s.gridSignal asid va err msix).mems := by
  unfold State.gridSignal
  (repeat' split) <;> simp [hc]

@[simp] theorem State.form_gridCompletion (g : Nat) {s : State} (hc : MemsForm s.mems) :
    MemsForm (gridCompletion g s).mems := by
  unfold gridCompletion
  split
  · exact hc
  · rename_i gr _
    split
    · simp [hc]
    · split
      · simp [hc]
      · have h1 (x : Option Nat) : MemsForm (((s.releaseLeases g).unmapStack g).gridSignal gr.asid
            (BitVec.ofNat 64 (field gr.packet 0x40 8)) gr.fault.isSome x).mems :=
          State.form_gridSignal _ _ _ _ (State.form_unmapStack _ ((State.mems_releaseLeases _ _).symm ▸ hc))
        dsimp only
        rw [State.mems_refreshFrz, State.mems_mk, State.eta_mems, State.mems_endPacket]
        split
        · exact State.form_queueError _ _ _ _ (h1 _)
        · exact h1 _

@[simp] theorem State.form_evReach {s : State} (hc : MemsForm s.mems) : MemsForm (s.evReach).1.mems := by
  unfold State.evReach
  dsimp only
  (repeat' split) <;> simp [hc]

@[simp] theorem State.form_evWrite {s : State} (ofs : Nat) (bs : List Byte) (hc : MemsForm s.mems) :
    MemsForm (s.evWrite ofs bs).mems := by
  unfold State.evWrite
  dsimp only
  (repeat' split) <;> simp [hc]

@[simp] theorem State.form_evPut {s : State} (e : EventRec) (hc : MemsForm s.mems) : MemsForm (s.evPut e).mems := by
  simp [State.evPut, hc]

@[simp] theorem State.form_evHold {s : State} (e : EventRec) (hc : MemsForm s.mems) : MemsForm (s.evHold e).mems := by
  unfold State.evHold
  dsimp only
  (repeat' split) <;> simp [hc]

@[simp] theorem State.form_eventRecordWrite (e : EventRec) {s : State} (hc : MemsForm s.mems) :
    MemsForm (eventRecordWrite e s).mems := by
  unfold eventRecordWrite
  split
  · split
    all_goals
      have h1 := MemsForm.of_fst ‹_› (State.form_evReach hc)
      simp [h1]
  · simp [hc]

@[simp] theorem State.form_evUnhold {s : State} (e : EventRec) (hc : MemsForm s.mems) : MemsForm (s.evUnhold e).mems := by
  unfold State.evUnhold
  split <;> simp [hc]

@[simp] theorem State.form_evRelease {s : State} (e : EventRec) (hc : MemsForm s.mems) : MemsForm (s.evRelease e).mems := by
  unfold State.evRelease
  split
  · exact hc
  · split
    all_goals
      have h1 := MemsForm.of_fst ‹_› (State.form_evReach hc)
      simp [h1]

@[simp] theorem State.form_evDrain {s : State} (hc : MemsForm s.mems) : MemsForm (s.evDrain).mems :=
  MemsForm.foldl (fun _ e hu => State.form_evRelease e hu) _ hc

@[simp] theorem State.form_eventRingSpace (rd : DWord) {s : State} (hc : MemsForm s.mems) :
    MemsForm (eventRingSpace rd s).mems := by
  simp [eventRingSpace, hc]

@[simp] theorem State.form_eventRingRestart (ctl : Bool) (value : DWord) {s : State} (hc : MemsForm s.mems) :
    MemsForm (eventRingRestart ctl value s).mems := by
  simp [eventRingRestart, hc]

@[simp] theorem State.form_remoteData {s : State} (p : Nat) (payload : List Byte) (hc : MemsForm s.mems) :
    MemsForm (s.remoteData p payload).mems := by
  unfold State.remoteData
  dsimp only
  (repeat' split) <;> simp +contextual [hc]

@[simp] theorem State.form_flitReceive (p : Nat) (f : Flit) {s : State} (hc : MemsForm s.mems) :
    MemsForm (flitReceive p f s).mems := by
  unfold flitReceive
  dsimp only
  (repeat' split) <;> simp [hc]

@[simp] theorem State.form_attestation {s : State} (hc : MemsForm s.mems) : MemsForm (attestation s).mems := by
  unfold attestation
  dsimp only
  (repeat' split) <;> simp [hc]

@[simp] theorem State.form_homeFor {s : State} (line die : Nat) (hc : MemsForm s.mems) :
    MemsForm (s.homeFor line die).mems := by
  simp [State.homeFor, hc]

@[simp] theorem State.form_hostStore {s : State} (pa : Nat) (bytes : List Byte) (hc : MemsForm s.mems) :
    MemsForm (s.hostStore pa bytes).mems := by
  simp [State.hostStore, hc]

@[simp] theorem State.form_pick {s0 : State} (core part : Nat) (hc : MemsForm s0.mems) :
    MemsForm (s0.pick core part).mems := by
  unfold State.pick
  dsimp only
  (repeat' split) <;> simp [hc]

@[simp] theorem State.form_prefetch {s : State} (asid gen die : Nat) (host : Bool) (va : DWord) (pa : Nat) (hc : MemsForm
    s.mems) :
    MemsForm (s.prefetch asid gen die host va pa).1.mems := by
  unfold State.prefetch
  dsimp only
  split
  · exact hc
  · split
    · simp [hc]
    · split
      · exact hc
      · exact State.form_waits ‹_› hc
      · have h1 := State.form_serve ‹_› hc
        split
        · exact State.form_readAt ‹_› h1
        · exact h1

@[simp] theorem State.form_pushTask {s : State} (g core : Nat) (bytes : List Byte) (hc : MemsForm s.mems) :
    MemsForm (s.pushTask g core bytes).mems := by
  simp [State.pushTask, hc]

@[simp] theorem State.form_recordReach {s : State} (t : TRef) (va : DWord) (hc : MemsForm s.mems) :
    MemsForm (s.recordReach t va).1.mems := by
  simp [State.recordReach, hc]

@[simp] theorem State.form_retReach {s : State} (t : TRef) (hc : MemsForm s.mems) : MemsForm (s.retReach t).1.mems := by
  simp [State.retReach, hc]

theorem State.form_retCheck {t : TRef} {x0 : Operands} {s : State} {s' : State} (hs : retCheck t x0 s = .ok s') (hc :
    MemsForm s.mems) :
    MemsForm s'.mems := by
  unfold retCheck at hs
  dsimp only at hs
  split at hs
  · cases hs
  · cases he : s.accessCheck t (s.thread t).sp 8 true false with
    | error r => rw [he] at hs; cases hs
    | ok s1 =>
      rw [he] at hs
      cases hs
      exact State.form_retReach t ((State.mems_accessCheck he).symm ▸ hc)

theorem State.form_retEff (t : TRef) (o : Operands) (s : State) :
    (retEff t o s).All fun s' => MemsForm s.mems → MemsForm s'.mems := by
  unfold retEff
  extract_lets th w
  refine Eff.all_ite trivial ?_
  split
  · trivial
  · extract_lets host pa target
    clear_value target
    refine Eff.all_ite trivial ?_
    refine Eff.all_ite (fun hc => ?_) trivial
    rw [State.mems_setThread]
    refine MemsForm.ite hc ?_
    rw [State.mems_observe]
    exact hc

@[simp] theorem State.form_retOp (i : Instr) {s : State} (hc : MemsForm s.mems) : MemsForm (retOp i s).mems :=
  MemRel.form.eachChecked (fun _ _ _ _ h => State.form_retCheck h) (fun t o s => State.form_retEff t o s) i s hc

theorem State.form_prefEff (f : Form) (t : TRef) (o : Operands) (s : State) :
    (prefEff f t o s).All fun s' => MemsForm s.mems → MemsForm s'.mems := by
  unfold prefEff
  dsimp only
  split
  · exact id
  · have h1 (hc : MemsForm s.mems) := (State.mems_accessCheck ‹_›).symm ▸ hc
    split
    · exact h1
    · split
      · exact h1
      · split
        · have h2 (hc : MemsForm s.mems) := MemsForm.of_fst ‹_› (State.form_prefetch _ _ _ _ _ _ (h1 hc))
          intro hc
          split <;> simp [h2 hc]
        · exact fun hc => MemsForm.of_fst ‹_› (State.form_prefetch _ _ _ _ _ _ (h1 hc))

@[simp] theorem State.form_prefOp (i : Instr) {s : State} (hc : MemsForm s.mems) : MemsForm (prefOp i s).mems :=
  MemRel.form.eachThread (fun t o s => State.form_prefEff i.form t o s) i s hc

theorem State.form_waitcmpEff (f : Form) (ms : TRef → State → List TRef) (t : TRef) (o : Operands) (s : State) :
    (waitcmpEff f ms t o s).All fun s' => MemsForm s.mems → MemsForm s'.mems := by
  unfold waitcmpEff
  dsimp only
  split
  · trivial
  · have h1 (hc : MemsForm s.mems) := (State.mems_accessCheck ‹_›).symm ▸ hc
    split
    · trivial
    · rename_i e _
      generalize (if f.x.ty = .u64 then 8 else 4) = n
      generalize waitKey (s.warp t.warp).asid f o e = key
      split
      · trivial
      · split
        · (repeat' split) <;> exact fun hc => by simp [h1 hc]
        · split
          · trivial
          · exact fun hc => State.form_waits ‹_› (h1 hc)
          · have h2 (hc : MemsForm s.mems) :=
              State.form_homeFor (key.pa / 128) (dieOfCore (s.warp t.warp).core) (State.form_serve ‹_› (h1 hc))
            split
            · exact fun hc => by simp [h2 hc]
            · split
              · exact fun hc => by simp [h2 hc]
              · split
                all_goals
                  intro hc
                  have h4 : MemsForm _ := MemsForm.of_snd ‹_› ((State.mems_armKey _ _ _ _).symm ▸ h2 hc)
                  exact (State.mems_parkCmp _ _ _ _ _ _ _ _).symm ▸ h4

@[simp] theorem State.form_waitcmpOp (i : Instr) {s : State} (hc : MemsForm s.mems) : MemsForm (waitcmpOp i s).mems := by
  unfold waitcmpOp
  dsimp only
  split
  · exact MemRel.form.eachThread (fun t o s => State.form_waitcmpEff _ _ t o s) i s hc
  · exact MemRel.form.onceFor (fun t o => State.form_waitcmpEff _ _ t o s) i hc

@[simp] theorem State.form_copyIssue (i : Instr) (kind : Nat) {s : State} (hc : MemsForm s.mems) :
    MemsForm (copyIssue i kind s).mems := by
  unfold copyIssue
  refine MemRel.form.onceFor (fun ld o => ?_) i hc
  extract_lets wp lanes op handle
  split
  rename_i s0 here hr
  have h0 (hs : MemsForm s.mems) : MemsForm s0.mems := by
    refine MemsForm.of_fst hr ?_
    split
    · exact State.form_catalogueReach _ _ hs
    · exact hs
  split
  · exact h0
  · split
    · trivial
    · have h1 (hs : MemsForm s.mems) := (State.mems_prepareCopy ‹_›).symm ▸ h0 hs
      extract_lets
      split
      · trivial
      · exact fun hs => (State.mems_acceptCopy _ _ _).symm ▸ h1 hs

@[simp] theorem State.form_fetchTaskOp (i : Instr) {s : State} (hc : MemsForm s.mems) :
    MemsForm (fetchTaskOp i s).mems := by
  unfold fetchTaskOp
  refine MemRel.form.onceFor (fun ld o => ?_) i hc
  dsimp only
  split
  · trivial
  · split
    · trivial
    · split <;> (intro hs; simp [hs])

@[simp] theorem State.form_enqtOp (i : Instr) {s0 : State} (hc : MemsForm s0.mems) : MemsForm (enqtOp i s0).mems := by
  unfold enqtOp
  extract_lets f acting
  split
  rename_i s here hr
  have h0 : MemsForm s.mems := by
    refine MemsForm.of_fst hr ?_
    refine MemsForm.foldl_fst (fun a t ha => ?_) _ hc
    exact State.form_recordReach _ _ ha
  extract_lets done room eff
  have he (t : TRef) (o : Operands) (u : State) : (eff t o u).All fun s' => MemsForm u.mems → MemsForm s'.mems := by
    unfold eff
    split
    · trivial
    · exact fun hu => State.form_dispatchAll _ (State.form_pushTask _ _ _ hu)
  split
  · exact MemRel.form.eachChecked (fun _ _ _ _ h hu => (State.mems_enqtCheck h).symm ▸ hu) he i s h0
  · refine MemRel.form.onceFor (fun ld o => ?_) i h0
    split
    · trivial
    · rename_i s1 h1
      refine (he _ _ s1).imp fun u hu hs => hu ?_
      rw [State.mems_enqtCheck h1]
      exact hs

end Sys2Proof.Machine
end

section
/-! SUPPORT. Every instruction, of a program or of the device, keeps the one form of the memories, and so does every step. -/

namespace Sys2Proof.Machine

set_option Elab.async false

@[simp] theorem form_coldReset {s : State} (hc : MemsForm s.mems) : MemsForm (coldReset s).mems := by
  have h0 : MemsForm ((State.reset).hbm, s.hostMem, (State.reset).lines) := ⟨rfl, hc.2⟩
  unfold coldReset
  dsimp only
  split
  · exact h0
  · split
    · exact h0
    · simpa using h0

@[simp] theorem mems_flush (b : Nat) (s : State) : (flush b s).mems = s.mems := by
  unfold flush
  split
  · rfl
  · split
    · rfl
    · dsimp only
      split
      · simp
      · rw [State.mems_askEstimator, State.mems_ite, State.mems_send, ite_self]
        simp

@[simp] theorem State.mems_nvcmdAttach (index : Nat) (s : State) : (nvcmdAttach index s).mems = s.mems := by
  unfold nvcmdAttach
  dsimp only
  split
  · simp
  · split <;> simp

@[simp] theorem State.mems_yieldEach (i : Instr) (s : State) : (s.eachThread i yieldEff).mems = s.mems :=
  MemRel.mems.eachThread (fun t o s => State.mems_yieldEff t o s) i s

@[simp] theorem State.mems_movqUnpackEach (i : Instr) (s : State) : (s.eachThread i movqUnpackEff).mems = s.mems :=
  MemRel.mems.eachThread (fun t o s => State.mems_movqUnpackEff t o s) i s

/-- Each instruction's meaning is a next state, and that state's memories are in their one form. -/
theorem exec_form (i : Instr) {s : State} (hc : MemsForm s.mems) : ∃ u, exec i s = .next u ∧ MemsForm u.mems := by
  cases i
  all_goals
    refine ⟨_, rfl, ?_⟩
    simp [hc]

/-- What a delivery answers keeps the form. -/
theorem deliver_form (m : Msg) {s : State} (hc : MemsForm s.mems) : ∃ u, deliver m s = .next u ∧ MemsForm u.mems := by
  cases m
  all_goals
    refine ⟨_, rfl, ?_⟩
    simp [hc]

theorem State.form_runIssue {s s' : State} {i : Issue} (h : s.runIssue i = .next s') (hc : MemsForm s.mems) :
    MemsForm s'.mems := by
  unfold State.runIssue at h
  split at h
  · cases h; exact hc
  · dsimp only at h
    split at h
    · cases h
      simp [hc, State.mems_foldl]
    · obtain ⟨u, hu, hf⟩ := exec_form _ (s := { s with issue := some _ }) hc
      rw [hu] at h
      cases h
      simpa using hf

theorem State.form_deliverAt {s s' : State} {n : Nat} (h : s.deliverAt n = .next s') (hc : MemsForm s.mems) :
    MemsForm s'.mems := by
  unfold State.deliverAt at h
  split at h
  · cases h; exact hc
  · rename_i m _
    split at h
    · cases h; exact hc
    · obtain ⟨u, hu, hf⟩ := deliver_form m (s := { s with net := s.net.eraseIdx n }) hc
      rw [hu] at h
      cases h
      simpa using hf

theorem State.form_clockMove {s s' : State} (h : s.clockMove = .next s') (hc : MemsForm s.mems) : MemsForm s'.mems := by
  unfold State.clockMove at h
  dsimp only at h
  split at h
  · cases h
  · cases h
    exact State.form_passClock hc

theorem State.form_take {s s' : State} {c : Choice} (h : s.take c = .next s') (hc : MemsForm s.mems) : MemsForm s'.mems := by
  cases c with
  | deliver n => exact State.form_deliverAt h hc
  | pick core part => cases h; exact State.form_pick core part hc
  | act m =>
    unfold State.take at h
    dsimp only at h
    split at h
    · obtain ⟨u, hu, hf⟩ := deliver_form m hc
      rw [hu] at h
      cases h
      simpa using hf
    · cases h; exact hc
  | hostWrite pa bytes => cases h; exact State.form_hostStore pa bytes hc
  | clock => exact State.form_clockMove h hc

/-- Settles O5: a step is an issue, a message delivered, a pick, an event of the surroundings or a clock, and each keeps the
form of both memories. -/
theorem stepKeepsCanonical : Obligations.StepKeepsCanonical := by
  intro s s' hc h
  unfold step at h
  split at h
  · exact State.form_runIssue h hc
  · split at h
    · exact State.form_take h hc
    · exact State.form_take h hc

end Sys2Proof.Machine
end

section
/-! SUPPORT. Accesses of a program (R77, R78, R209): the checks keep everything but the core's TLB. -/

namespace Sys2Proof.Machine

set_option Elab.async false

/-- Nothing differs but the TLBs of cores. -/
structure State.TlbOnly (s s1 : State) : Prop where
  rest : s1 = { s with cores := s1.cores }
  core : ∀ c, s1.core c = { s.core c with tlb := (s1.core c).tlb }

theorem State.TlbOnly.refl (s : State) : s.TlbOnly s := ⟨rfl, fun _ => rfl⟩

theorem State.tlbOnly_setCore (s : State) (c : Nat) (f : Core → Core) (hf : ∀ co, f co = { co with tlb := (f co).tlb }) :
    s.TlbOnly (s.setCore c f) := by
  refine ⟨rfl, fun j => ?_⟩
  rw [State.core_setCore]
  split
  · rename_i h; subst h; exact hf _
  · rfl

theorem State.walkFor_cores (s : State) (cs : Tab Core) (agent asid : Nat) (va : DWord) :
    ({ s with cores := cs } : State).walkFor agent asid va = s.walkFor agent asid va := rfl

theorem State.xlate_fst (s : State) (core asid : Nat) (va : DWord) : (s.xlate core asid va).1 = s.look core asid va := by
  unfold State.xlate State.look
  cases (s.core core).tlb.find? (s.tlbMatches core asid va) with
  | some e => rfl
  | none => cases s.walkFor core asid va <;> rfl

theorem State.tlbOnly_xlate (s : State) (core asid : Nat) (va : DWord) : s.TlbOnly (s.xlate core asid va).2 := by
  unfold State.xlate
  split
  · exact .refl s
  · split
    · exact s.tlbOnly_setCore core (fun c =>
        { c with tlb := if c.tlb.length < Config.tlbEntries then c.tlb ++ [_] else c.tlb.drop 1 ++ [_] }) fun _ => rfl
    · exact .refl s

/-- R77: the TLB of the core holds the translation that it was asked for. -/
theorem State.look_xlate (s : State) (core asid : Nat) (va : DWord) :
    (s.xlate core asid va).2.look core asid va = s.look core asid va := by
  cases hf : (s.core core).tlb.find? (s.tlbMatches core asid va) with
  | some e => simp only [State.xlate, hf]
  | none =>
    cases hw : s.walkFor core asid va with
    | none => simp only [State.xlate, hf, hw]
    | some e =>
      have hn : ∀ x ∈ (s.core core).tlb, s.tlbMatches core asid va x = false := by simpa using hf
      generalize hc : (fun c : Core =>
        { c with tlb := if c.tlb.length < Config.tlbEntries then c.tlb ++ [e] else c.tlb.drop 1 ++ [e] }) = g
      have hx : (s.xlate core asid va).2 = s.setCore core g := by simp only [State.xlate, hf, hw, hc]
      have hl : s.look core asid va = some e := by simp only [State.look, hf, hw]
      have hfind : ((g (s.core core)).tlb.find? (s.tlbMatches core asid va)) = if s.tlbMatches core asid va e then some e else none := by
        have hd : ∀ x ∈ (s.core core).tlb.drop 1, s.tlbMatches core asid va x = false :=
          fun x hx => hn x (List.mem_of_mem_drop hx)
        subst hc
        dsimp only
        split
        · rw [List.find?_append, hf, Option.none_or, List.find?_singleton]
        · rw [List.find?_append, List.find?_eq_none.mpr (by simpa using hd), Option.none_or, List.find?_singleton]
      have hm : (s.setCore core g).tlbMatches core asid va = s.tlbMatches core asid va := rfl
      have hk : (s.setCore core g).walkFor core asid va = s.walkFor core asid va := s.walkFor_cores _ core asid va
      rw [hx, hl, State.look, State.core_setCore, if_pos rfl, hm, hfind, hk, hw]
      by_cases h : s.tlbMatches core asid va e = true
      · rw [if_pos h]
      · rw [if_neg h]

theorem misaligned_iff (a n : Nat) : misaligned a n = true ↔ a % n ≠ 0 := by
  simp [misaligned]

theorem State.accessCheck_misaligned {s : State} {t : TRef} {va : DWord} {n : Nat} {r w : Bool} (h : va.toNat % n ≠ 0) :
    s.accessCheck t va n r w = .error (report clsMisaligned 0 va) := by
  unfold State.accessCheck
  rw [if_pos ((misaligned_iff _ _).mpr h)]

theorem State.accessCheck_refused {s : State} {t : TRef} {va : DWord} {n c : Nat} {r w : Bool} (h : va.toNat % n = 0)
    (hc : xlateCause (s.look (s.warp t.warp).core (s.warp t.warp).asid va) r w false = some c) :
    s.accessCheck t va n r w = .error (report clsLease c va) := by
  rw [← State.xlate_fst] at hc
  unfold State.accessCheck
  rw [if_neg (by rw [misaligned_iff]; exact not_not.mpr h)]
  simp only [hc]

theorem State.accessCheck_passed {s : State} {t : TRef} {va : DWord} {n : Nat} {r w : Bool} (h : va.toNat % n = 0)
    (hc : xlateCause (s.look (s.warp t.warp).core (s.warp t.warp).asid va) r w false = none) :
    s.accessCheck t va n r w = .ok (s.xlate (s.warp t.warp).core (s.warp t.warp).asid va).2 := by
  rw [← State.xlate_fst] at hc
  unfold State.accessCheck
  rw [if_neg (by rw [misaligned_iff]; exact not_not.mpr h)]
  simp only [hc]

/-- An access that passes its checks is aligned and translated, and nothing but the core's TLB changes. -/
theorem State.accessCheck_ok {s s1 : State} {t : TRef} {va : DWord} {n : Nat} {r w : Bool} (h : s.accessCheck t va n r w = .ok s1) :
    va.toNat % n = 0 ∧ s1 = (s.xlate (s.warp t.warp).core (s.warp t.warp).asid va).2 ∧
      s.TlbOnly s1 ∧ s1.look (s.warp t.warp).core (s.warp t.warp).asid va = s.look (s.warp t.warp).core (s.warp t.warp).asid va := by
  by_cases ha : va.toNat % n = 0
  · cases hc : xlateCause (s.look (s.warp t.warp).core (s.warp t.warp).asid va) r w false with
    | some c => rw [State.accessCheck_refused ha hc] at h; cases h
    | none =>
      rw [State.accessCheck_passed ha hc] at h
      cases h
      exact ⟨ha, rfl, s.tlbOnly_xlate _ _ _, s.look_xlate _ _ _⟩
  · rw [State.accessCheck_misaligned ha] at h
    cases h

theorem State.accessCheck_tlbOnly {s s1 : State} {t : TRef} {va : DWord} {n : Nat} {r w : Bool}
    (h : s.accessCheck t va n r w = .ok s1) : s.TlbOnly s1 := (State.accessCheck_ok h).2.2.1

/-- A thread that may issue may issue after a change of TLBs. -/
theorem State.TlbOnly.runs {s s1 : State} {t : TRef} {i : Instr} (h : s.TlbOnly s1) (hr : s.Runs t i) : s1.Runs t i := by
  rw [h.rest]
  exact ⟨hr.alone, ⟨hr.passes.holds, hr.passes.legal, hr.passes.guard, hr.passes.gate⟩, hr.free⟩

theorem State.TlbOnly.operands {s s1 : State} (h : s.TlbOnly s1) (t : TRef) (f : Form) : s1.operands t f = s.operands t f := by
  rw [h.rest]; rfl

theorem State.TlbOnly.warp {s s1 : State} (h : s.TlbOnly s1) (k : Nat) : s1.warp k = s.warp k := by
  rw [h.rest]; rfl

theorem State.TlbOnly.cur {s s1 : State} (h : s.TlbOnly s1) : s1.cur = s.cur := by
  rw [h.rest]; rfl

theorem xlateCause_denied {e : TlbEntry} {r w : Bool} (h : (r = true ∧ e.r = false) ∨ (w = true ∧ e.w = false)) :
    xlateCause (some e) r w false = some 2 := by
  obtain ⟨h1, h2⟩ | ⟨h1, h2⟩ := h <;> simp [xlateCause, h1, h2]

theorem xlateCause_allowed {e : TlbEntry} {r w : Bool} (hr : r = true → e.r = true) (hw : w = true → e.w = true) :
    xlateCause (some e) r w false = none := by
  cases r <;> cases w <;> simp_all [xlateCause]

theorem claim_accessChecks : Claim.AccessChecks := by
  intro s t va n r w core asid
  refine ⟨fun h => State.accessCheck_misaligned h, fun ha hl => ?_, fun e ha hl => ⟨fun hp => ?_, fun hr hw => ?_⟩⟩
  · exact State.accessCheck_refused ha (hl ▸ rfl)
  · exact State.accessCheck_refused ha (hl ▸ xlateCause_denied hp)
  · exact ⟨(s.xlate core asid va).2, State.accessCheck_passed ha (hl ▸ xlateCause_allowed hr hw),
      (s.tlbOnly_xlate _ _ _).rest, (s.tlbOnly_xlate _ _ _).core, (s.look_xlate _ _ _).trans hl⟩

/-! ## The instructions that access memory (R209 to R213) -/

theorem exec_ld {i : Instr} (h : (∃ g o a d, i = .ld g o a d) ∨ ∃ g x, i = .ldX g x) (s : State) : exec i s = .next (ldOp i s) := by
  rcases h with ⟨g, o, a, d, rfl⟩ | ⟨g, x, rfl⟩ <;> rfl

theorem exec_st {i : Instr} (h : (∃ g o a d, i = .st g o a d) ∨ ∃ g x, i = .stX g x) (s : State) : exec i s = .next (stOp i s) := by
  rcases h with ⟨g, o, a, d, rfl⟩ | ⟨g, x, rfl⟩ <;> rfl

theorem exec_lds {i : Instr} (h : (∃ g o a d, i = .lds g o a d) ∨ ∃ g x, i = .ldsX g x) (s : State) :
    exec i s = .next (ldsOp i s) := by
  rcases h with ⟨g, o, a, d, rfl⟩ | ⟨g, x, rfl⟩ <;> rfl

theorem exec_sts {i : Instr} (h : (∃ g o a d, i = .sts g o a d) ∨ ∃ g x, i = .stsX g x) (s : State) :
    exec i s = .next (stsOp i s) := by
  rcases h with ⟨g, o, a, d, rfl⟩ | ⟨g, x, rfl⟩ <;> rfl

theorem exec_ldc {i : Instr} (h : (∃ g o a d, i = .ldc g o a d) ∨ ∃ g x, i = .ldcX g x) (s : State) :
    exec i s = .next (ldcOp i s) := by
  rcases h with ⟨g, o, a, d, rfl⟩ | ⟨g, x, rfl⟩ <;> rfl

/-- A fault in the one thread that issues, where no set stands still with it. -/
theorem State.raiseAll_single (s : State) (t : TRef) (r : Report) : s.raiseAll [t] r false = s.raise t r := by
  simp [State.raiseAll]

/-- The check of an instruction at lane scope fails: the thread takes the fault and nothing else happens. -/
theorem State.eachChecked_raises {s : State} {t : TRef} {i : Instr} (h : s.Runs t i) (hl : i.form.g.scope = .lane)
    {chk : TRef → Operands → State → Except Report State} (eff : TRef → Operands → State → Eff) {r : Report}
    (hc : chk t (s.operands t i.form) s = .error r) : s.eachChecked i chk eff = (s.raise t r).finish i.form.opc [] := by
  rw [State.eachChecked_fails h eff hc, hl]
  exact congrArg (State.finish · _ _) (State.raiseAll_single s t r)

theorem State.ldsCheck_misaligned {s : State} {t : TRef} {sa n : Nat} (h : sa % n ≠ 0) :
    s.ldsCheck t sa n = .error (report clsMisaligned 0 (BitVec.ofNat 64 sa)) := by
  unfold State.ldsCheck
  rw [if_pos ((misaligned_iff _ _).mpr h)]

theorem State.constCheck_misaligned {s : State} {t : TRef} {ofs n : Nat} (h : ofs % n ≠ 0) :
    s.constCheck t ofs n = .error (report clsMisaligned 0 (BitVec.ofNat 64 ofs)) := by
  unfold State.constCheck
  dsimp only
  rw [if_pos ((misaligned_iff _ _).mpr h)]

theorem State.constCheck_beyond {s : State} {t : TRef} {ofs n : Nat} (ha : ofs % n = 0)
    (h : (s.grid (s.warp t.warp).grid).kernel.constSize < ofs + n) : s.constCheck t ofs n =
      .error (report clsLease 1 ((s.grid (s.warp t.warp).grid).kernel.constBase + BitVec.ofNat 64 ofs)) := by
  unfold State.constCheck
  dsimp only
  rw [if_neg (by rw [misaligned_iff]; exact not_not.mpr ha), if_pos h]

theorem ldcOp_raises {s : State} {t : TRef} {i : Instr} (h : s.Runs t i) (hl : i.form.g.scope = .lane) {r : Report}
    (hc : s.constCheck t (ea32 (s.operands t i.form)) (accessBytes i.form.x) = .error r) :
    ldcOp i s = (s.raise t r).finish i.form.opc [] := by
  unfold ldcOp
  dsimp only
  rw [if_pos hl]
  exact State.eachChecked_raises h hl _ (by rw [hc]; rfl)

theorem ldOp_misaligned {s : State} {t : TRef} {i : Instr} (h : s.Runs t i) (hl : i.form.g.scope = .lane)
    (ha : (ea64 (s.operands t i.form)).toNat % accessBytes i.form.x ≠ 0) :
    ldOp i s = (s.raise t (report clsMisaligned 0 (ea64 (s.operands t i.form)))).finish i.form.opc [] := by
  unfold ldOp
  dsimp only
  rw [if_pos hl]
  exact State.eachChecked_raises h hl _ (State.accessCheck_misaligned ha)

theorem stOp_misaligned {s : State} {t : TRef} {i : Instr} (h : s.Runs t i) (hl : i.form.g.scope = .lane)
    (ha : (ea64 (s.operands t i.form)).toNat % accessBytes i.form.x ≠ 0) :
    stOp i s = (s.raise t (report clsMisaligned 0 (ea64 (s.operands t i.form)))).finish i.form.opc [] := by
  unfold stOp
  exact State.eachChecked_raises h hl _ (State.accessCheck_misaligned ha)

theorem ldsOp_misaligned {s : State} {t : TRef} {i : Instr} (h : s.Runs t i) (hl : i.form.g.scope = .lane)
    (ha : ea32 (s.operands t i.form) % accessBytes i.form.x ≠ 0) :
    ldsOp i s = (s.raise t (report clsMisaligned 0 (BitVec.ofNat 64 (ea32 (s.operands t i.form))))).finish i.form.opc [] := by
  unfold ldsOp
  exact State.eachChecked_raises h hl _ (State.ldsCheck_misaligned ha)

theorem stsOp_misaligned {s : State} {t : TRef} {i : Instr} (h : s.Runs t i) (hl : i.form.g.scope = .lane)
    (ha : ea32 (s.operands t i.form) % accessBytes i.form.x ≠ 0) :
    stsOp i s = (s.raise t (report clsMisaligned 0 (BitVec.ofNat 64 (ea32 (s.operands t i.form))))).finish i.form.opc [] := by
  unfold stsOp
  exact State.eachChecked_raises h hl _ (State.ldsCheck_misaligned ha)

/-- Loads and stores of memory, by the address of 64 bits that they form. -/
theorem misaligned_global : ∀ (i : Instr) (s : State) (t : TRef), s.Runs t i → i.form.g.scope = .lane →
    (∃ g p a d, i = .ld g p a d) ∨ (∃ g x, i = .ldX g x) ∨ (∃ g p a d, i = .st g p a d) ∨ (∃ g x, i = .stX g x) →
    (ea64 (s.operands t i.form)).toNat % accessBytes i.form.x ≠ 0 →
    exec i s = .next ((s.raise t (report clsMisaligned 0 (ea64 (s.operands t i.form)))).finish i.form.opc []) := by
  rintro i s t h hl (hi | hi | hi | hi) ha
  · rw [exec_ld (.inl hi), ldOp_misaligned h hl ha]
  · rw [exec_ld (.inr hi), ldOp_misaligned h hl ha]
  · rw [exec_st (.inl hi), stOp_misaligned h hl ha]
  · rw [exec_st (.inr hi), stOp_misaligned h hl ha]

/-- Accesses of the scratchpad and the constant section, by the offset of 32 bits that they form. -/
theorem misaligned_local : ∀ (i : Instr) (s : State) (t : TRef), s.Runs t i → i.form.g.scope = .lane →
    (∃ g p a d, i = .lds g p a d) ∨ (∃ g x, i = .ldsX g x) ∨ (∃ g p a d, i = .sts g p a d) ∨ (∃ g x, i = .stsX g x) ∨
      (∃ g p a d, i = .ldc g p a d) ∨ (∃ g x, i = .ldcX g x) →
    ea32 (s.operands t i.form) % accessBytes i.form.x ≠ 0 →
    exec i s = .next ((s.raise t (report clsMisaligned 0 (BitVec.ofNat 64 (ea32 (s.operands t i.form))))).finish i.form.opc []) := by
  rintro i s t h hl (hi | hi | hi | hi | hi | hi) ha
  · rw [exec_lds (.inl hi), ldsOp_misaligned h hl ha]
  · rw [exec_lds (.inr hi), ldsOp_misaligned h hl ha]
  · rw [exec_sts (.inl hi), stsOp_misaligned h hl ha]
  · rw [exec_sts (.inr hi), stsOp_misaligned h hl ha]
  · rw [exec_ldc (.inl hi), ldcOp_raises h hl (State.constCheck_misaligned ha)]
  · rw [exec_ldc (.inr hi), ldcOp_raises h hl (State.constCheck_misaligned ha)]

theorem claim_accessFaults : Claim.AccessFaults := by
  refine ⟨fun i s t h hl => ⟨misaligned_global i s t h hl, misaligned_local i s t h hl⟩, fun i s t hi h hl => ?_⟩
  intro n o ofs k ha hk
  rw [exec_ldc hi, ldcOp_raises h hl (State.constCheck_beyond ha hk)]
  rfl

/-- Settles O29: alignment is checked first, then the translation; a check that fails ends the access in its thread. -/
theorem accessesChecked : Obligations.AccessesChecked := ⟨claim_accessChecks, claim_accessFaults⟩

end Sys2Proof.Machine
end

section
/-! SUPPORT. Loads and stores (R34, R209 to R213, R312): the way of a load that passes its checks, what a write-back puts into
the registers of its lane, and a store on its way. -/

namespace Sys2Proof.Machine

set_option Elab.async false

/-! ## Registers of a lane (R33, R34) -/

/-- A run of registers of one lane is empty or full, and no other register changes. -/
theorem Warp.isEmpty_markEmpty (w : Warp) (lane reg : Nat) (e : Bool) (hl : lane < 32) (hw : SMap.wf false w.empty = true) :
    (c : Nat) → SMap.wf false (w.markEmpty lane reg c e).empty = true ∧ ∀ l q, l < 32 →
      (w.markEmpty lane reg c e).isEmpty l q = if l = lane ∧ reg ≤ q ∧ q < reg + c then e else w.isEmpty l q
  | 0 => ⟨hw, fun l q _ => by rw [if_neg (by omega)]; rfl⟩
  | c + 1 => by
    obtain ⟨h1, h2⟩ := isEmpty_markEmpty w lane reg e hl hw c
    have hs : w.markEmpty lane reg (c + 1) e =
        { w.markEmpty lane reg c e with empty := SMap.set false (w.markEmpty lane reg c e).empty (32 * (reg + c) + lane) e } := by
      simp only [Warp.markEmpty, List.range_succ, List.foldl_append, List.foldl_cons, List.foldl_nil]
    rw [hs]
    refine ⟨SMap.wf_set h1 _ _, fun l q hq => ?_⟩
    have h3 := h2 l q hq
    simp only [Warp.isEmpty] at h3 ⊢
    rw [SMap.get_set_wf h1, h3]
    by_cases hk : 32 * q + l = 32 * (reg + c) + lane
    · rw [if_pos hk, if_pos (by omega)]
    · rw [if_neg hk]
      exact if_congr (by omega) rfl rfl

/-- Values put into a run of registers of one lane: nothing but the vector registers changes, and of them those of the run. -/
theorem Warp.putNow_vecs (w : Warp) (lane reg : Nat) (x : Nat → DWord) (hl : lane < 32) (hw : SMap.wf 0 w.regs = true) :
    (c : Nat) → ∃ m, ((List.range c).map fun i => ((.vec (reg + i) lane : RegKey), x i)).foldl (fun w k => w.putNow k.1 k.2) w =
        { w with regs := m } ∧ SMap.wf 0 m = true ∧ ∀ l q, l < 32 →
      SMap.get 0 m (32 * q + l) = if l = lane ∧ reg ≤ q ∧ q < reg + c then (x (q - reg)).setWidth 32 else w.vreg l q
  | 0 => ⟨w.regs, rfl, hw, fun l q _ => by rw [if_neg (by omega)]; rfl⟩
  | c + 1 => by
    obtain ⟨m, h0, h1, h2⟩ := putNow_vecs w lane reg x hl hw c
    refine ⟨SMap.set 0 m (32 * (reg + c) + lane) ((x c).setWidth 32), ?_, SMap.wf_set h1 _ _, fun l q hq => ?_⟩
    · rw [List.range_succ, List.map_append, List.foldl_append, h0]
      rfl
    · rw [SMap.get_set_wf h1, h2 l q hq]
      by_cases hk : 32 * q + l = 32 * (reg + c) + lane
      · rw [if_pos hk, if_pos (by omega), show q - reg = c by omega]
      · rw [if_neg hk]
        exact if_congr (by omega) rfl rfl

/-! ## Loads on their way (R210, R213) -/

theorem loadEff_starts {f : Form} {va : DWord} {n : Nat} {ca : Bool} {t : TRef} {s : State} (h : s.loadWaits t va n = false) :
    loadEff f va n ca t s = .done (((s.setWarp t.warp fun w =>
      w.markEmpty t.lane f.x.dst.num.toNat (opRule f.opc f.g f.x).d.regs true).fresh).startLoad t s.nextId va n f.x.ty ca
        (.vec f.x.dst.num.toNat (opRule f.opc f.g f.x).d.regs)) := by
  unfold loadEff
  rw [if_neg (by simp [h])]

theorem loadUniform_starts {f : Form} {va : DWord} {n : Nat} {ca : Bool} {ld : TRef} {s : State}
    (h : s.loadWaits ld va n = false) :
    loadUniform f va n ca ld s = .held ((s.fresh.park (.uniform s.nextId) ld.warp s.cur.group).startLoad ld s.nextId va n f.x.ty ca
      (.uni (f.x.dst.num.toNat % 32))) := by
  unfold loadUniform
  rw [if_neg (by simp [h])]

theorem State.constCheck_ok {s s1 : State} {t : TRef} {ofs n : Nat} {va : DWord} (h : s.constCheck t ofs n = .ok (s1, va)) :
    s.accessCheck t va n true false = .ok s1 ∧ va = (s.grid (s.warp t.warp).grid).kernel.constBase + BitVec.ofNat 64 ofs := by
  unfold State.constCheck at h
  dsimp only at h
  split at h
  · cases h
  · split at h
    · cases h
    · split at h
      · cases h
      · cases h
        exact ⟨‹_›, rfl⟩

theorem claim_loadsComplete : Claim.LoadsComplete := by
  refine ⟨fun i hi => ⟨fun s s1 t hl h hc hw => ?_, fun s s1 ts hl h hc hw => ?_⟩,
    fun i hi => ⟨fun s s1 va t hl h hc hw => ?_, fun s s1 va ts hl h hc hw => ?_⟩⟩
  · have ht := State.accessCheck_tlbOnly hc
    have ho := ht.operands t i.form
    rw [exec_ld hi, ldOp, if_pos hl, State.eachChecked_runs h _ hc (ht.runs h)]
    have he := loadEff_starts (f := i.form) (ca := !i.form.x.sub.getLsbD 2) hw
    rw [ho, ea64, he]
    simp only [Eff.alone, ht.cur]
  · rw [exec_ld hi, ldOp, if_neg hl, State.onceFor_runs h]
    have he := loadUniform_starts (f := i.form) (ca := !i.form.x.sub.getLsbD 2) hw
    simp only [ea64, hc, he, Eff.once, (State.accessCheck_tlbOnly hc).cur, h.group]
  · obtain ⟨ha, hv⟩ := State.constCheck_ok hc
    have ht := State.accessCheck_tlbOnly ha
    have ho := ht.operands t i.form
    have hm : (s.constCheck t (ea32 (s.operands t i.form)) (accessBytes i.form.x)).map (·.1) = .ok s1 := by
      rw [ea32, hc]; rfl
    have hg : (s1.grid (s1.warp t.warp).grid).kernel.constBase + BitVec.ofNat 64 (ea32 (s.operands t i.form)) = va := by
      rw [hv, ht.rest]; rfl
    refine ⟨hv, ?_⟩
    have he := loadEff_starts (f := i.form) (ca := true) hw
    rw [exec_ldc hi]
    unfold ldcOp
    dsimp only
    rw [if_pos hl, State.eachChecked_runs h _ hm (ht.runs h), ho, hg, he]
    simp only [Eff.alone, ht.cur]
  · obtain ⟨ha, hv⟩ := State.constCheck_ok hc
    rw [exec_ldc hi]
    unfold ldcOp
    dsimp only
    rw [if_neg hl, State.onceFor_runs h]
    have he := loadUniform_starts (f := i.form) (ca := true) hw
    simp only [ea32, hc, he, Eff.once, (State.accessCheck_tlbOnly ha).cur, h.group]

theorem State.loaded_clean {s : State} {r : ReadReq} (h : r.raced = false) (d : LineData) : s.loaded r d =
    s.send (.vclassWriteBack ⟨r.id, r.warp, r.lane, r.dst, .value (loadWiden r.ty r.bytes (lineGet d (r.pa % 128) r.bytes)), r.insn, 0⟩) := by
  unfold State.loaded
  rw [h]
  rfl

/-- What a read brings to the L1 sends no message. -/
theorem State.readDone_clean {s : State} {r : ReadReq} (h : r.raced = false) (d : LineData) : (s.readDone r d).net = s.net ++
    [.vclassWriteBack ⟨r.id, r.warp, r.lane, r.dst, .value (loadWiden r.ty r.bytes (lineGet d (r.pa % 128) r.bytes)), r.insn, 0⟩] := by
  unfold State.readDone
  dsimp only
  rw [State.loaded_clean h]
  split <;> rfl

theorem claim_loadPaths : Claim.LoadPaths := by
  intro s t id va n ty ca dst e wp gen hl pa host s0 hit copy back goes
  refine ⟨fun hr => ?_, fun hr => ⟨fun hn => ⟨fun d hd => ?_, fun c hh hc => ⟨_, rfl, ?_⟩⟩, fun hh hc => ?_⟩⟩
  all_goals
    unfold State.startLoad
    simp only [wp, host, pa] at hl hr
    simp only [hl, TlbEntry.at, hr, if_true, Bool.false_eq_true, if_false]
  · rfl
  · simp only [hit, wp, gen, host, pa] at hd
    simp only [hd]
    exact State.loaded_clean hn d
  · simp only [hit, copy, wp, gen, host, pa] at hh hc
    simp only [hh, hc]
    exact State.readDone_clean hn c.data
  · simp only [hit, copy, wp, gen, host, pa] at hh hc
    simp only [hh, hc]
    rfl

theorem claim_writeBackLands : Claim.WriteBackLands := by
  intro wb s v w r c hsrc hdst hf hl hc hr he
  obtain ⟨m, hm, hmw, hmv⟩ := Warp.putNow_vecs { w with inFlight := w.inFlight - 1 } wb.lane r
    (fun i => (v.extractLsb' (32 * i) 32).setWidth 64) hl hr c
  generalize hw1 : ({ w with inFlight := w.inFlight - 1, regs := m } : Warp) = w1 at hm
  have he1 : SMap.wf false w1.empty = true := by subst hw1; exact he
  obtain ⟨-, hev⟩ := Warp.isEmpty_markEmpty w1 wb.lane r false hl he1 c
  have hw : s.warp wb.warp = w := by simp [State.warp, hf]
  have hx : exec (.vclassWriteBack wb) s = .next (s.putBack wb v) := by
    show Host.Outcome.next (vclassWriteBack wb s) = _
    simp only [vclassWriteBack, hsrc]
  generalize hp : s.putBack wb v = s' at hx
  have hrest : s' = { s with warps := s'.warps } := by
    subst hp
    simp only [State.putBack, hdst]
    rfl
  have hwarp (k : Nat) : s'.warp k = if k = wb.warp then w1.markEmpty wb.lane r c false else s.warp k := by
    subst hp
    simp only [State.putBack, hdst, State.writeNow, State.warp_setWarp, State.setWarp_warps]
    by_cases hk : k = wb.warp
    · subst hk
      simp [hf, hw, hm]
    · simp [hk]
  have hself : s'.warp wb.warp = w1.markEmpty wb.lane r c false := by rw [hwarp, if_pos rfl]
  have hfr := Warp.markEmpty_frame w1 wb.lane r c false
  have hregs : (w1.markEmpty wb.lane r c false).regs = m := by rw [hfr, ← hw1]
  refine ⟨s', hx, fun i hi => ⟨?_, ?_⟩, ?_, fun l q hq hn => ⟨?_, ?_⟩, ?_, ?_, fun k hk => by rw [hwarp, if_neg hk], hrest⟩
  · rw [hself, Warp.vreg, hregs, hmv _ _ hl, if_pos (by omega), Nat.add_sub_cancel_left, BitVec.setWidth_setWidth_of_le _ (by omega),
      BitVec.setWidth_eq]
  · rw [hself, hev _ _ hl, if_pos (by omega)]
  · rw [hself, hfr, ← hw1]
  · rw [hself, Warp.vreg, hregs, hmv _ _ hq, if_neg hn]
    rfl
  · rw [hself, hev _ _ hq, if_neg hn, ← hw1]
    rfl
  · rw [hself, hfr, ← hw1]
  · rw [hself, hfr, ← hw1]

/-- Settles O27: a load that passes its checks starts at once; its bytes come by one of four ways and land in its registers. -/
theorem loadsReturn : Obligations.LoadsReturn := ⟨claim_loadsComplete, claim_loadPaths, claim_writeBackLands⟩

/-! ## Stores (R210, R312) -/

theorem State.TlbOnly.dataOf {s s1 : State} (h : s.TlbOnly s1) (t : TRef) (src : Src) (regs : Nat) :
    s1.dataOf t src regs = s.dataOf t src regs := by
  rw [h.rest]; rfl

/-- A store on its way, where its address is translated. -/
theorem State.startStore_sends {s : State} {t : TRef} {va : DWord} {e : TlbEntry} (n data : Nat)
    (hl : s.look (s.warp t.warp).core (s.warp t.warp).asid va = some e) :
    s.startStore t va n data = State.send
      { s.fresh.setWarp t.warp (fun w => { w with stores := w.stores ++ [⟨s.nextId, t.lane, e.tgt == 1, e.at va, n, .blk,
          s.genAt (s.warp t.warp).core (s.warp t.warp).asid, false, false⟩] }) with
        copies := if e.tgt == 1 then s.copies
          else s.copies.filter fun c => !(c.die == dieOfCore (s.warp t.warp).core && c.line == e.at va / 128) }
      (.sliceWrite ⟨.store t.warp t.lane s.nextId, (s.warp t.warp).core, (s.warp t.warp).asid,
        s.genAt (s.warp t.warp).core (s.warp t.warp).asid, va, e.at va, e.tgt == 1, n, BitVec.ofNat 128 data, s.cur.num⟩) := by
  unfold State.startStore
  simp only [hl]
  split <;> rfl

theorem State.Holds.found {s : State} {t : TRef} (h : s.Holds t) : (Tab.find s.warps t.warp).isSome = true := by
  obtain ⟨w, hw, -⟩ := h
  rw [hw]; rfl

/-- Settles O28: a store that passes its checks leaves as one message, and its warp remembers it. -/
theorem storesComplete : Obligations.StoresComplete := by
  intro i hi f n s s1 t e h o va wp data hc hl pa
  have ht := State.accessCheck_tlbOnly hc
  have hl1 : s1.look (s1.warp t.warp).core (s1.warp t.warp).asid va = some e := by rw [ht.warp]; exact hl
  have hs := State.startStore_sends n data hl1
  have hn : s1.nextId = s.nextId ∧ s1.net = s.net ∧
      s1.genAt (s1.warp t.warp).core (s1.warp t.warp).asid = s.genAt wp.core wp.asid := by
    rw [ht.rest]; exact ⟨rfl, rfl, rfl⟩
  obtain ⟨hid, hnet, hgen⟩ := hn
  refine ⟨?_, ?_, ?_, fun hh c hcm => ?_⟩
  · have hx : stOp i s = (s1.startStore t va n data).retire [t] i s.cur.next := by
      unfold stOp
      dsimp only
      rw [State.eachChecked_runs h _ hc (ht.runs h), ht.operands, ht.dataOf]
      simp only [Eff.alone, ht.cur]
      rfl
    rw [exec_st hi, hx]
  · rw [hs, hid, hgen, ht.warp, ht.cur]
    exact congrArg (· ++ _) hnet
  · rw [hs, hid, hgen]
    have hw := State.warp_setWarp s1.fresh t.warp t.warp fun w => { w with stores := w.stores ++
      [⟨s.nextId, t.lane, e.tgt == 1, e.at va, n, .blk, s.genAt wp.core wp.asid, false, false⟩] }
    have hf : (Tab.find s1.fresh.warps t.warp).isSome = true := (ht.runs h).passes.holds.found
    rw [if_pos ⟨rfl, hf⟩] at hw
    refine (congrArg Warp.stores hw).trans ?_
    exact congrArg (fun w : Warp => w.stores ++ _) (ht.warp t.warp)
  · rw [hs, ht.warp] at hcm
    have hcm' := hcm
    simp only [State.send, beq_iff_eq, hh, if_false] at hcm'
    rintro ⟨h1, h2⟩
    have := (List.mem_filter.mp hcm').2
    simp [h1, h2, pa, wp] at this

end Sys2Proof.Machine
end

section
/-! SUPPORT. The scratchpad (R196, R198, R212): LDS and STS in their thread, and the bytes and touched lines of a write. -/

namespace Sys2Proof.Machine

set_option Elab.async false

/-- Bytes put into a scratchpad: those of the run change, and the lines they lie on are touched. -/
theorem Block.put_spec (place : Nat) : (bs : List Byte) → (b : Block) → (ofs : Nat) → SMap.wf 0 b.bytes = true →
    SMap.wf false b.touched = true → place < 8 → ofs + bs.length ≤ 2 ^ 21 →
    (∀ p a, p < 8 → a < 2 ^ 21 → (b.put place ofs bs).byte p a =
      if p = place ∧ ofs ≤ a ∧ a < ofs + bs.length then bs.getD (a - ofs) 0 else b.byte p a) ∧
    (∀ k, SMap.get false (b.put place ofs bs).touched k = true ↔ SMap.get false b.touched k = true ∨
      ∃ j, j < bs.length ∧ k = place * 2 ^ 14 + (ofs + j) / 128)
  | [], b, ofs, _, _, _, _ => by
    refine ⟨fun p a _ _ => ?_, fun k => ?_⟩
    · rw [if_neg (by simp only [List.length_nil]; omega)]; rfl
    · simp [Block.put]
  | v :: rest, b, ofs, hb, ht, hp, hl => by
    simp only [List.length_cons] at hl ⊢
    generalize hb1 : ({ b with
      qcws := SMap.set false b.qcws (place * 2 ^ 21 + ofs / 16 * 16) false
      bytes := SMap.set 0 b.bytes (place * 2 ^ 21 + ofs) v
      touched := SMap.set false b.touched (place * 2 ^ 14 + ofs / 128) true } : Block) = b1
    have hput : b.put place ofs (v :: rest) = b1.put place (ofs + 1) rest := by subst hb1; rfl
    have hbyte (p a : Nat) : b1.byte p a = if p * 2 ^ 21 + a = place * 2 ^ 21 + ofs then v else b.byte p a := by
      subst hb1; exact SMap.get_set_wf hb _ _ _
    have htouch (k : Nat) : SMap.get false b1.touched k = if k = place * 2 ^ 14 + ofs / 128 then true else SMap.get false b.touched k := by
      subst hb1; exact SMap.get_set_wf ht _ _ _
    obtain ⟨h1, h2⟩ := put_spec place rest b1 (ofs + 1) (by subst hb1; exact SMap.wf_set hb _ _)
      (by subst hb1; exact SMap.wf_set ht _ _) hp (by omega)
    rw [hput]
    refine ⟨fun p a hp8 ha => ?_, fun k => ?_⟩
    · rw [h1 p a hp8 ha, hbyte]
      by_cases hin : p = place ∧ ofs + 1 ≤ a ∧ a < ofs + 1 + rest.length
      · rw [if_pos hin, if_pos (by omega), show a - ofs = a - (ofs + 1) + 1 by omega, List.getD_cons_succ]
      · rw [if_neg hin]
        by_cases he : p * 2 ^ 21 + a = place * 2 ^ 21 + ofs
        · rw [if_pos he, if_pos (by omega), show a - ofs = 0 by omega, List.getD_cons_zero]
        · rw [if_neg he, if_neg (by omega)]
    · rw [h2 k, htouch]
      constructor
      · rintro (h | ⟨j, hj, rfl⟩)
        · split at h
          · exact .inr ⟨0, by omega, ‹_›⟩
          · exact .inl h
        · exact .inr ⟨j + 1, by omega, by rw [show ofs + 1 + j = ofs + (j + 1) by omega]⟩
      · rintro (h | ⟨j, hj, rfl⟩)
        · exact .inl (by rw [h]; simp)
        · cases j with
          | zero => exact .inl (if_pos rfl)
          | succ j => exact .inr ⟨j, by omega, by rw [show ofs + 1 + j = ofs + (j + 1) by omega]⟩

theorem leBytes_length : (n v : Nat) → (leBytes n v).length = n
  | 0, _ => rfl
  | n + 1, v => congrArg (· + 1) (leBytes_length n (v / 256))

/-- An access inside the block's scratchpad that no other warp's buffer holds passes the checks. -/
theorem State.ldsCheck_ok {s : State} {t : TRef} {sa n : Nat} {p : SaPlace} (ha : sa % n = 0)
    (hp : s.saPlace t.warp sa n = .ok p) (ho : s.saOwned (s.warp t.warp).block [t.warp] p n = true) :
    s.ldsCheck t sa n = .ok s := by
  unfold State.ldsCheck
  rw [if_neg (by rw [misaligned_iff]; exact not_not.mpr ha)]
  simp only [State.saCheck, hp, ho, if_true]

/-- Settles O30: the access is made as it issues, and its result or its bytes are where the place says. -/
theorem scratchpadAccess : Obligations.ScratchpadAccess := by
  refine ⟨fun i hi s t p h => ?_, fun i hi s t p h => ?_,
    fun b place ofs bs hb ht hp hl => Block.put_spec place bs b ofs hb ht hp hl⟩
  · intro f n o sa d regs ha hp ho vs
    refine ⟨?_, fun hr => ?_, fun hr => ?_⟩
    · have hx : ldsOp i s = _ := State.eachChecked_runs h (chk := fun t o s => s.ldsCheck t (ea32 o) n) _
        (State.ldsCheck_ok ha hp ho) h
      rw [exec_lds hi, hx]
      have hp' : s.saPlace t.warp (ea32 (s.operands t i.form)) (accessBytes i.form.x) = .ok p := hp
      simp only [hp', Eff.alone]
      rfl
    · simp only [vs, State.ldsValue, hr, Bool.false_eq_true, if_false]
      rfl
    · simp only [vs, State.ldsValue, hr, if_true]
      rfl
  · intro f n o sa ha hp ho
    have hx : stsOp i s = _ := State.eachChecked_runs h (chk := fun t o s => s.ldsCheck t (ea32 o) n) _
      (State.ldsCheck_ok ha hp ho) h
    rw [exec_sts hi, hx]
    have hp' : s.saPlace t.warp (ea32 (s.operands t i.form)) (accessBytes i.form.x) = .ok p := hp
    simp only [hp', Eff.alone, State.setScratch, State.scratchWrite, leBytes_length]
    rfl

end Sys2Proof.Machine
end

section
/-! SUPPORT. The cache hints (R217, R218): PREF and CINV in their thread. -/

namespace Sys2Proof.Machine

set_option Elab.async false

theorem exec_pref {i : Instr} (h : (∃ g c a, i = .pref g c a) ∨ ∃ g x, i = .prefX g x) (s : State) : exec i s = .next (prefOp i s) := by
  rcases h with ⟨g, c, a, rfl⟩ | ⟨g, x, rfl⟩ <;> rfl

theorem exec_cinv {i : Instr} (h : (∃ g c a, i = .cinv g c a) ∨ ∃ g x, i = .cinvX g x) (s : State) : exec i s = .next (cinvOp i s) := by
  rcases h with ⟨g, c, a, rfl⟩ | ⟨g, x, rfl⟩ <;> rfl

/-- PREF whose thread is done with a state leaves it there. -/
theorem exec_pref_done {i : Instr} (hi : (∃ g c a, i = .pref g c a) ∨ ∃ g x, i = .prefX g x) {s s' : State} {t : TRef}
    (h : s.Runs t i) (he : prefEff i.form t (s.operands t i.form) s = .done s') :
    exec i s = .next (s'.retire [t] i s.cur.next) := by
  rw [exec_pref hi, prefOp, State.eachThread_runs h, he]
  rfl

theorem exec_cinv_done {i : Instr} (hi : (∃ g c a, i = .cinv g c a) ∨ ∃ g x, i = .cinvX g x) {s s' : State} {t : TRef}
    (h : s.Runs t i) (he : cinvEff i.form t (s.operands t i.form) s = .done s') :
    exec i s = .next (s'.retire [t] i s.cur.next) := by
  rw [exec_cinv hi, cinvOp, State.eachThread_runs h, he]
  rfl

/-- A line that was put into an L1 is found there. -/
theorem State.l1Hit_l1Fill (s : State) (core asid gen : Nat) (host : Bool) (line : Nat) (d : LineData) :
    (s.l1Fill core asid gen host line d).l1Hit core asid gen host line = some d := by
  unfold State.l1Hit State.l1Fill
  rw [State.core_setCore, if_pos rfl]
  dsimp only
  generalize hr : (s.core core).l1.filter (fun l => !(l.asid == asid && l.gen == gen && l.host == host && l.line == line)) = rest
  have hn : ∀ l ∈ rest, (l.asid == asid && l.gen == gen && l.host == host && l.line == line) = false := by
    subst hr
    intro l hl
    simpa only [Bool.not_eq_true', Bool.not_eq_eq_eq_not, Bool.not_true] using (List.mem_filter.mp hl).2
  generalize hq : (if rest.length < l1Lines then rest else rest.drop 1) = kept
  have hk : kept.find? (fun l => l.asid == asid && l.gen == gen && l.host == host && l.line == line) = none := by
    refine List.find?_eq_none.mpr fun l hl => ?_
    have hm : l ∈ rest := by
      subst hq
      split at hl
      · exact hl
      · exact List.mem_of_mem_drop hl
    rw [hn l hm]
    exact Bool.false_ne_true
  rw [List.find?_append, hk]
  simp

/-- A counter of a die does not change its time. -/
theorem State.common_countSlice (s : State) (d k j : Nat) : (s.countSlice d k).common j = s.common j := by
  have hc : ((s.countSlice d k).die j).common = (s.die j).common ∧ ((s.countSlice d k).die j).cnt = (s.die j).cnt := by
    simp only [State.countSlice, State.die, State.setDie_dies, Tab.find_upd]
    cases Tab.find s.dies j with
    | none => simp
    | some v =>
      by_cases hj : j = d
      · subst hj
        exact ⟨by simp only [if_true]; rfl, by simp⟩
      · simp [hj]
  unfold State.common
  rw [hc.1, hc.2]

/-- R104: what the home grants is a copy of the line as it is there, for the lease length. -/
theorem State.grantCopy_copies {s s' : State} {line die : Nat} (h : s.grantCopy line die = some s') :
    ∃ c ∈ s'.copies, c.die = die ∧ c.line = line ∧ c.data = (s'.homeLine line).data ∧
      c.expiry = s'.homeTime line + max 256 (min 16000 s'.mem.lease) := by
  unfold State.grantCopy at h
  obtain ⟨s0, -, rfl⟩ := Option.map_eq_some_iff.mp h
  refine ⟨⟨die, line, (s0.homeLine line).data, s0.homeTime line + s0.leaseLen⟩, ?_, rfl, rfl, ?_, ?_⟩
  · exact List.mem_append_right _ (List.mem_singleton.mpr rfl)
  · simp only [State.homeLine, State.send_lines, State.countSlice, State.setDie_lines, State.setLine_lines, Tab.find_put_self]
    rfl
  · simp only [State.homeTime]
    exact congrArg (fun x : DWord => x.toNat + s0.leaseLen) (State.common_countSlice _ _ _ _).symm

section
variable {f : Form} {t : TRef} {o : Operands} {s s1 : State} {e : TlbEntry}
  (hc : s.accessCheck t (ea64 o) 4 true false = .ok s1) (hl : s1.look (s.warp t.warp).core (s.warp t.warp).asid (ea64 o) = some e)
include hc hl

/-- PREF of a line that is in the L1 already. -/
theorem prefEff_hit (hs : f.x.sub = 0) (hh : (s1.l1Hit (s.warp t.warp).core (s.warp t.warp).asid
    (s1.genAt (s.warp t.warp).core (s.warp t.warp).asid) (e.tgt == 1) (e.at (ea64 o) / 128)).isSome = true) :
    prefEff f t o s = .done s1 := by
  have ht := State.accessCheck_tlbOnly hc
  simp only [prefEff, hc, ht.warp, hl, hs, hh, decide_true, Bool.and_self, if_true]

variable (hh : f.x.sub = 0 → s1.l1Hit (s.warp t.warp).core (s.warp t.warp).asid
    (s1.genAt (s.warp t.warp).core (s.warp t.warp).asid) (e.tgt == 1) (e.at (ea64 o) / 128) = none)
include hh

/-- PREF is done with what its fetch brings: without bytes as the fetch leaves the state. -/
theorem prefEff_nothing {s2 : State} (hp : s1.prefetch (s.warp t.warp).asid (s1.genAt (s.warp t.warp).core (s.warp t.warp).asid)
    (dieOfCore (s.warp t.warp).core) (e.tgt == 1) (ea64 o) (e.at (ea64 o)) = (s2, none)) : prefEff f t o s = .done s2 := by
  have ht := State.accessCheck_tlbOnly hc
  have hb : (decide (f.x.sub = 0) && (s1.l1Hit (s.warp t.warp).core (s.warp t.warp).asid
      (s1.genAt (s.warp t.warp).core (s.warp t.warp).asid) (e.tgt == 1) (e.at (ea64 o) / 128)).isSome) = false := by
    simpa using hh
  simp only [prefEff, hc, ht.warp, hl, hb, Bool.false_eq_true, if_false, hp]

/-- With bytes, the L1 takes them for .keep where no write of the core is on its way to the line. -/
theorem prefEff_brings {s2 : State} {d : LineData} (hp : s1.prefetch (s.warp t.warp).asid
    (s1.genAt (s.warp t.warp).core (s.warp t.warp).asid) (dieOfCore (s.warp t.warp).core) (e.tgt == 1) (ea64 o)
    (e.at (ea64 o)) = (s2, some d)) : prefEff f t o s =
      .done (if f.x.sub = 0 && !s2.writing (s.warp t.warp).core (e.tgt == 1) (e.at (ea64 o) / 128) then
        s2.l1Fill (s.warp t.warp).core (s.warp t.warp).asid (s1.genAt (s.warp t.warp).core (s.warp t.warp).asid) (e.tgt == 1)
          (e.at (ea64 o) / 128) d else s2) := by
  have ht := State.accessCheck_tlbOnly hc
  have hb : (decide (f.x.sub = 0) && (s1.l1Hit (s.warp t.warp).core (s.warp t.warp).asid
      (s1.genAt (s.warp t.warp).core (s.warp t.warp).asid) (e.tgt == 1) (e.at (ea64 o) / 128)).isSome) = false := by
    simpa using hh
  simp only [prefEff, hc, ht.warp, hl, hb, Bool.false_eq_true, if_false, hp]

end

/-- R103: a fetch whose home grants a copy brings the line as the home has it. -/
theorem State.prefetch_granted {s s2 s4 : State} {asid gen die pa : Nat} {va : DWord} (hn : s.copyAt die (pa / 128) = none)
    (hf : s.frameCheck asid gen pa false = .serve s2)
    (hg : (((s2.reachHome (pa / 128) die).askDegree (homeSlice (pa / 128)) asid (regionOf va)).countRegion asid va 1 0 0).mayGrant asid
      (regionOf va) (pa / 128) die ((((s2.reachHome (pa / 128) die).askDegree (homeSlice (pa / 128)) asid
        (regionOf va)).countRegion asid va 1 0 0).homeLine (pa / 128)) = true)
    (h4 : (((s2.reachHome (pa / 128) die).askDegree (homeSlice (pa / 128)) asid (regionOf va)).countRegion asid va 1 0 0).grantCopy
      (pa / 128) die = some s4) : s.prefetch asid gen die false va pa = (s4, some (s4.homeLine (pa / 128)).value) := by
  have hd : die ≠ homeDie (pa / 128) := by
    intro h
    simp [State.mayGrant, h] at hg
  have hr : s2.readAt asid va (pa / 128) die = some s4 := by
    simp only [State.readAt, hd, if_false, hg, if_true, h4]
  simp only [State.prefetch, hn, hf, hr, Bool.false_eq_true, if_false]

/-- Settles O32: PREF is done with what its fetch brings, and CINV with what is left of the L1. -/
theorem cacheHints : Obligations.CacheHints := by
  refine ⟨fun i hi s t h => ?_, fun i hi s t h => ?_, fun s c gone => ?_⟩
  · intro f o va wp
    refine ⟨fun r hr => ?_, fun s1 e hc hl => ?_⟩
    · refine exec_pref_done hi h ?_
      have hr' : s.accessCheck t (ea64 (s.operands t i.form)) 4 true false = .error r := hr
      simp only [prefEff, hr']
    · intro host line die gen
      refine ⟨fun hs hh => ?_, fun s2 hp hh => ?_, fun s2 d hp => ⟨fun hs => ?_, fun hs hh => ⟨fun hw => ?_, fun hw => ⟨?_, ?_⟩⟩⟩,
        fun s2 s4 hn hcp hf => ?_⟩
      · exact exec_pref_done hi h (prefEff_hit hc hl hs hh)
      · exact exec_pref_done hi h (prefEff_nothing hc hl hh hp)
      · refine exec_pref_done hi h ((prefEff_brings hc hl (fun h0 => absurd h0 hs) hp).trans (congrArg Eff.done (if_neg ?_)))
        rw [decide_eq_false hs]
        exact Bool.false_ne_true
      · refine exec_pref_done hi h ((prefEff_brings hc hl (fun _ => hh) hp).trans (congrArg Eff.done (if_neg ?_)))
        rw [Bool.and_eq_true_iff, Bool.not_eq_true']
        exact fun hb => Bool.false_ne_true (hb.2.symm.trans hw)
      · refine exec_pref_done hi h ((prefEff_brings hc hl (fun _ => hh) hp).trans (congrArg Eff.done (if_pos ?_)))
        exact Bool.and_eq_true_iff.mpr ⟨decide_eq_true hs, (Bool.not_eq_true' _).mpr hw⟩
      · exact State.l1Hit_l1Fill _ _ _ _ _ _ _
      · intro s3 hg h4
        refine ⟨fun hs => ?_, State.grantCopy_copies h4⟩
        have hp := State.prefetch_granted hcp hf hg h4
        have hn' : (e.tgt == 1) = false := hn
        rw [← hn'] at hp
        refine exec_pref_done hi h ((prefEff_brings hc hl (fun h0 => absurd h0 hs) hp).trans (congrArg Eff.done (if_neg ?_)))
        rw [decide_eq_false hs]
        exact Bool.false_ne_true
  · intro c asid va
    refine ⟨fun hs => ?_, fun hs e hl => ?_, fun hs hl => ?_⟩
    · exact exec_cinv_done hi h (by simp only [cinvEff, hs, if_true]; rfl)
    · exact exec_cinv_done hi h (by
        have hl' : s.look (s.warp t.warp).core (s.warp t.warp).asid (s.operands t i.form).a = some e := hl
        simp only [cinvEff, hs, if_false, hl']; rfl)
    · exact exec_cinv_done hi h (by
        have hl' : s.look (s.warp t.warp).core (s.warp t.warp).asid (s.operands t i.form).a = none := hl
        simp only [cinvEff, hs, if_false, hl'])
  · intro s'
    refine ⟨?_, fun r hr hrc hg => ?_⟩
    · have hk := State.core_setCore s c c fun c => { c with l1 := c.l1.filter fun l => !gone l.asid l.host l.line }
      rw [if_pos rfl] at hk
      exact congrArg Core.l1 hk
    · obtain ⟨m, -, hm⟩ := List.mem_map.mp hr
      split at hm
      · split at hm
        · cases hm; rfl
        · rename_i hg'
          cases hm
          exact absurd ⟨hrc, hg⟩ hg'
      · rename_i hne
        exact absurd hm (hne r)

end Sys2Proof.Machine
end

section
/-! SUPPORT. O37 fails: where the home slice lists a line twice, which no run does, the line's way out of a full set is chosen
by the second entry and taken from the first, so that a fetch changes the bytes that the first one holds. -/

namespace Sys2Proof.Machine

set_option Elab.async false

/-- The bytes of a state are those of its memories and home lines. -/
theorem State.byteAt_of_mems {s s' : State} (h : s'.mems = s.mems) (host : Bool) (pa : Nat) :
    s'.byteAt host pa = s.byteAt host pa := by
  simp only [State.mems, Prod.mk.injEq] at h
  obtain ⟨h1, h2, h3⟩ := h
  unfold State.byteAt
  rw [h1, h2, h3]

theorem State.mems_retire (s : State) (ts : List TRef) (i : Instr) (pos : DWord) : (s.retire ts i pos).mems = s.mems := by
  unfold State.retire
  rw [State.mems_finish, State.mems_foldl fun _ _ => State.mems_moveTo _ _ _]

/-- Among ways that are all the same, that way leaves. -/
theorem State.evictOne_same (s : State) {ws : List Way} {w : Way} (hs : ws ≠ []) (h : ∀ x ∈ ws, x = w) :
    s.evictOne ws = some ({ s with freeCtr := s.freeCtr + 1 }.evict w) := by
  have hl : Config.victim s.freeCtr % ws.length < ws.length := Nat.mod_lt _ (List.length_pos_of_ne_nil hs)
  unfold State.evictOne
  rw [List.getElem?_eq_getElem hl, h _ (List.getElem_mem hl)]

/-- A copy granted leaves the line where it was, with its data. -/
theorem State.grantCopy_mems {s s0 : State} {line die : Nat}
    (h : (s.dropCopy die line).makeRoom (sliceAt die line) line true = some s0) :
    ∃ s' h, s.grantCopy line die = some s' ∧ s'.mems = (s0.setLine line h).mems ∧ h.value = (s0.homeLine line).value := by
  unfold State.grantCopy
  rw [h]
  exact ⟨_, _, rfl, (State.mems_send _ _).trans ((State.mems_countSlice _ _ _).trans rfl), rfl⟩

namespace FrameCase

/-- A line at its home whose data are 0 and whose owner's, though it has none, are 1; and the line again, lent to die 0. -/
def here : HomeLine := { HomeLine.enter 0 with ownerData := 1 }
def lent : HomeLine := { HomeLine.enter 0 with ownerDie := some 0 }

/-- A thread of die 0 is about to prefetch from a line that its home slice lists seventeen times. -/
def listed : State := { Slice0.hinted with lines := (0x440, here) :: List.replicate 16 (0x440, lent) }

def hint : Instr := .pref Slice0.g 1 16

def checked : State := Slice0.okD Slice0.base (listed.accessCheck Slice0.t0 0x22000 4 true false)

def servedBy : Check → Option State
  | .serve s => some s
  | _ => none

theorem eq_serve {c : Check} {s : State} (h : servedBy c = some s) : c = .serve s := by
  cases c <;> cases h
  rfl

def served : State := (servedBy (checked.frameCheck 1 (checked.genAt 0 1) 0x22000 false)).getD State.reset
def asked : State := ((served.reachHome 0x440 0).askDegree (homeSlice 0x440) 1 (regionOf 0x22000)).countRegion 1 0x22000 1 0 0

theorem hint_runs : listed.Runs Slice0.t0 hint := Slice0.runs_of (by decide +kernel)

theorem checked_ok : listed.accessCheck Slice0.t0 0x22000 4 true false = .ok checked := Slice0.ok_of _ (by decide +kernel)

theorem hint_address : ea64 (listed.operands Slice0.t0 hint.form) = 0x22000 := by decide +kernel

theorem checked_look : checked.look 0 1 0x22000 = some Slice0.dataPage := by decide +kernel

theorem checked_copy : checked.copyAt 0 0x440 = none := by decide +kernel

theorem served_ok : checked.frameCheck 1 (checked.genAt 0 1) 0x22000 false = .serve served := by
  have h : (servedBy (checked.frameCheck 1 (checked.genAt 0 1) 0x22000 false)).isSome = true := by decide +kernel
  obtain ⟨u, hu⟩ := Option.isSome_iff_exists.mp h
  rw [served, hu]
  exact eq_serve hu

theorem asked_grants : asked.mayGrant 1 (regionOf 0x22000) 0x440 0 (asked.homeLine 0x440) = true := by decide +kernel

theorem asked_lines : asked.lines = listed.lines := by decide +kernel
theorem asked_copies : asked.copies = [] := by decide +kernel

/-- Every way of the line's set in die 0 is the line lent to it. -/
theorem asked_ways : (asked.dropCopy 0 0x440).waysAt (sliceAt 0 0x440) 0x440 = List.replicate 16 (.owned 0x440) := by
  have hl : (asked.dropCopy 0 0x440).lines = (0x440, here) :: List.replicate 16 (0x440, lent) := asked_lines
  have hc : (asked.dropCopy 0 0x440).copies = [] := by simp [State.dropCopy, asked_copies]
  have hh : ¬ homeSlice 0x440 = sliceAt 0 0x440 := by decide
  simp [State.waysAt, hl, hc, hh, here, lent, HomeLine.enter, List.replicate]

theorem asked_find : Tab.find (asked.dropCopy 0 0x440).lines 0x440 = some here := by
  rw [show (asked.dropCopy 0 0x440).lines = listed.lines from asked_lines]
  rfl

/-- What the slice is once a way has left. -/
def roomy : State := State.setLine { asked.dropCopy 0 0x440 with freeCtr := (asked.dropCopy 0 0x440).freeCtr + 1 } 0x440 here.returned

/-- The way that leaves writes the owner's data over the home's. -/
theorem asked_room : (asked.dropCopy 0 0x440).makeRoom (sliceAt 0 0x440) 0x440 true = some roomy := by
  have hg : (List.replicate 16 (Way.owned 0x440)).filter (asked.dropCopy 0 0x440).choosable = List.replicate 16 (.owned 0x440) := rfl
  have hc : (true && decide (Config.copyWays ≤ ((List.replicate 16 (Way.owned 0x440)).filter Way.isCopy).length)) = false := by decide
  have hw : ¬ (List.replicate 16 (Way.owned 0x440)).length < Config.sliceWays := by decide
  have he := State.evictOne_same (asked.dropCopy 0 0x440) (ws := List.replicate 16 (Way.owned 0x440)) (w := .owned 0x440)
    (by simp) (fun _ hx => (List.mem_replicate.mp hx).2)
  unfold State.makeRoom
  simp only [asked_ways, hc, hw, hg, he, if_false, Bool.false_eq_true, State.evict, asked_find]
  rfl

theorem roomy_home : roomy.homeLine 0x440 = here.returned := by
  have h : Tab.find roomy.lines 0x440 = some here.returned := Tab.find_put_self _ _ _
  unfold State.homeLine
  rw [h]
  rfl

theorem asked_grant : ∃ s h, asked.grantCopy 0x440 0 = some s ∧ s.mems = (roomy.setLine 0x440 h).mems ∧ h.value = 1 := by
  obtain ⟨s, h, hs, hm, hv⟩ := State.grantCopy_mems asked_room
  refine ⟨s, h, hs, hm, hv.trans ?_⟩
  rw [roomy_home]
  decide +kernel

theorem hint_warp : (listed.warp Slice0.t0.warp).asid = 1 ∧ (listed.warp Slice0.t0.warp).core = 0 := by decide +kernel

theorem hint_page : (Slice0.dataPage.tgt == 1) = false ∧ Slice0.dataPage.at 0x22000 = 0x22000 := by decide +kernel

theorem hint_brings {u : State} {d : LineData}
    (hp : checked.prefetch 1 (checked.genAt 0 1) 0 false 0x22000 0x22000 = (u, some d)) :
    prefEff hint.form Slice0.t0 (listed.operands Slice0.t0 hint.form) listed = .done u := by
  have ha := hint_address
  obtain ⟨hw, hk⟩ := hint_warp
  obtain ⟨ht, hv⟩ := hint_page
  refine (prefEff_brings (e := Slice0.dataPage) (by rw [ha]; exact checked_ok) (by rw [hw, hk, ha]; exact checked_look)
    (fun h0 => absurd h0 (by decide)) (by rw [hw, hk, ht, ha, hv]; exact hp)).trans ?_
  rfl

theorem byte_before : listed.byteAt false 0x22000 = 0 := by decide +kernel

theorem byte_after (s : State) (h : HomeLine) (hv : h.value = 1) : (s.setLine 0x440 h).byteAt false 0x22000 = 1 := by
  have hf : Tab.find (s.setLine 0x440 h).lines (0x22000 / 128) = some h := Tab.find_put_self _ _ _
  unfold State.byteAt
  simp only [Bool.false_eq_true, if_false, hf, hv]
  decide +kernel

theorem listed_canonical : listed.Canonical := by decide +kernel

end FrameCase

open FrameCase in
/-- Refutes O37: PREF.copy of a line that its home slice lists twice, where a way of a full set must leave, writes the line. -/
theorem not_memoryFrame : ¬ Obligations.MemoryFrame := by
  intro h
  obtain ⟨u, m, hg, hm, hv⟩ := asked_grant
  have hp := State.prefetch_granted checked_copy served_ok asked_grants hg
  have hx := exec_pref_done (.inl ⟨_, _, _, rfl⟩) hint_runs (hint_brings hp)
  have hb := h hint _ _ (by decide +kernel) (fun _ _ => nofun) (fun _ _ => nofun) listed_canonical hx false 0x22000
  rw [State.byteAt_of_mems ((State.mems_retire _ _ _ _).trans hm), byte_after _ _ hv, byte_before] at hb
  exact absurd hb (by decide)

end Sys2Proof.Machine
end

section
/-! SUPPORT. Words of a type as integers (R244), and the integer instructions whose result is one operation on words. -/

namespace Sys2Proof.Machine

set_option Elab.async false

/-! ## Words as integers (R244) -/

/-- A word as an integer, by signedness. -/
def wordVal (sg : Bool) {w : Nat} (a : BitVec w) : Int := if sg then a.toInt else a.toNat

@[simp] theorem ofInt_wordVal (sg : Bool) {w : Nat} (a : BitVec w) : BitVec.ofInt w (wordVal sg a) = a := by
  cases sg
  · exact (BitVec.ofInt_natCast w a.toNat).trans (BitVec.ofNat_toNat w a |>.trans (BitVec.setWidth_eq a))
  · exact BitVec.ofInt_toInt

theorem ofInt_sub (w : Nat) (x y : Int) : BitVec.ofInt w (x - y) = BitVec.ofInt w x - BitVec.ofInt w y := by
  rw [Int.sub_eq_add_neg, BitVec.ofInt_add, BitVec.ofInt_neg, BitVec.sub_eq_add_neg]

theorem wordVal_lt_iff (sg : Bool) {w : Nat} (a b : BitVec w) :
    wordVal sg a < wordVal sg b ↔ (if sg then a.slt b else a.ult b) = true := by
  cases sg
  · simp [wordVal, BitVec.ult]
  · simp [wordVal, BitVec.slt]

theorem ofInt_smaller (sg : Bool) {w : Nat} (a b : BitVec w) :
    BitVec.ofInt w (if wordVal sg b < wordVal sg a then wordVal sg b else wordVal sg a) = smaller sg a b := by
  simp only [apply_ite (BitVec.ofInt w), ofInt_wordVal, wordVal_lt_iff, smaller]

theorem ofInt_larger (sg : Bool) {w : Nat} (a b : BitVec w) :
    BitVec.ofInt w (if wordVal sg a < wordVal sg b then wordVal sg b else wordVal sg a) = larger sg a b := by
  simp only [apply_ite (BitVec.ofInt w), ofInt_wordVal, wordVal_lt_iff, larger]

theorem ofInt_abs {w : Nat} (a : BitVec w) :
    BitVec.ofInt w (if a.toInt < 0 then -a.toInt else a.toInt) = if a.msb then -a else a := by
  simp only [apply_ite (BitVec.ofInt w), BitVec.ofInt_neg, BitVec.ofInt_toInt, decide_eq_true_eq,
    BitVec.msb_eq_toInt]

/-! ## Operations of the width of TYPE -/

theorem intW_cases (ty : Ty) : ty.intW = 64 ∨ ty.intW = 32 := by
  unfold Ty.intW
  split
  · exact .inl rfl
  · exact .inr rfl

theorem atWidth_64 {ty : Ty} (h : ty.intW = 64) (op : (w : Nat) → BitVec w → BitVec w → BitVec w → BitVec w) (o : Operands) :
    atWidth ty op o = op 64 o.a o.b o.c := if_pos h

theorem atWidth_32 {ty : Ty} (h : ty.intW = 32) (op : (w : Nat) → BitVec w → BitVec w → BitVec w → BitVec w) (o : Operands) :
    atWidth ty op o = (op 32 (o.a.setWidth 32) (o.b.setWidth 32) (o.c.setWidth 32)).setWidth 64 :=
  if_neg (by omega)

theorem wrapInt_64 (v : Int) : wrapInt 64 v = BitVec.ofInt 64 v := rfl

theorem wrapInt_32 (v : Int) : wrapInt 32 v = (BitVec.ofInt 32 v).setWidth 64 := rfl

/-- An operand of a 64-bit integer type. -/
theorem intVal_64 {ty : Ty} (h : ty.intW = 64) (v : DWord) : intVal ty v = wordVal ty.signed v := by
  cases ty <;> first | rfl | exact absurd h (by decide)

/-- An operand of a 32-bit integer type. -/
theorem intVal_32 {ty : Ty} (h5 : ty ∈ int5) (h : ty.intW = 32) (v : DWord) :
    intVal ty v = wordVal ty.signed (v.setWidth 32) := by
  simp only [int5, List.mem_cons, List.not_mem_nil, or_false] at h5
  rcases h5 with rfl | rfl | rfl | rfl | rfl
  case inr.inr.inl => exact absurd h (by decide)
  case inr.inr.inr.inl => exact absurd h (by decide)
  all_goals rfl

/-- An operation on integers that is `op` on the words of each width is `op` at the width of TYPE. -/
theorem wrapInt_atWidth {ty : Ty} (h : ty ∈ int5) {g : Int → Int → Int → Int}
    {op : (w : Nat) → BitVec w → BitVec w → BitVec w → BitVec w}
    (hg : ∀ (w : Nat) (a b c : BitVec w), BitVec.ofInt w (g (wordVal ty.signed a) (wordVal ty.signed b) (wordVal ty.signed c)) =
      op w a b c) (o : Operands) :
    wrapInt ty.intW (g (intVal ty o.a) (intVal ty o.b) (intVal ty o.c)) = atWidth ty op o := by
  rcases intW_cases ty with hw | hw
  · rw [atWidth_64 hw, hw, wrapInt_64, ← hg]
    simp only [intVal_64 hw]
  · rw [atWidth_32 hw, hw, wrapInt_32, ← hg]
    simp only [intVal_32 h hw]

/-- An element-wise operation is one on words of the width of TYPE, and sets no flag. -/
def AluOp.OnWords (a : AluOp) (f : Form) (op : (w : Nat) → BitVec w → BitVec w → BitVec w → BitVec w) : Prop :=
  ∀ o t s, a f o t s = .ok (atWidth f.x.ty op o) f.x.ty.signed 0

theorem intOp_onWords {f : Form} (hs : f.x.sat = false) (ht : f.x.ty ∈ int5) {g : Int → Int → Int → Int}
    {op : (w : Nat) → BitVec w → BitVec w → BitVec w → BitVec w}
    (hg : ∀ (w : Nat) (a b c : BitVec w),
      BitVec.ofInt w (g (wordVal f.x.ty.signed a) (wordVal f.x.ty.signed b) (wordVal f.x.ty.signed c)) = op w a b c) :
    (intOp g).OnWords f op := by
  intro o t s
  simp only [intOp, intResult, hs, Bool.false_eq_true, if_false, wrapInt_atWidth ht hg]

theorem bitOp_onWords {f : Form} {g : DWord → DWord → DWord → DWord}
    {op : (w : Nat) → BitVec w → BitVec w → BitVec w → BitVec w} (h64 : g = op 64)
    (h32 : ∀ a b c, (g a b c).setWidth 32 = op 32 (a.setWidth 32) (b.setWidth 32) (c.setWidth 32)) :
    (bitOp g).OnWords f op := by
  intro o t s
  simp only [bitOp, atWidth, h32, ← h64]

theorem setWidth_bfn (fn : Nat) (a b c : DWord) :
    (bfn fn a b c).setWidth 32 = bfnWord fn (a.setWidth 32) (b.setWidth 32) (c.setWidth 32) := by
  have hn (x : DWord) : (~~~x).setWidth 32 = ~~~(x.setWidth 32) := BitVec.setWidth_not (by decide)
  unfold bfn bfnWord
  split <;> simp only [BitVec.setWidth_and, BitVec.setWidth_or, BitVec.setWidth_xor, hn]

theorem addMinMax_onWords {f : Form} (mx : Bool) (hs : f.x.sat = false) (ht : f.x.ty ∈ int5) :
    (addMinMax mx).OnWords f fun _ a b c => if mx then larger f.x.ty.signed (a + b) c else smaller f.x.ty.signed (a + b) c := by
  intro o t s
  have hsum {w : Nat} (a b : BitVec w) : BitVec.ofInt w (wordVal f.x.ty.signed a + wordVal f.x.ty.signed b) = a + b := by
    rw [BitVec.ofInt_add, ofInt_wordVal, ofInt_wordVal]
  have hback (v : BitVec 32) : (v.setWidth 64).setWidth 32 = v := by simp
  have hv {w : Nat} (x c : BitVec w) :
      BitVec.ofInt w (if mx then (if wordVal f.x.ty.signed x < wordVal f.x.ty.signed c then wordVal f.x.ty.signed c
        else wordVal f.x.ty.signed x) else (if wordVal f.x.ty.signed c < wordVal f.x.ty.signed x then wordVal f.x.ty.signed c
        else wordVal f.x.ty.signed x)) = if mx then larger f.x.ty.signed x c else smaller f.x.ty.signed x c := by
    cases mx
    · exact ofInt_smaller _ _ _
    · exact ofInt_larger _ _ _
  simp only [addMinMax, intResult, hs, Bool.false_eq_true, if_false]
  rcases intW_cases f.x.ty with hw | hw
  · simp only [atWidth_64 hw, hw, wrapInt_64, intVal_64 hw, hsum, hv]
  · simp only [atWidth_32 hw, hw, wrapInt_32, intVal_32 ht hw, hsum, hback, hv]

theorem signed_type {ty : Ty} (h : ty ∈ [Ty.s32, .s64]) : ty ∈ int5 ∧ ty.signed = true := by
  simp only [List.mem_cons, List.not_mem_nil, or_false] at h
  rcases h with rfl | rfl <;> decide

theorem abs_onWords {f : Form} (hs : f.x.sat = false) (ht : f.x.ty ∈ [Ty.s32, .s64]) :
    (intOp fun a _ _ => if a < 0 then -a else a).OnWords f fun _ a _ _ => if a.msb then -a else a := by
  obtain ⟨h5, hsg⟩ := signed_type ht
  refine intOp_onWords hs h5 fun w a _ _ => ?_
  rw [hsg]
  exact ofInt_abs a

theorem int4_subset_int5 : int4 ⊆ int5 := by decide

/-- R244, R246: without .sat, the instructions that `wrapsOf` lists are an operation on words, four clocks long. -/
theorem exec_of_wrapsOf {i : Instr} {op : Bool → (w : Nat) → BitVec w → BitVec w → BitVec w → BitVec w}
    (h : wrapsOf i = some op) (hok : i.form.ok = true) (hs : i.form.x.sat = false) :
    ∃ a : AluOp, (∀ s, exec i s = .next (s.alu i latF4 a)) ∧ a.OnWords i.form (op i.form.x.ty.signed) := by
  have ht := type_mem_of_ok hok
  unfold wrapsOf at h
  split at h <;> cases h
  -- IADD, ISUB, IADD3, IMUL and IMAD
  case h_1 | h_2 =>
    refine ⟨_, fun _ => rfl, intOp_onWords hs (int4_subset_int5 ht) fun w a b c => ?_⟩
    rw [BitVec.ofInt_add, ofInt_wordVal, ofInt_wordVal]
  case h_3 | h_4 =>
    refine ⟨_, fun _ => rfl, intOp_onWords hs (int4_subset_int5 ht) fun w a b c => ?_⟩
    rw [ofInt_sub, ofInt_wordVal, ofInt_wordVal]
  case h_5 =>
    refine ⟨_, fun _ => rfl, intOp_onWords hs (int4_subset_int5 ht) fun w a b c => ?_⟩
    simp only [BitVec.ofInt_add, ofInt_wordVal]
  case h_6 | h_7 =>
    refine ⟨_, fun _ => rfl, intOp_onWords hs (int4_subset_int5 ht) fun w a b c => ?_⟩
    rw [BitVec.ofInt_mul, ofInt_wordVal, ofInt_wordVal]
  case h_8 | h_9 =>
    refine ⟨_, fun _ => rfl, intOp_onWords hs (int4_subset_int5 ht) fun w a b c => ?_⟩
    simp only [BitVec.ofInt_add, BitVec.ofInt_mul, ofInt_wordVal]
  -- AND, OR, XOR and BFN
  case h_10 | h_11 => exact ⟨_, fun _ => rfl, bitOp_onWords rfl fun _ _ _ => BitVec.setWidth_and⟩
  case h_12 | h_13 => exact ⟨_, fun _ => rfl, bitOp_onWords rfl fun _ _ _ => BitVec.setWidth_or⟩
  case h_14 | h_15 => exact ⟨_, fun _ => rfl, bitOp_onWords rfl fun _ _ _ => BitVec.setWidth_xor⟩
  case h_16 g x => exact ⟨_, fun _ => rfl, bitOp_onWords (f := (Instr.bfn g x).form) rfl (setWidth_bfn x.sub.toNat)⟩
  -- IMIN, IMAX, IABS, IADDMIN and IADDMAX
  case h_17 | h_18 => exact ⟨_, fun _ => rfl, intOp_onWords hs (int4_subset_int5 ht) fun _ _ _ _ => ofInt_smaller _ _ _⟩
  case h_19 | h_20 => exact ⟨_, fun _ => rfl, intOp_onWords hs (int4_subset_int5 ht) fun _ _ _ _ => ofInt_larger _ _ _⟩
  case h_21 | h_22 => exact ⟨_, fun _ => rfl, abs_onWords hs ht⟩
  case h_23 => exact ⟨_, fun _ => rfl, addMinMax_onWords false hs (int4_subset_int5 ht)⟩
  case h_24 => exact ⟨_, fun _ => rfl, addMinMax_onWords true hs (int4_subset_int5 ht)⟩
  -- MOV and MOVI
  all_goals exact ⟨_, fun _ => rfl, bitOp_onWords rfl fun _ _ _ => rfl⟩

theorem wrappingResults : Claim.WrappingResults := by
  intro i op hi s ts hr hs
  obtain ⟨a, he, ha⟩ := exec_of_wrapsOf hi hr.ok hs
  exact (he s).trans (congrArg _ (State.alu_ready hr _ _ _ fun t _ s' _ => ha _ t s'))

/-! ## Shifts (R244, R246) -/

/-- An operand of 32 bits has its upper half zero (R239). -/
theorem State.readSrc_narrow (s : State) (t : TRef) {w : Nat} (h : w ≠ 64) (src : Src) :
    ((s.readSrc t w src).setWidth 32).setWidth 64 = s.readSrc t w src := by
  have hw (v : Word) : ((v.setWidth 64).setWidth 32).setWidth 64 = v.setWidth 64 := by simp
  cases src <;> simp only [State.readSrc, if_neg h, hw]
  split <;> exact hw _

/-- A is of the width that the rule of its form gives. -/
theorem State.operands_a_narrow {f : Form} (h : (opRule f.opc f.g f.x).a.w ≠ 64) (s : State) (t : TRef) :
    ((s.operands t f).a.setWidth 32).setWidth 64 = (s.operands t f).a := by
  simp only [State.operands]
  split
  · rfl
  · exact State.readSrc_narrow s t h _

theorem ofInt_shiftLeft {v w : Nat} (a : BitVec v) (n : Nat) : BitVec.ofInt w (a.toNat * 2 ^ n) = a.setWidth w <<< n := by
  have hn : ((a.toNat : Int) * 2 ^ n) = ((a.toNat * 2 ^ n : Nat) : Int) := by push_cast; rfl
  rw [hn, BitVec.ofInt_natCast]
  apply BitVec.eq_of_toNat_eq
  rw [BitVec.toNat_ofNat, BitVec.toNat_shiftLeft, BitVec.toNat_setWidth, Nat.shiftLeft_eq, Nat.mod_mul_mod]

theorem ofNat_shiftRight {w : Nat} (a : BitVec w) (n : Nat) : BitVec.ofNat w (a.toNat / 2 ^ n) = a >>> n := by
  rw [← Nat.shiftRight_eq_div_pow, ← BitVec.toNat_ushiftRight, BitVec.ofNat_toNat, BitVec.setWidth_eq]

theorem ofInt_sshiftRight {w : Nat} (a : BitVec w) (n : Nat) : BitVec.ofInt w (a.toInt / 2 ^ n) = a.sshiftRight n := by
  have hd : a.toInt / 2 ^ n = a.toInt >>> n := by
    rw [Int.shiftRight_eq_div_pow]
    push_cast; rfl
  rw [hd, ← BitVec.toInt_sshiftRight, BitVec.ofInt_toInt]

/-- A shift to the right by more than the width leaves sign bits. -/
theorem sshiftRight_min {w : Nat} (a : BitVec w) (n : Nat) : a.sshiftRight (min n w) = a.sshiftRight n := by
  refine BitVec.eq_of_getLsbD_eq fun k hk => ?_
  rw [BitVec.getLsbD_sshiftRight, BitVec.getLsbD_sshiftRight]
  rcases Nat.le_total n w with h | h
  · rw [min_eq_left h]
  · rw [min_eq_right h, if_neg (by omega), if_neg (by omega)]

theorem shlOp_atWidth (f : Form) (o : Operands) (t : TRef) (s : State) :
    shlOp f o t s = .ok (atWidth f.x.ty (fun _ a _ _ => a <<< (o.b.setWidth 32).toNat) o) f.x.ty.signed 0 := by
  refine congrArg (fun v => AluOut.ok v _ _) ?_
  by_cases hn : (o.b.setWidth 32).toNat ≥ f.x.ty.intW
  · rw [if_pos hn]
    rcases intW_cases f.x.ty with hw | hw <;> rw [hw] at hn
    · rw [atWidth_64 hw, BitVec.shiftLeft_eq_zero hn]; rfl
    · rw [atWidth_32 hw, BitVec.shiftLeft_eq_zero hn]; rfl
  · rw [if_neg hn]
    rcases intW_cases f.x.ty with hw | hw
    · rw [atWidth_64 hw, hw, wrapInt_64, ofInt_shiftLeft, BitVec.setWidth_eq]
    · rw [atWidth_32 hw, hw, wrapInt_32, ofInt_shiftLeft]

theorem shrOp_atWidth (f : Form) {o : Operands} (ha : f.x.ty.intW = 32 → (o.a.setWidth 32).setWidth 64 = o.a) (t : TRef) (s : State) :
    shrOp f o t s = .ok (atWidth f.x.ty (fun _ a _ _ => a >>> (o.b.setWidth 32).toNat) o) f.x.ty.signed 0 := by
  refine congrArg (fun v => AluOut.ok v _ _) ?_
  by_cases hn : (o.b.setWidth 32).toNat ≥ f.x.ty.intW
  · rw [if_pos hn]
    rcases intW_cases f.x.ty with hw | hw <;> rw [hw] at hn
    · rw [atWidth_64 hw, BitVec.ushiftRight_eq_zero hn]; rfl
    · rw [atWidth_32 hw, BitVec.ushiftRight_eq_zero hn]; rfl
  · rw [if_neg hn]
    rcases intW_cases f.x.ty with hw | hw
    · rw [atWidth_64 hw, ofNat_shiftRight]
    · have hs : (o.a.setWidth 32).toNat = o.a.toNat := by
        conv_rhs => rw [← ha hw, BitVec.toNat_setWidth_of_le (by omega)]
      have hl : o.a.toNat / 2 ^ (o.b.setWidth 32).toNat < 2 ^ 32 :=
        lt_of_le_of_lt (Nat.div_le_self _ _) (hs ▸ (o.a.setWidth 32).isLt)
      rw [atWidth_32 hw, ← ofNat_shiftRight, hs, BitVec.setWidth_ofNat_of_le_of_lt (by omega) hl]

theorem sarOp_atWidth {f : Form} (h5 : f.x.ty ∈ int5) (hsg : f.x.ty.signed = true) (o : Operands) (t : TRef) (s : State) :
    sarOp f o t s = .ok (atWidth f.x.ty (fun _ a _ _ => a.sshiftRight (o.b.setWidth 32).toNat) o) f.x.ty.signed 0 := by
  refine congrArg (fun v => AluOut.ok v _ _) ?_
  rcases intW_cases f.x.ty with hw | hw
  · rw [atWidth_64 hw, hw, wrapInt_64, intVal_64 hw, hsg, wordVal, if_pos rfl, ofInt_sshiftRight, sshiftRight_min]
  · rw [atWidth_32 hw, hw, wrapInt_32, intVal_32 h5 hw, hsg, wordVal, if_pos rfl, ofInt_sshiftRight, sshiftRight_min]

theorem shfOp_funnels (f : Form) (o : Operands) (t : TRef) (s : State) :
    let c := (o.c.setWidth 32).toNat
    let n := if f.x.sub.getLsbD 1 then min c 32 else c % 32
    let ab : BitVec 64 := o.b.setWidth 32 ++ o.a.setWidth 32
    let d : BitVec 32 := if f.x.sub.getLsbD 0 then (ab >>> n).setWidth 32 else (ab <<< n).extractLsb' 32 32
    shfOp f o t s = .ok (d.setWidth 64) f.x.ty.signed 0 := by
  intro c n ab d
  have hn : (if f.x.sub.getLsbD 1 then min (o.c.setWidth 32).toNat 32 else (o.c.extractLsb' 0 5).toNat) = n := by
    have h5 : (o.c.extractLsb' 0 5).toNat = c % 32 := by
      simp only [c, BitVec.extractLsb'_toNat, BitVec.toNat_setWidth]
      omega
    rw [h5]
  have hab : (o.b.setWidth 32).toNat * 2 ^ 32 + (o.a.setWidth 32).toNat = ab.toNat := by
    rw [BitVec.toNat_append, ← Nat.shiftLeft_add_eq_or_of_lt (o.a.setWidth 32).isLt, Nat.shiftLeft_eq]
  have hd : BitVec.ofNat 32 (if f.x.sub.getLsbD 0 then ab.toNat / 2 ^ n else ab.toNat * 2 ^ n / 2 ^ 32) = d := by
    apply BitVec.eq_of_toNat_eq
    simp only [d]
    split
    · rw [BitVec.toNat_setWidth, BitVec.toNat_ushiftRight, Nat.shiftRight_eq_div_pow, BitVec.toNat_ofNat]
    · rw [BitVec.extractLsb'_toNat, BitVec.toNat_shiftLeft, Nat.shiftLeft_eq, Nat.shiftRight_eq_div_pow, BitVec.toNat_ofNat,
        show 2 ^ 64 = 2 ^ 32 * 2 ^ 32 from rfl, Nat.mod_mul_right_div_self, Nat.mod_mod]
  simp only [shfOp, hn, hab, hd]

theorem exec_of_shiftsOf {i : Instr} {op : (w : Nat) → BitVec w → Nat → BitVec w} (h : shiftsOf i = some op)
    (hok : i.form.ok = true) : ∃ a : AluOp, (∀ s, exec i s = .next (s.alu i latF4 a)) ∧
      ∀ (s u : State) (t : TRef), a i.form (s.operands t i.form) t u = .ok (atWidth i.form.x.ty
        (fun w a _ _ => op w a ((s.operands t i.form).b.setWidth 32).toNat) (s.operands t i.form)) i.form.x.ty.signed 0 := by
  have ht := type_mem_of_ok hok
  unfold shiftsOf at h
  split at h <;> cases h
  case h_1 | h_2 => exact ⟨_, fun _ => rfl, fun _ _ _ => shlOp_atWidth _ _ _ _⟩
  case h_3 | h_4 =>
    refine ⟨_, fun _ => rfl, fun s _ t => shrOp_atWidth _ (fun hw => State.operands_a_narrow (fun h => ?_) s t) _ _⟩
    exact absurd (hw.symm.trans h) (by decide)
  all_goals
    obtain ⟨h5, hsg⟩ := signed_type ht
    exact ⟨_, fun _ => rfl, fun s _ _ => sarOp_atWidth h5 hsg _ _ _⟩

theorem shiftResults : Claim.ShiftResults := by
  refine ⟨fun i op hi s ts hr => ?_, fun g x s ts hr => ?_⟩
  · obtain ⟨a, he, ha⟩ := exec_of_shiftsOf hi hr.ok
    exact (he s).trans (congrArg _ (State.alu_ready hr _ _ _ fun t _ s' _ => ha s s' t))
  · exact congrArg Host.Outcome.next (State.alu_ready hr _ _ _ fun t _ s' _ => shfOp_funnels _ _ t s')

/-! ## Wide products and addresses (R244) -/

/-- The integer of a word, extended to a word of at least the width. -/
theorem ofInt_wordVal_extend (sg : Bool) {w v : Nat} (h : w ≤ v) (a : BitVec w) :
    BitVec.ofInt v (wordVal sg a) = if sg then a.signExtend v else a.setWidth v := by
  cases sg
  · exact (BitVec.ofInt_natCast v a.toNat).trans (BitVec.ofNat_toNat v a)
  · simp only [wordVal, if_true]
    rw [← BitVec.toInt_signExtend_of_le h, BitVec.ofInt_toInt]

theorem toNat_ofInt_cast (w : Nat) (x : Int) : ((BitVec.ofInt w x).toNat : Int) = x % 2 ^ w := by
  rw [BitVec.toNat_ofInt, Int.toNat_of_nonneg (Int.emod_nonneg _ (by positivity))]
  push_cast; rfl

theorem emod_mul_self_ediv_emod {m : Int} (hm : m ≠ 0) (x : Int) : x % (m * m) / m % m = x / m % m := by
  have hx : x % (m * m) = x + m * (m * -(x / (m * m))) := by
    rw [Int.emod_def]
    ring
  rw [hx, Int.add_mul_ediv_left _ _ hm, Int.add_mul_emod_self_left]

/-- The upper half of a product of twice the width. -/
theorem ofInt_mul_div (sg : Bool) {w : Nat} (a b : BitVec w) :
    BitVec.ofInt w (wordVal sg a * wordVal sg b / 2 ^ w) =
      (if sg then a.signExtend (2 * w) * b.signExtend (2 * w) else a.setWidth (2 * w) * b.setWidth (2 * w)).extractLsb' w w := by
  have hp : (if sg then a.signExtend (2 * w) * b.signExtend (2 * w) else a.setWidth (2 * w) * b.setWidth (2 * w)) =
      BitVec.ofInt (2 * w) (wordVal sg a * wordVal sg b) := by
    rw [BitVec.ofInt_mul, ofInt_wordVal_extend sg (by omega), ofInt_wordVal_extend sg (by omega)]
    cases sg <;> rfl
  rw [hp]
  apply BitVec.eq_of_toNat_eq
  rw [BitVec.extractLsb'_toNat, Nat.shiftRight_eq_div_pow]
  zify
  rw [toNat_ofInt_cast, toNat_ofInt_cast, two_mul, pow_add, emod_mul_self_ediv_emod (by positivity)]

theorem imulhOp_onWords {f : Form} (h5 : f.x.ty ∈ int5) : imulhOp.OnWords f fun w a b _ =>
    (if f.x.ty.signed then a.signExtend (2 * w) * b.signExtend (2 * w)
      else a.setWidth (2 * w) * b.setWidth (2 * w)).extractLsb' w w := by
  intro o t s
  refine congrArg (fun v => AluOut.ok v _ _) ?_
  rcases intW_cases f.x.ty with hw | hw
  · rw [atWidth_64 hw, hw, wrapInt_64, intVal_64 hw, intVal_64 hw, ofInt_mul_div]
  · rw [atWidth_32 hw, hw, wrapInt_32, intVal_32 h5 hw, intVal_32 h5 hw, ofInt_mul_div]

/-- A 32-bit operand extended to 64 bits by signedness. -/
theorem ofInt_word_extend (sg : Bool) (v : DWord) : BitVec.ofInt 64 (wordVal sg (v.setWidth 32)) =
    if sg then (v.setWidth 32).signExtend 64 else (v.setWidth 32).setWidth 64 :=
  ofInt_wordVal_extend sg (by omega) _

theorem imadwOp_extends {f : Form} (h5 : f.x.ty ∈ int5) (hw : f.x.ty.intW = 32) (o : Operands) (t : TRef) (s : State) :
    let ext (v : DWord) : DWord := if f.x.ty.signed then (v.setWidth 32).signExtend 64 else (v.setWidth 32).setWidth 64
    imadwOp f o t s = .ok (ext o.a * ext o.b + o.c) f.x.ty.signed 0 := by
  refine congrArg (fun v => AluOut.ok v _ _) ?_
  rw [intVal_32 h5 hw, intVal_32 h5 hw, BitVec.ofInt_add, BitVec.ofInt_mul, ofInt_word_extend, ofInt_word_extend,
    BitVec.ofInt_natCast, BitVec.ofNat_toNat, BitVec.setWidth_eq]

theorem leaOp_extends (f : Form) (o : Operands) (t : TRef) (s : State) :
    let ext (v : DWord) : DWord := if f.x.ty.signed then (v.setWidth 32).signExtend 64 else (v.setWidth 32).setWidth 64
    leaOp f o t s = .ok (o.a + ext o.b <<< (o.c.toNat % 32)) f.x.ty.signed 0 := by
  refine congrArg (fun v => AluOut.ok v _ _) ?_
  have h5 : (o.c.extractLsb' 0 5).toNat = o.c.toNat % 32 := by
    simp [BitVec.extractLsb'_toNat]
  have hb := ofInt_word_extend f.x.ty.signed o.b
  unfold wordVal at hb
  have hp (n : Nat) : BitVec.ofInt 64 ((2 : Int) ^ n) = BitVec.twoPow 64 n := by
    have h := ofInt_shiftLeft (v := 64) (w := 64) 1 n
    simpa [BitVec.twoPow] using h
  rw [h5, BitVec.ofInt_add, BitVec.ofInt_mul, hb, hp, ← BitVec.shiftLeft_eq_mul_twoPow, BitVec.ofInt_natCast, BitVec.ofNat_toNat,
    BitVec.setWidth_eq]

theorem wideResults : Claim.WideResults := by
  refine ⟨fun i hi s ts hr => ?_, fun g x s ts hr => ?_, fun g x s ts hr => ?_⟩
  · have he : exec i s = .next (s.alu i latM6 imulhOp) := by
      rcases hi with ⟨g, b, a, d, rfl⟩ | ⟨g, x, rfl⟩ <;> rfl
    have ht : i.form.x.ty ∈ int4 := by
      have ht := type_mem_of_ok hr.ok
      rcases hi with ⟨g, b, a, d, rfl⟩ | ⟨g, x, rfl⟩ <;> exact ht
    exact he.trans (congrArg _ (State.alu_ready hr _ _ _ fun t _ s' _ => imulhOp_onWords (int4_subset_int5 ht) _ t s'))
  · have ht : x.ty ∈ [Ty.u32, .s32] := type_mem_of_ok hr.ok
    have hw : ∀ ty ∈ [Ty.u32, .s32], ty ∈ int5 ∧ ty.intW = 32 := by decide
    obtain ⟨h5, h32⟩ := hw _ ht
    exact congrArg Host.Outcome.next (State.alu_ready hr _ _ _ fun t _ s' _ => imadwOp_extends h5 h32 _ t s')
  · exact congrArg Host.Outcome.next (State.alu_ready hr _ _ _ fun t _ s' _ => leaOp_extends _ _ t s')

/-- Settles O6: the integer instructions are operations on words, or give their wide products and addresses. -/
theorem integerResults : Obligations.IntegerResults := ⟨wrappingResults, shiftResults, wideResults⟩

end Sys2Proof.Machine
end

section
/-! SUPPORT. Bits counted, turned around, taken out and put in (R244, R246). -/

namespace Sys2Proof.Machine

set_option Elab.async false

/-! ## Counts (R244) -/

/-- A number put into a word that holds it, and that one into 64 bits. -/
theorem setWidth_ofNat_word {w n : Nat} (hw : w ≤ 64) (hn : n < 2 ^ w) : (BitVec.ofNat w n).setWidth 64 = BitVec.ofNat 64 n :=
  BitVec.setWidth_ofNat_of_le_of_lt hw hn

theorem bitsOf_toNat {w : Nat} (a : BitVec w) : bitsOf w a.toNat = (List.finRange w).map fun k => a[k] := by
  unfold bitsOf
  rw [← List.map_coe_finRange_eq_range, List.map_map]
  rfl

theorem popCount_eq_onesOf {w : Nat} (a : BitVec w) : popCount w a.toNat = onesOf a := by
  unfold popCount onesOf
  rw [bitsOf_toNat, List.filter_map, List.length_map]
  rfl

/-- The low bits of a word are those of the narrower word. -/
theorem bitsOf_setWidth {v : Nat} (w : Nat) (a : BitVec v) : bitsOf w (a.setWidth w).toNat = bitsOf w a.toNat := by
  refine List.map_congr_left fun k hk => ?_
  rw [BitVec.toNat_setWidth, Nat.testBit_mod_two_pow, decide_eq_true (List.mem_range.mp hk), Bool.true_and]

theorem onesOf_le {w : Nat} (a : BitVec w) : onesOf a ≤ w :=
  (List.length_filter_le _ _).trans (List.length_finRange ..).le

theorem clzCount_eq_clz {w : Nat} (hw : 0 < w) (a : BitVec w) : clzCount w a.toNat = a.clz.toNat := by
  unfold clzCount
  rw [Nat.mod_eq_of_lt a.isLt]
  have hww : w < 2 ^ w := Nat.lt_two_pow_self
  by_cases h : a.toNat = 0
  · have ha : a = 0#w := BitVec.eq_of_toNat_eq h
    rw [if_pos h, BitVec.clz_eq_iff_eq_zero.mpr ha]
    exact (Nat.mod_eq_of_lt hww).symm
  · have ha : a ≠ 0#w := fun e => h (by rw [e]; rfl)
    have hlo := BitVec.two_pow_sub_clz_le_toNat_of_ne_zero hw ha
    have hhi := BitVec.toNat_lt_two_pow_sub_clz (x := a)
    have hlt : a.clz.toNat < w := by
      have := BitVec.lt_def.mp (BitVec.clz_lt_iff_ne_zero.mpr ha)
      rwa [BitVec.natCast_eq_ofNat, BitVec.toNat_ofNat, Nat.mod_eq_of_lt hww] at this
    have hlog : Nat.log2 a.toNat = w - 1 - a.clz.toNat := by
      rw [Nat.log2_eq_iff h]
      exact ⟨hlo, by rwa [show w - 1 - a.clz.toNat + 1 = w - a.clz.toNat by omega]⟩
    rw [if_neg h, hlog]
    omega

theorem testBit_ofBits (l : List Bool) (k : Nat) : (ofBits l).testBit k = l.getD k false := by
  induction l generalizing k with
  | nil => simp [ofBits]
  | cons b rest ih =>
    unfold ofBits
    cases k with
    | zero => cases b <;> simp [Nat.testBit_zero]
    | succ k =>
      have hd : ((if b then 1 else 0) + 2 * ofBits rest) / 2 = ofBits rest := by
        cases b
        · simp
        · simp; omega
      rw [Nat.testBit_succ, hd, ih]
      rfl

theorem ofBits_lt (l : List Bool) : ofBits l < 2 ^ l.length := by
  induction l with
  | nil => simp [ofBits]
  | cons b rest ih =>
    rw [ofBits, List.length_cons, pow_succ]
    split <;> omega

theorem length_bitsOf (w n : Nat) : (bitsOf w n).length = w := by rw [bitsOf, List.length_map, List.length_range]

theorem ofNat_bitRev {w : Nat} (a : BitVec w) : BitVec.ofNat w (bitRev w a.toNat) = a.reverse := by
  refine BitVec.eq_of_getLsbD_eq fun k hk => ?_
  rw [BitVec.getLsbD_ofNat, BitVec.getLsbD_reverse, bitRev, testBit_ofBits, decide_eq_true hk, Bool.true_and, BitVec.getMsbD,
    decide_eq_true hk, Bool.true_and, List.getD_eq_getElem _ _ (by simpa [length_bitsOf] using hk), List.getElem_reverse]
  simp [bitsOf, BitVec.getLsbD]

/-- An operation of A alone is one on its word, where it is so at both widths. -/
theorem unaryOp_onWords {f : Form} {g : Nat → Nat → Nat} {op : (w : Nat) → BitVec w → BitVec w}
    (h64 : ∀ a : BitVec 64, BitVec.ofNat 64 (g 64 a.toNat) = op 64 a)
    (h32 : ∀ a : BitVec 32, g 32 a.toNat = (op 32 a).toNat)
    (hl : ∀ a : DWord, g 32 (a.setWidth 32).toNat = g 32 a.toNat) : (unaryOp g).OnWords f fun w a _ _ => op w a := by
  intro o t s
  refine congrArg (fun v => AluOut.ok v _ _) ?_
  rcases intW_cases f.x.ty with hw | hw
  · rw [atWidth_64 hw, hw, h64]
  · rw [atWidth_32 hw, hw, ← hl, h32, BitVec.ofNat_toNat]

theorem popCount_onWords (f : Form) : (unaryOp popCount).OnWords f fun w a _ _ => BitVec.ofNat w (onesOf a) := by
  refine unaryOp_onWords (op := fun w a => BitVec.ofNat w (onesOf a)) (fun a => by rw [popCount_eq_onesOf]) (fun a => ?_) fun a => ?_
  · have := onesOf_le a
    rw [popCount_eq_onesOf, BitVec.toNat_ofNat, Nat.mod_eq_of_lt (by omega)]
  · rw [popCount, bitsOf_setWidth, popCount]

theorem clzCount_onWords (f : Form) : (unaryOp clzCount).OnWords f fun _ a _ _ => a.clz := by
  refine unaryOp_onWords (op := fun _ a => a.clz) (fun a => ?_) (clzCount_eq_clz (by omega)) fun a => ?_
  · rw [clzCount_eq_clz (by omega), BitVec.ofNat_toNat, BitVec.setWidth_eq]
  · rw [clzCount, clzCount, BitVec.toNat_setWidth, Nat.mod_mod]

theorem bitRev_onWords (f : Form) : (unaryOp bitRev).OnWords f fun _ a _ _ => a.reverse := by
  refine unaryOp_onWords (op := fun _ a => a.reverse) ofNat_bitRev (fun a => ?_) fun a => ?_
  · have hlt : bitRev 32 a.toNat < 2 ^ 32 := by
      have h := ofBits_lt (bitsOf 32 a.toNat).reverse
      rwa [List.length_reverse, length_bitsOf] at h
    rw [← ofNat_bitRev, BitVec.toNat_ofNat, Nat.mod_eq_of_lt hlt]
  · rw [bitRev, bitsOf_setWidth, bitRev]

/-- R244: the instructions that count bits or turn them around. -/
theorem bitCounts : Claim.BitCounts := by
  intro i sub hi s ts hr
  rcases hi with ⟨rfl, ⟨g, a, d, rfl⟩ | ⟨g, x, rfl⟩⟩ | ⟨rfl, ⟨g, a, d, rfl⟩ | ⟨g, x, rfl⟩⟩ | ⟨rfl, ⟨g, a, d, rfl⟩ | ⟨g, x, rfl⟩⟩
  · exact congrArg Host.Outcome.next (State.alu_ready hr _ _ _ fun t _ s' _ => popCount_onWords _ _ t s')
  · exact congrArg Host.Outcome.next (State.alu_ready hr _ _ _ fun t _ s' _ => popCount_onWords _ _ t s')
  · exact congrArg Host.Outcome.next (State.alu_ready hr _ _ _ fun t _ s' _ => clzCount_onWords _ _ t s')
  · exact congrArg Host.Outcome.next (State.alu_ready hr _ _ _ fun t _ s' _ => clzCount_onWords _ _ t s')
  · exact congrArg Host.Outcome.next (State.alu_ready hr _ _ _ fun t _ s' _ => bitRev_onWords _ _ t s')
  · exact congrArg Host.Outcome.next (State.alu_ready hr _ _ _ fun t _ s' _ => bitRev_onWords _ _ t s')

/-! ## Bit fields (R246) -/

theorem intW_le (ty : Ty) : ty.intW ≤ 64 := by
  rcases intW_cases ty with h | h <;> omega

/-- The low byte and the next of an operand are its position and length. -/
theorem field_position (b : DWord) : (b.extractLsb' 0 8).toNat = b.toNat % 256 := by
  simp [BitVec.extractLsb'_toNat]

theorem field_length (b : DWord) : (b.extractLsb' 8 8).toNat = b.toNat / 256 % 256 := by
  simp [BitVec.extractLsb'_toNat, Nat.shiftRight_eq_div_pow]

/-- The bits of a field extended to a word of at least its length, in 64 bits. -/
theorem wrapInt_field {w l : Nat} (hw : w = 64 ∨ w = 32) (hl : l ≤ w) (sg : Bool) (x : BitVec l) (k : Nat) :
    (wrapInt w (wordVal sg x)).getLsbD k =
      (decide (k < w) && if k < l then x.getLsbD k else sg && x.getLsbD (l - 1)) := by
  have hx (v : Nat) (hv : l ≤ v) : (BitVec.ofInt v (wordVal sg x)).getLsbD k =
      (decide (k < v) && if k < l then x.getLsbD k else sg && x.getLsbD (l - 1)) := by
    rw [ofInt_wordVal_extend sg hv]
    cases sg
    · by_cases hk : k < l
      · simp [BitVec.getLsbD_setWidth, hk]
      · simp [BitVec.getLsbD_setWidth, hk, BitVec.getLsbD_of_ge x k (by omega)]
    · simp [BitVec.getLsbD_signExtend, BitVec.msb_eq_getLsbD_last]
  rcases hw with rfl | rfl
  · exact hx 64 hl
  · rw [wrapInt_32, BitVec.getLsbD_setWidth, hx 32 hl]
    by_cases hk : k < 32
    · simp [hk, show k < 64 by omega]
    · simp [hk]

/-- R246: the value that BFX gives. -/
def bfxValue (w : Nat) (sg : Bool) (a : DWord) (pos len : Nat) : DWord :=
  if len = 0 ∨ pos ≥ w then 0 else wrapInt w (wordVal sg (a.extractLsb' pos (min len (w - pos))))

/-- A field of a word as the integer that its signedness gives. -/
theorem wordVal_extract (sg : Bool) (a : DWord) (pos : Nat) {l : Nat} (hl : 0 < l) :
    let v := a.toNat / 2 ^ pos % 2 ^ l
    wordVal sg (a.extractLsb' pos l) = if sg ∧ v ≥ 2 ^ (l - 1) then (v : Int) - 2 ^ l else v := by
  intro v
  have hv : (a.extractLsb' pos l).toNat = v := by rw [BitVec.extractLsb'_toNat, Nat.shiftRight_eq_div_pow]
  have hp : 2 ^ l = 2 * 2 ^ (l - 1) := by rw [← pow_succ', Nat.sub_add_cancel hl]
  cases sg
  · simp [wordVal, hv]
  · simp only [wordVal, if_true, BitVec.toInt_eq_toNat_cond, hv, true_and]
    push_cast
    split_ifs <;> omega

theorem bfxOp_eq (f : Form) (o : Operands) (t : TRef) (s : State) : bfxOp f o t s =
    .ok (bfxValue f.x.ty.intW f.x.ty.signed o.a (o.b.toNat % 256) (o.b.toNat / 256 % 256)) f.x.ty.signed 0 := by
  simp only [bfxOp, field_position, field_length, bfxValue]
  split
  · rfl
  · rw [wordVal_extract _ _ _ (by omega)]

theorem fieldLen_le (w pos len : Nat) : fieldLen w pos len ≤ w := by
  unfold fieldLen
  split <;> omega

/-- The field is none where its length is 0 or its position is at or above the width. -/
theorem fieldLen_pos_iff (w pos len : Nat) : 0 < fieldLen w pos len ↔ ¬ (len = 0 ∨ pos ≥ w) := by
  unfold fieldLen
  split <;> omega

theorem fieldLen_of_pos {w pos len : Nat} (h : 0 < fieldLen w pos len) : min len (w - pos) = fieldLen w pos len := by
  unfold fieldLen at h ⊢
  split at h
  · omega
  · rw [if_neg ‹_›]

theorem getLsbD_bfxValue {w : Nat} (hw : w = 64 ∨ w = 32) (sg : Bool) (a : DWord) (pos len k : Nat) :
    (bfxValue w sg a pos len).getLsbD k = (decide (k < w) && decide (0 < fieldLen w pos len) &&
      if k < fieldLen w pos len then a.getLsbD (pos + k) else sg && a.getLsbD (pos + fieldLen w pos len - 1)) := by
  unfold bfxValue
  by_cases h : 0 < fieldLen w pos len
  · rw [if_neg ((fieldLen_pos_iff w pos len).mp h), fieldLen_of_pos h, wrapInt_field hw (fieldLen_le w pos len), decide_eq_true h,
      Bool.and_true, BitVec.getLsbD_extractLsb', BitVec.getLsbD_extractLsb', decide_eq_true (by omega : _ - 1 < _),
      Bool.true_and, Nat.add_sub_assoc h]
    by_cases hk : k < fieldLen w pos len
    · rw [if_pos hk, if_pos hk, decide_eq_true hk, Bool.true_and]
    · rw [if_neg hk, if_neg hk]
  · rw [if_pos (not_not.mp (mt (fieldLen_pos_iff w pos len).mpr h)), decide_eq_false h]
    simp

/-- R246: the value that BFI gives. -/
def bfiValue (w : Nat) (a b : DWord) (pos len : Nat) : DWord :=
  if len = 0 ∨ pos ≥ w then a
  else
    let l := min len (w - pos)
    BitVec.ofNat 64 (a.toNat - a.toNat / 2 ^ pos % 2 ^ l * 2 ^ pos + b.toNat % 2 ^ l * 2 ^ pos)

theorem bfiOp_eq (f : Form) (o : Operands) (t : TRef) (s : State) : bfiOp f o t s =
    .ok (bfiValue f.x.ty.intW o.a o.b (o.c.toNat % 256) (o.c.toNat / 256 % 256)) f.x.ty.signed 0 := by
  simp only [bfiOp, field_position, field_length, bfiValue]
  split <;> rfl

/-- Bits of a number whose field of `l` bits at `pos` is replaced. -/
theorem testBit_putField (a b pos l k : Nat) :
    (a - a / 2 ^ pos % 2 ^ l * 2 ^ pos + b % 2 ^ l * 2 ^ pos).testBit k =
      if pos ≤ k ∧ k < pos + l then b.testBit (k - pos) else a.testBit k := by
  have split3 : a = 2 ^ pos * (2 ^ l * (a / 2 ^ pos / 2 ^ l) + a / 2 ^ pos % 2 ^ l) + a % 2 ^ pos := by
    rw [Nat.div_add_mod, Nat.div_add_mod]
  have put : a - a / 2 ^ pos % 2 ^ l * 2 ^ pos + b % 2 ^ l * 2 ^ pos =
      2 ^ pos * (2 ^ l * (a / 2 ^ pos / 2 ^ l) + b % 2 ^ l) + a % 2 ^ pos := by
    have h1 (f : Nat) : 2 ^ pos * (2 ^ l * (a / 2 ^ pos / 2 ^ l) + f) = 2 ^ pos * (2 ^ l * (a / 2 ^ pos / 2 ^ l)) + f * 2 ^ pos := by ring
    rw [h1] at split3 ⊢
    omega
  have bits (f : Nat) (hf : f < 2 ^ l) : (2 ^ pos * (2 ^ l * (a / 2 ^ pos / 2 ^ l) + f) + a % 2 ^ pos).testBit k =
      if k < pos then (a % 2 ^ pos).testBit k else if k - pos < l then f.testBit (k - pos)
        else (a / 2 ^ pos / 2 ^ l).testBit (k - pos - l) := by
    rw [Nat.testBit_two_pow_mul_add _ (Nat.mod_lt _ (by positivity)), Nat.testBit_two_pow_mul_add _ hf]
  have hl : 0 < 2 ^ l := by positivity
  have ha := bits _ (Nat.mod_lt (a / 2 ^ pos) hl)
  rw [← split3] at ha
  rw [put, bits _ (Nat.mod_lt b hl), ha]
  by_cases h1 : k < pos
  · rw [if_pos h1, if_pos h1, if_neg (by omega)]
  · by_cases h2 : k - pos < l
    · rw [if_neg h1, if_pos h2, if_pos (by omega), Nat.testBit_mod_two_pow, decide_eq_true h2, Bool.true_and]
    · rw [if_neg h1, if_neg h2, if_neg h1, if_neg h2, if_neg (by omega)]

theorem getLsbD_bfiValue {w : Nat} (hw : w ≤ 64) (a b : DWord) (pos len k : Nat) :
    (bfiValue w a b pos len).getLsbD k =
      if pos ≤ k ∧ k < pos + fieldLen w pos len then b.getLsbD (k - pos) else a.getLsbD k := by
  unfold bfiValue
  by_cases h : 0 < fieldLen w pos len
  · have hle : pos + fieldLen w pos len ≤ 64 := by
      have := h
      unfold fieldLen at this ⊢
      split at this <;> rename_i hwp
      · omega
      · rw [if_neg hwp]; omega
    dsimp only
    rw [if_neg ((fieldLen_pos_iff w pos len).mp h), fieldLen_of_pos h, BitVec.getLsbD_ofNat, testBit_putField]
    by_cases hk : k < 64
    · rw [decide_eq_true hk, Bool.true_and]; rfl
    · rw [decide_eq_false hk, Bool.false_and, if_neg (by omega), BitVec.getLsbD_of_ge _ _ (by omega)]
  · rw [if_pos (not_not.mp (mt (fieldLen_pos_iff w pos len).mpr h)), if_neg (by omega)]

/-- R246: fields taken out and put in, and bytes picked. -/
theorem bitFields : Claim.BitFields := by
  refine ⟨fun g x s ts hr => ?_, fun g x s ts hr => ?_, fun g x s ts hr => ?_⟩
  · refine ⟨fun t => bfxValue x.ty.intW x.ty.signed (s.operands t (Instr.bfx g x).form).a
      ((s.operands t (Instr.bfx g x).form).b.toNat % 256) ((s.operands t (Instr.bfx g x).form).b.toNat / 256 % 256), ?_, ?_⟩
    · exact congrArg Host.Outcome.next (State.alu_ready hr _ _ _ fun t _ s' _ => bfxOp_eq _ _ t s')
    · exact fun t k => getLsbD_bfxValue (intW_cases _) _ _ _ _ k
  · refine ⟨fun t => bfiValue x.ty.intW (s.operands t (Instr.bfi g x).form).a (s.operands t (Instr.bfi g x).form).b
      ((s.operands t (Instr.bfi g x).form).c.toNat % 256) ((s.operands t (Instr.bfi g x).form).c.toNat / 256 % 256), ?_, ?_⟩
    · exact congrArg Host.Outcome.next (State.alu_ready hr _ _ _ fun t _ s' _ => bfiOp_eq _ _ t s')
    · exact fun t k => getLsbD_bfiValue (intW_le _) _ _ _ _ k
  · have hty : x.ty ∈ [Ty.b32] := type_mem_of_ok hr.ok
    have hw : (Instr.bpack g x).form.x.ty.intW ≠ 64 := by
      rw [show (Instr.bpack g x).form.x.ty = .b32 from List.mem_singleton.mp hty]
      decide
    have hn (v : BitVec 32) : ((v.setWidth 64).setWidth 32).setWidth 64 = v.setWidth 64 := by simp
    have hc (c : DWord) : (c.extractLsb' 0 2).toNat = c.toNat % 4 := by simp [BitVec.extractLsb'_toNat]
    refine congrArg Host.Outcome.next (State.alu_ready hr _ _ _ fun t _ s' _ => congrArg (fun v => AluOut.ok v _ _) ?_)
    have hd (p q r t : Byte) : (((t ++ r ++ q ++ p : BitVec 32).setWidth 64).setWidth 32).setWidth 64 =
        (t ++ r ++ q ++ p : BitVec 32).setWidth 64 := hn _
    rw [if_neg hw]
    unfold bpack
    simp only [hc]
    generalize s.operands t (Instr.bpack g x).form = o
    rw [show (Instr.bpack g x).form.x.sub.toNat = x.sub.toNat from rfl]
    generalize x.sub.toNat = n
    match n with
    | 0 | 1 | 2 | 3 | 4 => exact hd _ _ _ _
    | _ + 5 => exact hd _ _ _ _

/-- Settles O7: the counts of bits, the bit fields and the packed bytes. -/
theorem bitResults : Obligations.BitResults := ⟨bitCounts, bitFields⟩

end Sys2Proof.Machine
end

section
/-! SUPPORT. Compares, selects and predicate moves (R247). -/

namespace Sys2Proof.Machine

set_option Elab.async false

/-! ## Legal forms (R48) -/

/-- A legal form has a SUB that its opcode's rule admits. -/
theorem sub_of_ok {f : Form} (h : f.ok = true) : (opRule f.opc f.g f.x).sub = true := by
  simp only [Form.ok, Bool.and_eq_true] at h
  obtain ⟨⟨⟨⟨⟨⟨⟨⟨⟨⟨_, _⟩, _⟩, hs⟩, _⟩, _⟩, _⟩, _⟩, _⟩, _⟩, _⟩ := h
  exact hs

/-- A legal form has a destination that its opcode's rule admits. -/
theorem dst_of_ok {f : Form} (h : f.ok = true) : (opRule f.opc f.g f.x).d.ok (f.g.scope == .lane) f.x.dst = true := by
  simp only [Form.ok, Bool.and_eq_true] at h
  obtain ⟨⟨⟨⟨⟨⟨⟨⟨⟨⟨_, _⟩, _⟩, _⟩, _⟩, _⟩, _⟩, hd⟩, _⟩, _⟩, _⟩ := h
  exact hd

/-- A destination that may only be a vector register is one. -/
theorem vec_of_ok {u : DUse} {lane : Bool} {d : Dst} (h : u.ok lane d = true) (ha : u.absent = false) (hu : u.uni = false)
    (hp : u.pred = false) : ∃ n, d = .vec n := by
  cases d with
  | vec n => exact ⟨n, rfl⟩
  | uni n => simp [DUse.ok, ha, hu] at h
  | pred n => simp [DUse.ok, ha, hp] at h

/-- A destination that may only be a predicate is one. -/
theorem pred_of_ok {u : DUse} {lane : Bool} {d : Dst} (h : u.ok lane d = true) (ha : u.absent = false) (hu : u.uni = false)
    (hv : u.vec = false) : ∃ n, d = .pred n := by
  cases d with
  | vec n => simp [DUse.ok, ha, hv] at h
  | uni n => simp [DUse.ok, ha, hu] at h
  | pred n => exact ⟨n, rfl⟩

@[simp] theorem State.setFlags_zero (s : State) (t : TRef) : s.setFlags t 0 = s := rfl

theorem State.RunsAll.ok {s : State} {ts : List TRef} {i : Instr} (h : s.RunsAll ts i) : i.form.ok = true := by
  obtain ⟨t, ht⟩ := List.exists_mem_of_ne_nil _ h.some
  have hl := h.legal t ht
  simp only [State.legal, Bool.and_eq_true] at hl
  exact hl.1

/-! ## ICMP and ISEL -/

/-- The conditions of ICMP on words are those on the integers that they stand for. -/
theorem icmpHolds_wordVal {cond : Nat} (hc : cond ≤ 5) (sg : Bool) {w : Nat} (a b : BitVec w) :
    icmpHolds (cond % 8) (wordVal sg a) (wordVal sg b) = icmpWord cond sg a b := by
  have hinj : wordVal sg a = wordVal sg b ↔ a = b :=
    ⟨fun h => by rw [← ofInt_wordVal sg a, h, ofInt_wordVal], fun h => by rw [h]⟩
  have hlt (p q : BitVec w) : decide (wordVal sg p < wordVal sg q) = (if sg then p.slt q else p.ult q) := by
    rw [Bool.eq_iff_iff, decide_eq_true_eq, wordVal_lt_iff]
  have hle (p q : BitVec w) : decide (wordVal sg p ≤ wordVal sg q) = !(if sg then q.slt p else q.ult p) := by
    rw [← hlt, ← decide_not, decide_eq_decide, not_lt]
  rw [Nat.mod_eq_of_lt (by omega)]
  interval_cases cond
  · simp only [icmpHolds, icmpWord, hinj]; rfl
  · simp only [icmpHolds, icmpWord, ne_eq, hinj]
    simp [bne, BEq.beq]
  · exact hlt a b
  · exact hle a b
  · exact hlt b a
  · exact hle b a

theorem icmpOp_onWords {f : Form} (h5 : f.x.ty ∈ int5) (hc : f.x.sub.toNat ≤ 5) (o : Operands) (t : TRef) (s : State) :
    icmpOp f o t s = .ok (atWidth f.x.ty
      (fun w a b _ => if icmpWord f.x.sub.toNat f.x.ty.signed a b then 1#w else 0#w) o) false 0 := by
  refine congrArg (fun v => AluOut.ok v _ _) ?_
  rcases intW_cases f.x.ty with hw | hw
  · rw [atWidth_64 hw, intVal_64 hw, intVal_64 hw, icmpHolds_wordVal hc]; rfl
  · rw [atWidth_32 hw, intVal_32 h5 hw, intVal_32 h5 hw, icmpHolds_wordVal hc]
    split <;> rfl

/-- B is of the width that the rule of its form gives. -/
theorem State.operands_b_narrow {f : Form} (h : (opRule f.opc f.g f.x).b.w ≠ 64) (s : State) (t : TRef) :
    ((s.operands t f).b.setWidth 32).setWidth 64 = (s.operands t f).b := by
  simp only [State.operands]
  split
  · rfl
  · exact State.readSrc_narrow s t h _

theorem isel_atWidth (g : Guard) (x : XForm) (s : State) (t : TRef) (c : Bool) :
    let o := s.operands t (Instr.isel g x).form
    (if c then o.a else o.b) = atWidth x.ty (fun _ a b _ => if c then a else b) o := by
  intro o
  rcases intW_cases x.ty with hw | hw
  · rw [atWidth_64 hw]
  · have hne : x.ty.intW ≠ 64 := by omega
    have ha := State.operands_a_narrow (f := (Instr.isel g x).form) hne s t
    have hb := State.operands_b_narrow (f := (Instr.isel g x).form) hne s t
    rw [atWidth_32 hw, apply_ite (BitVec.setWidth 64), ha, hb]

/-- R247: ISEL with a uniform destination, where the select predicates of its members agree on `sel`. -/
theorem iselUniform_agree {g : Guard} {x : XForm} {s : State} {ts : List TRef} {n : BitVec 9} (sel : TRef → Bool)
    (hd : x.dst = .uni n) (h : s.RunsOnce ts (.isel g x)) (ha : ∀ t ∈ ts, ∀ w, sel ⟨w, 0⟩ = iselField s t x) :
    iselUniform (.isel g x) s = s.withResults ts (.isel g x) 4 fun t =>
      ⟨atWidth x.ty (fun _ a b _ => if sel t then a else b) (s.operands t (Instr.isel g x).form), x.ty.signed, 0⟩ := by
  obtain ⟨t0, ht0⟩ := List.exists_mem_of_ne_nil _ h.some
  have hp (w : Nat) : ∀ b ∈ s.cur.group.map fun t => iselPred (Instr.isel g x).form t s, b = sel ⟨w, 0⟩ := by
    intro b hb
    obtain ⟨t, ht, rfl⟩ := List.mem_map.mp hb
    exact (ha t (h.group ▸ ht) w).symm
  have hmem : iselPred (Instr.isel g x).form t0 s ∈ s.cur.group.map fun t => iselPred (Instr.isel g x).form t s :=
    List.mem_map_of_mem (h.group.symm ▸ ht0)
  have hall (w : Nat) : ((s.cur.group.map fun t => iselPred (Instr.isel g x).form t s).all id) = sel ⟨w, 0⟩ := by
    rw [Bool.eq_iff_iff, List.all_eq_true]
    exact ⟨fun hb => (hp w _ hmem).symm.trans (hb _ hmem), fun hw b hb => (hp w b hb).trans hw⟩
  have hagree : (((s.cur.group.map fun t => iselPred (Instr.isel g x).form t s).all id) ||
      (s.cur.group.map fun t => iselPred (Instr.isel g x).form t s).all not) = true := by
    cases hw : sel ⟨0, 0⟩ with
    | true => rw [hall 0, hw]; rfl
    | false =>
      rw [Bool.or_eq_true]
      exact .inr (List.all_eq_true.mpr fun b hb => by rw [hp 0 b hb, hw]; rfl)
  have hf : (Instr.isel g x).form.x.dst = .uni n := hd
  unfold iselUniform State.withResults
  simp only [hf]
  rw [State.onceFor_runs h, if_pos hagree, aluUniform_ok (i := .isel g x) _ _ (fun t =>
    ⟨atWidth x.ty (fun _ a b _ => if sel t then a else b) (s.operands t (Instr.isel g x).form), x.ty.signed, 0⟩), h.group]
  · rfl
  · intro w _
    rw [hall w]
    exact congrArg (fun v => AluOut.ok v _ _) (isel_atWidth g x s _ (sel ⟨w, 0⟩))

theorem compareAndSelect : Claim.CompareAndSelect := by
  refine ⟨fun i hi s ts hr => ?_, fun g x s ts sel hr hl hu => ?_⟩
  · have he : exec i s = .next (s.alu i latF4 icmpOp) := by
      rcases hi with ⟨g, b, a, d, rfl⟩ | ⟨g, x, rfl⟩ <;> rfl
    have ht : i.form.x.ty ∈ int4 := by
      have ht := type_mem_of_ok hr.ok
      rcases hi with ⟨g, b, a, d, rfl⟩ | ⟨g, x, rfl⟩ <;> exact ht
    have hs : decide (i.form.x.sub.toNat ≤ 5) = true := by
      have hs := sub_of_ok hr.ok
      rcases hi with ⟨g, b, a, d, rfl⟩ | ⟨g, x, rfl⟩ <;> exact hs
    exact he.trans (congrArg _ (State.alu_ready hr _ _ _ fun t _ s' _ =>
      icmpOp_onWords (int4_subset_int5 ht) (of_decide_eq_true hs) _ t s'))
  · have he : exec (.isel g x) s = .next (if x.dst.cls = 1 then iselUniform (.isel g x) s else s.alu (.isel g x) latF4 iselOp) := rfl
    rw [he]
    refine congrArg _ ?_
    by_cases hc : x.dst.cls = 1
    · obtain ⟨n, hd⟩ : ∃ n, x.dst = .uni n := by
        cases hx : x.dst with
        | uni n => exact ⟨n, rfl⟩
        | vec n => rw [hx] at hc; exact absurd hc (by decide : (0 : BitVec 2) ≠ 1)
        | pred n => rw [hx] at hc; exact absurd hc (by decide : (2 : BitVec 2) ≠ 1)
      have hf : (Instr.isel g x).form.x.dst = .uni n := hd
      unfold State.Ready at hr
      simp only [hf] at hr
      rw [if_pos hc, iselUniform_agree sel hd hr (hu hc)]
    · rw [if_neg hc]
      refine State.alu_ready hr _ _ _ fun t _ s' ha => ?_
      have hp : iselPred (Instr.isel g x).form t s' = sel t := by
        rw [hl t hc]
        unfold iselPred iselField
        rw [ha.pred]
        rfl
      unfold iselOp
      rw [hp]
      exact congrArg (fun v => AluOut.ok v _ _) (isel_atWidth g x s t (sel t))

/-! ## QOP and MOVQ -/

theorem qopOp_eq (f : Form) (o : Operands) (t : TRef) (s : State) : qopOp f o t s =
    .ok (if qopWord f.x.sub.toNat (qopField s t f.x.a) (qopField s t f.x.b) (qopField s t f.x.c) then 1 else 0) false 0 := by
  unfold qopOp qopWord
  rw [show qopRead f.x.a t s = qopField s t f.x.a from rfl, show qopRead f.x.b t s = qopField s t f.x.b from rfl,
    show qopRead f.x.c t s = qopField s t f.x.c from rfl]
  refine congrArg (fun r => AluOut.ok (if r = true then 1 else 0) _ _) ?_
  generalize qopField s t f.x.a = a, qopField s t f.x.b = b, qopField s t f.x.c = c, f.x.sub.toNat = n
  match n with
  | 0 | 1 | 4 | 5 => rfl
  | 2 => cases a <;> cases b <;> rfl
  | 3 => cases a <;> rfl
  | _ + 6 => rfl

theorem State.Alike.qopField {s s' : State} {ts : List TRef} (h : s.Alike ts s') (t : TRef) (src : Src) :
    qopField s' t src = qopField s t src := by
  unfold Machine.qopField
  rw [h.pred]

/-- R247: the byte that MOVQ.pack gives: q0 to q6, and q7, which is true. -/
def packed (s : State) (t : TRef) : Word := BitVec.ofNat 32 (ofBits ((List.range 8).map fun q => (s.warp t.warp).pred t.lane q))

theorem getLsbD_packed (s : State) (t : TRef) (k : Nat) :
    (packed s t).getLsbD k = (decide (k < 8) && (s.warp t.warp).pred t.lane k) := by
  rw [packed, BitVec.getLsbD_ofNat, testBit_ofBits]
  by_cases hk : k < 8
  · rw [decide_eq_true hk, decide_eq_true (by omega), List.getD_eq_getElem _ _ (by simpa using hk)]
    simp
  · rw [decide_eq_false hk, List.getD_eq_default _ _ (by simpa using hk)]
    simp

theorem movqPack_all {i : Instr} {s : State} {ts : List TRef} (h : s.RunsAll ts i) (hd : (opRule i.form.opc i.form.g i.form.x).d = Use.vecD 32)
    (ho : readsOnce i.form.opc = false) : s.alu i latF4 movqPackOp = s.retireEach ts i fun t s' =>
      s'.writeFixed t.warp 4 [(.vec i.form.x.dst.num.toNat t.lane, (packed s t).setWidth 64)] := by
  obtain ⟨n, hn⟩ := vec_of_ok (dst_of_ok h.ok) (by rw [hd]; rfl) (by rw [hd]; rfl) (by rw [hd]; rfl)
  have hv (t : TRef) : aluWrites i.form t.lane (BitVec.ofNat 64 (ofBits ((List.range 8).map fun q => (s.warp t.warp).pred t.lane q)))
      false = [(.vec i.form.x.dst.num.toNat t.lane, (packed s t).setWidth 64)] := by
    have hw : (BitVec.ofNat 64 (ofBits ((List.range 8).map fun q => (s.warp t.warp).pred t.lane q))).setWidth 32 = packed s t := by
      rw [BitVec.setWidth_ofNat_of_le (by omega)]; rfl
    have hr : (opRule i.form.opc i.form.g i.form.x).d.regs ≠ 2 := by rw [hd]; decide
    simp only [aluWrites, hn, dstWrites, if_neg hr, hw]
    rfl
  rw [State.alu_all h (fun hr => absurd hr (by rw [ho]; decide)) _ _ (by rw [hn]; exact fun _ => nofun)
    (fun t => BitVec.ofNat 64 (ofBits ((List.range 8).map fun q => (s.warp t.warp).pred t.lane q))) (fun _ => false) (fun _ => 0)]
  · simp only [hv, State.setFlags_zero]; rfl
  · intro t _ _ s' ha
    unfold movqPackOp
    simp only [ha.pred]

theorem predicateMoves : Claim.PredicateMoves := by
  refine ⟨fun g x s ts hr => ?_, fun i hi s ts hr => ?_, fun i hi s ts hr => ?_⟩
  · obtain ⟨n, hn⟩ := pred_of_ok (dst_of_ok hr.ok) rfl rfl rfl
    have hx : x.dst = .pred n := hn
    have hw (t : TRef) (b : Bool) : aluWrites (Instr.qop g x).form t.lane (if b then 1 else 0) false =
        [(.pred t.lane x.dst.num.toNat, if b then 1 else 0)] := by
      simp only [aluWrites, hn, dstWrites, hx]
      cases b <;> rfl
    refine congrArg Host.Outcome.next ((State.alu_all hr (fun h => absurd h (by decide : ¬ readsOnce 0x2D = true)) _ _ (by rw [hn]; exact fun _ => nofun)
      (fun t => if qopWord x.sub.toNat (qopField s t x.a) (qopField s t x.b) (qopField s t x.c) then 1 else 0)
      (fun _ => false) (fun _ => 0) fun t _ _ s' ha => ?_).trans ?_)
    · rw [qopOp_eq, ha.qopField, ha.qopField, ha.qopField]; rfl
    · simp only [hw, State.setFlags_zero]; rfl
  · refine ⟨packed s, ?_, getLsbD_packed s⟩
    rcases hi with ⟨g, d, rfl⟩ | ⟨g, x, rfl, hx⟩
    · exact congrArg Host.Outcome.next (movqPack_all hr rfl rfl)
    · have he : exec (.movqX g x) s = .next (s.alu (.movqX g x) latF4 movqPackOp) := congrArg Host.Outcome.next (if_pos hx)
      rw [he, movqPack_all hr (by simp [opRule, Instr.form, Instr.form?, hx]) rfl]
  · have he : exec i s = .next (s.eachThread i movqUnpackEff) := by
      rcases hi with ⟨g, a, rfl⟩ | ⟨g, x, rfl, hx⟩
      · rfl
      · exact congrArg Host.Outcome.next (if_neg (by rw [hx]; decide))
    rw [he]
    refine congrArg _ (State.eachThread_all hr _ (fun t s' => s'.writeFixed t.warp 4 ((List.range 7).map fun q =>
      (.pred t.lane q, if (s.operands t i.form).a.getLsbD q then 1 else 0))) _ (fun _ _ _ _ _ => .inl ⟨rfl, rfl⟩) ?_)
    exact fun t _ us s' _ ha => ha.writeFixed _ _ _

/-- Settles O8: compares, selects and predicate moves. -/
theorem comparisonResults : Obligations.ComparisonResults := ⟨compareAndSelect, predicateMoves⟩

end Sys2Proof.Machine
end

section
/-! SUPPORT. Float, conversion, quantising, special-register and time instructions (R249 to R258, R342, R348): what they read
is the same for each thread of the group, whichever threads have had their effect before. -/

namespace Sys2Proof.Machine

set_option Elab.async false

theorem State.Alike.flush {ts : List TRef} {s s' : State} (h : s.Alike ts s') (t : TRef) : s'.flush t = s.flush t := by
  simp only [State.flush, State.grid, h.grids, h.grid_eq]

theorem State.Alike.fmtOf {ts : List TRef} {s s' : State} (h : s.Alike ts s') (t : TRef) (f : Form) :
    s'.fmtOf t f = s.fmtOf t f := by
  simp only [State.fmtOf, State.block, h.blocks, h.block_eq]

theorem State.Alike.sideFmt {ts : List TRef} {s s' : State} (h : s.Alike ts s') (ty : Ty) (f : Form) (t : TRef) :
    sideFmt ty f t s' = sideFmt ty f t s := by
  simp only [Machine.sideFmt, h.fmtOf]

theorem State.Alike.quantFmt {ts : List TRef} {s s' : State} (h : s.Alike ts s') (f : Form) (t : TRef) :
    quantFmt f t s' = quantFmt f t s := by
  simp only [Machine.quantFmt, h.fmtOf]

/-- An operation whose result another thread's effect does not change. -/
def AluOp.Local (op : AluOp) : Prop :=
  ∀ (f : Form) (o : Operands) (t : TRef) (s s' : State), s.Alike [t] s' → op f o t s' = op f o t s

theorem floatOp_local (g : Bool → Fmt → Rnd → Bool → Nat → Nat → Nat → Nat × FFlags) : (floatOp g).Local :=
  fun _ _ _ _ _ h => by simp only [floatOp, h.flush]

theorem packedOp_local (g : Bool → Fmt → Rnd → Bool → Nat → Nat → Nat → Nat × FFlags) : (packedOp g).Local :=
  fun _ _ _ _ _ h => by simp only [packedOp, h.flush]

theorem fcmpOp_local : fcmpOp.Local := fun _ _ _ _ _ h => by simp only [fcmpOp, h.flush]

theorem dot4Op_local : dot4Op.Local := fun _ _ _ _ _ h => by simp only [dot4Op, dotNarrow, h.flush, h.fmtOf]

theorem cvtfOp_local : cvtfOp.Local := fun _ _ _ _ _ h => by simp only [cvtfOp, h.flush, h.sideFmt]

theorem cvtfiOp_local : cvtfiOp.Local := fun _ _ _ _ _ h => by simp only [cvtfiOp, h.flush, h.sideFmt]

theorem cvtifOp_local : cvtifOp.Local := fun _ _ _ _ _ h => by simp only [cvtifOp, h.flush, h.sideFmt]

theorem quantOp_local : quantOp.Local := fun _ _ _ _ _ h => by simp only [quantOp, h.flush, h.quantFmt]

theorem deqOp_local : deqOp.Local := fun _ _ _ _ _ h => by simp only [deqOp, h.flush, h.quantFmt]

theorem timeOp_local : timeOp.Local := fun _ _ _ _ _ h => by
  simp only [timeOp, State.grid, State.common, State.die, h.grids, h.dies, h.grid_eq, h.icount_eq, h.core_eq]
  rfl

/-- The instructions that `computesOf` lists are its operation, after its latency. -/
theorem exec_of_computesOf {i : Instr} {lat : Nat} {op : AluOp} (h : computesOf i = some (lat, op)) (s : State) :
    exec i s = .next (s.alu i lat op) := by
  unfold computesOf at h
  split at h <;> cases h <;> rfl

theorem local_of_computesOf {i : Instr} {lat : Nat} {op : AluOp} (h : computesOf i = some (lat, op)) : op.Local := by
  unfold computesOf at h
  split at h <;> cases h
  case h_11 | h_12 => exact fcmpOp_local
  case h_29 | h_30 | h_31 | h_32 | h_33 | h_34 => exact packedOp_local _
  case h_35 | h_36 => exact dot4Op_local
  case h_37 | h_38 => exact cvtfOp_local
  case h_39 | h_40 => exact cvtfiOp_local
  case h_41 | h_42 => exact cvtifOp_local
  case h_43 => exact quantOp_local
  case h_44 => exact deqOp_local
  -- RDSR reads its operand alone
  case h_45 | h_46 => exact fun _ _ _ _ _ _ => rfl
  case h_47 | h_48 => exact timeOp_local
  all_goals exact floatOp_local _

/-- Settles O10: float, conversion, quantising, special-register and time instructions complete with their operation's result. -/
theorem computedResults : Obligations.ComputedResults := by
  intro i lat op hi s ts r hr ho
  rw [exec_of_computesOf hi]
  exact congrArg _ (State.alu_ready hr _ _ _ fun t ht s' ha => (local_of_computesOf hi _ _ _ _ _ ha).trans (ho t ht))

end Sys2Proof.Machine
end

section
/-! SUPPORT. Rounding (R231 to R233): the grid of a format, and the values that lie on it. -/

namespace Sys2Proof.Machine

set_option Elab.async false

/-! ## The grid (R223, R224) -/

/-- The largest magnitude of a sign. -/
def Fmt.limit (f : Fmt) (neg : Bool) : Nat := if neg then f.maxNegIdx else f.maxIdx

/-- A magnitude of the grid lies at its own number. -/
theorem Fmt.floorIdx_ofIdx (f : Fmt) {i : Nat} (hi : i ≠ 0) : f.floorIdx (f.ofIdx i).1 (f.ofIdx i).2 false = (i, true, .lt) := by
  unfold Fmt.ofIdx
  by_cases he : f.exp = 0
  · simp [Fmt.floorIdx, he, hi]
  · rw [if_neg he]
    by_cases hs : i < 2 ^ f.man
    · have hlog : Nat.log2 i < f.man := (Nat.log2_lt hi).mpr hs
      rw [if_pos hs]
      have htop : (Nat.log2 i : Int) + (1 - f.bias - f.man) < 1 - f.bias := by omega
      simp [Fmt.floorIdx, he, hi, max_eq_right htop.le, htop]
    · rw [if_neg hs]
      have hpos : 0 < i / 2 ^ f.man := Nat.div_pos (not_lt.mp hs) (Nat.two_pow_pos _)
      have hr : i % 2 ^ f.man < 2 ^ f.man := Nat.mod_lt i (Nat.two_pow_pos _)
      have hsum : i / 2 ^ f.man * 2 ^ f.man + i % 2 ^ f.man = i := Nat.div_add_mod' i _
      generalize i / 2 ^ f.man = q at hpos hsum
      generalize i % 2 ^ f.man = r at hr hsum
      have hm : 2 ^ f.man + r ≠ 0 := by positivity
      have hlog : Nat.log2 (2 ^ f.man + r) = f.man := by
        rw [Nat.log2_eq_iff hm, pow_succ]
        omega
      have htop : ((f.man : Nat) : Int) + ((q : Nat) - f.bias - f.man) = (q : Nat) - f.bias := by ring
      have hge : ¬ (q : Int) - f.bias < 1 - f.bias := by omega
      simp only [Fmt.floorIdx, if_neg hm, hlog, htop, he, if_false, max_eq_left (not_lt.mp hge), hge, or_self]
      simp [hsum]

/-- A magnitude of the grid that its sign has rounds to its own number, in every mode, and sets no flag (R232). -/
theorem roundTo_ofIdx {f : Fmt} {n : Bool} {i : Nat} (hi : i ≠ 0) (hn : n = true → f.sgn = true) (hl : i ≤ f.limit n)
    (mode : Rnd) (sat : Bool) : roundTo f mode sat (.fin n (f.ofIdx i).1 (f.ofIdx i).2 false) = (f.code n i, 0) := by
  have hm : (f.ofIdx i).1 ≠ 0 := by
    unfold Fmt.ofIdx
    have := Nat.two_pow_pos f.man
    split_ifs <;> simp only <;> omega
  have hs : (!f.sgn && n) = false := by
    cases n
    · simp
    · simp [hn rfl]
  have hlim : i ≤ if n = true then f.maxNegIdx else f.maxIdx := hl
  simp only [roundTo, f.floorIdx_ofIdx hi]
  simp [hm, hs, roundsUp, hlim, flagIf]

/-! ## Codes (R219, R223) -/

/-- What every wide and predefined narrow format is: an integer format has neither a NaN nor infinities, and SPEC is below 3. -/
def Fmt.Sound (f : Fmt) : Prop := (f.exp = 0 → f.spec = 0) ∧ f.spec ≤ 2

theorem Fmt.sound_of_named {f : Fmt} (h : f ∈ [fp32, fp16, bf16] ∨ ∃ k w, predefined k = some w ∧ f = Fmt.ofWord w) :
    f.Sound := by
  unfold Fmt.Sound
  rcases h with h | ⟨k, w, hk, rfl⟩
  · simp only [List.mem_cons, List.not_mem_nil, or_false] at h
    rcases h with rfl | rfl | rfl <;> decide
  · unfold predefined at hk
    split at hk <;> cases hk <;> decide

/-- A code that is neither a NaN nor an infinity is at most the largest magnitude (R223, R224). -/
theorem Fmt.le_maxIdx {f : Fmt} (hs : f.spec ≤ 2) {i : Nat} (hi : i < 2 ^ (f.exp + f.man))
    (hnan : ¬ (f.spec = 1 ∧ i = 2 ^ (f.exp + f.man) - 1)) (hinf : ¬ (f.spec = 2 ∧ i / 2 ^ f.man = 2 ^ f.exp - 1)) :
    i ≤ f.maxIdx := by
  unfold Fmt.maxIdx
  have h3 : f.spec = 0 ∨ f.spec = 1 ∨ f.spec = 2 := by omega
  rcases h3 with h | h | h <;> rw [h]
  · change i ≤ 2 ^ (f.exp + f.man) - 1
    omega
  · change i ≤ 2 ^ (f.exp + f.man) - 2
    have : i ≠ 2 ^ (f.exp + f.man) - 1 := fun e => hnan ⟨h, e⟩
    omega
  · change i ≤ (2 ^ f.exp - 1) * 2 ^ f.man - 1
    have hne : i / 2 ^ f.man ≠ 2 ^ f.exp - 1 := fun e => hinf ⟨h, e⟩
    have hq : i / 2 ^ f.man < 2 ^ f.exp := Nat.div_lt_of_lt_mul (by rwa [← pow_add, add_comm])
    have hlt : i < (2 ^ f.exp - 1) * 2 ^ f.man := (Nat.div_lt_iff_lt_mul (Nat.two_pow_pos _)).mp (by omega)
    omega

/-- A code that is neither a NaN nor an infinity has its sign above its magnitude's number (R219, R223). -/
theorem Fmt.code_of_parts {f : Fmt} (he : f.exp ≠ 0) {c : Nat} (hc : c < 2 ^ f.width) :
    f.code (f.sgn && decide (c ≥ 2 ^ (f.exp + f.man))) (c % 2 ^ (f.exp + f.man)) = c := by
  unfold Fmt.width at hc
  unfold Fmt.code
  rw [if_neg he]
  cases hsg : f.sgn with
  | false =>
    have hlt : c < 2 ^ (f.exp + f.man) := by simpa [hsg] using hc
    simp [Nat.mod_eq_of_lt hlt]
  | true =>
    have hlt : c < 2 * 2 ^ (f.exp + f.man) := by
      rw [← pow_succ', show f.exp + f.man + 1 = 1 + f.exp + f.man by omega]
      simpa [hsg] using hc
    by_cases hge : c ≥ 2 ^ (f.exp + f.man)
    · rw [Nat.mod_eq_sub_mod hge, Nat.mod_eq_of_lt (by omega)]
      simp [hge]
    · rw [Nat.mod_eq_of_lt (not_le.mp hge)]
      simp [hge]

/-- A code of a finite value is that of a number of the grid, which its sign has. -/
theorem Fmt.decode_fin {f : Fmt} (hf : f.Sound) {c : Nat} (hc : c < 2 ^ f.width) {n : Bool} {m : Nat} {e : Int} {st : Bool}
    (h : f.decode c = .fin n m e st) :
    ∃ i, f.ofIdx i = (m, e) ∧ i ≤ f.limit n ∧ (n = true → f.sgn = true) ∧ f.code n i = c := by
  obtain ⟨hspec0, hspec⟩ := hf
  unfold Fmt.decode at h
  simp only [Nat.mod_eq_of_lt hc] at h
  unfold Fmt.width at hc
  by_cases he : f.exp = 0
  · rw [if_pos he] at h
    have hmax : f.maxIdx = 2 ^ f.man - 1 := by simp [Fmt.maxIdx, hspec0 he, he]
    by_cases hneg : f.sgn = true ∧ c ≥ 2 ^ f.man
    · rw [if_pos hneg] at h
      obtain ⟨hsg, hge⟩ := hneg
      cases h
      have hw : 2 ^ f.width = 2 ^ (f.man + 1) := by simp [Fmt.width, hsg, he, add_comm]
      have hlt : c < 2 ^ (f.man + 1) := by
        simpa [hsg, he, add_comm] using hc
      refine ⟨2 ^ (f.man + 1) - c, by simp [Fmt.ofIdx, he], ?_, fun _ => hsg, ?_⟩
      · simp only [Fmt.limit, Fmt.maxNegIdx, he, hsg]
        simp
        omega
      · rw [Fmt.code, if_pos he, hw, if_pos ⟨rfl, by omega⟩]
        omega
    · rw [if_neg hneg] at h
      cases h
      refine ⟨c, by simp [Fmt.ofIdx, he], ?_, nofun, by simp [Fmt.code, he]⟩
      have hlt : c < 2 ^ f.man := by
        cases hsg : f.sgn with
        | false => simpa [hsg, he] using hc
        | true => exact not_le.mp fun hge => hneg ⟨hsg, hge⟩
      simp only [Fmt.limit, hmax]
      simp
      omega
  · rw [if_neg he] at h
    split at h
    · cases h
    rename_i hnan
    split at h
    · split at h <;> cases h
    rename_i hinf
    cases h
    have hlt : c % 2 ^ (f.exp + f.man) < 2 ^ (f.exp + f.man) := Nat.mod_lt _ (Nat.two_pow_pos _)
    refine ⟨c % 2 ^ (f.exp + f.man), rfl, ?_, fun h => (Bool.and_eq_true_iff.mp h).1, ?_⟩
    · simpa [Fmt.limit, Fmt.maxNegIdx, he] using Fmt.le_maxIdx hspec hlt hnan hinf
    · exact Fmt.code_of_parts he hc

theorem representableExact : Claim.RepresentableExact := by
  intro f hf mode sat c n m e hc hd
  obtain ⟨i, hi, hl, hn, hcode⟩ := Fmt.decode_fin (Fmt.sound_of_named hf) hc hd
  by_cases h0 : i = 0
  · subst h0
    have hm : m = 0 := by
      have hz : (f.ofIdx 0).1 = 0 := by
        unfold Fmt.ofIdx
        have := Nat.two_pow_pos f.man
        split_ifs <;> rfl
      rw [hi] at hz
      exact hz
    simp [roundTo, hm, hcode]
  · have h := roundTo_ofIdx h0 hn hl mode sat
    rwa [hi, hcode] at h

theorem roundingTable : Claim.RoundingTable := by
  refine ⟨?_, ?_, ?_, ?_, ?_, ?_, ?_, ?_, ?_⟩ <;> decide

/-- Settles O11: the table of R233, and representable values round to themselves. -/
theorem roundedResults : Obligations.RoundedResults := ⟨roundingTable, representableExact⟩

end Sys2Proof.Machine
end

section
/-! SUPPORT. Subnormals flushed, comparisons, and conversions to integers (R220, R251, R256). -/

namespace Sys2Proof.Machine

set_option Elab.async false

/-! ## Flushed results (R220) -/

/-- A flushed result of a wide format is a zero or no subnormal. -/
theorem flushOut_normal {f : Fmt} (hf : f.wide = true) (r : Nat × FFlags) :
    (flushOut true f r).1 % 2 ^ (f.exp + f.man) = 0 ∨ 2 ^ f.man ≤ (flushOut true f r).1 % 2 ^ (f.exp + f.man) := by
  unfold flushOut
  by_cases h : r.1 % 2 ^ (f.exp + f.man) ≠ 0 ∧ r.1 % 2 ^ (f.exp + f.man) < 2 ^ f.man
  · left
    simp only [hf, h, Bool.and_self, decide_true, ne_eq, not_false_eq_true, and_self, if_true]
    exact Nat.sub_mod_eq_zero_of_mod_eq (Nat.mod_mod _ _).symm
  · simp only [hf, decide_eq_false h, Bool.and_false, Bool.false_eq_true, if_false]
    omega

theorem roundSum_normal {f : Fmt} (hf : f.wide = true) (mode : Rnd) (sat : Bool) (ts : List FVal) (nv : Bool) :
    (roundSum true f mode sat ts nv).1 % 2 ^ (f.exp + f.man) = 0 ∨
      2 ^ f.man ≤ (roundSum true f mode sat ts nv).1 % 2 ^ (f.exp + f.man) :=
  flushOut_normal hf _

theorem wide_of_mem {f : Fmt} (hf : f ∈ [fp32, fp16, bf16]) : f.wide = true := by
  simp only [List.mem_cons, List.not_mem_nil, or_false] at hf
  rcases hf with rfl | rfl | rfl <;> rfl

/-- Settles O12: sums, products and fused multiply-adds round their exact sum under the flush bit. -/
theorem flushedResults : Obligations.FlushedResults := fun _ hf _ _ _ _ _ =>
  ⟨roundSum_normal (wide_of_mem hf) _ _ _ _, roundSum_normal (wide_of_mem hf) _ _ _ _, roundSum_normal (wide_of_mem hf) _ _ _ _⟩

/-- Refutes O13: FRND of +0 raises nothing, though the other operand that the statement speaks of is a signalling NaN. -/
theorem not_minMaxCompareClass : ¬ Obligations.MinMaxCompareClass := by
  intro h
  obtain ⟨_, _, _, _, _, _, _, hfrnd⟩ := h fp16 (by decide) 0 0x7C01 (by decide) (by decide)
  obtain ⟨hnv, _⟩ := hfrnd .rn
  exact absurd hnv (by decide)

/-! ## Conversions to integers (R231, R256) -/

/-- The integer of a sign and a magnitude. -/
theorem signed_eq (n : Bool) (v : Nat) : (if n = true then -(v : Int) else (v : Int)) = (if n = true then -1 else 1) * (v : Int) := by
  cases n <;> simp

/-- R256: a finite value that rounds to an integer. -/
theorem fToInt_of_toIntegral {mode : Rnd} {n : Bool} {m : Nat} {e : Int} {v : Nat} {nx : Bool}
    (h : toIntegral mode n m e = (v, nx)) (signed : Bool) (w : Nat) (st : Bool) :
    let hi : Int := if signed then 2 ^ (w - 1) - 1 else 2 ^ w - 1
    let lo : Int := if signed then -2 ^ (w - 1) else 0
    let i : Int := (if n then -1 else 1) * v
    fToInt signed w mode (.fin n m e st) =
      if hi < i then (hi, nvFlag) else if i < lo then (lo, nvFlag) else (i, flagIf nx nxFlag) := by
  simp only [fToInt, h, signed_eq, gt_iff_lt]

theorem toIntegral_of_nonneg (mode : Rnd) (n : Bool) (m k : Nat) : toIntegral mode n m k = (m * 2 ^ k, false) := by
  simp [toIntegral]

/-- Whether a quotient is rounded up, by what its remainder is against half of 2^k (R231). -/
def RoundsAway (mode : Rnd) (n : Bool) (k q r : Nat) : Prop :=
  match mode with
  | .rn => 2 ^ k < 2 * r ∨ (2 * r = 2 ^ k ∧ q % 2 = 1)
  | .rz => False
  | .rm => n = true ∧ r ≠ 0
  | .rp => n = false ∧ r ≠ 0
  | .ra => r ≠ 0 ∧ 2 ^ k ≤ 2 * r

theorem roundsUp_iff {k : Nat} (hk : 0 < k) (mode : Rnd) (n : Bool) (q r : Nat) :
    roundsUp mode n q (r == 0) (compare r (2 ^ (k - 1))) = true ↔ RoundsAway mode n k q r := by
  have hp : 2 ^ k = 2 * 2 ^ (k - 1) := by rw [← pow_succ', Nat.sub_add_cancel hk]
  have hpos : 0 < 2 ^ (k - 1) := Nat.two_pow_pos _
  generalize 2 ^ (k - 1) = half at hp hpos
  have hcmp : compare r half = .gt ∧ half < r ∨ compare r half = .eq ∧ r = half ∨ compare r half = .lt ∧ r < half := by
    rcases Nat.lt_trichotomy r half with h | h | h
    · exact .inr (.inr ⟨Nat.compare_eq_lt.mpr h, h⟩)
    · exact .inr (.inl ⟨Nat.compare_eq_eq.mpr h, h⟩)
    · exact .inl ⟨Nat.compare_eq_gt.mpr h, h⟩
  unfold RoundsAway
  rw [hp]
  by_cases hr : r = 0
  · subst hr
    cases mode <;> simp [roundsUp]
    all_goals omega
  · rcases hcmp with ⟨hc, h⟩ | ⟨hc, h⟩ | ⟨hc, h⟩ <;> cases mode <;> simp [roundsUp, hr, hc] <;> omega

theorem toIntegral_of_neg {k : Nat} (hk : 0 < k) (mode : Rnd) (n : Bool) (m : Nat) : toIntegral mode n m (-(k : Int)) =
    (if roundsUp mode n (m / 2 ^ k) (m % 2 ^ k == 0) (compare (m % 2 ^ k) (2 ^ (k - 1))) then m / 2 ^ k + 1 else m / 2 ^ k,
      m % 2 ^ k != 0) := by
  have hneg : ¬ (0 : Int) ≤ -(k : Int) := by omega
  simp only [toIntegral, if_neg hneg, neg_neg, Int.toNat_natCast]

/-- A whole number is not rounded. -/
theorem not_roundsAway_one (mode : Rnd) (n : Bool) (q : Nat) : ¬ RoundsAway mode n 0 q 0 := by
  cases mode <;> simp [RoundsAway]

/-- The magnitude that a finite value rounds to. -/
theorem toIntegral_of_rounds {mode : Rnd} {n : Bool} {m k v : Nat} (hv : (RoundsAway mode n k (m / 2 ^ k) (m % 2 ^ k) ∧
    v = m / 2 ^ k + 1) ∨ (¬RoundsAway mode n k (m / 2 ^ k) (m % 2 ^ k) ∧ v = m / 2 ^ k)) :
    toIntegral mode n m (-(k : Int)) = (v, m % 2 ^ k != 0) := by
  by_cases hk : k = 0
  · subst hk
    rw [pow_zero, Nat.mod_one, Nat.div_one] at hv
    have h : v = m := (hv.resolve_left fun h => not_roundsAway_one mode n m h.1).2
    simp [toIntegral, h, Nat.mod_one]
  · rw [toIntegral_of_neg (Nat.pos_of_ne_zero hk)]
    rcases hv with ⟨hup, rfl⟩ | ⟨hup, rfl⟩
    · rw [if_pos ((roundsUp_iff (Nat.pos_of_ne_zero hk) ..).mpr hup)]
    · rw [if_neg (mt (roundsUp_iff (Nat.pos_of_ne_zero hk) ..).mp hup)]

/-- Settles O14: a conversion to an integer rounds by its mode and clamps. -/
theorem conversionClamps : Obligations.ConversionClamps := by
  intro signed w _ mode hi lo
  refine ⟨fun _ => rfl, fun _ => rfl, fun n m k => ?_, fun n m k => ?_⟩
  · exact fToInt_of_toIntegral (toIntegral_of_nonneg mode n m k) signed w false
  · intro q r up v hv i
    have hflag : flagIf (r != 0) nxFlag = if r = 0 then 0 else nxFlag := by
      by_cases h : r = 0 <;> simp [flagIf, h]
    rw [← hflag]
    exact fToInt_of_toIntegral (toIntegral_of_rounds hv) signed w false

end Sys2Proof.Machine
end

section
/-! SUPPORT. Arithmetic and transcendentals on NaNs, infinities and zeros (R220, R249, R253). -/

namespace Sys2Proof.Machine

set_option Elab.async false

/-! ## NaNs (R220, R249) -/

/-- A NaN rounds to the canonical one, flush bit or not. -/
theorem roundV_nan {f : Fmt} (hf : f ∈ [fp32, fp16, bf16]) (fl : Bool) (mode : Rnd) (sat : Bool) :
    roundV fl f mode sat (.nan false) = (f.nanCode, 0) := by
  simp only [List.mem_cons, List.not_mem_nil, or_false] at hf
  rcases hf with rfl | rfl | rfl <;> cases fl <;> rfl

/-- A sum that is a NaN: the canonical code, with the flag where the terms or the products raise it. -/
theorem roundSum_nan {f : Fmt} (hf : f ∈ [fp32, fp16, bf16]) (fl : Bool) {mode : Rnd} (sat : Bool) {ts : List FVal} {n : Bool}
    (h : sumTerms mode ts = (.nan false, n)) (nv : Bool) :
    roundSum fl f mode sat ts nv = (f.nanCode, flagIf (nv || n) nvFlag) := by
  simp only [roundSum, h, roundV_nan hf]
  simp

theorem sumTerms_of_nan {mode : Rnd} {ts : List FVal} (h : ts.any FVal.isNan = true) :
    sumTerms mode ts = (.nan false, ts.any FVal.isSignalling) := by
  unfold sumTerms
  rw [if_pos h]

/-! ## What the flush bit leaves alone -/

@[simp] theorem isNan_flushIn (fl : Bool) (f : Fmt) (v : FVal) : (flushIn fl f v).isNan = v.isNan := by
  cases v <;> simp only [flushIn]
  split <;> rfl

@[simp] theorem isSignalling_flushIn (fl : Bool) (f : Fmt) (v : FVal) : (flushIn fl f v).isSignalling = v.isSignalling := by
  cases v <;> simp only [flushIn]
  split <;> rfl

@[simp] theorem isInf_flushIn (fl : Bool) (f : Fmt) (v : FVal) : (flushIn fl f v).isInf = v.isInf := by
  cases v <;> simp only [flushIn]
  split <;> rfl

theorem isZero_flushIn (fl : Bool) (f : Fmt) {v : FVal} (h : v.isZero = true) : (flushIn fl f v).isZero = true := by
  cases v <;> simp only [flushIn]
  case fin n m e st =>
    split
    · rfl
    · exact h
  all_goals exact h

theorem flushIn_inf (fl : Bool) (f : Fmt) {v : FVal} (h : v.isInf = true) : flushIn fl f v = v := by
  cases v
  case inf => rfl
  all_goals cases h

@[simp] theorem flushIn_false (f : Fmt) (v : FVal) : flushIn false f v = v := by
  cases v <;> simp [flushIn]

/-! ## Products -/

/-- `∞ × 0` (R249). -/
def FVal.undefinedProduct (x y : FVal) : Bool := (x.isInf && y.isZero) || (x.isZero && y.isInf)

/-- A product with a NaN among its factors is a NaN, with NV where one is signalling. -/
theorem mul_of_nan {x y : FVal} (h : x.isNan = true ∨ y.isNan = true) :
    x.mul y = (.nan false, x.isSignalling || y.isSignalling) := by
  cases x <;> cases y <;> simp_all [FVal.mul, FVal.isNan, FVal.isSignalling]

theorem mul_of_undefined {x y : FVal} (h : x.undefinedProduct y = true) : x.mul y = (.nan false, true) := by
  unfold FVal.undefinedProduct at h
  cases x <;> cases y <;> simp_all [FVal.mul, FVal.isInf, FVal.isZero]

/-- A product of numbers is a NaN, with NV, where it is `∞ × 0` and nowhere else. -/
theorem mul_isNan {x y : FVal} (hx : x.isNan = false) (hy : y.isNan = false) :
    (x.mul y).1.isNan = x.undefinedProduct y ∧ (x.mul y).2 = x.undefinedProduct y ∧ (x.mul y).1.isSignalling = false := by
  cases x <;> cases y
  case inf.inf => exact ⟨rfl, rfl, rfl⟩
  case inf.fin n n' m e st =>
    cases hz : (FVal.fin n' m e st).isZero <;>
      simp [FVal.mul, hz, FVal.undefinedProduct, FVal.isInf, FVal.isNan, FVal.isSignalling]
  case fin.inf n m e st n' =>
    cases hz : (FVal.fin n m e st).isZero <;>
      simp [FVal.mul, hz, FVal.undefinedProduct, FVal.isInf, FVal.isNan, FVal.isSignalling]
  case fin.fin => simp [FVal.mul, FVal.undefinedProduct, FVal.isInf, FVal.isNan, FVal.isSignalling]
  case nan.nan | nan.inf | nan.fin => cases hx
  all_goals cases hy

theorem undefinedProduct_of_nan {x y : FVal} (h : x.isNan = true ∨ y.isNan = true) : x.undefinedProduct y = false := by
  cases x <;> cases y <;> simp_all [FVal.undefinedProduct, FVal.isNan, FVal.isInf, FVal.isZero]

/-- Infinities of opposite signs have no sum. -/
theorem sumTerms_opposite {mode : Rnd} {x y : FVal} (hx : x.isInf = true) (hy : y.isInf = true) (h : x.neg? ≠ y.neg?) :
    sumTerms mode [x, y] = (.nan false, true) := by
  cases x <;> cases y
  case inf.inf n n' =>
    cases n <;> cases n' <;> simp_all [sumTerms, FVal.isNan, FVal.isInf, FVal.neg?]
  case inf.nan | inf.fin => cases hy
  all_goals cases hx

theorem any_isSignalling_flush (fl : Bool) (f : Fmt) (x y : FVal) :
    [flushIn fl f x, flushIn fl f y].any FVal.isSignalling = (x.isSignalling || y.isSignalling) := by
  simp

/-- The flag of a fused multiply-add with a NaN among its operands. -/
theorem fma_flag (x y z : FVal) (h : (x.isNan || y.isNan || z.isNan) = true) :
    ([(x.mul y).1, z].any FVal.isNan) = true ∧
      ((x.mul y).2 || ([(x.mul y).1, z].any FVal.isSignalling)) =
        (x.isSignalling || y.isSignalling || z.isSignalling || x.undefinedProduct y) := by
  by_cases hn : x.isNan = true ∨ y.isNan = true
  · rw [mul_of_nan hn, undefinedProduct_of_nan hn]
    simp [FVal.isNan, FVal.isSignalling, Bool.or_assoc]
  · have hx : x.isNan = false := by simpa using fun h => hn (.inl h)
    have hy : y.isNan = false := by simpa using fun h => hn (.inr h)
    have hs {v : FVal} (hv : v.isNan = false) : v.isSignalling = false := by
      cases v
      case nan => cases hv
      all_goals rfl
    obtain ⟨hn1, hn2, hn3⟩ := mul_isNan hx hy
    have hz : z.isNan = true := by simpa [hx, hy] using h
    simp [hn1, hn2, hn3, hs hx, hs hy, hz, Bool.or_comm]

theorem floatNaNs : Claim.FloatNaNs := by
  intro f hf fl mode sat a b c va vb vc bad nv
  have hnv (p : Bool) : flagIf p nvFlag = nv p := rfl
  refine ⟨fun h => ?_, fun h => ?_, fun h => ?_, fun h => ?_, fun h hfl => ?_⟩
  · have hs : sumTerms mode [flushIn fl f va, flushIn fl f vb] = _ := sumTerms_of_nan (by simpa using h)
    refine (roundSum_nan hf fl sat hs false).trans ?_
    rw [any_isSignalling_flush, Bool.false_or, hnv]
  · have hm : (flushIn fl f va).mul (flushIn fl f vb) = _ := mul_of_nan (by simpa using h)
    have hs : sumTerms mode [FVal.nan false] = (.nan false, false) := rfl
    have he : fMul fl f mode sat a b = roundSum fl f mode sat [((flushIn fl f va).mul (flushIn fl f vb)).1]
        ((flushIn fl f va).mul (flushIn fl f vb)).2 := rfl
    rw [he, hm, roundSum_nan hf fl sat hs, isSignalling_flushIn, isSignalling_flushIn, Bool.or_false, hnv]
  · simp only [Bool.and_eq_true] at h
    obtain ⟨⟨ha, hb⟩, hne⟩ := h
    have hs : sumTerms mode [flushIn fl f va, flushIn fl f vb] = (.nan false, true) := by
      rw [flushIn_inf fl f ha, flushIn_inf fl f hb]
      exact sumTerms_opposite ha hb (by simpa using hne)
    exact roundSum_nan hf fl sat hs false
  · have hbad : (flushIn fl f va).undefinedProduct (flushIn fl f vb) = true := by
      simp only [bad, Bool.or_eq_true, Bool.and_eq_true] at h
      unfold FVal.undefinedProduct
      rcases h with ⟨hi, hz⟩ | ⟨hz, hi⟩
      · simp [hi, isZero_flushIn fl f hz]
      · simp [hi, isZero_flushIn fl f hz]
    have hs : sumTerms mode [FVal.nan false] = (.nan false, false) := rfl
    have he : fMul fl f mode sat a b = roundSum fl f mode sat [((flushIn fl f va).mul (flushIn fl f vb)).1]
        ((flushIn fl f va).mul (flushIn fl f vb)).2 := rfl
    rw [he, mul_of_undefined hbad, roundSum_nan hf fl sat hs]
    rfl
  · subst hfl
    have he : fFma false f mode sat a b c = roundSum false f mode sat
        [((flushIn false f va).mul (flushIn false f vb)).1, flushIn false f vc] ((flushIn false f va).mul (flushIn false f vb)).2 := rfl
    obtain ⟨hn, hfl⟩ := fma_flag va vb vc h
    rw [he, flushIn_false, flushIn_false, flushIn_false, roundSum_nan hf false sat (sumTerms_of_nan hn), hfl]
    rfl

/-! ## Transcendentals (R253) -/

/-- A negative number has no square root, reciprocal root or logarithm. -/
theorem trans_of_negative {f : Fmt} (hf : f ∈ [fp32, fp16]) {t : Trans} (ht : t = .rsq ∨ t = .sqrt ∨ t = .log2) (mode : Rnd)
    {c m : Nat} {e : Int} {st : Bool} (hd : f.decode c = .fin true m e st) (hm : m ≠ 0) :
    trans false t f mode c = (f.nanCode, nvFlag) := by
  have hx : transExact t (flushIn false f (f.decode c)) = some (.nan false, true) := by
    rw [flushIn_false, hd]
    rcases ht with rfl | rfl | rfl <;> simp [transExact, hm]
  simp only [List.mem_cons, List.not_mem_nil, or_false] at hf
  unfold trans
  simp only [hx]
  rcases hf with rfl | rfl <;> rfl

theorem transcendentalSpecials : Claim.TranscendentalSpecials := by
  intro f hf fl mode ev zero inf one nan
  have hmem := hf
  simp only [List.mem_cons, List.not_mem_nil, or_false] at hf
  -- the exact results of these operands depend on no rounding: a check of each format, flush bit and mode
  refine ⟨?_, ?_, ?_, fun t ht => ⟨?_, fun c m e st hd hm => trans_of_negative hmem ht mode hd hm⟩⟩
  · rcases hf with rfl | rfl <;> cases fl <;> cases mode <;> decide
  · rcases hf with rfl | rfl <;> cases fl <;> cases mode <;> decide
  · rcases hf with rfl | rfl <;> cases fl <;> cases mode <;> decide
  · rcases ht with rfl | rfl | rfl <;> rcases hf with rfl | rfl <;> cases fl <;> cases mode <;> decide

/-- Settles O15: NaNs, infinities and zeros in arithmetic and in the transcendentals. -/
theorem floatSpecials : Obligations.FloatSpecials := ⟨floatNaNs, transcendentalSpecials⟩

end Sys2Proof.Machine
end

section
/-! SUPPORT. O16 fails: where the issue in progress counts as a released stamped request, which an element-wise instruction never
is, an instruction that is not ready stands at it again and leaves a wait behind. -/

namespace Sys2Proof.Machine

set_option Elab.async false

/-- A thread issues a sum as if it were a released request, and register 1, which the sum reads, is empty. -/
def heldBack : State :=
  { Slice0.lone.setWarp 2 (fun w => w.markEmpty 0 1 1 true) with
    issue := Slice0.lone.issue.map fun i => { i with released := true } }

/-- Refutes O16: a released issue whose sum is not ready adds a wait. -/
theorem not_elementwiseFrame : ¬ Obligations.ElementwiseFrame := by
  intro h
  obtain ⟨⟨_, _, _, _, _, _, _, _, hwaits, _⟩, _⟩ := h (.iadd Slice0.g 2 1 3) heldBack _ (by decide) rfl
  exact absurd (congrArg List.length hwaits) (by decide +kernel)

end Sys2Proof.Machine
end

section
/-! SUPPORT. Writes that land (R33), and the one form of the register files. -/

namespace Sys2Proof.Machine

set_option Elab.async false

/-! ## The register files in their one form -/

/-- The register files of a warp are in their one form. -/
def Warp.FilesWf (w : Warp) : Prop :=
  SMap.wf 0 w.regs = true ∧ SMap.wf false w.empty = true ∧ SMap.wf 0 w.uregs = true ∧ SMap.wf false w.preds = true

theorem Warp.FilesWf.setReg' {w : Warp} (h : w.FilesWf) (k : RegKey) (v : DWord) : (w.setReg' k v).FilesWf := by
  obtain ⟨hr, he, hu, hp⟩ := h
  cases k with
  | vec r l => exact ⟨SMap.wf_set hr _ _, he, hu, hp⟩
  | uni n => exact ⟨hr, he, SMap.wf_set hu _ _, hp⟩
  | pred l q => exact ⟨hr, he, hu, SMap.wf_set hp _ _⟩

theorem Warp.FilesWf.land {w : Warp} (h : w.FilesWf) (clock : Nat) : (w.land clock).FilesWf := by
  have hl (ps : List PendWrite) : ∀ u : Warp, u.FilesWf → (ps.foldl (fun u p => u.setReg' p.key p.value) u).FilesWf := by
    induction ps with
    | nil => exact fun _ hu => hu
    | cons p rest ih => exact fun u hu => ih _ (hu.setReg' p.key p.value)
  exact hl _ w h

theorem Warp.FilesWf.markEmpty {w : Warp} (h : w.FilesWf) (lane reg count : Nat) (e : Bool) :
    (w.markEmpty lane reg count e).FilesWf := by
  have hl (is : List Nat) : ∀ u : Warp, u.FilesWf →
      (is.foldl (fun u i => { u with empty := SMap.set false u.empty (32 * (reg + i) + lane) e }) u).FilesWf := by
    induction is with
    | nil => exact fun _ hu => hu
    | cons i rest ih => exact fun u ⟨hr, he, hu, hp⟩ => ih _ ⟨hr, SMap.wf_set he _ _, hu, hp⟩
  exact hl _ w h

theorem registerFilesCanonical : Claim.RegisterFilesCanonical :=
  ⟨⟨rfl, rfl, rfl, rfl⟩, fun _ h => ⟨Warp.FilesWf.setReg' h, Warp.FilesWf.setReg' h, Warp.FilesWf.land h, Warp.FilesWf.markEmpty h,
    fun _ => h, fun _ _ => h⟩⟩

/-! ## Landing (R33) -/

/-- The writes to a register among some writes. -/
def writesTo (k : RegKey) (ps : List PendWrite) : List PendWrite := ps.filter fun p => decide (p.key = k)

theorem writesTo_append (k : RegKey) (ps : List PendWrite) (p : PendWrite) :
    writesTo k (ps ++ [p]) = if p.key = k then writesTo k ps ++ [p] else writesTo k ps := by
  unfold writesTo
  rw [List.filter_append]
  by_cases h : p.key = k <;> simp [h]

/-- What a register holds after some writes: the value of the last one to it, or what it held. -/
theorem read_after_writes {α : Type} (k : RegKey) (read : Warp → α) (val : PendWrite → α) (ok : PendWrite → Prop)
    (wf : Warp → Prop) (hwf : ∀ u (p : PendWrite), wf u → wf (u.setReg' p.key p.value))
    (hread : ∀ u (p : PendWrite), wf u → ok p → read (u.setReg' p.key p.value) = if p.key = k then val p else read u)
    (w : Warp) (hw : wf w) (ps : List PendWrite) (hok : ∀ p ∈ ps, ok p) :
    read (ps.foldl (fun u p => u.setReg' p.key p.value) w) = ((writesTo k ps).getLast?.map val).getD (read w) := by
  have hfold (qs : List PendWrite) : ∀ u, wf u → wf (qs.foldl (fun u p => u.setReg' p.key p.value) u) := by
    induction qs with
    | nil => exact fun _ hu => hu
    | cons p rest ih => exact fun u hu => ih _ (hwf u p hu)
  induction ps using List.reverseRecOn with
  | nil => rfl
  | append_singleton ps p ih =>
    rw [List.foldl_append, List.foldl_cons, List.foldl_nil, hread _ p (hfold ps w hw) (hok p (by simp)), writesTo_append]
    by_cases h : p.key = k
    · rw [if_pos h, if_pos h, List.getLast?_concat]
      rfl
    · rw [if_neg h, if_neg h, ih fun q hq => hok q (by simp [hq])]

theorem due_eq (w : Warp) (clock : Nat) (k : RegKey) :
    (w.pend.filter fun p => decide (p.land ≤ clock) && decide (p.key = k)) =
      writesTo k (w.pend.filter fun p => decide (p.land ≤ clock)) := by
  unfold writesTo
  rw [List.filter_filter]
  exact List.filter_congr fun _ _ => Bool.and_comm _ _

/-- The files that reads go to are in their one form. -/
def Warp.ReadsWf (w : Warp) : Prop := SMap.wf 0 w.regs = true ∧ SMap.wf 0 w.uregs = true ∧ SMap.wf false w.preds = true

theorem Warp.ReadsWf.setReg' {w : Warp} (h : w.ReadsWf) (k : RegKey) (v : DWord) : (w.setReg' k v).ReadsWf := by
  obtain ⟨hr, hu, hp⟩ := h
  cases k with
  | vec r l => exact ⟨SMap.wf_set hr _ _, hu, hp⟩
  | uni n => exact ⟨hr, SMap.wf_set hu _ _, hp⟩
  | pred l q => exact ⟨hr, hu, SMap.wf_set hp _ _⟩

/-- A vector register after a write. -/
theorem Warp.vreg_setReg' {w : Warp} (hw : w.ReadsWf) (k : RegKey) (v : DWord) {l : Nat} (r : Nat) (hl : l < 32)
    (hk : ∀ r' l', k = .vec r' l' → l' < 32) :
    (w.setReg' k v).vreg l r = if k = .vec r l then v.setWidth 32 else w.vreg l r := by
  cases k with
  | vec r' l' =>
    have hl' := hk r' l' rfl
    have hi : 32 * r + l = 32 * r' + l' ↔ RegKey.vec r' l' = .vec r l := by
      rw [RegKey.vec.injEq]
      omega
    simp only [Warp.vreg, Warp.setReg', SMap.get_set_wf hw.1, hi]
  | uni n => rw [if_neg nofun]; rfl
  | pred l' q => rw [if_neg nofun]; rfl

theorem Warp.ureg_setReg' {w : Warp} (hw : w.ReadsWf) (k : RegKey) (v : DWord) (n : Nat) :
    (w.setReg' k v).ureg n = if k = .uni n then v else w.ureg n := by
  obtain ⟨_, hu, _⟩ := hw
  cases k with
  | uni n' =>
    have hi : n = n' ↔ RegKey.uni n' = .uni n := by
      rw [RegKey.uni.injEq]
      exact eq_comm
    simp only [Warp.ureg, Warp.setReg', SMap.get_set_wf hu, hi]
  | vec r' l' => rw [if_neg nofun]; rfl
  | pred l' q => rw [if_neg nofun]; rfl

theorem Warp.pred_setReg' {w : Warp} (hw : w.ReadsWf) (k : RegKey) (v : DWord) {q : Nat} (l : Nat) (hq : q < 7)
    (hk : ∀ l' q', k = .pred l' q' → q' < 7) :
    (w.setReg' k v).pred l q = if k = .pred l q then v != 0 else w.pred l q := by
  obtain ⟨_, _, hp⟩ := hw
  have h7 : (q == 7) = false := by simp; omega
  cases k with
  | pred l' q' =>
    have hq' := hk l' q' rfl
    have hi : 8 * l + q = 8 * l' + q' ↔ RegKey.pred l' q' = .pred l q := by
      rw [RegKey.pred.injEq]
      omega
    simp only [Warp.pred, Warp.setReg', SMap.get_set_wf hp, hi, h7, Bool.false_or]
  | vec r' l' => rw [if_neg nofun]; rfl
  | uni n => rw [if_neg nofun]; rfl

theorem fixedLatencyLanding : Claim.FixedLatencyLanding := by
  intro w clock hr hu hp due
  have hw : w.ReadsWf := ⟨hr, hu, hp⟩
  have hwf (u : Warp) (p : PendWrite) (h : u.ReadsWf) : (u.setReg' p.key p.value).ReadsWf := h.setReg' _ _
  have hmem {p : PendWrite} (h : p ∈ w.pend.filter fun p => decide (p.land ≤ clock)) : p ∈ w.pend := List.mem_of_mem_filter h
  have hdue (k : RegKey) : due k = (writesTo k (w.pend.filter fun p => decide (p.land ≤ clock))).getLast? :=
    congrArg List.getLast? (due_eq w clock k)
  refine ⟨fun r l hl hk => ?_, fun n => ?_, fun l q hq hk => ?_, rfl⟩
  · refine (read_after_writes (.vec r l) (fun u => u.vreg l r) (fun p => p.value.setWidth 32) (fun p => ∀ r' l', p.key = .vec r' l' → l' < 32)
      Warp.ReadsWf hwf (fun u p hu hk => Warp.vreg_setReg' hu _ _ r hl hk) w hw _ fun p hp => hk p (hmem hp)).trans ?_
    rw [hdue]
    cases (writesTo _ _).getLast? <;> rfl
  · refine (read_after_writes (.uni n) (fun u => u.ureg n) (fun p => p.value) (fun _ => True)
      Warp.ReadsWf hwf (fun u p hu _ => Warp.ureg_setReg' hu _ _ n) w hw _ fun _ _ => trivial).trans ?_
    rw [hdue]
    cases (writesTo _ _).getLast? <;> rfl
  · refine (read_after_writes (.pred l q) (fun u => u.pred l q) (fun p => p.value != 0) (fun p => ∀ l' q', p.key = .pred l' q' → q' < 7)
      Warp.ReadsWf hwf (fun u p hu hk => Warp.pred_setReg' hu _ _ l hq hk) w hw _ fun p hp => hk p (hmem hp)).trans ?_
    rw [hdue]
    cases (writesTo _ _).getLast? <;> rfl

end Sys2Proof.Machine
end

section
/-! SUPPORT. What the memories, the slices and FE do on their own: the programs' part of the state stays as it is. -/

namespace Sys2Proof.Machine

set_option Elab.async false

/-- A core but for how far the writes of its copies and drains have come. -/
def Core.settled (c : Core) : Core :=
  { c with
    copies := c.copies.map fun o => { o with outstanding := 0, gwct := 0 }
    drainQ := c.drainQ.map fun o => { o with outstanding := 0, gwct := 0 } }

/-- The programs' part of the state: the clock, the warps, grids, blocks and waits, and the issue in progress; with what firmware and
FE keep about address spaces, requests, queues, grids, routines and cores, but for the storage counts, the updates that FE owes, the
sequence numbers and the external reads. -/
structure Prog where
  clock : Nat
  warps : Tab Warp
  grids : Tab Grid
  blocks : Tab Block
  waits : Tab WaitRec
  issue : Option Issue
  asids : Tab Asid
  bumps : List Bump
  mreqs : Tab MemOp
  mem : MemRegs
  fe : FrontEnd
  hk : Housekeeping
  rtReqs : List RtReq
  rtVers : SMap Nat
  nextId : Nat
  core : Nat → Core
  badLines : List Nat
  heldWrites : List WinWrite

def State.prog (s : State) : Prog :=
  ⟨s.clock, s.warps, s.grids, s.blocks, s.waits, s.issue, s.asids, s.bumps, s.mreqs, { s.mem with swFree := 0, sweeping := false },
    { s.fe with owed := [], nextSeq := 0, xreads := [] }, s.hk, s.rtReqs, s.rtVers, s.nextId, fun c => (s.core c).settled, s.badLines, s.heldWrites⟩

@[simp] theorem State.prog_ite (c : Prop) [Decidable c] (a b : State) :
    (if c then a else b).prog = if c then a.prog else b.prog := apply_ite State.prog c a b

@[simp] theorem State.prog_foldl {β : Type} {f : State → β → State} (hf : ∀ s x, (f s x).prog = s.prog) :
    (l : List β) → (s : State) → (l.foldl f s).prog = s.prog
  | [], _ => rfl
  | x :: rest, s => (prog_foldl hf rest (f s x)).trans (hf s x)

theorem State.prog_setCore (s : State) (c : Nat) (f : Core → Core) (h : (f (s.core c)).settled = (s.core c).settled) :
    (s.setCore c f).prog = s.prog := by
  have hc : (fun k => ((s.setCore c f).core k).settled) = fun k => (s.core k).settled := by
    funext k
    by_cases hk : k = c
    · subst hk
      rw [← h]
      exact congrArg (fun o : Option Core => (o.getD Core.reset).settled) (Tab.find_put_self k (f (s.core k)) s.cores)
    · exact congrArg (fun o : Option Core => (o.getD Core.reset).settled) (Tab.find_put_ne hk (f (s.core c)) s.cores)
  exact congrArg (fun g => ({ s.prog with core := g } : Prog)) hc

@[simp] theorem State.prog_send (s : State) (m : Msg) : (s.send m).prog = s.prog := (rfl)
@[simp] theorem State.prog_setDie (s : State) (d : Nat) (f : Die → Die) : (s.setDie d f).prog = s.prog := (rfl)
@[simp] theorem State.prog_setLine (s : State) (l : Nat) (h : HomeLine) : (s.setLine l h).prog = s.prog := (rfl)
@[simp] theorem State.prog_setFrame (s : State) (n : Nat) (f : Frame → Frame) : (s.setFrame n f).prog = s.prog := (rfl)
@[simp] theorem State.prog_owe (s : State) (o : Owed) : (s.owe o).prog = s.prog := (rfl)
@[simp] theorem State.prog_dropCopy (s : State) (d l : Nat) : (s.dropCopy d l).prog = s.prog := (rfl)
@[simp] theorem State.prog_answerDegree (s : State) (a r : Nat) : (s.answerDegree a r).prog = s.prog := (rfl)
@[simp] theorem State.prog_mapKeeper (s : State) (a r : Nat) (f : Keeper → Keeper) : (s.mapKeeper a r f).prog = s.prog := (rfl)
@[simp] theorem State.prog_countSlice (s : State) (d k : Nat) : (s.countSlice d k).prog = s.prog := (rfl)
@[simp] theorem State.prog_countRoutine (s : State) (d k : Nat) : (s.countRoutine d k).prog = s.prog := (rfl)
@[simp] theorem State.prog_countRegion (s : State) (asid : Nat) (va : DWord) (rr wr coll : Nat) :
    (s.countRegion asid va rr wr coll).prog = s.prog := (rfl)
@[simp] theorem State.prog_staleWrite (s : State) (asid gen pa : Nat) : (s.staleWrite asid gen pa).prog = s.prog := (rfl)
@[simp] theorem State.prog_sendDegrees (s : State) : s.sendDegrees.prog = s.prog := (rfl)
@[simp] theorem State.prog_setFree (s : State) (n : Nat) : (s.setFree n).prog = s.prog := (rfl)
@[simp] theorem State.prog_calibrate (s : State) (d : Nat) (c : Calibration) : (s.calibrate d c).prog = s.prog := (rfl)

@[simp] theorem State.prog_keep (s : State) (m : Msg) : (s.keep m).prog = s.prog := by
  simp only [State.keep, State.prog_ite]
  exact ite_self _

@[simp] theorem State.prog_ackWrite (s : State) (w : Waiter) (t : Nat) : (s.ackWrite w t).prog = s.prog := by
  cases w with
  | copy core id =>
    refine State.prog_setCore s core _ ?_
    refine congrArg (fun l => ({ (s.core core).settled with copies := l } : Core)) ?_
    rw [List.map_map]
    refine List.map_congr_left fun o _ => ?_
    dsimp only [Function.comp]
    split <;> rfl
  | drain core id =>
    refine State.prog_setCore s core _ ?_
    refine congrArg (fun l => ({ (s.core core).settled with drainQ := l } : Core)) ?_
    rw [List.map_map]
    refine List.map_congr_left fun o _ => ?_
    dsimp only [Function.comp]
    split <;> rfl
  | _ => rfl

@[simp] theorem State.prog_endCollapse (s : State) (l t : Nat) : (s.endCollapse l t).prog = s.prog := by
  simp [State.endCollapse]

@[simp] theorem State.prog_expireCollapse (s : State) (l : Nat) : (s.expireCollapse l).prog = s.prog := by
  simp [State.expireCollapse]

@[simp] theorem State.prog_poke (host : Bool) : (bs : List Byte) → (s : State) → (pa : Nat) → (s.poke host pa bs).prog = s.prog
  | [], _, _ => rfl
  | b :: rest, s, pa => by
    unfold State.poke
    rw [State.prog_poke host rest]
    split
    · rfl
    · split <;> rfl

@[simp] theorem State.prog_hostUpdate (s : State) (cells : List Host.Cell) (w : Waiter) : (s.hostUpdate cells w).prog = s.prog := by
  simp [State.hostUpdate]

@[simp] theorem State.prog_expand (s : State) (n : Nat) : (s.expand n).prog = s.prog := by
  simp [State.expand]

@[simp] theorem State.prog_evict (s : State) (w : Way) : (s.evict w).prog = s.prog := by
  cases w <;> simp only [State.evict]
  case copy => rfl
  all_goals split <;> rfl

theorem State.prog_evictOne {s s' : State} {ws : List Way} (h : s.evictOne ws = some s') : s'.prog = s.prog := by
  unfold State.evictOne at h
  split at h <;> cases h
  exact State.prog_evict _ _

theorem State.prog_makeRoom {s s' : State} {slice line : Nat} {copy : Bool} (h : s.makeRoom slice line copy = some s') :
    s'.prog = s.prog := by
  unfold State.makeRoom at h
  dsimp only at h
  split at h
  · exact State.prog_evictOne h
  split at h
  · cases h; rfl
  · exact State.prog_evictOne h

theorem State.prog_enterHome {s s' : State} {line : Nat} (h : s.enterHome line = some s') : s'.prog = s.prog := by
  unfold State.enterHome at h
  split at h
  · cases h; rfl
  · obtain ⟨u, hu, rfl⟩ := Option.map_eq_some_iff.mp h
    exact (State.prog_setLine u _ _).trans (State.prog_makeRoom hu)

@[simp] theorem State.prog_touchRun (s : State) (l d : Nat) : (s.touchRun l d).prog = s.prog := by
  unfold State.touchRun
  split <;> simp

@[simp] theorem State.prog_recall (s : State) (l d : Nat) : (s.recall l d).prog = s.prog := by
  unfold State.recall
  dsimp only
  split
  · rfl
  · simp

@[simp] theorem State.prog_collapse (s : State) (l : Nat) (w : Waiter) : (s.collapse l w).prog = s.prog := by
  unfold State.collapse
  dsimp only
  split
  · rfl
  · split <;> simp

@[simp] theorem State.prog_fireMonitor (s : State) (m : Monitor) (r : Bool) : (s.fireMonitor m r).prog = s.prog := by
  unfold State.fireMonitor
  dsimp only
  exact (State.prog_foldl (fun _ _ => State.prog_send _ _) _ _).trans rfl

@[simp] theorem State.prog_fireLine (s : State) (l : Nat) : (s.fireLine l).prog = s.prog := by
  simp [State.fireLine]

@[simp] theorem State.prog_writeLine (s : State) (l d : Nat) (f : LineData → LineData) (w : Waiter) :
    (s.writeLine l d f w).prog = s.prog := by
  simp [State.writeLine]

theorem State.prog_frameCheck (s : State) (asid gen pa : Nat) (write : Bool) :
    (s.frameCheck asid gen pa write).All fun s' => s'.prog = s.prog := by
  unfold State.frameCheck
  dsimp only
  split
  · rfl
  split
  · trivial
  split
  · exact State.prog_expand _ _
  split
  · rfl
  split
  · rfl
  split
  · rename_i u hu
    exact (State.prog_enterHome hu).trans (State.prog_setFrame _ _ _)
  · rfl

@[simp] theorem State.prog_tryUpdate (s : State) (asid gen : Nat) (va : DWord) (n : Nat) (f : FeFun) (w : Waiter) :
    (s.tryUpdate asid gen va n f w).1.prog = s.prog := by
  unfold State.tryUpdate
  split
  · exact State.prog_ackWrite _ _ _
  · dsimp only
    split
    · exact State.prog_hostUpdate _ _ _
    · exact (State.prog_ackWrite _ _ _).trans (State.prog_poke _ _ _ _)
  · split
    · exact (State.prog_ackWrite _ _ _).trans (State.prog_staleWrite _ _ _ _)
    · rename_i hc
      exact Check.all_wait (State.prog_frameCheck s asid gen _ true) hc
    · rename_i hc
      exact (State.prog_writeLine _ _ _ _ _).trans ((State.prog_countRegion _ _ _ _ _ _).trans
        (Check.all_serve (State.prog_frameCheck s asid gen _ true) hc))

@[simp] theorem State.prog_feUpdateFor (s : State) (asid gen : Nat) (va : DWord) (n : Nat) (f : FeFun) (w : Waiter) :
    (s.feUpdateFor asid gen va n f w).prog = s.prog := by
  have ht := State.prog_tryUpdate s asid gen va n f w
  unfold State.feUpdateFor
  dsimp only
  generalize s.tryUpdate asid gen va n f w = r at ht
  obtain ⟨u, b⟩ := r
  rw [State.prog_ite, State.prog_owe]
  refine (congrArg (ite _ s.prog) ?_).trans (ite_self _)
  cases b with
  | true => exact ht
  | false => exact (State.prog_owe _ _).trans ht

theorem State.prog_degreeCount (asid region rr wr coll : Nat) (s : State) : (degreeCount asid region rr wr coll s).prog = s.prog := by
  unfold degreeCount
  split <;> rfl

theorem State.prog_keeperUpdate (s : State) : (keeperUpdate s).prog = s.prog := by
  unfold keeperUpdate
  refine (State.prog_sendDegrees _).trans ((rfl : _ = State.prog _).trans (State.prog_foldl (fun u k => ?_) _ s))
  unfold State.countDegree
  split
  · rfl
  · split <;> rfl

theorem State.prog_lineReady (s : State) (asid gen die : Nat) (write : Bool) (va : DWord) :
    (s.lineReady asid gen die write va).1.prog = s.prog := by
  unfold State.lineReady
  split
  · rfl
  · dsimp only
    split
    · rfl
    split
    · rfl
    split
    · rfl
    · rename_i hc
      exact Check.all_wait (State.prog_frameCheck s asid gen _ write) hc
    · rename_i hc
      exact Check.all_serve (State.prog_frameCheck s asid gen _ write) hc

theorem State.prog_grantCopy {s s' : State} {line die : Nat} (h : s.grantCopy line die = some s') : s'.prog = s.prog := by
  unfold State.grantCopy at h
  obtain ⟨u, hu, rfl⟩ := Option.map_eq_some_iff.mp h
  exact (rfl : _ = u.prog).trans ((State.prog_makeRoom hu).trans (State.prog_dropCopy _ _ _))

@[simp] theorem State.prog_askDegree (s : State) (slice asid region : Nat) : (s.askDegree slice asid region).prog = s.prog := by
  unfold State.askDegree
  split <;> rfl

@[simp] theorem State.prog_reachHome (s : State) (l d : Nat) : (s.reachHome l d).prog = s.prog := by
  simp [State.reachHome]

theorem State.prog_readAt {s s' : State} {asid line die : Nat} {va : DWord} (h : s.readAt asid va line die = some s') :
    s'.prog = s.prog := by
  unfold State.readAt at h
  dsimp only at h
  split at h
  · cases h
    exact State.prog_reachHome _ _ _
  split at h
  · exact (State.prog_grantCopy h).trans (by simp)
  · cases h
    simp

theorem State.prog_lineRead (s : State) (asid gen die : Nat) (va : DWord) : (s.lineRead asid gen die va).prog = s.prog := by
  unfold State.lineRead
  split
  · rfl
  · dsimp only
    split
    · rfl
    split
    · rfl
    · cases h : s.readAt asid va _ die with
      | none => rfl
      | some u => exact State.prog_readAt h

theorem State.prog_reachSpans (s : State) (asid gen die : Nat) (write : Bool) (spans : List (Nat × Nat)) :
    (s.reachSpans asid gen die write spans).1.prog = s.prog := by
  unfold State.reachSpans
  dsimp only
  have hready : ∀ (ls : List Nat) (acc : State × Bool), (ls.foldl (fun (acc : State × Bool) l =>
      ((acc.1.lineReady asid gen die write (BitVec.ofNat 64 (128 * l))).1,
        acc.2 && (acc.1.lineReady asid gen die write (BitVec.ofNat 64 (128 * l))).2)) acc).1.prog = acc.1.prog := by
    intro ls
    induction ls with
    | nil => exact fun _ => rfl
    | cons l rest ih => exact fun acc => (ih _).trans (State.prog_lineReady _ _ _ _ _ _)
  split
  · exact (State.prog_foldl (fun _ _ => State.prog_lineRead _ _ _ _ _) _ _).trans (hready _ _)
  · exact hready _ _

theorem State.prog_pollWord (s : State) (asid : Nat) (va : DWord) : (s.pollWord asid va).1.prog = s.prog := by
  unfold State.pollWord
  dsimp only
  split
  · rfl
  · exact State.prog_reachSpans _ _ _ _ _ _

/-- An operation that a condition lets happen. -/
theorem State.prog_if_left {c : Prop} [Decidable c] {a b : State} (h : a.prog = b.prog) : (if c then a else b).prog = b.prog := by
  rw [State.prog_ite, h, ite_self]

theorem State.prog_poll (s : State) : s.poll.prog = s.prog := by
  unfold State.poll
  dsimp only
  refine (State.prog_if_left (State.prog_send _ _)).trans ((State.prog_if_left (State.prog_send _ _)).trans
    (State.prog_foldl (fun u e => ?_) _ _))
  have hp := State.prog_pollWord u e.2.asid e.2.ctrl
  generalize u.pollWord e.2.asid e.2.ctrl = r at hp
  obtain ⟨v, o⟩ := r
  cases o with
  | none => exact hp
  | some n => exact (State.prog_if_left (State.prog_send _ _)).trans hp

theorem State.prog_duties (s : State) (a b : Nat) : (s.duties a b).prog = s.prog := by
  unfold State.duties
  dsimp only
  refine (State.prog_if_left (State.prog_poll _)).trans ((State.prog_foldl (fun _ _ => State.prog_send _ _) _ _).trans
    ((State.prog_if_left ?_).trans (State.prog_if_left ?_)))
  · exact State.prog_foldl (fun _ _ => State.prog_calibrate _ _ _) _ _
  · exact (State.prog_send _ _).trans (State.prog_keeperUpdate s)

end Sys2Proof.Machine
end

section
/-! SUPPORT. What the work of a tick boundary leaves alone: the clock, and all of every warp but its threads. -/

namespace Sys2Proof.Machine

set_option Elab.async false

/-! ## The clock and the warps but for their threads -/

/-- A warp but for its threads. -/
def Warp.body (w : Warp) : Warp := { w with threads := [] }

/-- The clock, and every warp but for its threads. -/
def State.bodies (s : State) : Nat × List (Nat × Warp) := (s.clock, s.warps.map fun e => (e.1, e.2.body))

theorem Tab.map_upd_eq {α β : Type} (g : α → β) (f : α → α) (hf : ∀ x, g (f x) = g x) (k : Nat) :
    (t : Tab α) → (Tab.upd t k f).map (fun e => (e.1, g e.2)) = t.map fun e => (e.1, g e.2)
  | [] => rfl
  | (j, x) :: rest => by
    unfold Tab.upd
    split
    · simp [hf]
    · simp [Tab.map_upd_eq g f hf k rest]

theorem Tab.find_map {α β : Type} (g : α → β) (k : Nat) :
    (t : Tab α) → Tab.find (t.map fun e => (e.1, g e.2)) k = (Tab.find t k).map g
  | [] => rfl
  | (j, x) :: rest => by
    simp only [List.map_cons, Tab.find]
    split
    · rfl
    · exact Tab.find_map g k rest

theorem State.bodies_setWarp (s : State) (k : Nat) (f : Warp → Warp) (hf : ∀ w, (f w).body = w.body) :
    (s.setWarp k f).bodies = s.bodies :=
  congrArg (Prod.mk s.clock) (Tab.map_upd_eq Warp.body f hf k s.warps)

theorem State.body_eq {s s' : State} (h : s'.bodies = s.bodies) (k : Nat) : (s'.warp k).body = (s.warp k).body := by
  have hm : s'.warps.map (fun e => (e.1, e.2.body)) = s.warps.map fun e => (e.1, e.2.body) := congrArg Prod.snd h
  have hfind (t : Tab Warp) : ((Tab.find t k).getD Warp.none).body = (Tab.find (t.map fun e => (e.1, e.2.body)) k).getD Warp.none.body := by
    rw [Tab.find_map]
    cases Tab.find t k <;> rfl
  unfold State.warp
  rw [hfind, hfind, hm]

theorem State.bodies_of_prog {s s' : State} (h : s'.prog = s.prog) : s'.bodies = s.bodies :=
  congrArg (fun p : Prog => (p.clock, p.warps.map fun e => (e.1, e.2.body))) h

@[simp] theorem State.bodies_ite (c : Prop) [Decidable c] (a b : State) :
    (if c then a else b).bodies = if c then a.bodies else b.bodies := apply_ite State.bodies c a b

@[simp] theorem State.bodies_foldl {β : Type} {f : State → β → State} (hf : ∀ s x, (f s x).bodies = s.bodies) :
    (l : List β) → (s : State) → (l.foldl f s).bodies = s.bodies
  | [], _ => rfl
  | x :: rest, s => (bodies_foldl hf rest (f s x)).trans (hf s x)

/-! ## Operations of the state -/

@[simp] theorem State.bodies_setCore (s : State) (c : Nat) (f : Core → Core) : (s.setCore c f).bodies = s.bodies := (rfl)
@[simp] theorem State.bodies_setBlock (s : State) (b : Nat) (f : Block → Block) : (s.setBlock b f).bodies = s.bodies := (rfl)
@[simp] theorem State.bodies_mapRaces (s : State) (b : Nat) (f : Race → Race) : (s.mapRaces b f).bodies = s.bodies := (rfl)
@[simp] theorem State.bodies_fencePart (s : State) (id k p : Nat) : (s.fencePart id k p).bodies = s.bodies := (rfl)
@[simp] theorem State.bodies_setThread (s : State) (t : TRef) (f : Thread → Thread) : (s.setThread t f).bodies = s.bodies :=
  State.bodies_setWarp s _ _ fun _ => rfl

/-! ## A tick boundary -/

theorem State.bodies_completeWait (s : State) (id : Nat) : (s.completeWait id).bodies = s.bodies := by
  unfold State.completeWait
  split
  · rfl
  · exact (State.bodies_foldl (fun _ _ => State.bodies_setThread _ _ _) _ _).trans rfl

@[simp] theorem State.bodies_releaseRaces (s : State) (ws : List Nat) : (s.releaseRaces ws).bodies = s.bodies :=
  State.bodies_foldl (fun _ _ => State.bodies_mapRaces _ _ _) _ _

@[simp] theorem State.bodies_acquireRaces (s : State) (ws : List Nat) : (s.acquireRaces ws).bodies = s.bodies :=
  State.bodies_foldl (fun _ _ => State.bodies_mapRaces _ _ _) _ _

@[simp] theorem State.bodies_acquire (s : State) (ms : List Nat) (sc : MemScope) : (s.acquire ms sc).bodies = s.bodies := by
  unfold State.acquire
  dsimp only
  split
  · exact (State.bodies_foldl (fun _ _ => State.bodies_setCore _ _ _) _ _).trans
      (State.bodies_acquireRaces _ _)
  · exact State.bodies_acquireRaces _ _

theorem State.bodies_fenceAcquire (s : State) (id : Nat) (r : WaitRec) (k : Nat) : (s.fenceAcquire id r k).bodies = s.bodies := by
  unfold State.fenceAcquire
  split
  · exact (State.bodies_completeWait _ _).trans (State.bodies_acquire _ _ _)
  · exact State.bodies_of_prog (State.prog_keep _ _)

theorem State.bodies_fenceReleaseCompletion (id : Nat) (s : State) : (fenceReleaseCompletion id s).bodies = s.bodies := by
  unfold fenceReleaseCompletion
  split
  · rfl
  split
  · dsimp only
    split
    · exact State.bodies_of_prog (State.prog_keep _ _)
    split
    · exact (State.bodies_completeWait _ _).trans (State.bodies_releaseRaces _ _)
    · exact (State.bodies_of_prog (State.prog_send _ _)).trans ((State.bodies_fencePart _ _ _ _).trans (State.bodies_releaseRaces _ _))
    · exact (State.bodies_fenceAcquire _ _ _ _).trans ((State.bodies_fencePart _ _ _ _).trans (State.bodies_releaseRaces _ _))
  · exact State.bodies_fenceAcquire _ _ _ _
  · rfl

theorem State.bodies_endReleases (s : State) : s.endReleases.bodies = s.bodies :=
  State.bodies_foldl (fun _ _ => State.bodies_fenceReleaseCompletion _ _) _ _

theorem State.bodies_payOwed (s : State) : s.payOwed.bodies = s.bodies := by
  unfold State.payOwed
  refine (State.bodies_foldl (fun u o => ?_) _ _).trans rfl
  cases o with
  | update => exact State.bodies_of_prog (State.prog_feUpdateFor _ _ _ _ _ _ _)
  | hostWrite cells w =>
    exact State.bodies_of_prog ((State.prog_ackWrite _ _ _).trans (State.prog_foldl (fun _ _ => State.prog_poke _ _ _ _) _ _))
  | interrupt v t =>
    dsimp only
    split <;> rfl

theorem State.bodies_boundary (s : State) : s.boundary.bodies = s.bodies := by
  unfold State.boundary
  dsimp only
  refine (State.bodies_payOwed _).trans ((State.bodies_endReleases _).trans
    ((State.bodies_of_prog (State.prog_foldl (fun _ _ => State.prog_expireCollapse _ _) _ _)).trans (State.bodies_foldl (fun u m => ?_) _ _)))
  split
  · exact (State.bodies_of_prog (State.prog_degreeCount _ _ _ _ _ _)).trans rfl
  · rfl
  · rfl

/-! ## What falls due -/

theorem State.bodies_idleBlock (s : State) (b : Nat) : (s.idleBlock b).bodies = s.bodies := by
  unfold State.idleBlock
  dsimp only
  split
  · rfl
  split
  · rfl
  · split <;> rfl

/-- One clock: every warp's writes land, and but for its threads it is as it was. -/
theorem State.bodies_passClock (s : State) :
    s.passClock.bodies = (s.clock + 1, s.warps.map fun e => (e.1, (e.2.land (s.clock + 1)).body)) := by
  unfold State.passClock
  dsimp only
  refine (State.bodies_foldl (fun _ _ => State.bodies_idleBlock _ _) _ _).trans ((State.bodies_of_prog (State.prog_duties _ _ _)).trans
    ((State.bodies_boundary _).trans ?_))
  simp only [State.bodies, List.map_map]
  rfl

theorem Warp.empty_setReg' (w : Warp) (k : RegKey) (v : DWord) : (w.setReg' k v).empty = w.empty := by
  cases k <;> rfl

theorem Warp.empty_land (w : Warp) (clock : Nat) : (w.land clock).empty = w.empty := by
  have hl (ps : List PendWrite) : ∀ u : Warp, (ps.foldl (fun u p => u.setReg' p.key p.value) u).empty = u.empty := by
    induction ps with
    | nil => exact fun _ => rfl
    | cons p rest ih => exact fun u => (ih _).trans (Warp.empty_setReg' _ _ _)
  exact hl _ w

theorem clockLandsWrites : Claim.ClockLandsWrites := by
  intro s k w hw
  refine ⟨congrArg Prod.fst s.bodies_passClock, ?_⟩
  intro w' l
  have hb : w'.body = l.body := by
    have hland : s.passClock.bodies = State.bodies { s with clock := s.clock + 1, warps := s.warps.map fun e => (e.1, e.2.land (s.clock + 1)) } := by
      rw [s.bodies_passClock]
      simp only [State.bodies, List.map_map]
      rfl
    refine (State.body_eq hland k).trans (congrArg Warp.body ?_)
    unfold State.warp
    rw [Tab.find_map (fun w : Warp => w.land (s.clock + 1)), hw]
    rfl
  have hl : l.empty = w.empty := Warp.empty_land w _
  clear_value w' l
  have part {α : Type} (f : Warp → α) : f w'.body = f l.body := congrArg f hb
  exact ⟨part Warp.regs, part Warp.uregs, part Warp.preds, part Warp.pend, (part Warp.empty).trans hl⟩

/-- Settles O17: writes land at their clock, and the register files keep their one form. -/
theorem registersLand : Obligations.RegistersLand := ⟨fixedLatencyLanding, registerFilesCanonical, clockLandsWrites⟩

end Sys2Proof.Machine
end

section
/-! SUPPORT. Branches (R49, R50, R333, R337). -/

namespace Sys2Proof.Machine

set_option Elab.async false

/-! ## What an effect in a thread or for its members makes of the issue -/

theorem State.laneOrOnce_lane {s : State} {i : Instr} (h : i.form.g.scope = .lane) (eff : TRef → Operands → State → Eff) :
    s.laneOrOnce i eff = s.eachThread i eff := if_pos h

theorem State.laneOrOnce_wide {s : State} {i : Instr} (h : i.form.g.scope ≠ .lane) (eff : TRef → Operands → State → Eff) :
    s.laneOrOnce i eff = s.onceFor i eff := if_neg h

/-- Threads that all jump, each to a place of its own, and change nothing else. -/
theorem State.eachThread_jumps {ts : List TRef} {s : State} {i : Instr} (h : s.RunsAll ts i) (eff : TRef → Operands → State → Eff)
    (pos : TRef → DWord) (he : ∀ t ∈ ts, s.guardHolds t i.form.g = true → ∀ s', s.Alike [t] s' →
      eff t (s.operands t i.form) s' = .jump s' (pos t)) :
    s.eachThread i eff = s.leaveEach ts i (fun _ s' => s') pos :=
  State.eachThread_all h eff (fun _ s' => s') pos (fun t ht hg s' ha => .inr (he t ht hg s' ha)) fun _ _ _ _ _ ha => ha

/-! ## NOP and YIELD -/

theorem exec_nop_lane {g : Guard} {s : State} {ts : List TRef} (hg : g.scope = .lane) (h : s.RunsAll ts (.nop g)) :
    exec (.nop g) s = .next (s.retireEach ts (.nop g) fun _ s' => s') :=
  congrArg Host.Outcome.next ((State.laneOrOnce_lane (i := .nop g) hg nopEff).trans
    (State.eachThread_all h nopEff (fun _ s' => s') _ (fun _ _ _ _ _ => .inl ⟨rfl, rfl⟩) fun _ _ _ _ _ ha => ha))

theorem exec_nop_wide {g : Guard} {s : State} {ts : List TRef} (hg : g.scope ≠ .lane) (h : s.RunsOnce ts (.nop g)) :
    exec (.nop g) s = .next (s.retire ts (.nop g) s.cur.next) :=
  congrArg Host.Outcome.next ((State.laneOrOnce_wide (i := .nop g) hg nopEff).trans (State.onceFor_runs h nopEff))

theorem exec_yield_lane {g : Guard} {s : State} {ts : List TRef} (hg : g.scope = .lane) (h : s.RunsAll ts (.yield g)) :
    exec (.yield g) s = .next (s.retireEach ts (.yield g) fun t s' =>
      s'.setThread t fun th => { th with yielded := !(s.grid (s.warp t.warp).grid).det }) := by
  refine congrArg Host.Outcome.next ((if_pos hg).trans (State.eachThread_all h yieldEff
    (fun t s' => s'.setThread t fun th => { th with yielded := !(s.grid (s.warp t.warp).grid).det }) _
    (fun t _ _ s' ha => .inl ⟨?_, rfl⟩) fun t _ us s' ht ha => ha.setThread t _ ht))
  have hd : s'.grid (s'.warp t.warp).grid = s.grid (s.warp t.warp).grid := by
    simp only [State.grid, ha.grids, ha.grid_eq]
  simp only [yieldEff, hd]

theorem exec_yield_wide {g : Guard} {s : State} {ts : List TRef} (hg : g.scope ≠ .lane) (h : s.RunsOnce ts (.yield g)) :
    exec (.yield g) s = .next (s.retire ts (.yield g) s.cur.next) :=
  congrArg Host.Outcome.next ((if_neg hg).trans ((State.laneOrOnce_wide (i := .yield g) hg nopEff).trans (State.onceFor_runs h nopEff)))

/-! ## BRA and BRX -/

theorem bra_lane {i : Instr} {off : DWord} {s : State} {ts : List TRef} (hg : i.form.g.scope = .lane) (h : s.RunsAll ts i) :
    bra i off s = s.leaveEach ts i (fun _ s' => s') fun _ => branchTarget s.cur.pos off :=
  (State.laneOrOnce_lane hg _).trans (State.eachThread_jumps h _ _ fun _ _ _ _ ha => by rw [ha.cur])

theorem bra_wide {i : Instr} {off : DWord} {s : State} {ts : List TRef} (hg : i.form.g.scope ≠ .lane) (h : s.RunsOnce ts i) :
    bra i off s = s.retire ts i (branchTarget s.cur.pos off) :=
  (State.laneOrOnce_wide hg _).trans (State.onceFor_runs h _)

theorem State.targetOk_warps (s : State) (ws : Tab Warp) (core asid : Nat) (t : DWord) :
    ({ s with warps := ws } : State).targetOk core asid t = s.targetOk core asid t := rfl

theorem State.Alike.targetOk {ts : List TRef} {s s' : State} (h : s.Alike ts s') (k : Nat) (t : DWord) :
    s'.targetOk (s'.warp k).core (s'.warp k).asid t = s.targetOk (s.warp k).core (s.warp k).asid t := by
  rw [h.core_eq, h.asid_eq, h.rest, State.targetOk_warps]

theorem brxEff_ok {t : TRef} {o : Operands} {s : State} (h : s.targetOk (s.warp t.warp).core (s.warp t.warp).asid o.a = true) :
    brxEff t o s = .jump s o.a := if_pos h

theorem brxEff_fault {t : TRef} {o : Operands} {s : State} (h : s.targetOk (s.warp t.warp).core (s.warp t.warp).asid o.a = false) :
    brxEff t o s = .fault (report clsBranch 0 o.a) := if_neg (by simp [h])

theorem brxOp_lane {i : Instr} {s : State} {ts : List TRef} (hg : i.form.g.scope = .lane) (h : s.RunsAll ts i)
    (hok : ∀ t ∈ ts, s.guardHolds t i.form.g = true →
      s.targetOk (s.warp t.warp).core (s.warp t.warp).asid (s.operands t i.form).a = true) :
    brxOp i s = s.leaveEach ts i (fun _ s' => s') fun t => (s.operands t i.form).a :=
  (State.laneOrOnce_lane hg _).trans (State.eachThread_jumps h _ _ fun t ht hgd _ ha =>
    brxEff_ok ((ha.targetOk t.warp _).trans (hok t ht hgd)))

theorem brxOp_wide {i : Instr} {s : State} {ts : List TRef} (hg : i.form.g.scope ≠ .lane) (h : s.RunsOnce ts i)
    (hok : s.targetOk (s.warp (s.lead i).warp).core (s.warp (s.lead i).warp).asid (s.leadOps i).a = true) :
    brxOp i s = s.retire ts i (s.leadOps i).a := by
  refine (State.laneOrOnce_wide hg _).trans ((State.onceFor_runs h _).trans ?_)
  rw [brxEff_ok hok]
  rfl

theorem branchesComplete : Claim.BranchesComplete := by
  refine ⟨fun g s ts => ⟨exec_nop_lane, exec_nop_wide, exec_yield_lane, exec_yield_wide⟩, fun i g off hi s ts => ?_,
    fun i hi s ts => ?_⟩
  · intro target
    obtain ⟨o, rfl, rfl⟩ | rfl := hi
    · exact ⟨fun hg h => congrArg Host.Outcome.next (bra_lane hg h), fun hg h => congrArg Host.Outcome.next (bra_wide hg h)⟩
    · exact ⟨fun hg h => congrArg Host.Outcome.next (bra_lane hg h), fun hg h => congrArg Host.Outcome.next (bra_wide hg h)⟩
  · obtain ⟨g, a, rfl⟩ | ⟨g, x, rfl⟩ := hi
    · exact ⟨fun hg h hok => congrArg Host.Outcome.next (brxOp_lane hg h hok),
        fun hg h hok => congrArg Host.Outcome.next (brxOp_wide hg h hok)⟩
    · exact ⟨fun hg h hok => congrArg Host.Outcome.next (brxOp_lane hg h hok),
        fun hg h hok => congrArg Host.Outcome.next (brxOp_wide hg h hok)⟩

/-! ## The branch fault (R333) -/

theorem State.raiseAll_lane {s : State} {i : Instr} {t : TRef} {r : Report} (hg : i.form.g.scope = .lane) :
    s.raiseAll [t] r (i.form.g.scope == .set) = s.raise t r := by
  rw [hg]
  rfl

theorem brxOp_fault {i : Instr} {s : State} {t : TRef} (hr : s.Runs t i) (hg : i.form.g.scope = .lane)
    (hbad : s.targetOk (s.warp t.warp).core (s.warp t.warp).asid (s.operands t i.form).a = false) :
    brxOp i s = (s.raise t (report clsBranch 0 (s.operands t i.form).a)).finish i.form.opc [] := by
  refine (State.laneOrOnce_lane hg _).trans ((State.eachThread_runs hr _).trans ?_)
  rw [brxEff_fault hbad]
  exact congrArg (State.finish · i.form.opc []) (State.raiseAll_lane hg)

theorem callCheck_branch {target : DWord} {t : TRef} {s : State}
    (hbad : s.targetOk (s.warp t.warp).core (s.warp t.warp).asid target = false) :
    callCheck true target t s = .error (report clsBranch 0 target) := by
  simp [callCheck, hbad]

theorem callxOp_fault {i : Instr} {s : State} {t : TRef} (hr : s.Runs t i) (hg : i.form.g.scope = .lane)
    (hbad : s.targetOk (s.warp t.warp).core (s.warp t.warp).asid (s.operands t i.form).a = false) :
    callxOp i s = (s.raise t (report clsBranch 0 (s.operands t i.form).a)).finish i.form.opc [] :=
  (State.eachChecked_fails hr _ (callCheck_branch hbad)).trans
    (congrArg (State.finish · i.form.opc []) (State.raiseAll_lane hg))

theorem branchFaults : Claim.BranchFaults := by
  intro i hi s t hr hg hbad
  obtain ⟨g, a, rfl⟩ | ⟨g, x, rfl⟩ | ⟨g, a, rfl⟩ | ⟨g, x, rfl⟩ := hi
  · exact congrArg Host.Outcome.next (brxOp_fault hr hg hbad)
  · exact congrArg Host.Outcome.next (brxOp_fault hr hg hbad)
  · exact congrArg Host.Outcome.next (callxOp_fault hr hg hbad)
  · exact congrArg Host.Outcome.next (callxOp_fault hr hg hbad)

/-- Settles O20: every effect of a branch is a jump of its thread, and a target that is no header is the fault. -/
theorem branchesGo : Obligations.BranchesGo := ⟨branchesComplete, branchFaults⟩

end Sys2Proof.Machine
end

section
/-! SUPPORT. Calls and returns (R334). -/

namespace Sys2Proof.Machine

set_option Elab.async false

/-! ## Operations beside the programs -/

theorem State.issue_of_prog {s s' : State} (h : s'.prog = s.prog) : s'.issue = s.issue := congrArg Prog.issue h
theorem State.warps_of_prog {s s' : State} (h : s'.prog = s.prog) : s'.warps = s.warps := congrArg Prog.warps h
theorem State.grids_of_prog {s s' : State} (h : s'.prog = s.prog) : s'.grids = s.grids := congrArg Prog.grids h
theorem State.blocks_of_prog {s s' : State} (h : s'.prog = s.prog) : s'.blocks = s.blocks := congrArg Prog.blocks h

theorem State.warp_of_prog {s s' : State} (h : s'.prog = s.prog) (k : Nat) : s'.warp k = s.warp k := by
  simp only [State.warp, State.warps_of_prog h]

theorem State.thread_of_prog {s s' : State} (h : s'.prog = s.prog) (t : TRef) : s'.thread t = s.thread t := by
  simp only [State.thread, State.warp_of_prog h]

theorem State.cur_of_prog {s s' : State} (h : s'.prog = s.prog) : s'.cur = s.cur := by
  simp only [State.cur, State.issue_of_prog h]

/-- A thread that may issue may issue after an operation that leaves the programs alone. -/
theorem State.Runs.of_prog {s s' : State} {t : TRef} {i : Instr} (hr : s.Runs t i) (h : s'.prog = s.prog) : s'.Runs t i := by
  have hs : s' = { s' with warps := s.warps, grids := s.grids, issue := s.issue } := by
    rw [← State.warps_of_prog h, ← State.grids_of_prog h, ← State.issue_of_prog h]
  rw [hs]
  exact ⟨hr.alone, ⟨hr.passes.holds, hr.passes.legal, hr.passes.guard, hr.passes.gate⟩, hr.free⟩

/-! ## CALL and CALLX -/

theorem callCheck_ok {indirect : Bool} {target : DWord} {t : TRef} {s s1 : State}
    (hok : indirect = true → s.targetOk (s.warp t.warp).core (s.warp t.warp).asid target = true)
    (hroom : (s.areaBase t).toNat + 8 ≤ (s.thread t).sp.toNat)
    (hc : s.accessCheck t ((s.thread t).sp - 8) 8 false true = .ok s1) : callCheck indirect target t s = .ok s1 := by
  unfold callCheck
  dsimp only
  rw [if_neg, if_neg (Nat.not_lt.mpr hroom), hc]
  cases indirect with
  | false => simp
  | true => simp [hok rfl]

theorem callCheck_noRoom {target : DWord} {t : TRef} {s : State} (h : (s.thread t).sp.toNat < (s.areaBase t).toNat + 8) :
    callCheck false target t s = .error (report clsLease 1 ((s.thread t).sp - 8)) := by
  unfold callCheck
  dsimp only
  rw [if_neg (by simp), if_pos h]

theorem State.TlbOnly.thread {s s1 : State} (h : s.TlbOnly s1) (t : TRef) : s1.thread t = s.thread t := by
  simp only [State.thread, h.warp]

/-- What the effect of a call makes of a state whose TLBs alone have changed since the check. -/
theorem callTo_alone {s s1 : State} {t : TRef} {i : Instr} {target : DWord} (h : s.TlbOnly s1) :
    (callTo target t s1).alone s1 t i =
      ((s1.startStore t ((s.thread t).sp - 8) 8 s.cur.nextClause.toNat).setThread t fun th =>
        { th with sp := (s.thread t).sp - 8 }).retire [t] i target := by
  rw [← h.thread t, ← h.cur]
  rfl

theorem callOp_ok {i : Instr} {off : DWord} {s s1 : State} {t : TRef} (hr : s.Runs t i)
    (hroom : (s.areaBase t).toNat + 8 ≤ (s.thread t).sp.toNat)
    (hc : s.accessCheck t ((s.thread t).sp - 8) 8 false true = .ok s1) :
    callOp i off s = ((s1.startStore t ((s.thread t).sp - 8) 8 s.cur.nextClause.toNat).setThread t fun th =>
        { th with sp := (s.thread t).sp - 8 }).retire [t] i (branchTarget s.cur.pos off) :=
  have ht := State.accessCheck_tlbOnly hc
  (State.eachChecked_runs hr _ (callCheck_ok (indirect := false) nofun hroom hc) (ht.runs hr)).trans (callTo_alone ht)

theorem callxOp_ok {i : Instr} {s s1 : State} {t : TRef} (hr : s.Runs t i)
    (hok : s.targetOk (s.warp t.warp).core (s.warp t.warp).asid (s.operands t i.form).a = true)
    (hroom : (s.areaBase t).toNat + 8 ≤ (s.thread t).sp.toNat)
    (hc : s.accessCheck t ((s.thread t).sp - 8) 8 false true = .ok s1) :
    callxOp i s = ((s1.startStore t ((s.thread t).sp - 8) 8 s.cur.nextClause.toNat).setThread t fun th =>
        { th with sp := (s.thread t).sp - 8 }).retire [t] i (s.operands t i.form).a := by
  have ht := State.accessCheck_tlbOnly hc
  refine (State.eachChecked_runs hr _ (callCheck_ok (fun _ => hok) hroom hc) (ht.runs hr)).trans ?_
  rw [ht.operands t i.form]
  exact callTo_alone ht

/-! ## RET -/

theorem State.prog_retReach (s : State) (t : TRef) : (s.retReach t).1.prog = s.prog := State.prog_reachSpans _ _ _ _ _ _

theorem retCheck_ok {s s0 : State} {t : TRef} {o : Operands} (hsp : (s.thread t).sp ≠ s.areaTop t)
    (hc : s.accessCheck t (s.thread t).sp 8 true false = .ok s0) : retCheck t o s = .ok (s0.retReach t).1 := by
  unfold retCheck
  dsimp only
  rw [if_neg hsp, hc]
  rfl

theorem retCheck_top {s : State} {t : TRef} {o : Operands} (hsp : (s.thread t).sp = s.areaTop t) :
    retCheck t o s = .error (report clsLease 1 (s.thread t).sp) := if_pos hsp

/-- The return address that a thread's core reads. -/
def State.returnAddress (s : State) (core : Nat) (e : TlbEntry) (sp : DWord) : DWord :=
  BitVec.ofNat 64 (ofLeBytes ((List.range 8).map fun k => s.byteFor (dieOfCore core) (e.tgt == 1) (e.at sp + k)))

theorem retEff_ok {s : State} {t : TRef} {o : Operands} {e : TlbEntry} {sp : DWord} {w : Warp} (hsp : (s.thread t).sp = sp)
    (hw : s.warp t.warp = w) (hreach : (s.retReach t).2 = true) (hwait : s.loadWaits t sp 8 = false)
    (hlook : s.look w.core w.asid sp = some e)
    (hread : s.frameReadable w.asid (s.genAt w.core w.asid) (e.tgt == 1) (e.at sp) = true)
    (hok : s.targetOk w.core w.asid (s.returnAddress w.core e sp) = true) :
    retEff t o s = .jump ((if e.tgt = 1 then s else s.observe t.warp (e.at sp / 128)).setThread t fun th =>
      { th with sp := th.sp + 8 }) (s.returnAddress w.core e sp) := by
  unfold retEff
  dsimp only
  rw [hsp, hw, hwait, hreach, if_neg (by simp), hlook]
  dsimp only
  rw [hread, if_neg (by simp)]
  refine (if_pos hok).trans ?_
  simp only [beq_iff_eq]
  rfl

theorem callsComplete : Claim.CallsComplete := by
  constructor
  · intro i g s s1 t target hi hr a hroom hc
    obtain ⟨o, rfl, rfl⟩ | ⟨off, rfl, rfl⟩ | ⟨⟨b, rfl⟩ | ⟨x, rfl⟩, rfl, hok⟩ := hi
    · exact congrArg Host.Outcome.next (callOp_ok hr hroom hc)
    · exact congrArg Host.Outcome.next (callOp_ok hr hroom hc)
    · exact congrArg Host.Outcome.next (callxOp_ok hr hok hroom hc)
    · exact congrArg Host.Outcome.next (callxOp_ok hr hok hroom hc)
  · intro g s s0 t e hr sp w hsp hc s1 hreach hwait hlook hread target hok
    have ht := State.accessCheck_tlbOnly hc
    have hp : s1.prog = s0.prog := s0.prog_retReach t
    have hr1 : s1.Runs t (.ret g) := (ht.runs hr).of_prog hp
    have hsp1 : (s1.thread t).sp = sp := by rw [State.thread_of_prog hp, ht.thread]
    have hw1 : s1.warp t.warp = w := by rw [State.warp_of_prog hp, ht.warp]
    refine congrArg Host.Outcome.next ((State.eachChecked_runs hr _ (retCheck_ok hsp hc) hr1).trans ?_)
    rw [show retEff t _ s1 = _ from retEff_ok hsp1 hw1 hreach hwait hlook hread hok]
    rfl

/-- A fatal fault in one thread suspends no set. -/
theorem State.raiseAll_fatal {r : Report} (hr : reportFatal r = true) (s : State) (t : TRef) (wide : Bool) :
    s.raiseAll [t] r wide = s.raise t r := by
  simp [State.raiseAll, hr]

theorem callAreaFaults : Claim.CallAreaFaults := by
  constructor
  · intro i s t hi hr hroom
    obtain ⟨g, o, rfl⟩ | ⟨g, off, rfl⟩ := hi
    · exact congrArg Host.Outcome.next ((State.eachChecked_fails hr _ (callCheck_noRoom hroom)).trans
        (congrArg (State.finish · _ []) (State.raiseAll_fatal rfl _ _ _)))
    · exact congrArg Host.Outcome.next ((State.eachChecked_fails hr _ (callCheck_noRoom hroom)).trans
        (congrArg (State.finish · _ []) (State.raiseAll_fatal rfl _ _ _)))
  · intro g s t hr hsp
    exact congrArg Host.Outcome.next ((State.eachChecked_fails hr _ (retCheck_top hsp)).trans
        (congrArg (State.finish · _ []) (State.raiseAll_fatal rfl _ _ _)))

/-- Settles O21: the checks of a call and of a return come first, and then the thread's one effect. -/
theorem callsGo : Obligations.CallsGo := ⟨callsComplete, callAreaFaults⟩

end Sys2Proof.Machine
end

section
/-! SUPPORT. O22 fails: the statement speaks of every state, and in one whose table of warps lists a number twice, the end of the
block takes the warp that exits out of the table and leaves the other of its number, which has not been freed. -/

namespace Sys2Proof.Machine

set_option Elab.async false

/-- The one thread of warp 2, the last warp of its block, exits. -/
def lastOut : State :=
  (Slice0.single Slice0.lone).setBlock (Slice0.lone.warp 2).block fun b => { b with warps := [2] }

/-- The same, and the table lists another warp 2, of another block. -/
def twinned : State := { lastOut with warps := lastOut.warps ++ [(2, { Slice0.lone.warp 2 with block := 77 })] }

/-- Whether a warp is freed in the state that a step leaves. -/
def freedAfter (w : Nat) : Host.Outcome State Fault Refusal → Bool
  | .next s => (s.warp w).freed
  | _ => false

/-- In a warp with one thread, a lane but 0 names none, which reads as exited. -/
theorem exited_single (s : State) (l : Nat) (hl : l ≠ 0) (hw : (s.warp 2).threads.length = 1) : ((s.warp 2).thread l).exited = true := by
  have hn : (s.warp 2).threads.getD l Thread.none = Thread.none := by
    rw [List.getD_eq_default]
    omega
  exact congrArg Thread.exited hn

/-- Refutes O22: the last thread of `twinned`'s warp 2 exits, and the warp that the table then holds under 2 is not freed. -/
theorem not_exitEndsThread : ¬ Obligations.ExitEndsThread := by
  intro h
  obtain ⟨_, _, hlast⟩ := h Slice0.g twinned Slice0.t0 (Slice0.runs_of (by decide +kernel))
  obtain ⟨s', hs, hf⟩ := hlast (fun l hl => exited_single twinned l hl (by decide +kernel)) (by decide +kernel) (by decide +kernel)
    (by decide +kernel) (by decide +kernel) (by decide +kernel)
  have hx : freedAfter 2 (exec (.exit Slice0.g) twinned) = false := by decide +kernel
  rw [hs] at hx
  exact absurd (hf.symm.trans hx) (by decide)

end Sys2Proof.Machine
end

section
/-! SUPPORT. Faults, traps and returns from handlers (R336, R393 to R396). -/

namespace Sys2Proof.Machine

set_option Elab.async false

/-! ## The two outcomes of a fault -/

/-- R393: what a fault saves in its thread. -/
def Thread.faulted (th : Thread) (r : Report) : Thread :=
  { th with tcause := reportTcause r, tpos := th.pos, tval := r.tval, arrival := Option.none, wait := Option.none, unready := false }

theorem reportFatal_iff (r : Report) : reportFatal r = true ↔ r.cls ∈ [5, 6, 11, 12] := by
  simp [reportFatal, or_assoc]

/-- R395: a fault that has a handler: its thread enters it, and nothing else changes. -/
theorem State.raise_handled {s : State} {t : TRef} {r : Report} {h : DWord}
    (hh : (s.grid (s.warp t.warp).grid).kernel.traph = some h) (hc : reportFatal r = false) (hi : (s.thread t).inHandler = false) :
    s.raise t r = s.setThread t fun th =>
      { th.faulted r with
        inHandler := true, pos := h, distMet := true, entering := true
        lastIssue := max (th.lastIssue + 1) (max s.clock ((s.warp t.warp).lastLand t.lane)) } := by
  unfold State.raise
  simp only [hh, hc, hi, Bool.or_self, Bool.false_eq_true, if_false]
  rfl

/-- R394, R396: a fault without a handler for it ends the grid. -/
theorem State.raise_unhandled {s : State} {t : TRef} {r : Report}
    (h : (s.grid (s.warp t.warp).grid).kernel.traph = none ∨ reportFatal r = true ∨ (s.thread t).inHandler = true) :
    s.raise t r = (s.setThread t (Thread.faulted · r)).fatal t.warp r (s.thread t).pos := by
  unfold State.raise
  dsimp only
  split
  · rename_i hs
    rw [hs] at h
    rw [if_pos]
    · rfl
    · simpa using h
  · rfl

/-! ## FaultEntry and FatalFaults -/

theorem faultEntry : Claim.FaultEntry := by
  intro s t r h hh ht hc hi s'
  have hs : s' = _ := State.raise_handled ht (by simpa using mt (reportFatal_iff r).mp hc) hi
  clear_value s'
  subst hs
  refine ⟨?_, fun u hu => ?_, fun k => ?_, rfl⟩
  · rw [State.thread_setThread, if_pos ⟨rfl, hh⟩]
    exact ⟨rfl, rfl, rfl, rfl, rfl, rfl, rfl, rfl, rfl⟩
  · rw [State.thread_setThread, if_neg fun e => hu e.1]
  · rw [State.setThread, State.warp_setWarp]
    split <;> rfl

theorem State.warp_send (s : State) (m : Msg) (k : Nat) : (s.send m).warp k = s.warp k := (rfl)

/-- The threads of a warp that a fatal fault has stopped. -/
theorem State.thread_fatal (s : State) (t : TRef) (r : Report) (pos : DWord) (hh : s.Holds t) :
    (s.fatal t.warp r pos).thread t = { s.thread t with dead := true } := by
  obtain ⟨w, hw, hl⟩ := hh
  have hwarp : s.warp t.warp = w := by rw [State.warp, hw]; rfl
  unfold State.fatal
  simp only [State.thread, State.warp_send, State.warp_setWarp, hw, hwarp]
  simp [Warp.thread, hl]

theorem State.warp_fatal (s : State) (k : Nat) (r : Report) (pos : DWord) (j : Nat) :
    (s.fatal k r pos).warp j = { s.warp j with threads := ((s.fatal k r pos).warp j).threads } := by
  unfold State.fatal
  rw [State.warp_send, State.warp_setWarp]
  split <;> rfl

theorem State.setThread_holds {s : State} {t u : TRef} {f : Thread → Thread} (h : s.Holds u) : (s.setThread t f).Holds u := by
  obtain ⟨w, hw, hl⟩ := h
  by_cases hk : u.warp = t.warp
  · refine ⟨w.setThread t.lane f, ?_, by simpa [Warp.setThread] using hl⟩
    simp [State.setThread, State.setWarp, ← hk, hw]
  · exact ⟨w, by simp [State.setThread, State.setWarp, Tab.find_upd, hk, hw], hl⟩

theorem State.warp_setThread_rest (s : State) (t : TRef) (f : Thread → Thread) (k : Nat) :
    (s.setThread t f).warp k = { s.warp k with threads := ((s.setThread t f).warp k).threads } := by
  rw [State.setThread, State.warp_setWarp]
  split <;> rfl

theorem fatalFaults : Claim.FatalFaults := by
  intro s t r hh hc s'
  have hs : s' = _ := State.raise_unhandled (hc.imp id fun h => h.imp (reportFatal_iff r).mpr id)
  clear_value s'
  subst hs
  set u := s.setThread t (Thread.faulted · r) with hu
  have hgrid : (u.warp t.warp).grid = (s.warp t.warp).grid := by rw [hu, State.warp_setThread_rest]
  have hth : u.thread t = (s.thread t).faulted r := by rw [hu, State.thread_setThread, if_pos ⟨rfl, hh⟩]
  have hdead := State.thread_fatal u t r (s.thread t).pos (State.setThread_holds hh)
  refine ⟨?_, fun l hl => ?_, ?_, ?_, ?_, fun k => ?_, rfl⟩
  · rw [← hgrid]
    rfl
  · obtain ⟨w, hw, _⟩ := hh
    have hwarp : s.warp t.warp = w := by rw [State.warp, hw]; rfl
    rw [State.thread_fatal u ⟨t.warp, l⟩ r _ (State.setThread_holds ⟨w, hw, hwarp ▸ hl⟩)]
  · rw [hdead, hth]
    rfl
  · rw [hdead, hth]
    rfl
  · rw [hdead, hth]
    rfl
  · rw [State.warp_fatal, hu, State.warp_setThread_rest]

/-- Settles O24: a handled fault changes its thread alone, any other stops its warp and sends its report. -/
theorem faultsTaken : Obligations.FaultsTaken := ⟨faultEntry, fatalFaults⟩

/-! ## TRAP and BRK (R336) -/

theorem trapOp_enters {i : Instr} {cls : Nat} {c : BitVec 6} {s : State} {t : TRef} {h : DWord} (hr : s.Runs t i)
    (hg : i.form.g.scope = .lane) (hh : (s.grid (s.warp t.warp).grid).kernel.traph = some h)
    (hc : reportFatal (report cls 0 (c.setWidth 64)) = false) (hi : (s.thread t).inHandler = false) :
    trapOp i cls c s = (s.setThread t fun th =>
      { th.faulted (report cls 0 (c.setWidth 64)) with
        inHandler := true, pos := h, distMet := true, entering := true
        lastIssue := max (th.lastIssue + 1) (max s.clock ((s.warp t.warp).lastLand t.lane)) }).finish i.form.opc [] :=
  (State.laneOrOnce_lane hg _).trans ((State.eachThread_runs hr _).trans
    (congrArg (State.finish · i.form.opc []) ((State.raiseAll_lane hg).trans (State.raise_handled hh hc hi))))

theorem trapOp_warp {i : Instr} {cls : Nat} {c : BitVec 6} {s : State} {ts : List TRef} (hr : s.RunsOnce ts i)
    (hg : i.form.g.scope = .warp) :
    trapOp i cls c s = (ts.foldl (fun s t => s.raise t (report cls 0 (c.setWidth 64))) s).finish i.form.opc [] := by
  refine (State.laneOrOnce_wide (by simp [hg]) _).trans ((State.onceFor_runs hr _).trans ?_)
  simp [Eff.once, State.raiseAll, hg]

theorem trapsEnterHandler : Claim.TrapsEnterHandler := by
  intro i cls c g hi
  obtain ⟨rfl, rfl⟩ | ⟨rfl, rfl⟩ := hi
  · exact ⟨fun s t h hr hg hh hin => congrArg Host.Outcome.next (trapOp_enters hr hg hh rfl hin),
      fun s ts hr hg => congrArg Host.Outcome.next (trapOp_warp hr hg)⟩
  · exact ⟨fun s t h hr hg hh hin => congrArg Host.Outcome.next (trapOp_enters hr hg hh rfl hin),
      fun s ts hr hg => congrArg Host.Outcome.next (trapOp_warp hr hg)⟩

/-! ## TRAPRET (R336) -/

/-- R330: a warp once a thread that it waits for has returned. -/
def Warp.resumed (t : TRef) (w : Warp) : Warp :=
  { w with suspended := match w.suspended with
    | some ts => if (ts.filter (· ≠ t)).isEmpty then Option.none else some (ts.filter (· ≠ t))
    | Option.none => Option.none }

theorem State.unsuspend_eq (s : State) (t : TRef) :
    s.unsuspend t = { s with warps := s.warps.map fun e => (e.1, e.2.resumed t) } := by
  unfold State.unsuspend
  refine congrArg (fun ws : Tab Warp => { s with warps := ws }) (List.map_congr_left fun e _ => ?_)
  obtain ⟨k, w⟩ := e
  dsimp only
  cases hs : w.suspended with
  | none =>
    refine Prod.ext rfl ?_
    simp only [Warp.resumed, hs]
    rw [← hs]
  | some ts => simp only [Warp.resumed, hs]

/-- A thread after another has returned: only what suspends the warps is different. -/
theorem State.thread_unsuspend (s : State) (t u : TRef) : (s.unsuspend t).thread u = s.thread u := by
  rw [State.unsuspend_eq]
  simp only [State.thread, State.warp, Tab.find_map]
  cases Tab.find s.warps u.warp <;> rfl

theorem scope_of_ok {f : Form} (h : f.ok = true) : (opRule f.opc f.g f.x).scopes.contains f.g.scope = true := by
  simp only [Form.ok, Bool.and_eq_true] at h
  obtain ⟨⟨⟨⟨⟨⟨⟨⟨⟨⟨_, hs⟩, _⟩, _⟩, _⟩, _⟩, _⟩, _⟩, _⟩, _⟩, _⟩ := h
  exact hs

theorem trapret_scope {g : Guard} {k : BitVec 1} {s : State} {t : TRef} (hr : s.Runs t (.trapret g k)) : g.scope = .lane := by
  have hl := hr.passes.legal
  simp only [State.legal, Bool.and_eq_true] at hl
  have hs : [Scope.lane].contains g.scope = true := scope_of_ok hl.1
  simpa using hs

theorem trapReturns : Claim.TrapReturns := by
  intro g k s t hr th w
  have alone (e : Eff) (he : trapretEff (k == 1) t (s.operands t (Instr.trapret g k).form) s = e) :
      exec (.trapret g k) s = .next (e.alone s t (.trapret g k)) :=
    congrArg Host.Outcome.next ((State.eachThread_runs hr _).trans (congrArg (Eff.alone s t (.trapret g k)) he))
  refine ⟨fun hin hk => alone (.stay (s.trapReturn t th.tpos)) ?_, fun hin hk p hp => alone (.stay (s.trapReturn t p)) ?_,
    fun hin => (alone (.fault s.illegal) ?_).trans ?_, fun p => ?_⟩
  · simp [trapretEff, hk, show (s.thread t).inHandler = true from hin, th]
  · have hp' : s.posAfter (s.warp t.warp).core (s.warp t.warp).asid (s.thread t).tpos = .ok p := hp
    simp [trapretEff, hk, show (s.thread t).inHandler = true from hin, hp']
  · simp [trapretEff, show (s.thread t).inHandler = false from hin]
  · exact congrArg (fun s' : State => Host.Outcome.next (s'.finish _ [])) (State.raiseAll_lane (trapret_scope hr))
  · have hs : (s.trapReturn t p).thread t = { th with inHandler := false, pos := p, distMet := true, arrival := none,
                                                      lastIssue := s.clock + 1 } := by
      rw [State.trapReturn, State.thread_unsuspend, State.thread_setThread, if_pos ⟨rfl, hr.passes.holds⟩]
    intro s'
    rw [show s'.thread t = _ from hs]
    exact ⟨rfl, rfl, rfl, rfl, rfl, rfl⟩

/-- Settles O23: the fault that a trap raises has its handler, and the return's effect is the thread's own. -/
theorem trapsAndReturns : Obligations.TrapsAndReturns := ⟨trapsEnterHandler, trapReturns⟩

end Sys2Proof.Machine
end

section
/-! SUPPORT. False predicates (R35), and the marker instructions (R343 to R345). -/

namespace Sys2Proof.Machine

set_option Elab.async false

/-! ## Each way of acting, where the predicate is false -/

section
variable {s : State} {t : TRef} {i : Instr} (h : s.Skips t i)
include h

theorem State.Skips.onceFor (hg : i.form.g.scope = .lane) (eff : TRef → Operands → State → Eff) :
    s.onceFor i eff = s.retire [t] i s.cur.next :=
  have _ := hg
  State.onceFor_skips h.alone (by simp) (by simpa using h.legal) (by simpa using h.guard) h.free eff

theorem State.Skips.eachChecked (chk : TRef → Operands → State → Except Report State) (eff : TRef → Operands → State → Eff) :
    s.eachChecked i chk eff = s.retire [t] i s.cur.next := by
  unfold State.eachChecked
  simp only [h.free, h.alone, h.legal, h.guard, Bool.and_false, Bool.false_and, Bool.false_eq_true, if_false, List.filter_cons,
    List.filter_nil, List.foldl_nil, lowestFailing]
  exact State.eachThread_skips h eff

theorem State.Skips.laneOrOnce (hg : i.form.g.scope = .lane) (eff : TRef → Operands → State → Eff) :
    s.laneOrOnce i eff = s.retire [t] i s.cur.next :=
  (State.laneOrOnce_lane hg eff).trans (State.eachThread_skips h eff)

theorem State.Skips.onceEach (hg : i.form.g.scope = .lane) (eff : TRef → Operands → State → Eff) :
    s.onceEach i eff = s.retire [t] i s.cur.next :=
  (if_pos (by simp [hg])).trans (State.eachThread_skips h eff)

theorem State.Skips.alu (hg : i.form.g.scope = .lane) (lat : Nat) (op : AluOp) : s.alu i lat op = s.retire [t] i s.cur.next := by
  unfold State.alu
  dsimp only
  split
  · exact h.onceFor hg _
  · split
    · exact h.onceEach hg _
    · exact State.eachThread_skips h _

theorem State.Skips.laneOp (hg : i.form.g.scope = .lane) (op : Form → List Place → State → List LaneRes) :
    s.laneOp i op = s.retire [t] i s.cur.next := by
  unfold State.laneOp
  dsimp only
  split
  · exact h.onceFor hg _
  · exact State.eachThread_skips h _

theorem State.Skips.blkmax (hg : i.form.g.scope = .lane) : blkmax i s = s.retire [t] i s.cur.next := by
  unfold Machine.blkmax
  dsimp only
  split
  · exact h.onceFor hg _
  · exact State.eachThread_skips h _

theorem State.Skips.csrrOp (hg : i.form.g.scope = .lane) : csrrOp i s = s.retire [t] i s.cur.next := by
  unfold Machine.csrrOp
  dsimp only
  split
  · exact h.onceFor hg _
  · exact h.onceEach hg _

theorem State.Skips.enqtOp (hg : i.form.g.scope = .lane) : enqtOp i s = s.retire [t] i s.cur.next := by
  unfold Machine.enqtOp
  simp only [h.alone, h.guard, Bool.false_and, Bool.false_eq_true, if_false, List.filter_cons, List.filter_nil, List.foldl_nil]
  exact (if_pos hg).trans (h.eachChecked _ _)

/-! ## EXIT -/

/-- The thread that has moved on has not exited. -/
theorem State.Skips.live (hlive : (s.thread t).exited = false) (p : DWord) : ((s.retire [t] i p).thread t).exited = false := by
  have hm : ((s.moveTo t p).thread t).exited = false := by
    rw [State.moveTo, State.thread_setThread, if_pos ⟨rfl, h.holds⟩]
    exact hlive
  exact (congrArg Thread.exited (State.finish_thread _ _ _ t)).trans hm

omit h in
/-- A warp with a thread that has not exited. -/
theorem State.not_all_exited {s : State} {t : TRef} (hlive : (s.thread t).exited = false) :
    (s.warp t.warp).threads.all Thread.exited = false := by
  rw [List.all_eq_false]
  have hl : t.lane < (s.warp t.warp).threads.length := by
    by_contra hn
    rw [State.thread, Warp.thread, List.getD_eq_default _ _ (by omega)] at hlive
    cases hlive
  refine ⟨_, List.getElem_mem hl, ?_⟩
  rw [State.thread, Warp.thread, List.getD_eq_getElem _ _ hl] at hlive
  simpa using hlive

theorem State.Skips.exitOp (hlive : (s.thread t).exited = false) :
    s.groupWarps.foldl (fun s w => s.setdeclExit w) (exitOp i s) = s.retire [t] i s.cur.next := by
  have hw : s.groupWarps = [t.warp] := by simp [State.groupWarps, h.alone]
  have hall := State.not_all_exited (h.live hlive s.cur.next)
  have hreap : (s.retire [t] i s.cur.next).reap t.warp = s.retire [t] i s.cur.next := by
    unfold State.reap
    simp [hall]
  unfold Machine.exitOp
  dsimp only
  rw [hw, State.eachThread_skips h]
  simp only [List.foldl_cons, List.foldl_nil, hreap, State.setdeclExit, hall]
  rfl

/-- A legal form's scope is one of its opcode's. -/
theorem State.Skips.lane_mem (hg : i.form.g.scope = .lane) : Scope.lane ∈ (opRule i.form.opc i.form.g i.form.x).scopes := by
  have hl := h.legal
  simp only [State.legal, Bool.and_eq_true] at hl
  rw [← hg]
  simpa using scope_of_ok hl.1

end

/-- BAR has no lane scope. -/
theorem barX_wide {g : Guard} {x : XForm} {s : State} {t : TRef} (h : s.Skips t (.barX g x)) : g.scope ≠ .lane := by
  intro hg
  have hs : (opRule 0x09 g x).scopes = if x.sub.toNat = 1 then [.block] else [.warp, .set, .block] :=
    apply_ite OpRule.scopes (x.sub.toNat = 1) _ _
  have hm : Scope.lane ∈ (opRule 0x09 g x).scopes := h.lane_mem hg
  rw [hs] at hm
  split at hm <;> simp at hm

theorem ite_both {α : Type} (c : Prop) [Decidable c] {a b x : α} (ha : a = x) (hb : b = x) : (if c then a else b) = x := by
  rw [ha, hb, ite_self]

/-! ## The instructions by their operations -/

section
variable {s : State} {t : TRef} {i : Instr} (h : s.Skips t i) (hg : i.form.g.scope = .lane)
include h hg

omit hg in
theorem callOp_skips (off : DWord) : callOp i off s = s.retire [t] i s.cur.next := by
  unfold callOp
  exact h.eachChecked _ _

omit hg in
theorem callxOp_skips : callxOp i s = s.retire [t] i s.cur.next := by
  unfold callxOp
  exact h.eachChecked _ _

omit hg in
theorem retOp_skips : retOp i s = s.retire [t] i s.cur.next := by
  unfold retOp
  exact h.eachChecked _ _

omit hg in
theorem stOp_skips : stOp i s = s.retire [t] i s.cur.next := by
  unfold stOp
  exact h.eachChecked _ _

omit hg in
theorem ldsOp_skips : ldsOp i s = s.retire [t] i s.cur.next := by
  unfold ldsOp
  exact h.eachChecked _ _

omit hg in
theorem stsOp_skips : stsOp i s = s.retire [t] i s.cur.next := by
  unfold stsOp
  exact h.eachChecked _ _

omit hg in
theorem ldwOp_skips : ldwOp i s = s.retire [t] i s.cur.next := by
  unfold ldwOp
  exact h.eachChecked _ _

omit hg in
theorem stwOp_skips : stwOp i s = s.retire [t] i s.cur.next := by
  unfold stwOp
  exact h.eachChecked _ _

omit hg in
theorem latomOp_skips (ret : Bool) : latomOp i ret s = s.retire [t] i s.cur.next := by
  unfold latomOp
  exact h.eachChecked _ _

theorem setdeclOp_skips : setdeclOp i s = s.retire [t] i s.cur.next := by
  unfold setdeclOp
  exact h.onceFor hg _

theorem setfreeOp_skips : setfreeOp i s = s.retire [t] i s.cur.next := by
  unfold setfreeOp
  exact h.onceFor hg _

theorem idemOp_skips (on : Bool) : idemOp i on s = s.retire [t] i s.cur.next := by
  unfold idemOp
  exact h.onceFor hg _

theorem progOp_skips : progOp i s = s.retire [t] i s.cur.next := by
  unfold progOp
  exact h.onceFor hg _

theorem reggiveOp_skips : reggiveOp i s = s.retire [t] i s.cur.next := by
  unfold reggiveOp
  exact h.onceFor hg _

theorem regclaimOp_skips : regclaimOp i s = s.retire [t] i s.cur.next := by
  unfold regclaimOp
  exact h.onceFor hg _

theorem opfenceOp_skips : opfenceOp i s = s.retire [t] i s.cur.next := by
  unfold opfenceOp
  exact h.onceFor hg _

theorem rdegOp_skips : rdegOp i s = s.retire [t] i s.cur.next := by
  unfold rdegOp
  exact h.onceFor hg _

theorem rtOp_skips (install : Bool) : rtOp i install s = s.retire [t] i s.cur.next := by
  unfold rtOp
  exact h.onceFor hg _

theorem copyIssue_skips (kind : Nat) : copyIssue i kind s = s.retire [t] i s.cur.next := by
  unfold copyIssue
  exact h.onceFor hg _

theorem xreadOp_skips : xreadOp i s = s.retire [t] i s.cur.next := by
  unfold xreadOp
  exact h.onceFor hg _

theorem qcwsetOp_skips : qcwsetOp i s = s.retire [t] i s.cur.next := by
  unfold qcwsetOp
  exact h.onceFor hg _

theorem rpushOp_skips : rpushOp i s = s.retire [t] i s.cur.next := by
  unfold rpushOp
  exact h.onceFor hg _

theorem rpopOp_skips : rpopOp i s = s.retire [t] i s.cur.next := by
  unfold rpopOp
  exact h.onceFor hg _

theorem bgiveOp_skips (give : Bool) : bgiveOp i give s = s.retire [t] i s.cur.next := by
  unfold bgiveOp
  exact h.onceFor hg _

theorem btakeOp_skips : btakeOp i s = s.retire [t] i s.cur.next := by
  unfold btakeOp
  exact h.onceFor hg _

theorem btakeNewOp_skips : btakeNewOp i s = s.retire [t] i s.cur.next := by
  unfold btakeNewOp
  exact h.onceFor hg _

theorem fmtsetOp_skips : fmtsetOp i s = s.retire [t] i s.cur.next := by
  unfold fmtsetOp
  exact h.onceFor hg _

theorem matrixIssue_skips (kind : Nat) : matrixIssue i kind s = s.retire [t] i s.cur.next := by
  unfold matrixIssue
  exact h.onceFor hg _

theorem fetchTileOp_skips : fetchTileOp i s = s.retire [t] i s.cur.next := by
  unfold fetchTileOp
  exact h.onceFor hg _

theorem fetchTaskOp_skips : fetchTaskOp i s = s.retire [t] i s.cur.next := by
  unfold fetchTaskOp
  exact h.onceFor hg _

theorem migrateOp_skips : migrateOp i s = s.retire [t] i s.cur.next := by
  unfold migrateOp
  exact h.onceFor hg _

theorem waitfOp_skips : waitfOp i s = s.retire [t] i s.cur.next := by
  unfold waitfOp
  exact (if_pos hg).trans (State.eachThread_skips h _)

theorem fenceOp_skips : fenceOp i s = s.retire [t] i s.cur.next := by
  unfold fenceOp
  exact (if_pos hg).trans (State.eachThread_skips h _)

theorem waitcmpOp_skips : waitcmpOp i s = s.retire [t] i s.cur.next := by
  unfold waitcmpOp
  exact (if_pos hg).trans (State.eachThread_skips h _)

theorem moncanOp_skips : moncanOp i s = s.retire [t] i s.cur.next := by
  unfold moncanOp
  exact (if_pos hg).trans (State.eachThread_skips h _)

theorem csrwOp_skips : csrwOp i s = s.retire [t] i s.cur.next := by
  unfold csrwOp
  exact (if_pos hg).trans (State.eachThread_skips h _)

theorem ldOp_skips : ldOp i s = s.retire [t] i s.cur.next := by
  unfold ldOp
  exact (if_pos hg).trans (h.eachChecked _ _)

theorem ldcOp_skips : ldcOp i s = s.retire [t] i s.cur.next := by
  unfold ldcOp
  exact (if_pos hg).trans (h.eachChecked _ _)

omit hg in
theorem trapretOp_skips (skip : Bool) : trapretOp i skip s = s.retire [t] i s.cur.next := by
  unfold trapretOp
  exact State.eachThread_skips h _

omit hg in
theorem prefOp_skips : prefOp i s = s.retire [t] i s.cur.next := by
  unfold prefOp
  exact State.eachThread_skips h _

omit hg in
theorem cinvOp_skips : cinvOp i s = s.retire [t] i s.cur.next := by
  unfold cinvOp
  exact State.eachThread_skips h _

theorem bra_skips (off : DWord) : bra i off s = s.retire [t] i s.cur.next := by
  unfold bra
  exact h.laneOrOnce hg _

theorem brxOp_skips : brxOp i s = s.retire [t] i s.cur.next := by
  unfold brxOp
  exact h.laneOrOnce hg _

theorem trapOp_skips (cls : Nat) (code : BitVec 6) : trapOp i cls code s = s.retire [t] i s.cur.next := by
  unfold trapOp
  exact h.laneOrOnce hg _

theorem rendezvous_skips : rendezvous i s = s.retire [t] i s.cur.next := by
  unfold rendezvous
  exact h.laneOrOnce hg _

theorem iselUniform_skips : iselUniform i s = s.retire [t] i s.cur.next := by
  unfold iselUniform
  exact h.onceFor hg _

end

/-- R35: whatever the instruction, a thread whose predicate is false moves on. -/
theorem predicateFalse : Claim.PredicateFalse := by
  intro i f s t hf hscope h hlive
  have hg : i.form.g.scope = .lane := by rw [Instr.form, hf]; exact hscope
  cases i
  case rdsr | rdsrX | iadd | iaddX | isub | isubX | iadd3 | imul | imulX | imulh | imulhX | imad | imadX
    | imadw | shl | shlX | shr | shrX | sar | sarX | shf | and | andX | or | orX | xor | xorX | bfn | popc
    | popcX | clz | clzX | brev | brevX | bfx | bfi | bpack | imin | iminX | imax | imaxX | iabs | iabsX
    | icmp | icmpX | iaddmin | iaddmax | lea | mov | movX | movi | moviX | movqPack | qop | cvti | cvtiX
    | fadd | faddX | fmul | fmulX | ffma | ffmaX | fmin | fminX | fmax | fmaxX | fcmp | fcmpX | faddmin
    | fclass | fclassX | frnd | frndX | rcp | rsq | sqrt | rcpRsqSqrtX | exp2 | log2 | exp2Log2X | sin | cos
    | tanh | sinCosTanhX | hadd2 | hadd2X | hmul2 | hmul2X | hfma2 | hfma2X | dot4 | dot4X | cvtf | cvtfX
    | cvtfi | cvtfiX | cvtif | cvtifX | quant | deq | acck | time | timeX => exact congrArg Host.Outcome.next (h.alu hg _ _)
  case shfl | shflX | vote | voteX | redux | reduxX | matchAny | matchX | scan | scanX =>
    exact congrArg Host.Outcome.next (h.laneOp hg _)
  case movqUnpack => exact congrArg Host.Outcome.next (State.eachThread_skips h _)
  case csrr | csrrX => exact congrArg Host.Outcome.next (h.csrrOp hg)
  case blkmax => exact congrArg Host.Outcome.next (h.blkmax hg)
  case enqt => exact congrArg Host.Outcome.next (h.enqtOp hg)
  case call | callLit => exact congrArg Host.Outcome.next (callOp_skips h _)
  case callx | callxX => exact congrArg Host.Outcome.next (callxOp_skips h)
  case ret => exact congrArg Host.Outcome.next (retOp_skips h)
  case st | stX => exact congrArg Host.Outcome.next (stOp_skips h)
  case lds | ldsX => exact congrArg Host.Outcome.next (ldsOp_skips h)
  case sts | stsX => exact congrArg Host.Outcome.next (stsOp_skips h)
  case ldw | ldwX => exact congrArg Host.Outcome.next (ldwOp_skips h)
  case stw | stwX => exact congrArg Host.Outcome.next (stwOp_skips h)
  case latom | latomX | latoms => exact congrArg Host.Outcome.next (latomOp_skips h _)
  case setdecl => exact congrArg Host.Outcome.next (setdeclOp_skips h hg)
  case setfree => exact congrArg Host.Outcome.next (setfreeOp_skips h hg)
  case idemb | ideme => exact congrArg Host.Outcome.next (idemOp_skips h hg _)
  case prog | progX => exact congrArg Host.Outcome.next (progOp_skips h hg)
  case reggive => exact congrArg Host.Outcome.next (reggiveOp_skips h hg)
  case regclaim => exact congrArg Host.Outcome.next (regclaimOp_skips h hg)
  case opfence => exact congrArg Host.Outcome.next (opfenceOp_skips h hg)
  case rdeg => exact congrArg Host.Outcome.next (rdegOp_skips h hg)
  case rtinst | rtrem => exact congrArg Host.Outcome.next (rtOp_skips h hg _)
  case xcopy | xgather | xscat | xfill => exact congrArg Host.Outcome.next (copyIssue_skips h hg _)
  case xread => exact congrArg Host.Outcome.next (xreadOp_skips h hg)
  case qcwset => exact congrArg Host.Outcome.next (qcwsetOp_skips h hg)
  case rpush | rpushX => exact congrArg Host.Outcome.next (rpushOp_skips h hg)
  case rpop | rpopX => exact congrArg Host.Outcome.next (rpopOp_skips h hg)
  case bgive | bgiveFree => exact congrArg Host.Outcome.next (bgiveOp_skips h hg _)
  case btake => exact congrArg Host.Outcome.next (btakeOp_skips h hg)
  case btakeNew => exact congrArg Host.Outcome.next (btakeNewOp_skips h hg)
  case fmtset => exact congrArg Host.Outcome.next (fmtsetOp_skips h hg)
  case mma | mmas | accz | accld | accst => exact congrArg Host.Outcome.next (matrixIssue_skips h hg _)
  case fetchtTile => exact congrArg Host.Outcome.next (fetchTileOp_skips h hg)
  case fetchtTask => exact congrArg Host.Outcome.next (fetchTaskOp_skips h hg)
  case migrate => exact congrArg Host.Outcome.next (migrateOp_skips h hg)
  case waitf | waitfX => exact congrArg Host.Outcome.next (waitfOp_skips h hg)
  case fence | fenceX => exact congrArg Host.Outcome.next (fenceOp_skips h hg)
  case waitcmp | waitcmpX => exact congrArg Host.Outcome.next (waitcmpOp_skips h hg)
  case moncan | moncanX => exact congrArg Host.Outcome.next (moncanOp_skips h hg)
  case csrw | csrwX => exact congrArg Host.Outcome.next (csrwOp_skips h hg)
  case ld | ldX => exact congrArg Host.Outcome.next (ldOp_skips h hg)
  case ldc | ldcX => exact congrArg Host.Outcome.next (ldcOp_skips h hg)
  case trapret => exact congrArg Host.Outcome.next (trapretOp_skips h _)
  case pref | prefX => exact congrArg Host.Outcome.next (prefOp_skips h)
  case cinv | cinvX => exact congrArg Host.Outcome.next (cinvOp_skips h)
  case bra | braLit => exact congrArg Host.Outcome.next (bra_skips h hg _)
  case brx | brxX => exact congrArg Host.Outcome.next (brxOp_skips h hg)
  case trap | brk => exact congrArg Host.Outcome.next (trapOp_skips h hg _ _)
  case nop => exact congrArg Host.Outcome.next (rendezvous_skips h hg)
  case yield => exact congrArg Host.Outcome.next ((if_pos hg).trans (State.eachThread_skips h yieldEff))
  case isel => exact congrArg Host.Outcome.next (ite_both _ (iselUniform_skips h hg) (h.alu hg _ _))
  case movqX => exact congrArg Host.Outcome.next (ite_both _ (h.alu hg _ _) (State.eachThread_skips h _))
  case exit => exact congrArg Host.Outcome.next (h.exitOp hlive)
  case bar => exact absurd (h.lane_mem hg) (by decide : ¬ Scope.lane ∈ [Scope.warp, .set, .block])
  case barNamed => exact absurd (h.lane_mem hg) (by decide : ¬ Scope.lane ∈ [Scope.block])
  case barX => exact absurd hg (barX_wide h)
  all_goals cases hf

/-! ## The markers -/

theorem exec_idemb {g : Guard} {s : State} {ts : List TRef} (h : s.RunsOnce ts (.idemb g)) :
    exec (.idemb g) s = .next ((s.setWarp (s.lead (.idemb g)).warp fun w =>
      { w with idem := true, idemPos := s.cur.pos }).retire ts (.idemb g) s.cur.next) :=
  congrArg Host.Outcome.next (State.onceFor_runs h _)

theorem exec_ideme {g : Guard} {s : State} {ts : List TRef} (h : s.RunsOnce ts (.ideme g)) :
    exec (.ideme g) s = .next ((s.setWarp (s.lead (.ideme g)).warp fun w =>
      { w with idem := false }).retire ts (.ideme g) s.cur.next) :=
  congrArg Host.Outcome.next (State.onceFor_runs h _)

theorem progOp_eq {i : Instr} {s : State} {ts : List TRef} (h : s.RunsOnce ts i) :
    progOp i s = (s.setBlock (s.warp (s.lead i).warp).block fun b =>
      { b with prog := min 65536 (if i.form.x.sub = 0 then b.prog + ((s.leadOps i).a.setWidth 32).toNat
        else ((s.leadOps i).a.setWidth 32).toNat) }).retire ts i s.cur.next := by
  refine (State.onceFor_runs h _).trans ?_
  simp only [Eff.once, apply_ite (min 65536)]

theorem flagsSet_iff (mask : Nat) (cf : BitVec 12) :
    ((List.range 12).all fun k => !mask.testBit k || cf.getLsbD k) = true ↔ ∀ k, k < 12 → mask.testBit k = true → cf.getLsbD k = true := by
  simp only [List.all_eq_true, List.mem_range, Bool.or_eq_true, Bool.not_eq_true']
  refine forall₂_congr fun k _ => ?_
  cases mask.testBit k <;> simp

/-! ## WAITF -/

theorem waitfOp_passes {i : Instr} {s : State} {t : TRef} (h : s.Runs t i) (hg : i.form.g.scope = .lane)
    (hf : ∀ k, k < 12 → ((s.operands t i.form).a.toNat % 4096).testBit k = true → (s.warp t.warp).cf.getLsbD k = true)
    (hd : s.deferredAt t ((s.operands t i.form).a.toNat % 4096) = none) :
    waitfOp i s = (s.waited [t.warp] ((s.operands t i.form).a.toNat % 4096)).retire [t] i s.cur.next := by
  refine (if_pos hg).trans ((State.eachThread_runs h _).trans ?_)
  rw [waitfEff, if_pos ((flagsSet_iff _ _).mpr hf), hd]
  rfl

theorem waitfOp_notReady {i : Instr} {s : State} {t : TRef} (h : s.Runs t i) (hg : i.form.g.scope = .lane)
    (hf : ∃ k, k < 12 ∧ ((s.operands t i.form).a.toNat % 4096).testBit k = true ∧ (s.warp t.warp).cf.getLsbD k = false) :
    waitfOp i s = s.putOffLane s t i.form.opc := by
  refine (if_pos hg).trans ((State.eachThread_runs h _).trans ?_)
  obtain ⟨k, hk, hm, hc⟩ := hf
  rw [waitfEff, if_neg fun hall => by simp [(flagsSet_iff _ _).mp hall k hk hm] at hc]
  rfl

theorem waitfOp_once {i : Instr} {s : State} {ts : List TRef} (h : s.RunsOnce ts i) (hg : i.form.g.scope ≠ .lane)
    (hf : ∀ k, k < 12 → ((s.leadOps i).a.toNat % 4096).testBit k = true → (s.warp (s.lead i).warp).cf.getLsbD k = true)
    (hd : ∀ t ∈ ts, s.deferredAt t ((s.leadOps i).a.toNat % 4096) = none) :
    waitfOp i s = (s.waited s.groupWarps ((s.leadOps i).a.toNat % 4096)).retire ts i s.cur.next := by
  refine (if_neg hg).trans ((State.onceFor_runs h _).trans ?_)
  have hnone : (s.cur.group.find? fun t => (s.deferredAt t ((s.leadOps i).a.toNat % 4096)).isSome) = none := by
    rw [List.find?_eq_none, h.group]
    intro t ht
    simp [hd t ht]
  dsimp only
  rw [if_pos ((flagsSet_iff _ _).mpr hf), hnone]
  rfl

theorem markersComplete : Claim.MarkersComplete := by
  refine ⟨fun g s ts => ⟨exec_idemb, exec_ideme⟩, fun i hi s ts h => ?_, fun i hi s t h hg => ?_, fun i hi s ts h hg => ?_⟩
  · obtain ⟨g, v, rfl⟩ | ⟨g, x, rfl⟩ := hi <;> exact congrArg Host.Outcome.next (progOp_eq h)
  · obtain ⟨g, a, d, rfl⟩ | ⟨g, x, rfl⟩ := hi <;>
      exact ⟨fun hf hd => congrArg Host.Outcome.next (waitfOp_passes h hg hf hd),
        fun hf => congrArg Host.Outcome.next (waitfOp_notReady h hg hf)⟩
  · obtain ⟨g, a, d, rfl⟩ | ⟨g, x, rfl⟩ := hi <;>
      exact fun hf hd => congrArg Host.Outcome.next (waitfOp_once h hg hf hd)

/-- Settles O26: an instruction skips by the way it acts, and the markers act once or in their thread. -/
theorem markersAndPredicates : Obligations.MarkersAndPredicates := ⟨predicateFalse, markersComplete⟩

end Sys2Proof.Machine
end

section
/-! SUPPORT. O33 fails: the statement speaks of every state, and where the table of warps lists a number twice, the end of a set
frees a member's block and leaves the other warp of the member's number, which still holds its set. -/

namespace Sys2Proof.Machine

set_option Elab.async false

/-- Warp 3 of the set has no thread left, is the last warp of its block, and the table lists another warp 3. -/
def twinnedSet : State :=
  let s := Slice0.inSet.setWarp 3 fun w => { w with threads := [], block := 77 }
  { s with warps := s.warps ++ [(3, { Slice0.inSet.warp 3 with block := 78 })] }

/-- The set register of a warp in the state that a step leaves. -/
def setAfter (w : Nat) : Host.Outcome State Fault Refusal → DWord
  | .next s => (s.warp w).setReg
  | _ => 0

/-- Refutes O33: the SETFREE of `twinnedSet`'s last member leaves a warp 3 in its set. -/
theorem not_barriersAndSets : ¬ Obligations.BarriersAndSets := by
  intro ⟨_, _, _, h⟩
  obtain ⟨_, _, hfree⟩ := h Slice0.gw ⟨false, .vec 0, noSrc, noSrc, noSrc, 1, .u32, .rn, false, 0⟩ twinnedSet Slice0.both
    (Slice0.once_of (by decide +kernel))
  have hms : twinnedSet.setOf (twinnedSet.lead Slice0.freeSet).warp = [2, 3] := by decide +kernel
  obtain ⟨s', hs, hzero⟩ := hfree (by decide +kernel) (by decide +kernel) (by decide +kernel)
  have hx : setAfter 3 (exec Slice0.freeSet twinnedSet) ≠ 0 := by decide +kernel
  rw [show exec Slice0.freeSet twinnedSet = .next s' from hs] at hx
  exact hx (hzero 3 (hms ▸ by decide))

end Sys2Proof.Machine
end

section
/-! SUPPORT. What the end of an issue keeps of warps and of the rest of the state. -/

namespace Sys2Proof.Machine

set_option Elab.async false

/-- A warp but for its threads, its count of issues and its idempotent bit. -/
def Warp.kept (w : Warp) : Warp := { w with threads := [], icount := 0, idem := false }

theorem State.kept_setWarp (s : State) (k : Nat) (f : Warp → Warp) (hf : ∀ w, (f w).kept = w.kept) (j : Nat) :
    ((s.setWarp k f).warp j).kept = (s.warp j).kept := by
  rw [State.warp_setWarp]
  split
  · exact hf _
  · rfl

theorem State.kept_foldl {β : Type} {f : State → β → State} (hf : ∀ s x j, ((f s x).warp j).kept = (s.warp j).kept) :
    (l : List β) → (s : State) → (j : Nat) → ((l.foldl f s).warp j).kept = (s.warp j).kept
  | [], _, _ => rfl
  | x :: rest, s, j => (kept_foldl hf rest (f s x) j).trans (hf s x j)

theorem State.kept_moveTo (s : State) (t : TRef) (p : DWord) (j : Nat) : ((s.moveTo t p).warp j).kept = (s.warp j).kept :=
  State.kept_setWarp s t.warp (fun w => w.setThread t.lane _) (fun _ => rfl) j

theorem State.kept_finish (s : State) (opc : Nat) (took : List TRef) (j : Nat) :
    ((s.finish opc took).warp j).kept = (s.warp j).kept :=
  State.kept_foldl (f := fun u w => u.setWarp w fun wp => { wp with icount := wp.icount + 1, idem := wp.idem && !clearsIdem opc })
    (fun u w => State.kept_setWarp u w _ fun _ => rfl) _ s j

theorem State.kept_retire (s : State) (ts : List TRef) (i : Instr) (p : DWord) (j : Nat) :
    ((s.retire ts i p).warp j).kept = (s.warp j).kept :=
  (State.kept_finish _ _ _ j).trans (State.kept_foldl (fun u t => State.kept_moveTo u t p) ts s j)

theorem State.retire_frame (s : State) (ts : List TRef) (i : Instr) (p : DWord) :
    s.retire ts i p = { s with warps := (s.retire ts i p).warps, issue := none } := by
  have hm : s.WarpsOnly (ts.foldl (fun s t => s.moveTo t p) s) := State.WarpsOnly.foldl (fun _ _ => rfl) ts s
  unfold State.retire
  rw [State.finish_frame, hm]

theorem State.blocks_retire (s : State) (ts : List TRef) (i : Instr) (p : DWord) : (s.retire ts i p).blocks = s.blocks := by
  rw [State.retire_frame]

theorem State.block_retire (s : State) (ts : List TRef) (i : Instr) (p : DWord) (b : Nat) :
    (s.retire ts i p).block b = s.block b := by
  simp only [State.block, State.blocks_retire]

/-- Warps that differ only in what the end of an issue changes hold the same registers. -/
theorem Warp.kept_files {w v : Warp} (h : w.kept = v.kept) :
    w.alloc = v.alloc ∧ w.regs = v.regs ∧ w.empty = v.empty ∧ w.uregs = v.uregs ∧ w.preds = v.preds :=
  have part {α : Type} (f : Warp → α) : f w.kept = f v.kept := congrArg f h
  ⟨part Warp.alloc, part Warp.regs, part Warp.empty, part Warp.uregs, part Warp.preds⟩

end Sys2Proof.Machine
end

section
/-! SUPPORT. Registers given and claimed (R204, R205), and state registers (R346, R347). -/

namespace Sys2Proof.Machine

set_option Elab.async false

/-! ## Entries of a map kept by their keys -/

theorem SMap.get_filter {α : Type} {d : α} {p : Nat × α → Bool} {k : Nat} (hp : ∀ v, p (k, v) = true) :
    (m : SMap α) → SMap.get d (m.filter p) k = SMap.get d m k
  | [] => rfl
  | (j, v) :: rest => by
    have ih := SMap.get_filter hp rest (d := d)
    by_cases hj : k = j
    · subst hj
      simp [hp, SMap.get]
    · by_cases h : p (j, v) = true
      · simp [h, SMap.get, hj, ih]
      · simp [h, SMap.get, hj, ih]

theorem SMap.get_filter_out {α : Type} {d : α} {p : Nat × α → Bool} {k : Nat} (hp : ∀ v, p (k, v) = false) (m : SMap α) :
    SMap.get d (m.filter p) k = d :=
  SMap.get_of_not_mem fun e he hk => by
    have := List.of_mem_filter he
    rw [show e = (k, e.2) from Prod.ext hk rfl, hp] at this
    cases this

/-! ## Counts of registers -/

theorem regCountOk_iff (n : Nat) : regCountOk n = true ↔ n % 8 = 0 ∧ 8 ≤ n ∧ n ≤ 320 := by
  simp [regCountOk]

/-- The illegal-instruction fault of the issue in progress, in every member. -/
theorem State.onceFor_illegal {s : State} {ts : List TRef} {i : Instr} (h : s.RunsOnce ts i) (eff : TRef → Operands → State → Eff)
    (he : eff (s.lead i) (s.leadOps i) s = .fault s.illegal) :
    s.onceFor i eff = (s.raiseAll ts ⟨1, 0, 0, 0, 0, false, s.cur.word0.setWidth 64⟩ (i.form.g.scope == .set)).finish i.form.opc [] := by
  rw [State.onceFor_runs h, he]
  rfl

/-! ## REGGIVE -/

/-- A warp that keeps its first n registers. -/
def Warp.giveRegs (w : Warp) (n : Nat) : Warp :=
  { w with
    alloc := n
    regs := w.regs.filter fun e => decide (e.1 < 32 * n)
    empty := w.empty.filter fun e => decide (e.1 < 32 * n)
    pend := w.pend.filter fun p => match p.key with | .vec r _ => decide (r < n) | _ => true
    winMap := w.winMap &&& BitVec.ofNat 320 (2 ^ n - 1) }

theorem Warp.vreg_giveRegs (w : Warp) {n l r : Nat} (hl : l < 32) (hr : r < n) : (w.giveRegs n).vreg l r = w.vreg l r :=
  SMap.get_filter (fun _ => by simp; omega) w.regs

theorem Warp.isEmpty_giveRegs (w : Warp) {n l r : Nat} (hl : l < 32) (hr : r < n) : (w.giveRegs n).isEmpty l r = w.isEmpty l r :=
  SMap.get_filter (fun _ => by simp; omega) w.empty

/-- The granules that a warp gives or takes change its block's pool. -/
def State.poolTo (s : State) (wk : Nat) (f : Nat → Nat) : State :=
  let w := s.warp wk
  let key := poolKey ((s.block w.block).placeOf w.core) w.part
  if w.slot = 12 then s
  else s.setBlock w.block fun b => { b with pools := SMap.set 0 b.pools key (f (SMap.get 0 b.pools key)) }

theorem State.poolTo_warps (s : State) (wk : Nat) (f : Nat → Nat) : (s.poolTo wk f).warps = s.warps := by
  unfold State.poolTo
  dsimp only
  split <;> rfl

theorem State.poolTo_pool (s : State) (wk : Nat) (f : Nat → Nat) (hb : (Tab.find s.blocks (s.warp wk).block).isSome = true)
    (hwf : SMap.wf 0 (s.block (s.warp wk).block).pools = true) :
    SMap.get 0 ((s.poolTo wk f).block (s.warp wk).block).pools
        (8 * (s.block (s.warp wk).block).places.idxOf (s.warp wk).core + (s.warp wk).part) =
      if (s.warp wk).slot = 12 then
        SMap.get 0 (s.block (s.warp wk).block).pools (8 * (s.block (s.warp wk).block).places.idxOf (s.warp wk).core + (s.warp wk).part)
      else f (SMap.get 0 (s.block (s.warp wk).block).pools
        (8 * (s.block (s.warp wk).block).places.idxOf (s.warp wk).core + (s.warp wk).part)) := by
  unfold State.poolTo
  dsimp only
  split
  · rfl
  · rw [State.block_setBlock _ _ _ _ hb, if_pos rfl]
    dsimp only [poolKey, Block.placeOf]
    rw [SMap.get_set_wf hwf, if_pos rfl]

/-- What REGGIVE of a legal count makes of the state. -/
def State.giveRegs (s : State) (wk n : Nat) : State :=
  let w := s.warp wk
  let s2 := (s.poolTo wk fun m => m + (w.alloc - n) / 8).setWarp wk fun w => w.giveRegs n
  ({ s2 with heldWrites := s2.heldWrites.filter fun h => !(h.warp == wk && decide (n ≤ h.reg)) } : State).examineClaims w.block w.core w.part

theorem State.prog_examineClaims (s : State) (b c p : Nat) : (s.examineClaims b c p).prog = s.prog :=
  State.prog_foldl (fun _ _ => State.prog_send _ _) _ _

theorem reggiveOp_gives {i : Instr} {s : State} {ts : List TRef} (h : s.RunsOnce ts i)
    (hn : regCountOk ((s.leadOps i).a.setWidth 32).toNat = true)
    (ha : ((s.leadOps i).a.setWidth 32).toNat ≤ (s.warp (s.lead i).warp).alloc)
    (hb : s.regBusy (s.lead i).warp ((s.leadOps i).a.setWidth 32).toNat = false) :
    reggiveOp i s = (s.giveRegs (s.lead i).warp ((s.leadOps i).a.setWidth 32).toNat).retire ts i s.cur.next := by
  refine (State.onceFor_runs h _).trans ?_
  dsimp only
  rw [hn, hb, if_neg (by simpa using ha), if_neg (by simp)]
  rfl

theorem reggiveOp_busy {i : Instr} {s : State} {ts : List TRef} (h : s.RunsOnce ts i)
    (hn : regCountOk ((s.leadOps i).a.setWidth 32).toNat = true)
    (ha : ((s.leadOps i).a.setWidth 32).toNat ≤ (s.warp (s.lead i).warp).alloc)
    (hb : s.regBusy (s.lead i).warp ((s.leadOps i).a.setWidth 32).toNat = true) :
    reggiveOp i s = s.putOff i.form.opc ts := by
  refine (State.onceFor_runs h _).trans ?_
  dsimp only
  rw [hn, hb, if_neg (by simpa using ha), if_pos rfl]
  rfl

theorem reggiveOp_illegal {i : Instr} {s : State} {ts : List TRef} (h : s.RunsOnce ts i)
    (hn : regCountOk ((s.leadOps i).a.setWidth 32).toNat = false ∨
      (s.warp (s.lead i).warp).alloc < ((s.leadOps i).a.setWidth 32).toNat) :
    reggiveOp i s = (s.raiseAll ts ⟨1, 0, 0, 0, 0, false, s.cur.word0.setWidth 64⟩ (i.form.g.scope == .set)).finish i.form.opc [] :=
  State.onceFor_illegal h _ (if_pos (by simpa using hn))

theorem State.giveRegs_warp {s : State} {wk n : Nat} {w : Warp} (hw : Tab.find s.warps wk = some w) :
    (s.giveRegs wk n).warp wk = w.giveRegs n := by
  unfold State.giveRegs
  dsimp only
  rw [State.warp_of_prog (State.prog_examineClaims _ _ _ _)]
  refine (State.warp_setWarp _ _ _ _).trans ?_
  rw [State.poolTo_warps, hw, if_pos ⟨rfl, rfl⟩, State.warp, State.poolTo_warps, hw]
  rfl

theorem State.giveRegs_block (s : State) (wk n b : Nat) :
    (s.giveRegs wk n).block b = (s.poolTo wk fun m => m + ((s.warp wk).alloc - n) / 8).block b := by
  unfold State.giveRegs
  simp only [State.block, State.blocks_of_prog (State.prog_examineClaims _ _ _ _)]
  rfl

theorem reggive_moves (g : Guard) (x : XForm) (s : State) (ts : List TRef) (h : s.RunsOnce ts (.reggive g x)) (w : Warp) (n : Nat)
    (bl : Block) (hn : n = ((s.leadOps (.reggive g x)).a.setWidth 32).toNat) (hok : regCountOk n = true)
    (hbl : bl = s.block w.block)
    (hwk : s.warp (s.lead (.reggive g x)).warp = w) (ha : n ≤ w.alloc) (hbusy : s.regBusy (s.lead (.reggive g x)).warp n = false)
    (hw : Tab.find s.warps (s.lead (.reggive g x)).warp = some w) (hb : Tab.find s.blocks w.block = some bl)
    (hwf : SMap.wf 0 bl.pools = true) :
    ∃ s', exec (.reggive g x) s = .next s' ∧ (s'.warp (s.lead (.reggive g x)).warp).alloc = n ∧
      (∀ l r, l < 32 → r < n → (s'.warp (s.lead (.reggive g x)).warp).vreg l r = w.vreg l r ∧
        (s'.warp (s.lead (.reggive g x)).warp).isEmpty l r = w.isEmpty l r) ∧
      SMap.get 0 (s'.block w.block).pools (8 * bl.places.idxOf w.core + w.part) =
        SMap.get 0 bl.pools (8 * bl.places.idxOf w.core + w.part) + (if w.slot = 12 then 0 else (w.alloc - n) / 8) ∧
      (s'.warp (s.lead (.reggive g x)).warp).uregs = w.uregs ∧ (s'.warp (s.lead (.reggive g x)).warp).preds = w.preds := by
  subst hn hbl
  generalize hk : (s.lead (.reggive g x)).warp = wk at *
  generalize hm : ((s.leadOps (.reggive g x)).a.setWidth 32).toNat = n at *
  have hx : exec (.reggive g x) s = .next ((s.giveRegs wk n).retire ts (.reggive g x) s.cur.next) := by
    subst hk hm
    exact congrArg Host.Outcome.next (reggiveOp_gives h hok (hwk ▸ ha) hbusy)
  obtain ⟨halloc, hregs, hempty, huregs, hpreds⟩ :=
    Warp.kept_files ((s.giveRegs wk n).kept_retire ts (.reggive g x) s.cur.next wk)
  rw [State.giveRegs_warp hw] at halloc hregs hempty huregs hpreds
  refine ⟨_, hx, halloc, fun l r hl hr => ⟨?_, ?_⟩, ?_, huregs, hpreds⟩
  · exact (congrArg (SMap.get 0 · (32 * r + l)) hregs).trans (w.vreg_giveRegs hl hr)
  · exact (congrArg (SMap.get false · (32 * r + l)) hempty).trans (w.isEmpty_giveRegs hl hr)
  · subst hwk
    rw [State.block_retire, State.giveRegs_block, State.poolTo_pool _ _ _ (by rw [hb]; rfl) hwf]
    split <;> rfl

/-! ## REGCLAIM -/

theorem regclaimOp_illegal {i : Instr} {s : State} {ts : List TRef} (h : s.RunsOnce ts i)
    (hn : regCountOk ((s.leadOps i).a.setWidth 32).toNat = false) :
    regclaimOp i s = (s.raiseAll ts ⟨1, 0, 0, 0, 0, false, s.cur.word0.setWidth 64⟩ (i.form.g.scope == .set)).finish i.form.opc [] :=
  State.onceFor_illegal h _ (if_pos (by simpa using hn))

section
variable {i : Instr} {s : State} {ts : List TRef} (h : s.RunsOnce ts i)
  (hn : regCountOk ((s.leadOps i).a.setWidth 32).toNat = true)
include h hn

theorem regclaimOp_enough (ha : ((s.leadOps i).a.setWidth 32).toNat ≤ (s.warp (s.lead i).warp).alloc) :
    regclaimOp i s = s.retire ts i s.cur.next := by
  refine (State.onceFor_runs h _).trans ?_
  dsimp only
  rw [hn, if_neg (by simp), if_pos ha]
  rfl

theorem regclaimOp_grants (ha : (s.warp (s.lead i).warp).alloc < ((s.leadOps i).a.setWidth 32).toNat)
    (hp : s.poolHas (s.lead i).warp ((s.leadOps i).a.setWidth 32).toNat = true) :
    regclaimOp i s = (s.grantRegs (s.lead i).warp ((s.leadOps i).a.setWidth 32).toNat).retire ts i s.cur.next := by
  refine (State.onceFor_runs h _).trans ?_
  dsimp only
  rw [hn, if_neg (by simp), if_neg (Nat.not_le.mpr ha), if_pos hp]
  rfl

theorem regclaimOp_waits (ha : (s.warp (s.lead i).warp).alloc < ((s.leadOps i).a.setWidth 32).toNat)
    (hp : s.poolHas (s.lead i).warp ((s.leadOps i).a.setWidth 32).toNat = false) :
    regclaimOp i s = if (s.grid (s.warp (s.lead i).warp).grid).det then s.putOff i.form.opc ts
      else (s.park (.regclaim ((s.leadOps i).a.setWidth 32).toNat) (s.lead i).warp ts).finish i.form.opc ts := by
  refine (State.onceFor_runs h _).trans ?_
  dsimp only
  rw [hn, if_neg (by simp), if_neg (Nat.not_le.mpr ha), hp, if_neg (by simp), h.group]
  split <;> rfl

end

/-- A warp whose registers from `alloc` to `n` are new. -/
def Warp.claimRegs (w : Warp) (n : Nat) : Warp :=
  { w with
    alloc := n
    regs := w.regs.filter fun e => !(decide (32 * w.alloc ≤ e.1) && decide (e.1 < 32 * n))
    empty := w.empty.filter fun e => !(decide (32 * w.alloc ≤ e.1) && decide (e.1 < 32 * n)) }

theorem Warp.claimRegs_new (w : Warp) {n l r : Nat} (hl : l < 32) (ha : w.alloc ≤ r) (hr : r < n) :
    (w.claimRegs n).vreg l r = 0 ∧ (w.claimRegs n).isEmpty l r = false :=
  ⟨SMap.get_filter_out (fun _ => by simp; omega) w.regs, SMap.get_filter_out (fun _ => by simp; omega) w.empty⟩

theorem Warp.claimRegs_old (w : Warp) {n l r : Nat} (hl : l < 32) (ha : r < w.alloc) : (w.claimRegs n).vreg l r = w.vreg l r :=
  SMap.get_filter (fun _ => by simp; omega) w.regs

theorem State.grantRegs_eq (s : State) (wk n : Nat) :
    s.grantRegs wk n = (s.poolTo wk fun m => m - (n - (s.warp wk).alloc) / 8).setWarp wk fun w => w.claimRegs n := rfl

theorem State.grantRegs_warp {s : State} {wk n : Nat} {w : Warp} (hw : Tab.find s.warps wk = some w) :
    (s.grantRegs wk n).warp wk = w.claimRegs n := by
  rw [State.grantRegs_eq, State.warp_setWarp, State.poolTo_warps, hw, if_pos ⟨rfl, rfl⟩, State.warp, State.poolTo_warps, hw]
  rfl

theorem State.poolHas_iff (s : State) (wk n : Nat) :
    s.poolHas wk n = true ↔ (s.warp wk).slot = 12 ∨ (n - (s.warp wk).alloc) / 8 ≤
      SMap.get 0 (s.block (s.warp wk).block).pools
        (8 * (s.block (s.warp wk).block).places.idxOf (s.warp wk).core + (s.warp wk).part) := by
  unfold State.poolHas
  by_cases h : (s.warp wk).slot = 12
  · simp [h]
  · simp only [h, if_false, false_or]
    exact decide_eq_true_iff

theorem regclaim_moves (g : Guard) (x : XForm) (s : State) (ts : List TRef) (h : s.RunsOnce ts (.regclaim g x)) (w : Warp) (n : Nat)
    (bl : Block) (hn : n = ((s.leadOps (.regclaim g x)).a.setWidth 32).toNat) (hok : regCountOk n = true)
    (hbl : bl = s.block w.block) (hwk : s.warp (s.lead (.regclaim g x)).warp = w) (ha : w.alloc < n)
    (hp : s.poolHas (s.lead (.regclaim g x)).warp n = true)
    (hw : Tab.find s.warps (s.lead (.regclaim g x)).warp = some w) (hb : Tab.find s.blocks w.block = some bl)
    (hwf : SMap.wf 0 bl.pools = true) :
    ∃ s', exec (.regclaim g x) s = .next s' ∧ (s'.warp (s.lead (.regclaim g x)).warp).alloc = n ∧
      (∀ l r, l < 32 → w.alloc ≤ r → r < n → (s'.warp (s.lead (.regclaim g x)).warp).vreg l r = 0 ∧
        (s'.warp (s.lead (.regclaim g x)).warp).isEmpty l r = false) ∧
      (∀ l r, l < 32 → r < w.alloc → (s'.warp (s.lead (.regclaim g x)).warp).vreg l r = w.vreg l r) ∧
      SMap.get 0 (s'.block w.block).pools (8 * bl.places.idxOf w.core + w.part) =
        SMap.get 0 bl.pools (8 * bl.places.idxOf w.core + w.part) - (if w.slot = 12 then 0 else (n - w.alloc) / 8) := by
  subst hn hbl
  generalize hk : (s.lead (.regclaim g x)).warp = wk at *
  generalize hm : ((s.leadOps (.regclaim g x)).a.setWidth 32).toNat = n at *
  have hx : exec (.regclaim g x) s = .next ((s.grantRegs wk n).retire ts (.regclaim g x) s.cur.next) := by
    subst hk hm
    exact congrArg Host.Outcome.next (regclaimOp_grants h hok (hwk ▸ ha) hp)
  obtain ⟨halloc, hregs, hempty, _, _⟩ := Warp.kept_files ((s.grantRegs wk n).kept_retire ts (.regclaim g x) s.cur.next wk)
  rw [State.grantRegs_warp hw] at halloc hregs hempty
  refine ⟨_, hx, halloc, fun l r hl hr hr' => ⟨?_, ?_⟩, fun l r hl hr => ?_, ?_⟩
  · exact (congrArg (SMap.get 0 · (32 * r + l)) hregs).trans (w.claimRegs_new hl hr hr').1
  · exact (congrArg (SMap.get false · (32 * r + l)) hempty).trans (w.claimRegs_new hl hr hr').2
  · exact (congrArg (SMap.get 0 · (32 * r + l)) hregs).trans (w.claimRegs_old hl hr)
  · subst hwk
    rw [State.block_retire, State.grantRegs_eq]
    refine (State.poolTo_pool s wk (fun m => m - (n - (s.warp wk).alloc) / 8) (by rw [hb]; rfl) hwf).trans ?_
    split <;> rfl

theorem registersMove : Claim.RegistersMove := by
  constructor
  · intro g x s ts i h wk w n bl key
    have hi : i = .reggive g x := rfl
    refine ⟨fun ⟨h8, hlo, ha, hhi⟩ hb => ?_, fun ⟨h8, hlo, ha, hhi⟩ hb hw hbl hwf => ?_, fun hn => ?_⟩
    · exact congrArg Host.Outcome.next (reggiveOp_busy h ((regCountOk_iff n).mpr ⟨h8, hlo, hhi⟩) ha hb)
    · exact reggive_moves g x s ts h w n bl rfl ((regCountOk_iff n).mpr ⟨h8, hlo, hhi⟩) rfl rfl ha hb hw hbl hwf
    · refine congrArg Host.Outcome.next (reggiveOp_illegal h ?_)
      by_cases hok : regCountOk n = true
      · obtain ⟨h8, hlo, hhi⟩ := (regCountOk_iff n).mp hok
        exact .inr (show w.alloc < n by omega)
      · exact .inl (show regCountOk n = false by simpa using hok)
  · intro g x s ts i h wk w n bl key
    refine ⟨fun hn => ?_, fun h8 hlo hhi => ?_⟩
    · refine congrArg Host.Outcome.next (regclaimOp_illegal h ?_)
      rw [Bool.eq_false_iff]
      exact fun hok => by have := (regCountOk_iff n).mp hok; omega
    · have hok : regCountOk n = true := (regCountOk_iff n).mpr ⟨h8, hlo, hhi⟩
      refine ⟨fun ha => congrArg Host.Outcome.next (regclaimOp_enough h hok ha), fun ha hp hw hb hwf => ?_, fun ha h12 hp => ?_⟩
      · exact regclaim_moves g x s ts h w n bl rfl hok rfl rfl ha ((s.poolHas_iff wk n).mpr hp) hw hb hwf
      · have hno : s.poolHas wk n = false := by
          rw [Bool.eq_false_iff, Ne, s.poolHas_iff wk n]
          exact not_or.mpr ⟨h12, Nat.not_le.mpr hp⟩
        have hx : exec i s = .next _ := congrArg Host.Outcome.next (regclaimOp_waits h hok ha hno)
        exact ⟨fun hd => hx.trans (congrArg Host.Outcome.next (if_neg (by rw [show (s.grid w.grid).det = _ from hd]; simp))),
          fun hd => hx.trans (congrArg Host.Outcome.next (if_pos hd))⟩

/-! ## State registers (R346, R347) -/

theorem csr_timers (s : State) (t : TRef) (d : Nat) (hd : d < 8) :
    s.csr t (256 + 8 * d) = (s.die d).cnt ∧ s.csr t (257 + 8 * d) = (s.die d).ofs ∧
      s.csr t (258 + 8 * d) = (s.die d).rate.setWidth 64 ∧ s.csr t (259 + 8 * d) = (s.die d).gen ∧
      s.csr t (260 + 8 * d) = (s.die d).skew.setWidth 64 := by
  interval_cases d <;> exact ⟨rfl, rfl, rfl, rfl, rfl⟩

/-- What CSRR reads, cut to its type. -/
def csrCut (f : Form) (v : DWord) : DWord := if f.x.ty = .u64 then v else (v.setWidth 32).setWidth 64

theorem csrrOp_vec {i : Instr} {s : State} {t : TRef} {r : BitVec 9} (hd : i.form.x.dst = .vec r) (h : s.Runs t i) :
    csrrOp i s = ((s.setWarp t.warp fun w =>
        { w.markEmpty t.lane r.toNat (opRule i.form.opc i.form.g i.form.x).d.regs true with inFlight := w.inFlight + 1 }).fresh.send
      (.vclassWriteBack ⟨s.nextId, t.warp, t.lane, .vec r.toNat (opRule i.form.opc i.form.g i.form.x).d.regs,
        .value ((csrCut i.form (s.csr t (s.operands t i.form).a.toNat)).setWidth 128), s.cur.pos, s.cur.num⟩)).retire [t] i
          s.cur.next := by
  unfold csrrOp
  simp only [hd]
  refine (State.onceEach_agree (ts := [t]) ⟨h.alone, by simp, by simp, by simpa using h.passes.holds, by simpa using h.passes.legal,
    by simpa using fun _ => h.passes.gate, h.free⟩ (.inr (.inl (by simpa using h.passes.guard))) _).trans ?_
  exact State.eachThread_runs h _

theorem csrrOp_uni {i : Instr} {s : State} {ts : List TRef} {n : BitVec 9} (hd : i.form.x.dst = .uni n) (h : s.RunsOnce ts i) :
    csrrOp i s = (s.writeNow (s.lead i).warp
      [(.uni (n.toNat % 32), csrCut i.form (s.csr (s.lead i) (s.leadOps i).a.toNat))]).retire ts i s.cur.next := by
  unfold csrrOp
  simp only [hd]
  exact State.onceFor_runs h _

/-- What CSRW writes into a thread. -/
def csrPut (v n : DWord) (th : Thread) : Thread := if n = 0 then { th with fflags := v.setWidth 4 } else { th with tscr := v }

theorem State.setCsr_eq (s : State) (t : TRef) (n v : DWord) : s.setCsr t n.toNat v = s.setThread t (csrPut v n) := by
  have hn : n.toNat = 0 ↔ n = 0 := by
    rw [← BitVec.toNat_inj]
    rfl
  simp only [State.setCsr, hn]
  rfl

theorem csrwOp_lane {i : Instr} {s : State} {t : TRef} (hg : i.form.g.scope = .lane) (h : s.Runs t i) :
    csrwOp i s = (s.setThread t (csrPut (s.operands t i.form).b (s.operands t i.form).a)).retire [t] i s.cur.next := by
  refine (if_pos hg).trans ((State.eachThread_runs h _).trans ?_)
  rw [← State.setCsr_eq]
  rfl

theorem csrwOp_wide {i : Instr} {s : State} {ts : List TRef} (hg : i.form.g.scope ≠ .lane) (h : s.RunsOnce ts i) :
    csrwOp i s = (ts.foldl (fun s' t => s'.setThread t (csrPut (s.leadOps i).b (s.leadOps i).a)) s).retire ts i s.cur.next := by
  refine (if_neg hg).trans ((State.onceFor_runs h _).trans ?_)
  simp only [← State.setCsr_eq, ← h.group]
  rfl

theorem stateRegisters : Claim.StateRegisters := by
  refine ⟨fun g a d x i hi => ?_, fun s t => ⟨rfl, rfl, rfl, rfl, rfl, rfl, rfl, rfl, rfl, rfl, csr_timers s t⟩, fun g b a x i hi => ?_⟩
  · obtain rfl | rfl := hi
    · exact ⟨fun s t r hd h => congrArg Host.Outcome.next (csrrOp_vec hd h),
        fun s ts n hd h => congrArg Host.Outcome.next (csrrOp_uni hd h)⟩
    · exact ⟨fun s t r hd h => congrArg Host.Outcome.next (csrrOp_vec hd h),
        fun s ts n hd h => congrArg Host.Outcome.next (csrrOp_uni hd h)⟩
  · obtain rfl | rfl := hi
    · exact ⟨fun s t hg h => congrArg Host.Outcome.next (csrwOp_lane hg h),
        fun s ts hg h => congrArg Host.Outcome.next (csrwOp_wide hg h)⟩
    · exact ⟨fun s t hg h => congrArg Host.Outcome.next (csrwOp_lane hg h),
        fun s ts hg h => congrArg Host.Outcome.next (csrwOp_wide hg h)⟩

/-- Settles O34: the pool and the warp's register files change together, and state registers are read and written in place. -/
theorem registersAndPools : Obligations.RegistersAndPools := ⟨registersMove, stateRegisters⟩

end Sys2Proof.Machine
end

section
/-! SUPPORT. Fences (R313 to R316). -/

namespace Sys2Proof.Machine

set_option Elab.async false

/-! ## Waits that complete -/

theorem State.setThread_find (s : State) (t : TRef) (f : Thread → Thread) (u : TRef) : (s.setThread t f).Holds u ↔ s.Holds u := by
  constructor
  · rintro ⟨w, hw, hl⟩
    by_cases hk : u.warp = t.warp
    · simp only [State.setThread, State.setWarp, hk, Tab.find_upd_self] at hw
      obtain ⟨v, hv, rfl⟩ := Option.map_eq_some_iff.mp hw
      exact ⟨v, hk ▸ hv, by simpa [Warp.setThread] using hl⟩
    · simp only [State.setThread, State.setWarp, Tab.find_upd_ne _ hk] at hw
      exact ⟨w, hw, hl⟩
  · exact State.setThread_holds

/-- One change made to some threads, made twice as good as once. -/
theorem State.foldl_setThread (g : Thread → Thread) (hg : ∀ th, g (g th) = g th) (t : TRef) :
    (l : List TRef) → (s : State) → s.Holds t →
      (l.foldl (fun s u => s.setThread u g) s).thread t = if t ∈ l then g (s.thread t) else s.thread t
  | [], s, _ => by simp
  | u :: rest, s, h => by
    have h1 : (s.setThread u g).thread t = if t = u then g (s.thread t) else s.thread t := by
      rw [State.thread_setThread]
      by_cases hu : t = u
      · subst hu
        rw [if_pos ⟨rfl, h⟩, if_pos rfl]
      · rw [if_neg fun e => hu e.1, if_neg hu]
    rw [List.foldl_cons, foldl_setThread g hg t rest _ ((State.setThread_find s u g t).mpr h), h1]
    by_cases hu : t = u
    · simp [hu, hg]
    · simp [hu]

/-- A thread that a completed wait held stands at the position after it. -/
def Thread.resumedAt (th : Thread) (id : Nat) (next : DWord) : Thread :=
  if th.wait = some id then { th with wait := Option.none, pos := next, distMet := false, waitRem := 0 } else th

theorem State.thread_completeWait {s : State} {id : Nat} {r : WaitRec} (hr : Tab.find s.waits id = some r) {t : TRef} (ht : t ∈ r.members)
    (hh : s.Holds t) (hw : (s.thread t).wait = some id) :
    (s.completeWait id).thread t = { s.thread t with wait := none, pos := r.next, distMet := false, waitRem := 0 } := by
  unfold State.completeWait
  rw [hr]
  refine (State.foldl_setThread (fun th : Thread => th.resumedAt id r.next) (fun th => ?_) t r.members
    { s with waits := Tab.del s.waits id } hh).trans ?_
  · unfold Thread.resumedAt
    split <;> simp_all
  · rw [if_pos ht]
    exact if_pos hw

/-! ## What the parts of a fence leave alone -/

theorem State.releaseRaces_frame (s : State) (ws : List Nat) : s.releaseRaces ws = { s with blocks := (s.releaseRaces ws).blocks } := by
  have h : ∀ (l : List Nat) (u : State), l.foldl (fun s b => s.mapRaces b fun r =>
      if r.token.isNone && r.warps.any ws.contains then { r with released := true } else r) u =
      { u with blocks := (l.foldl (fun s b => s.mapRaces b fun r =>
        if r.token.isNone && r.warps.any ws.contains then { r with released := true } else r) u).blocks } := by
    intro l
    induction l with
    | nil => exact fun _ => rfl
    | cons b rest ih => exact fun u => (ih _).trans rfl
  exact h _ s

theorem State.acquireRaces_frame (s : State) (ws : List Nat) : s.acquireRaces ws = { s with blocks := (s.acquireRaces ws).blocks } := by
  have h : ∀ (l : List Nat) (u : State), l.foldl (fun s b => s.mapRaces b fun r =>
      if r.released then { r with acquired := (r.acquired ++ ws).dedup } else r) u =
      { u with blocks := (l.foldl (fun s b => s.mapRaces b fun r =>
        if r.released then { r with acquired := (r.acquired ++ ws).dedup } else r) u).blocks } := by
    intro l
    induction l with
    | nil => exact fun _ => rfl
    | cons b rest ih => exact fun u => (ih _).trans rfl
  exact h _ s

/-- The acquire part changes L1s and what is known of scratchpad writes. -/
theorem State.acquire_frame (s : State) (ms : List Nat) (sc : MemScope) :
    s.acquire ms sc = { s with blocks := (s.acquire ms sc).blocks, cores := (s.acquire ms sc).cores } := by
  have h : ∀ (l : List Nat) (u : State), l.foldl (fun s c => s.setCore c fun co => { co with l1 := [] }) u =
      { u with cores := (l.foldl (fun s c => s.setCore c fun co => { co with l1 := [] }) u).cores } := by
    intro l
    induction l with
    | nil => exact fun _ => rfl
    | cons b rest ih => exact fun u => (ih _).trans rfl
  unfold State.acquire
  dsimp only
  split
  · rw [h, State.acquireRaces_frame]
  · rw [State.acquireRaces_frame]

theorem State.fenceLoadsDone_releaseRaces (s : State) (ws : List Nat) (lane : Bool) (ts : List TRef) :
    (s.releaseRaces ws).fenceLoadsDone lane ts = s.fenceLoadsDone lane ts := by
  rw [State.releaseRaces_frame]
  rfl

/-! ## FENCE -/

section
variable {f : Form} {s : State}

theorem fenceEff_acquires {lane : Bool} {ms : TRef → State → List TRef} {t : TRef} {o : Operands} (hk : f.x.sub.toNat % 4 = 1)
    (hd : s.fenceLoadsDone lane (ms t s) = true) :
    fenceEff f lane ms t o s = .done (s.acquire ((ms t s).map TRef.warp).dedup (fenceScope f.x.sub.toNat)) := by
  unfold fenceEff
  exact (if_pos hk).trans (if_pos hd)

theorem fenceEff_waits {lane : Bool} {ms : TRef → State → List TRef} {t : TRef} {o : Operands} (hk : f.x.sub.toNat % 4 = 1)
    (hd : s.fenceLoadsDone lane (ms t s) = false) :
    fenceEff f lane ms t o s = .held ((s.park (.fence (f.x.sub.toNat + if lane then 64 else 0) 2 none) t.warp (ms t s)).send
      (.fenceReleaseCompletion s.nextId)) := by
  unfold fenceEff
  exact (if_pos hk).trans (if_neg (by simp [hd]))

theorem fenceEff_releases {lane : Bool} {ms : TRef → State → List TRef} {t : TRef} {o : Operands} (hk : f.x.sub.toNat % 4 ≠ 1) :
    fenceEff f lane ms t o s = .held ((s.park (.fence (f.x.sub.toNat + if lane then 64 else 0) 0
      (s.fenceDue s.nextId ((ms t s).map TRef.warp).dedup (fenceScope f.x.sub.toNat))) t.warp (ms t s)).send
      (.fenceReleaseCompletion s.nextId)) := by
  unfold fenceEff
  exact if_neg hk

end

theorem fenceOp_lane {i : Instr} {s : State} {t : TRef} (hg : i.form.g.scope = .lane) (h : s.Runs t i) :
    fenceOp i s = (fenceEff i.form true (fun t _ => [t]) t (s.operands t i.form) s).alone s t i :=
  (if_pos hg).trans (State.eachThread_runs h _)

theorem fenceOp_wide {i : Instr} {s : State} {ts : List TRef} (hg : i.form.g.scope ≠ .lane) (h : s.RunsOnce ts i) :
    fenceOp i s = (fenceEff i.form false (fun _ s => s.cur.group) (s.lead i) (s.leadOps i) s).once s ts i :=
  (if_neg hg).trans (State.onceFor_runs h _)

theorem State.fenceLoadsDone_lane (s : State) (t : TRef) : s.fenceLoadsDone true [t] = s.loadsDone t.warp (some t.lane) := by
  simp [State.fenceLoadsDone]

theorem State.fenceLoadsDone_wide (s : State) (ts : List TRef) :
    s.fenceLoadsDone false ts = true ↔ ∀ t ∈ ts, s.loadsDone t.warp none = true := by
  simp [State.fenceLoadsDone]

/-- What a fence of a lane does. -/
theorem fence_lane {i : Instr} (hx : ∀ s, exec i s = .next (fenceOp i s)) (s : State) (t : TRef) (hg : i.form.g.scope = .lane)
    (h : s.Runs t i) :
    (i.form.x.sub.toNat % 4 = 1 → s.loadsDone t.warp (some t.lane) = true →
      exec i s = .next ((s.acquire [t.warp] (fenceScope i.form.x.sub.toNat)).retire [t] i s.cur.next)) ∧
    (i.form.x.sub.toNat % 4 = 1 → s.loadsDone t.warp (some t.lane) = false →
      exec i s = .next (((s.park (.fence (i.form.x.sub.toNat + 64) 2 none) t.warp [t]).send
        (.fenceReleaseCompletion s.nextId)).finish i.form.opc [t])) ∧
    (i.form.x.sub.toNat % 4 ≠ 1 → exec i s = .next (((s.park (.fence (i.form.x.sub.toNat + 64) 0
      (s.fenceDue s.nextId [t.warp] (fenceScope i.form.x.sub.toNat))) t.warp [t]).send
        (.fenceReleaseCompletion s.nextId)).finish i.form.opc [t])) := by
  rw [hx, fenceOp_lane hg h]
  refine ⟨fun hk hd => ?_, fun hk hd => ?_, fun hk => ?_⟩
  · rw [fenceEff_acquires hk ((s.fenceLoadsDone_lane t).trans hd)]
    rfl
  · rw [fenceEff_waits hk ((s.fenceLoadsDone_lane t).trans hd)]
    rfl
  · rw [fenceEff_releases hk]
    rfl

/-- What a fence of a wider scope does. -/
theorem fence_wide {i : Instr} (hx : ∀ s, exec i s = .next (fenceOp i s)) (s : State) (ts : List TRef) (hg : i.form.g.scope ≠ .lane)
    (h : s.RunsOnce ts i) :
    (i.form.x.sub.toNat % 4 = 1 → (∀ t ∈ ts, s.loadsDone t.warp none = true) →
      exec i s = .next ((s.acquire s.groupWarps (fenceScope i.form.x.sub.toNat)).retire ts i s.cur.next)) ∧
    (i.form.x.sub.toNat % 4 = 1 → (∃ t ∈ ts, s.loadsDone t.warp none = false) →
      exec i s = .next (((s.park (.fence i.form.x.sub.toNat 2 none) (s.lead i).warp ts).send
        (.fenceReleaseCompletion s.nextId)).finish i.form.opc ts)) ∧
    (i.form.x.sub.toNat % 4 ≠ 1 → exec i s = .next (((s.park (.fence i.form.x.sub.toNat 0
      (s.fenceDue s.nextId s.groupWarps (fenceScope i.form.x.sub.toNat))) (s.lead i).warp ts).send
        (.fenceReleaseCompletion s.nextId)).finish i.form.opc ts)) := by
  rw [hx, fenceOp_wide hg h]
  refine ⟨fun hk hd => ?_, fun hk ⟨t, ht, hd⟩ => ?_, fun hk => ?_⟩
  · rw [fenceEff_acquires hk ((s.fenceLoadsDone_wide _).mpr (h.group ▸ hd))]
    rfl
  · rw [fenceEff_waits hk (by
      rw [Bool.eq_false_iff, Ne, State.fenceLoadsDone_wide, h.group]
      exact fun hall => by simp [hall t ht] at hd), h.group]
    rfl
  · rw [fenceEff_releases hk, h.group]
    unfold State.groupWarps
    rw [h.group]
    rfl

/-! ## The parts of a waiting fence -/

theorem State.fenceAcquire_done {s : State} {id k : Nat} {r : WaitRec} (h : s.fenceLoadsDone (k.testBit 6) r.members = true) :
    s.fenceAcquire id r k = (s.acquire r.warps (fenceScope k)).completeWait id := if_pos h

theorem State.fenceAcquire_waits {s : State} {id k : Nat} {r : WaitRec} (h : s.fenceLoadsDone (k.testBit 6) r.members = false) :
    s.fenceAcquire id r k = s.keep (.fenceReleaseCompletion id) := if_neg (by simpa [fenceLane] using h)

theorem fencesComplete_release (s : State) (id k : Nat) (due : Option Nat) (r : WaitRec) (hr : Tab.find s.waits id = some r)
    (hk : r.kind = .fence k 0 due) :
    fenceReleaseCompletion id s = if !s.released r then s.keep (.fenceReleaseCompletion id)
      else match k % 4 with
        | 0 => (s.releaseRaces r.warps).completeWait id
        | 3 => ((s.releaseRaces r.warps).fencePart id k 1).send (.scOrderGrant id)
        | _ => ((s.releaseRaces r.warps).fencePart id k 2).fenceAcquire id r k := by
  unfold fenceReleaseCompletion
  simp only [hr, hk]
  rfl

theorem fence_releasePart (s : State) (id k : Nat) (due : Option Nat) (r : WaitRec) (hr : Tab.find s.waits id = some r)
    (hk : r.kind = .fence k 0 due) :
    (s.released r = true ↔ ∃ t, due = some t ∧ t + s.pkskew ≤ (s.common (dieOfCore (s.warp r.warp).core)).toNat) ∧
    (s.released r = false → exec (.fenceReleaseCompletion id) s = .next (s.keep (.fenceReleaseCompletion id))) ∧
    (s.released r = true → k % 4 = 0 → exec (.fenceReleaseCompletion id) s = .next ((s.releaseRaces r.warps).completeWait id)) ∧
    (s.released r = true → k % 4 = 2 → s.fenceLoadsDone (k.testBit 6) r.members = true →
      exec (.fenceReleaseCompletion id) s = .next
        ((((s.releaseRaces r.warps).fencePart id k 2).acquire r.warps (fenceScope k)).completeWait id)) ∧
    (s.released r = true → k % 4 = 3 → ∃ s', exec (.fenceReleaseCompletion id) s = .next s' ∧
      s'.net = s.net ++ [.scOrderGrant id] ∧ Tab.find s'.waits id = some { r with kind := .fence k 1 none } ∧ s'.warps = s.warps) := by
  have hx : exec (.fenceReleaseCompletion id) s = .next _ := congrArg Host.Outcome.next (fencesComplete_release s id k due r hr hk)
  refine ⟨?_, fun h => ?_, fun h h4 => ?_, fun h h4 hd => ?_, fun h h4 => ?_⟩
  · unfold State.released
    rw [hk]
    cases due <;> simp
  · rw [hx, h]
    rfl
  · rw [hx, h, h4]
    rfl
  · rw [hx, h, h4]
    refine congrArg Host.Outcome.next (State.fenceAcquire_done ?_)
    exact (s.fenceLoadsDone_releaseRaces r.warps _ _).trans hd
  · rw [hx, h, h4]
    refine ⟨_, rfl, ?_, ?_, ?_⟩
    · rw [State.releaseRaces_frame]
      rfl
    · rw [State.releaseRaces_frame]
      exact (Tab.find_upd_self _ _ _).trans (by rw [hr]; rfl)
    · rw [State.releaseRaces_frame]
      rfl

theorem fence_acquirePart (s : State) (id k : Nat) (due : Option Nat) (r : WaitRec) (hr : Tab.find s.waits id = some r)
    (hk : r.kind = .fence k 2 due) : exec (.fenceReleaseCompletion id) s = .next (s.fenceAcquire id r k) := by
  refine congrArg Host.Outcome.next ?_
  unfold fenceReleaseCompletion
  simp only [hr, hk]

/-- R315: the order point of a scope. -/
theorem fence_orderPart (s : State) (id k : Nat) (due : Option Nat) (r : WaitRec) (hr : Tab.find s.waits id = some r)
    (hk : r.kind = .fence k 1 due) (hwf : SMap.wf 0 s.fe.scOrder = true) (hd : s.fenceLoadsDone (k.testBit 6) r.members = true) :
    ∃ s', exec (.scOrderGrant id) s = .next s' ∧
      SMap.get 0 s'.fe.scOrder (s.orderPoint r (fenceScope k)) = SMap.get 0 s.fe.scOrder (s.orderPoint r (fenceScope k)) + 1 ∧
      (∀ t ∈ r.members, s.Holds t → (s.thread t).wait = some id → (s'.thread t).pos = r.next ∧ (s'.thread t).wait = none) := by
  set s1 : State := { s with fe := { s.fe with
    scOrder := SMap.set 0 s.fe.scOrder (s.orderPoint r (fenceScope k)) (SMap.get 0 s.fe.scOrder (s.orderPoint r (fenceScope k)) + 1) } }
    with hs1
  set s2 := (s1.fencePart id k 2).acquire r.warps (fenceScope k) with hs2
  have hx : exec (.scOrderGrant id) s = .next (s2.completeWait id) := by
    refine congrArg Host.Outcome.next ?_
    unfold scOrderGrant
    simp only [hr, hk]
    exact State.fenceAcquire_done hd
  have hf : s2 = { s1.fencePart id k 2 with blocks := s2.blocks, cores := s2.cores } := State.acquire_frame _ _ _
  have hwait : Tab.find s2.waits id = some { r with kind := .fence k 2 none } := by
    rw [hf]
    exact (Tab.find_upd_self _ _ _).trans (by rw [hs1, hr]; rfl)
  have hth (t : TRef) : s2.thread t = s.thread t := by
    rw [hf]
    rfl
  refine ⟨_, hx, ?_, fun t ht hh hw => ?_⟩
  · have hfe : (s2.completeWait id).fe = s1.fe := by
      rw [State.completeWait_frame, hf]
      rfl
    rw [hfe, hs1]
    dsimp only
    rw [SMap.get_set_wf hwf, if_pos rfl]
  · have hh2 : s2.Holds t := by
      rw [hf]
      exact hh
    rw [State.thread_completeWait hwait ht hh2 ((hth t).symm ▸ hw)]
    exact ⟨rfl, rfl⟩

/-- Settles O35: a fence acquires or waits, and each part of a waiting one is followed by the next. -/
theorem fencesComplete : Obligations.FencesComplete := by
  refine ⟨fun g k x i hi => ?_, fun s id k due r hr hk => ?_, fun s m sc hsc => ?_, fun s id k due r hr hk => ?_,
    fun s id k due r hr hk hwf hd => ?_⟩
  · obtain rfl | rfl := hi
    · exact ⟨fence_lane (fun _ => rfl), fence_wide (fun _ => rfl)⟩
    · exact ⟨fence_lane (fun _ => rfl), fence_wide (fun _ => rfl)⟩
  · exact fence_releasePart s id k due r hr hk
  · simp [State.fenceTime, hsc]
  · rw [fence_acquirePart s id k due r hr hk]
    exact ⟨fun hd => congrArg Host.Outcome.next (State.fenceAcquire_done hd),
      fun hd => congrArg Host.Outcome.next (State.fenceAcquire_waits hd)⟩
  · obtain ⟨s', hx, hget, hmem⟩ := fence_orderPart s id k due r hr hk hwf hd
    refine ⟨s', hx, ?_, hmem⟩
    revert hget
    unfold State.orderPoint
    cases fenceScope k <;> exact fun h => h

end Sys2Proof.Machine
end

section
/-! SUPPORT. Rings and buffers (R178 to R186). -/

namespace Sys2Proof.Machine

set_option Elab.async false

/-! ## What an effect once for the members becomes -/

theorem State.onceFor_done {s s' : State} {ts : List TRef} {i : Instr} (h : s.RunsOnce ts i) {eff : TRef → Operands → State → Eff}
    (he : eff (s.lead i) (s.leadOps i) s = .done s') : s.onceFor i eff = s'.retire ts i s.cur.next := by
  rw [State.onceFor_runs h, he]
  rfl

theorem State.onceFor_held {s s' : State} {ts : List TRef} {i : Instr} (h : s.RunsOnce ts i) {eff : TRef → Operands → State → Eff}
    (he : eff (s.lead i) (s.leadOps i) s = .held s') : s.onceFor i eff = s'.finish i.form.opc ts := by
  rw [State.onceFor_runs h, he]
  rfl

theorem State.onceFor_fault {s : State} {ts : List TRef} {i : Instr} (h : s.RunsOnce ts i) {eff : TRef → Operands → State → Eff}
    {r : Report} (he : eff (s.lead i) (s.leadOps i) s = .fault r) :
    s.onceFor i eff = (s.raiseAll ts r (i.form.g.scope == .set)).finish i.form.opc [] := by
  rw [State.onceFor_runs h, he]
  rfl

theorem State.core_retire (s : State) (ts : List TRef) (i : Instr) (p : DWord) (c : Nat) : (s.retire ts i p).core c = s.core c := by
  rw [State.retire_frame]
  rfl

theorem State.net_retire (s : State) (ts : List TRef) (i : Instr) (p : DWord) : (s.retire ts i p).net = s.net := by
  rw [State.retire_frame]

/-- An operation put into a core's engine, and a message sent. -/
theorem State.copies_sent (s : State) (c : Nat) (op : CopyOp) (m : Msg) :
    (((s.setCore c fun co => { co with copies := co.copies ++ [op] }).send m).core c).copies = (s.core c).copies ++ [op] := by
  have h := (State.core_setCore s c c fun co => { co with copies := co.copies ++ [op] }).trans (if_pos rfl)
  exact congrArg Core.copies h

/-! ## QCWSET -/

/-- The control word of a QCWSET's operand (R179). -/
def qcwOf (b : DWord) : Qcw := ⟨(b.extractLsb' 0 32).toNat, (b.extractLsb' 32 16).toNat, (b.extractLsb' 48 16).toNat, 0, 0, 0, 0⟩

/-- The operation that a QCWSET puts into its core's engine. -/
def qcwsetCopy (f : Form) (ld : TRef) (o : Operands) (s : State) (p : SaPlace) : CopyOp :=
  { copyOp f 5 ld o s with token := none, ring := false, kind := 5, value := o.b, place := p.place, ofs := p.ofs }

theorem qcwsetOp_ok {i : Instr} {s : State} {ts : List TRef} {p : SaPlace} (h : s.RunsOnce ts i)
    (hp : s.qcwPlace (s.lead i).warp ((s.leadOps i).a.setWidth 32).toNat = .ok p)
    (hq : (qcwOf (s.leadOps i).b).ok (s.block (s.warp (s.lead i).warp).block).scratch = true)
    (ho : s.saOwned (s.warp (s.lead i).warp).block [(s.lead i).warp] p 16 = true)
    (ho' : s.saOwned (s.warp (s.lead i).warp).block [(s.lead i).warp] ⟨p.place, (qcwOf (s.leadOps i).b).base⟩
      (qcwOf (s.leadOps i).b).bytes = true) :
    qcwsetOp i s = (((s.fresh).setCore (s.warp (s.lead i).warp).core fun c =>
      { c with copies := c.copies ++ [qcwsetCopy i.form (s.lead i) (s.leadOps i) s p] }).send
        (.copyPost (s.warp (s.lead i).warp).core s.nextId)).retire ts i s.cur.next := by
  unfold qcwsetOp
  refine State.onceFor_done h ?_
  dsimp only
  rw [hp]
  dsimp only
  refine (if_neg (by simpa [qcwOf] using hq)).trans (if_neg ?_)
  rw [ho, Bool.true_and, Bool.not_eq_true']
  exact fun hn => Bool.false_ne_true (hn.symm.trans ho')

/-! ## RPUSH and RPOP -/

/-- The operation that a push leaves in its core's engine. -/
def rpushCopy (f : Form) (ld : TRef) (o : Operands) (s : State) (p : SaPlace) (q : Qcw) : CopyOp :=
  { copyOp f 4 ld o s with
    token := none, ring := true, kind := 4, place := p.place, ofs := p.ofs, slot := some q.wr, started := true, done := true }

theorem rpushOp_ok {i : Instr} {s : State} {ts : List TRef} {p : SaPlace} {q : Qcw} (h : s.RunsOnce ts i)
    (hpend : s.qcwPending (s.lead i).warp ((s.leadOps i).b.setWidth 32).toNat = false)
    (hring : s.ringCheck (s.lead i).warp ((s.leadOps i).b.setWidth 32).toNat = .ok (p, q)) (hn : i.form.x.sub.toNat + 1 ≤ q.esize)
    (hroom : q.room ≠ 0) (hbusy : s.ringBusy (s.warp (s.lead i).warp).core s.nextId (s.warp (s.lead i).warp).block p.place p.ofs = false) :
    let wp := s.warp (s.lead i).warp
    let bs := pushBytes wp (ts.map TRef.lane) i.form.x.a.num.toNat (i.form.x.sub.toNat + 1)
    let s1 := (s.fresh).setCore wp.core fun c => { c with copies := c.copies ++ [rpushCopy i.form (s.lead i) (s.leadOps i) s p q] }
    let r := if (s.block wp.block).qcwSet p.place p.ofs then (bs, s1) else s1.freeBytes bs.length
    let s2 := (r.2.setBlock wp.block fun b => b.qcwPut p.place p.ofs 8 (q.wr + 1)).scratchWrite wp.block
          ⟨p.place, q.slot q.wr⟩ r.1 [(s.lead i).warp] wp.core none
    rpushOp i s = (s2.advanceFill wp.core wp.block p.place p.ofs ((s2.core wp.core).copies.length + 1)).retire ts i s.cur.next := by
  intro wp bs s1 r s2
  unfold rpushOp
  refine State.onceFor_done h ?_
  dsimp only
  rw [hpend, if_neg (by simp), hring]
  dsimp only
  rw [if_neg (by omega), hbusy, if_neg (by simp [hroom]), h.group]
  rfl

section
variable {i : Instr} {s : State} {ts : List TRef} {p : SaPlace} {q : Qcw} (h : s.RunsOnce ts i)
  (hpend : s.qcwPending (s.lead i).warp ((s.leadOps i).b.setWidth 32).toNat = false)
  (hring : s.ringCheck (s.lead i).warp ((s.leadOps i).b.setWidth 32).toNat = .ok (p, q))
include h hpend hring

theorem rpopOp_releases (h1 : i.form.x.sub = 1) (ht : s.takeWaits (s.lead i).warp p = false) :
    rpopOp i s = (if q.rl = q.rd then s else s.setBlock (s.warp (s.lead i).warp).block fun b =>
      b.qcwPut p.place p.ofs 14 (q.rl + 1)).retire ts i s.cur.next := by
  unfold rpopOp
  refine State.onceFor_done h ?_
  dsimp only
  rw [hpend, if_neg (by simp), hring]
  dsimp only
  rw [ht, if_neg (by simp), if_pos h1]

variable (h1 : i.form.x.sub ≠ 1) (hw : (s.grid (s.warp (s.lead i).warp).grid).det = false ∨ q.wr ≠ q.rd)
include h1 hw

theorem rpopOp_vec {d : BitVec 9} (hd : i.form.x.dst = .vec d) :
    rpopOp i s = ((s.fresh.setWarp (s.lead i).warp fun w =>
      { (List.range 32).foldl (fun w l => w.markEmpty l d.toNat 1 true) w with inFlight := w.inFlight + 1 }).send
        (.vclassWriteBack ⟨s.nextId, (s.lead i).warp, (s.lead i).lane, .vec d.toNat 1, .ring p.place p.ofs, s.cur.pos,
          s.cur.num⟩)).retire ts i s.cur.next := by
  unfold rpopOp
  refine State.onceFor_done h ?_
  dsimp only
  rw [hpend, if_neg (by simp), hring]
  dsimp only
  rw [if_neg (fun hc => h1 hc.1), if_neg h1, if_neg (by simpa [or_iff_not_imp_left] using hw), hd]
  rfl

theorem rpopOp_uni {d : BitVec 9} (hd : i.form.x.dst = .uni d) :
    rpopOp i s = (((s.fresh.park (.uniform s.nextId) (s.lead i).warp ts).setWarp (s.lead i).warp
      fun w => { w with inFlight := w.inFlight + 1 }).send
        (.vclassWriteBack ⟨s.nextId, (s.lead i).warp, (s.lead i).lane, .uni (d.toNat % 32), .ring p.place p.ofs, s.cur.pos,
          s.cur.num⟩)).finish i.form.opc ts := by
  unfold rpopOp
  refine State.onceFor_held h ?_
  dsimp only
  rw [hpend, if_neg (by simp), hring]
  dsimp only
  rw [if_neg (fun hc => h1 hc.1), if_neg h1, if_neg (by simpa [or_iff_not_imp_left] using hw), hd, h.group]

end

theorem ringsComplete : Claim.RingsComplete := by
  refine ⟨fun g x s ts p => ?_, fun i hi s ts p q h => ?_, fun i hi s ts p q h => ?_⟩
  · intro i h ld wp o q' hp hq ho ho'
    refine ⟨_, qcwsetCopy i.form ld o s p, congrArg Host.Outcome.next (qcwsetOp_ok h hp hq ho ho'), ?_, rfl, rfl, rfl, rfl, rfl, rfl, ?_⟩
    · rw [State.core_retire]
      exact State.copies_sent s.fresh wp.core (qcwsetCopy i.form ld o s p) _
    · rw [State.net_retire]
      rfl
  · intro ld wp f n bs hpend hring hn hroom hbusy
    refine ⟨rpushCopy f ld (s.leadOps i) s p q, rfl, rfl, rfl, rfl, rfl, rfl, rfl, ?_⟩
    have hx := rpushOp_ok h hpend hring hn hroom hbusy
    obtain ⟨g, a, b, c, rfl⟩ | ⟨g, x, rfl⟩ := hi
    · exact congrArg Host.Outcome.next hx
    · exact congrArg Host.Outcome.next hx
  · intro ld wp f hpend hring hw ht wb
    obtain ⟨op, hop⟩ : ∃ o : State → State, (∀ s, exec i s = .next (o s)) ∧ o s = rpopOp i s := by
      obtain ⟨g, a, d, rfl⟩ | ⟨g, x, rfl⟩ := hi
      · exact ⟨rpopOp _, fun _ => rfl, rfl⟩
      · exact ⟨rpopOp _, fun _ => rfl, rfl⟩
    rw [hop.1, hop.2]
    exact ⟨fun h1 => congrArg Host.Outcome.next (rpopOp_releases h hpend hring h1 (ht h1)),
      fun h1 d hd => congrArg Host.Outcome.next (rpopOp_vec h hpend hring h1 (hw h1) hd),
      fun h1 d hd => congrArg Host.Outcome.next (rpopOp_uni h hpend hring h1 (hw h1) hd)⟩

/-! ## Buffers -/

/-- The offset and the length of a new buffer are the halves of its operand. -/
theorem halves (a : DWord) : (a.extractLsb' 0 32).toNat = a.toNat % 2 ^ 32 ∧ (a.extractLsb' 32 32).toNat = a.toNat / 2 ^ 32 := by
  constructor
  · simp
  · rw [BitVec.extractLsb'_toNat, Nat.shiftRight_eq_div_pow, Nat.mod_eq_of_lt]
    have := a.isLt
    omega

section
variable {i : Instr} {s : State} {ts : List TRef} (h : s.RunsOnce ts i) {ofs len : Nat} (ho : ((s.leadOps i).a.extractLsb' 0 32).toNat = ofs)
  (hl : ((s.leadOps i).a.extractLsb' 32 32).toNat = len) (ho8 : ofs % 128 = 0) (hl8 : len % 128 = 0)
include h ho hl ho8 hl8

theorem btakeNewOp_window (hw : ¬ ((s.warp (s.lead i).warp).core ∈ (s.block (s.warp (s.lead i).warp).block).places ∧ 128 ≤ len ∧
      ofs + len ≤ (s.block (s.warp (s.lead i).warp).block).scratch)) :
    btakeNewOp i s = (s.raiseAll ts (report clsWindow 2 (BitVec.ofNat 64 ofs)) (i.form.g.scope == .set)).finish i.form.opc [] := by
  unfold btakeNewOp
  refine State.onceFor_fault h ?_
  dsimp only
  rw [ho, hl, if_neg (by simp [ho8, hl8]), if_pos]
  by_contra hn
  simp only [Bool.not_eq_true', not_or, Bool.not_eq_false, List.contains_iff_mem] at hn
  obtain ⟨hp, hl, hs⟩ := hn
  exact hw ⟨hp, by omega, by omega⟩

theorem btakeNewOp_takes {k : Nat} (hp : (s.warp (s.lead i).warp).core ∈ (s.block (s.warp (s.lead i).warp).block).places)
    (hlen : 128 ≤ len) (hs : ofs + len ≤ (s.block (s.warp (s.lead i).warp).block).scratch)
    (hfree : ∀ e ∈ (s.core (s.warp (s.lead i).warp).core).buffers, e.2.state = 0 ∨ e.2.block ≠ (s.warp (s.lead i).warp).block ∨
      e.2.offset + e.2.length ≤ ofs ∨ ofs + len ≤ e.2.offset)
    (hk : k < 64) (hk0 : (s.buffer (s.warp (s.lead i).warp).core k).state = 0)
    (hkj : ∀ j, j < k → (s.buffer (s.warp (s.lead i).warp).core j).state ≠ 0) :
    btakeNewOp i s = ((s.setBuffer (s.warp (s.lead i).warp).core k ⟨1, (s.warp (s.lead i).warp).block, (s.lead i).warp,
      (s.buffer (s.warp (s.lead i).warp).core k).gen, ofs, len⟩).putUniform (s.lead i).warp i.form.x.dst
        (bufferHandle k ((s.block (s.warp (s.lead i).warp).block).placeOf (s.warp (s.lead i).warp).core)
          (s.buffer (s.warp (s.lead i).warp).core k).gen)).retire ts i s.cur.next := by
  unfold btakeNewOp
  refine State.onceFor_done h ?_
  have hno : ((s.core (s.warp (s.lead i).warp).core).buffers.any fun e => e.2.state != 0 && e.2.block == (s.warp (s.lead i).warp).block &&
      decide (ofs < e.2.offset + e.2.length) && decide (e.2.offset < ofs + len)) = false := by
    rw [List.any_eq_false]
    intro e he
    simp only [bne_iff_ne, Bool.and_eq_true, beq_iff_eq, decide_eq_true_eq, not_and, and_imp]
    intro h0 hb hlt
    obtain h | h | h | h := hfree e he
    · exact absurd h h0
    · exact absurd hb h
    · omega
    · omega
  have hfind : (List.range bufferEntries).find? (fun k => (s.buffer (s.warp (s.lead i).warp).core k).state == 0) = some k := by
    rw [List.find?_range_eq_some]
    exact ⟨by simpa using hk0, List.mem_range.mpr hk, fun j hj => by simpa using hkj j hj⟩
  dsimp only
  rw [ho, hl, if_neg (by simp [ho8, hl8]), if_neg (by simp [hp]; omega), hno, if_neg (by simp), hfind]

end

section
variable {i : Instr} {s : State} {ts : List TRef} (h : s.RunsOnce ts i)
include h

theorem bgiveOp_stale {b : Bool} (hb : s.bufferOf (s.lead i).warp ((s.leadOps i).a.setWidth 32).toNat = none) :
    bgiveOp i b s = (s.raiseAll ts (staleHandle ((s.leadOps i).a.setWidth 32).toNat) (i.form.g.scope == .set)).finish i.form.opc [] := by
  unfold bgiveOp
  refine State.onceFor_fault h ?_
  dsimp only
  rw [hb]

theorem btakeOp_stale (hb : s.bufferOf (s.lead i).warp ((s.leadOps i).a.setWidth 32).toNat = none) :
    btakeOp i s = (s.raiseAll ts (staleHandle ((s.leadOps i).a.setWidth 32).toNat) (i.form.g.scope == .set)).finish i.form.opc [] := by
  unfold btakeOp
  refine State.onceFor_fault h ?_
  dsimp only
  rw [hb]

variable {core k : Nat} (hb : s.bufferOf (s.lead i).warp ((s.leadOps i).a.setWidth 32).toNat = some (core, k))
include hb

theorem bgiveOp_gives (h1 : (s.buffer core k).state = 1) (hw : (s.buffer core k).warp = (s.lead i).warp) {w : Nat}
    (ht : s.warpOfIndex (s.warp (s.lead i).warp).block ((s.leadOps i).b.setWidth 32).toNat = some w) :
    bgiveOp i true s = (s.setBuffer core k { s.buffer core k with state := 2, warp := w }).retire ts i s.cur.next := by
  unfold bgiveOp
  refine State.onceFor_done h ?_
  dsimp only
  rw [hb]
  dsimp only
  rw [if_neg (by simp [h1, hw]), if_pos rfl, ht]

theorem bgiveOp_frees (h1 : (s.buffer core k).state = 1) (hw : (s.buffer core k).warp = (s.lead i).warp) :
    bgiveOp i false s =
      (s.setBuffer core k { s.buffer core k with state := 0, gen := (s.buffer core k).gen + 1 }).retire ts i s.cur.next := by
  unfold bgiveOp
  refine State.onceFor_done h ?_
  dsimp only
  rw [hb]
  dsimp only
  rw [if_neg (by simp [h1, hw]), if_neg (by simp)]

theorem btakeOp_takes (h2 : (s.buffer core k).state = 2) (hw : (s.buffer core k).warp = (s.lead i).warp) :
    btakeOp i s = ((s.setBuffer core k { s.buffer core k with state := 1 }).putUniform (s.lead i).warp i.form.x.dst
      (BitVec.ofNat 64 ((s.leadOps i).a.setWidth 32).toNat)).retire ts i s.cur.next := by
  unfold btakeOp
  refine State.onceFor_done h ?_
  dsimp only
  rw [hb]
  exact if_pos ⟨h2, hw⟩

end

theorem buffersComplete : Claim.BuffersComplete := by
  refine ⟨fun g x s ts k => ?_, fun g x s ts core k i hi h => ?_, fun g x s ts i hi h => ?_⟩
  · intro i h ld wp b ofs len ho8 hl8
    obtain ⟨ho, hl⟩ := halves (s.leadOps i).a
    exact ⟨fun hw => congrArg Host.Outcome.next (btakeNewOp_window h ho hl ho8 hl8 hw), fun hp hlen hs hfree hk hk0 hkj =>
      congrArg Host.Outcome.next (btakeNewOp_takes h ho hl ho8 hl8 hp hlen hs hfree hk hk0 hkj)⟩
  · intro ld hh bf hb
    refine ⟨?_, ?_, ?_⟩
    · rintro rfl h1 hw w ht
      exact congrArg Host.Outcome.next (bgiveOp_gives h hb h1 hw ht)
    · rintro rfl h1 hw
      exact congrArg Host.Outcome.next (bgiveOp_frees h hb h1 hw)
    · rintro rfl h2 hw
      exact congrArg Host.Outcome.next (btakeOp_takes h hb h2 hw)
  · intro hh hb
    obtain rfl | rfl | rfl := hi
    · exact congrArg Host.Outcome.next (bgiveOp_stale h hb)
    · exact congrArg Host.Outcome.next (bgiveOp_stale h hb)
    · exact congrArg Host.Outcome.next (btakeOp_stale h hb)

/-- Settles O39: each ring and buffer instruction has one effect for its members once its checks have passed. -/
theorem ringsAndBuffers : Obligations.RingsAndBuffers := ⟨ringsComplete, buffersComplete⟩

end Sys2Proof.Machine
end

section
/-! SUPPORT. Matrix operations are accepted; ACCK and FMTSET (R269 to R272, R279, R287 to R295). -/

namespace Sys2Proof.Machine

set_option Elab.async false

/-! ## What accepting an operation makes -/

theorem State.isSome_setWarp (s : State) (k m : Nat) (f : Warp → Warp) :
    (Tab.find (s.setWarp k f).warps m).isSome = (Tab.find s.warps m).isSome := by
  rw [State.setWarp, Tab.find_upd]
  split <;> simp

/-- Taking tokens in warps changes the warps alone. -/
theorem State.takeTokens_frame (n : Nat) (ms : List Nat) (s : State) :
    s.WarpsOnly (ms.foldl (fun s m => s.takeToken m n) s) :=
  State.WarpsOnly.foldl (fun _ _ => rfl) ms s

theorem State.takeToken_cf (s : State) (w n m k : Nat) (h : (Tab.find s.warps m).isSome = true) :
    ((s.takeToken w n).warp m).cf.getLsbD k =
      ((s.warp m).cf.getLsbD k && (decide (m ≠ w) || !(BitVec.ofNat 12 (2 ^ n)).getLsbD k)) := by
  rw [State.takeToken, State.warp_setWarp]
  by_cases hm : m = w
  · rw [if_pos ⟨hm, h⟩]
    by_cases hk : k < 12
    · simp [hm, hk]
    · simp [hm, BitVec.getLsbD_of_ge _ _ (Nat.le_of_not_lt hk)]
  · rw [if_neg fun hn => hm hn.1]
    simp [hm]

/-- A flag is clear in every warp that has taken its token. -/
theorem State.takeTokens_clear {n : Nat} (hn : n < 12) {m : Nat} :
    (ms : List Nat) → (s : State) → (Tab.find s.warps m).isSome = true → m ∈ ms ∨ (s.warp m).cf.getLsbD n = false →
      ((ms.foldl (fun s m => s.takeToken m n) s).warp m).cf.getLsbD n = false
  | [], _, _, h => h.resolve_left (List.not_mem_nil)
  | w :: ms, s, hs, h => by
    refine takeTokens_clear hn ms (s.takeToken w n) ((s.isSome_setWarp w m _).trans hs) ?_
    rw [State.takeToken_cf s w n m n hs]
    by_cases hm : m = w
    · have hbit : (BitVec.ofNat 12 (2 ^ n)).getLsbD n = true := by
        rw [BitVec.getLsbD_ofNat, Nat.testBit_two_pow_self, decide_eq_true hn, Bool.and_true]
      rw [hbit, hm]
      exact Or.inr (by simp)
    · exact h.elim (fun h => Or.inl ((List.mem_cons.mp h).resolve_left hm)) fun h => Or.inr (by simp [h])

/-- The core of a claim. -/
theorem State.core_claimAcc (s : State) (c b : Nat) :
    ((s.claimAcc c b).core c).accClaim = some b ∧ ((s.claimAcc c b).core c).arrayQ = (s.core c).arrayQ ∧
      ((s.claimAcc c b).core c).drainQ = (s.core c).drainQ ∧
      ((s.core c).accClaim ≠ some b → ((s.claimAcc c b).core c).acc = []) := by
  unfold State.claimAcc
  by_cases h : (s.core c).accClaim = some b
  · rw [if_pos h]
    exact ⟨h, rfl, rfl, fun hn => absurd h hn⟩
  · rw [if_neg h, State.core_setCore, if_pos rfl]
    exact ⟨rfl, rfl, rfl, fun _ => rfl⟩

theorem State.rest_claimAcc (s : State) (c b : Nat) : s.claimAcc c b = { s with cores := (s.claimAcc c b).cores } := by
  unfold State.claimAcc
  split <;> rfl

/-- An operation that a core's engine has accepted: the array's, or the drain's (R271). -/
def Core.enqueue (co : Core) (o : MatrixOp) : Core :=
  if o.kind = 4 then { co with drainQ := co.drainQ ++ [o] } else { co with arrayQ := co.arrayQ ++ [o] }

/-- The state whose members have taken their tokens and whose core is claimed. -/
def State.claimed (s : State) (core : Nat) (o : MatrixOp) : State :=
  o.members.foldl (fun s m => s.takeToken m o.token) ((s.claimAcc core o.block).fresh)

theorem State.acceptMatrix_eq (s : State) (core : Nat) (o : MatrixOp) :
    s.acceptMatrix core o = ((s.claimed core o).setCore core fun co => co.enqueue o).send
      (if o.kind < 2 then .matrixKStep core else .matrixOpComplete core o.id) := by
  by_cases h : o.kind < 2
  · exact (if_pos h).trans (by rw [if_pos h]; rfl)
  · exact (if_neg h).trans (by rw [if_neg h]; rfl)

theorem State.core_claimed (s : State) (c k : Nat) (o : MatrixOp) : (s.claimed c o).core k = (s.claimAcc c o.block).core k := by
  rw [State.core, State.claimed, State.takeTokens_frame o.token o.members ((s.claimAcc c o.block).fresh)]
  rfl

theorem State.core_acceptMatrix (s : State) (c : Nat) (o : MatrixOp) :
    (s.acceptMatrix c o).core c = ((s.claimAcc c o.block).core c).enqueue o := by
  rw [State.acceptMatrix_eq]
  refine Eq.trans (State.core_setCore (s.claimed c o) c c fun co => co.enqueue o) ?_
  rw [if_pos rfl, State.core_claimed]

theorem State.net_acceptMatrix (s : State) (c : Nat) (o : MatrixOp) :
    (s.acceptMatrix c o).net = s.net ++ [if o.kind < 2 then .matrixKStep c else .matrixOpComplete c o.id] := by
  have h : (s.claimed c o).net = s.net := by
    rw [State.claimed, State.takeTokens_frame o.token o.members ((s.claimAcc c o.block).fresh)]
    rw [s.rest_claimAcc c o.block]
    rfl
  rw [State.acceptMatrix_eq]
  exact congrArg (· ++ _) h

theorem State.cf_acceptMatrix {s : State} {c : Nat} {o : MatrixOp} (ht : o.token < 12) {m : Nat} (hm : m ∈ o.members)
    (hs : (Tab.find s.warps m).isSome = true) : ((s.acceptMatrix c o).warp m).cf.getLsbD o.token = false := by
  have h : (Tab.find ((s.claimAcc c o.block).fresh).warps m).isSome = true := by
    rw [s.rest_claimAcc c o.block]
    exact hs
  rw [State.acceptMatrix_eq]
  exact State.takeTokens_clear ht o.members _ h (Or.inl hm)

theorem Core.enqueue_claim (co : Core) (o : MatrixOp) : (co.enqueue o).accClaim = co.accClaim ∧ (co.enqueue o).acc = co.acc := by
  unfold Core.enqueue
  split <;> exact ⟨rfl, rfl⟩

theorem Core.enqueue_drain (co : Core) {o : MatrixOp} (h : o.kind = 4) : (co.enqueue o).drainQ = co.drainQ ++ [o] := by
  rw [Core.enqueue, if_pos h]

theorem Core.enqueue_array (co : Core) {o : MatrixOp} (h : o.kind ≠ 4) : (co.enqueue o).arrayQ = co.arrayQ ++ [o] := by
  rw [Core.enqueue, if_neg h]

/-! ## The issue -/

/-- The checks of a matrix operation (R279, R288). -/
def State.matrixChecked (s : State) (ld : TRef) (ms : List Nat) (op : MatrixOp) (kind : Nat) : Except Report State :=
  if kind < 2 then (match s.mmaCheck ld ms op with
    | some r => .error r
    | none => .ok s)
  else if kind = 2 then .ok s else s.rowsCheck ld ms op

theorem State.matrixChecked_ok {s s1 : State} {ld : TRef} {ms : List Nat} {op : MatrixOp} {kind : Nat}
    (h0 : kind < 2 → s.mmaCheck ld ms op = none ∧ s1 = s) (h2 : kind = 2 → s1 = s)
    (h3 : 3 ≤ kind → s.rowsCheck ld ms op = .ok s1) : s.matrixChecked ld ms op kind = .ok s1 := by
  unfold State.matrixChecked
  by_cases hk : kind < 2
  · obtain ⟨hc, rfl⟩ := h0 hk
    rw [if_pos hk, hc]
  · by_cases hk2 : kind = 2
    · obtain rfl := h2 hk2
      rw [if_neg hk, if_pos hk2]
    · rw [if_neg hk, if_neg hk2, h3 (by omega)]

theorem matrixIssue_ok {i : Instr} {s s1 : State} {ts : List TRef} {kind : Nat} (h : s.RunsOnce ts i)
    (hc : s.matrixChecked (s.lead i) (s.setOf (s.lead i).warp)
      (matrixOp i.form kind (s.lead i) (s.setOf (s.lead i).warp) (s.leadOps i) s) kind = .ok s1)
    (hf : s1.accFree (s.warp (s.lead i).warp).core
      (matrixOp i.form kind (s.lead i) (s.setOf (s.lead i).warp) (s.leadOps i) s).block = true)
    (hr : s1.matRoom (s.warp (s.lead i).warp).core (s.setOf (s.lead i).warp)
      (matrixOp i.form kind (s.lead i) (s.setOf (s.lead i).warp) (s.leadOps i) s).token = true) :
    matrixIssue i kind s = (s1.acceptMatrix (s.warp (s.lead i).warp).core
      { matrixOp i.form kind (s.lead i) (s.setOf (s.lead i).warp) (s.leadOps i) s with
        raced := s1.racedIssue (s.warp (s.lead i).warp).core
          (matrixOp i.form kind (s.lead i) (s.setOf (s.lead i).warp) (s.leadOps i) s) }).retire ts i s.cur.next := by
  unfold matrixIssue
  refine State.onceFor_done h ?_
  dsimp only
  split
  · next r he => cases hc.symm.trans he
  · next s2 he =>
    cases hc.symm.trans he
    rw [hf, hr]
    rfl

/-- A chain of steps that may stop with an error keeps what each of them keeps. -/
theorem foldl_except_keeps {α β ε γ : Type} (g : α → γ) {f : Except ε α → β → Except ε α} (he : ∀ r x, f (.error r) x = .error r)
    (hf : ∀ s x s', f (.ok s) x = .ok s' → g s' = g s) :
    (l : List β) → {s s' : α} → l.foldl f (.ok s) = .ok s' → g s' = g s
  | [], _, _, h => by cases h; rfl
  | x :: rest, s, s', h => by
    rw [List.foldl_cons] at h
    cases hx : f (.ok s) x with
    | ok u => exact (foldl_except_keeps g he hf rest (hx ▸ h)).trans (hf s x u hx)
    | error r =>
      have hr : rest.foldl f (.error r) = .error r := List.foldl_fixed' (he r) rest
      rw [hx, hr] at h
      cases h

theorem State.warps_matPages {s s1 : State} {core : Nat} {o : MatrixOp} (h : s.matPages core o = .ok s1) : s1.warps = s.warps := by
  refine foldl_except_keeps State.warps (fun _ _ => rfl) (fun u va u' hu => ?_) _ h
  dsimp only at hu
  split at hu <;> cases hu
  rw [(u.tlbOnly_xlate core o.asid (BitVec.ofNat 64 va)).rest]

/-- The checks of a memory operand's rows change no warp. -/
theorem State.warps_rowsCheck {s s1 : State} {ld : TRef} {ms : List Nat} {o : MatrixOp} (h : s.rowsCheck ld ms o = .ok s1) :
    s1.warps = s.warps := by
  unfold State.rowsCheck at h
  split at h
  · cases h
  · split at h
    · cases h
    · split at h
      · exact State.warps_matPages h
      · split at h <;> cases h
        rfl

theorem State.warps_matrixChecked {s s1 : State} {ld : TRef} {ms : List Nat} {op : MatrixOp} {kind : Nat}
    (h : s.matrixChecked ld ms op kind = .ok s1) : s1.warps = s.warps := by
  unfold State.matrixChecked at h
  split at h
  · split at h <;> cases h
    rfl
  · split at h
    · cases h
      rfl
    · exact State.warps_rowsCheck h

theorem matrixIssues : Claim.MatrixIssues := by
  intro g x i kind hi s s1 ts h ld core ms op h0 h2 h3 hf hr op' s2
  have hexec : exec i s = .next (matrixIssue i kind s) ∧ i.form.x = x := by
    obtain ⟨rfl, rfl⟩ | ⟨rfl, rfl⟩ | ⟨rfl, rfl⟩ | ⟨rfl, rfl⟩ | ⟨rfl, rfl⟩ := hi <;> exact ⟨rfl, rfl⟩
  obtain ⟨hexec, hx⟩ := hexec
  have hc : s.matrixChecked ld ms op kind = .ok s1 := State.matrixChecked_ok h0 h2 h3
  have hw : s1.warps = s.warps := State.warps_matrixChecked hc
  have htok : op'.token = 8 + x.sub.toNat % 4 := congrArg (8 + ·.sub.toNat % 4) hx
  obtain ⟨hclaim, harray, hdrain, hacc⟩ := s1.core_claimAcc core op.block
  have hcore : s2.core core = ((s1.claimAcc core op.block).core core).enqueue op' := s1.core_acceptMatrix core op'
  obtain ⟨heclaim, heacc⟩ := Core.enqueue_claim ((s1.claimAcc core op.block).core core) op'
  refine ⟨hexec.trans (congrArg Host.Outcome.next (matrixIssue_ok h hc hf hr)), ?_, ?_, fun m hm hs => ?_, ?_, fun hn t m c => ?_⟩
  · rw [hcore, heclaim, hclaim]
  · rw [hcore]
    by_cases hk : kind = 4
    · rw [if_pos hk, Core.enqueue_drain _ hk, hdrain]
    · rw [if_neg hk, Core.enqueue_array _ hk, harray]
  · rw [← htok]
    exact State.cf_acceptMatrix (by omega) hm (hw ▸ hs)
  · exact s1.net_acceptMatrix core op'
  · rw [hcore, Core.accGet, heacc, hacc hn]
    rfl

/-! ## ACCK and FMTSET -/

/-- Only the issuing warp's core and block decide what ACCK reads. -/
theorem acckOp_local : acckOp.Local := fun _ _ _ _ _ h => by
  simp only [acckOp, State.core, h.cores, h.core_eq, h.block_eq]
  rfl

theorem statusWord_fields (co : Core) (t : Nat) (hd : (co.tile t).kDone < 2 ^ 13) (ht : (co.tile t).kTot < 2 ^ 13) :
    (co.statusWord t).toNat = (co.tile t).kDone + 2 ^ 13 * (co.tile t).kTot + 2 ^ 26 * (co.tile t).flags.toNat +
      2 ^ 30 * (co.tile t).flt.toNat + 2 ^ 31 * (co.tileBusy t).toNat := by
  have hfl := (co.tile t).flags.isLt
  unfold Core.statusWord
  dsimp only
  rw [Nat.mod_eq_of_lt hd, Nat.mod_eq_of_lt ht]
  cases (co.tile t).flt <;> cases co.tileBusy t <;> simp <;> omega

theorem fmtsetOp_good {i : Instr} {s : State} {ts : List TRef} (h : s.RunsOnce ts i)
    (h20 : ((s.leadOps i).a.setWidth 32 : Word).extractLsb' 20 12 = 0) (h3 : ((s.leadOps i).a.setWidth 32 : Word).getLsbD 3 = false)
    (hv : (Fmt.ofWord ((s.leadOps i).a.setWidth 32)).valid = true) :
    fmtsetOp i s = (((s.putUniforms i.form.x.dst (((s.block (s.warp (s.lead i).warp).block).fmtReg (i.form.x.sub.toNat % 8)).setWidth
      64)).setBlock (s.warp (s.lead i).warp).block fun bl =>
        { bl with fmts := SMap.set 0x00007B34 bl.fmts (i.form.x.sub.toNat % 8) ((s.leadOps i).a.setWidth 32) }).retire ts i
          s.cur.next) := by
  unfold fmtsetOp
  refine State.onceFor_done h ?_
  dsimp only
  rw [h20, h3, hv, if_neg (by simp)]

theorem fmtsetOp_bad {i : Instr} {s : State} {ts : List TRef} (h : s.RunsOnce ts i)
    (hn : ((s.leadOps i).a.setWidth 32 : Word).extractLsb' 20 12 ≠ 0 ∨ ((s.leadOps i).a.setWidth 32 : Word).getLsbD 3 ∨
      !(Fmt.ofWord ((s.leadOps i).a.setWidth 32)).valid) :
    fmtsetOp i s = (s.raiseAll ts (report clsFormat 4 (((s.leadOps i).a.setWidth 32 : Word).setWidth 64)) (i.form.g.scope ==
      .set)).finish i.form.opc [] := by
  unfold fmtsetOp
  refine State.onceFor_fault h ?_
  dsimp only
  exact if_pos hn

theorem extract_upper (v : Word) : v.extractLsb' 20 12 = 0 ↔ v.toNat / 2 ^ 20 = 0 := by
  rw [← BitVec.toNat_inj, BitVec.extractLsb'_toNat, Nat.shiftRight_eq_div_pow]
  have := v.isLt
  simp
  omega

theorem matrixRegisters : Claim.MatrixRegisters := by
  refine ⟨fun g x s ts h => ?_, fun co t => ?_, fun g x s ts => ?_⟩
  · exact congrArg Host.Outcome.next (State.alu_ready h 4 acckOp _ fun t _ s' ha => acckOp_local _ _ _ _ _ ha)
  · intro st hd ht w
    have hw : w.toNat = st.kDone + 2 ^ 13 * st.kTot + 2 ^ 26 * st.flags.toNat + 2 ^ 30 * st.flt.toNat +
        2 ^ 31 * (co.tileBusy t).toNat := statusWord_fields co t hd ht
    have hfl := st.flags.isLt
    have hflt := st.flt.toNat_le
    have hbusy := (co.tileBusy t).toNat_le
    refine ⟨by omega, by omega, ?_, ?_, ?_⟩
    · rw [← BitVec.toNat_inj, BitVec.extractLsb'_toNat, Nat.shiftRight_eq_div_pow]
      omega
    · rw [BitVec.getLsbD, Nat.testBit_eq_decide_div_mod_eq, show w.toNat / 2 ^ 30 % 2 = st.flt.toNat by omega]
      cases st.flt <;> rfl
    · rw [BitVec.getLsbD, Nat.testBit_eq_decide_div_mod_eq, show w.toNat / 2 ^ 31 % 2 = (co.tileBusy t).toNat by omega]
      cases co.tileBusy t <;> rfl
  · intro i h b n v good
    refine ⟨fun ⟨h20, h3, hv⟩ => congrArg Host.Outcome.next (fmtsetOp_good h ((extract_upper v).mpr h20) h3 hv), fun hn =>
      congrArg Host.Outcome.next (fmtsetOp_bad h ?_)⟩
    by_contra hc
    push Not at hc
    obtain ⟨h20, h3, hv⟩ := hc
    exact hn ⟨(extract_upper v).mp h20, Bool.eq_false_iff.mpr h3, by simpa using hv⟩

/-- Settles O40: an operation whose checks pass claims the file, takes its token and is queued; ACCK and FMTSET. -/
theorem matrixAccepted : Obligations.MatrixAccepted := ⟨matrixIssues, matrixRegisters⟩

end Sys2Proof.Machine
end

section
/-! SUPPORT. O41 fails: the statement speaks of every state, and `RunsOnce` lets a group name a thread twice. ENQT at warp scope then asks
its deque for room for two records, where the statement asks for one. -/

namespace Sys2Proof.Machine

set_option Elab.async false

/-- A warp whose group names its lane 0 twice pushes a record into a deque with room for one. -/
def twiceNamed : State :=
  let s := Slice0.stored 0x20400 (leBytes 8 0x10000) (Slice0.tasked (Slice0.withUni [(8, 0x20400)] Slice0.pair))
  let s := s.setGrid 0 fun gr => { gr with packet := gr.packet.take 0x50 ++ leBytes 4 2 ++ gr.packet.drop 0x54 }
  { s with issue := s.issue.map fun c => { c with group := [Slice0.t0, Slice0.t0] } }

/-- The state in which the record's line has been reached. -/
def twiceReached : State := ((twiceNamed.recordReach Slice0.t0 0x20400).1.recordReach Slice0.t0 0x20400).1

/-- The state in which the record's address has been checked. -/
def twiceChecked : State :=
  Slice0.okD twiceReached
    (enqtCheck Slice0.pushTaskW.form true Slice0.t0 (twiceNamed.operands Slice0.t0 Slice0.pushTaskW.form) twiceReached)

/-- Whether a thread issues again in the state that a step leaves. -/
def unreadyAfter (t : TRef) : Host.Outcome State Fault Refusal → Bool
  | .next s => (s.thread t).unready
  | _ => false

theorem ok_okD {ε α : Type} (d : α) : {r : Except ε α} → Slice0.isOkB r = true → r = .ok (Slice0.okD d r)
  | .ok _, _ => rfl

theorem twiceNamed_reach :
    ([Slice0.t0, Slice0.t0].foldl (fun (acc : State × Bool) u =>
      let r := acc.1.recordReach u (twiceNamed.operands u Slice0.pushTaskW.form).a
      (r.1, acc.2 && r.2)) (twiceNamed, true)) = (twiceReached, true) := by
  have ha : (twiceNamed.operands Slice0.t0 Slice0.pushTaskW.form).a = 0x20400 := by decide +kernel
  simp only [List.foldl_cons, List.foldl_nil, ha]
  refine Prod.ext rfl ?_
  decide +kernel

/-- Refutes O41: the ENQT of `twiceNamed` is put off. -/
theorem not_tasksAndMigration : ¬ Obligations.TasksAndMigration := by
  intro ⟨⟨_, _, _, h⟩, _⟩
  have he := h Slice0.gw (Slice0.xw (.vec 0) (.uni 8) noSrc noSrc 0) twiceNamed twiceReached twiceChecked Slice0.t0
    [Slice0.t0] (Slice0.once_of (by decide +kernel)) rfl twiceNamed_reach (by decide +kernel) (ok_okD _ (by decide +kernel))
    (by decide +kernel)
  have hx : unreadyAfter Slice0.t0 (exec Slice0.pushTaskW twiceNamed) = true := by decide +kernel
  rw [show exec Slice0.pushTaskW twiceNamed = _ from he] at hx
  exact absurd hx (by decide +kernel)

end Sys2Proof.Machine
end

section
/-! SUPPORT. O42 fails where O37 fails: a read of a line that its home slice lists twice, whose copy needs a way of a full set, is
served with the bytes that the way's leaving has put in the line's place. -/

namespace Sys2Proof.Machine

set_option Elab.async false

/-- A read that is served at its home reads the line as the home then holds it. -/
theorem sliceRead_served {r : ReadReq} {s s1 s2 : State} (hm : s.readMates r = []) (hh : r.host = false)
    (hb : s.badLines.contains (r.pa / 128) = false) (hf : s.frameCheck r.asid r.gen r.pa false = .serve s1)
    (hr : s1.readAt r.asid r.va (r.pa / 128) (dieOfCore r.core) = some s2) :
    sliceRead r s = (s2.observe r.warp (r.pa / 128)).readDone r (s2.homeLine (r.pa / 128)).value := by
  have hl : readLane r s = (s2.observe r.warp (r.pa / 128)).readDone r (s2.homeLine (r.pa / 128)).value := by
    simp only [readLane, hh, hb, hf, State.serveRead, hr, Bool.false_eq_true, if_false]
  unfold sliceRead
  simp only [hm, hl, State.readAll, ite_self]

namespace FrameCase

/-- A read of the line that its home slice lists seventeen times. -/
def reader : ReadReq :=
  ⟨5, 2, 0, 0, 1, checked.genAt 0 1, 0x22000, 0x22000, false, 4, .b32, true, .vec 10 1, 0x10000, 8, false⟩

theorem checked_value : (checked.homeLine 0x440).value = 0 := by decide +kernel

theorem homeLine_value (s : State) (h : HomeLine) (hv : h.value = 1) : ((s.setLine 0x440 h).homeLine 0x440).value = 1 := by
  have hf : Tab.find (s.setLine 0x440 h).lines 0x440 = some h := Tab.find_put_self _ _ _
  unfold State.homeLine
  rw [hf]
  exact hv

theorem served_grants {u : State} (hg : asked.grantCopy 0x440 0 = some u) : served.readAt 1 0x22000 0x440 0 = some u := by
  have hd : ¬ 0 = homeDie 0x440 := by decide
  unfold State.readAt
  exact (if_neg hd).trans ((if_pos asked_grants).trans hg)

end FrameCase

theorem State.homeLine_of_mems {s s' : State} (h : s'.mems = s.mems) (l : Nat) : s'.homeLine l = s.homeLine l := by
  simp only [State.mems, Prod.mk.injEq] at h
  obtain ⟨hb, _, hl⟩ := h
  unfold State.homeLine
  rw [hb, hl]

open FrameCase in
/-- Refutes O42: `reader` changes the value of the line that it reads. -/
theorem not_sliceAccesses : ¬ Obligations.SliceAccesses := by
  intro ⟨_, h, _⟩
  obtain ⟨u, m, hg, hm, hv⟩ := asked_grant
  have hmates : checked.readMates reader = [] := by decide +kernel
  have hbad : checked.badLines.contains 0x440 = false := by decide +kernel
  obtain ⟨s', ms, v, hx, _, _, hl⟩ := (h reader checked hmates).2.1 served u rfl hbad served_ok (served_grants hg)
  have he := sliceRead_served hmates rfl hbad served_ok (served_grants hg)
  have hs : s'.mems = (roomy.setLine 0x440 m).mems := by
    cases (Host.Outcome.next.inj hx).symm.trans he
    rw [State.mems_readDone, State.mems_observe, hm]
  have h1 := hl 0x440
  rw [State.homeLine_of_mems hs, homeLine_value roomy m hv, checked_value] at h1
  exact absurd h1 (by decide +kernel)

end Sys2Proof.Machine
end

section
/-! SUPPORT. Collapses, leases, recalls and acknowledgements (R102, R104 to R106, R311). -/

namespace Sys2Proof.Machine

set_option Elab.async false

/-! ## A write's GWCT on its way -/

theorem State.lines_ackWrite (s : State) (w : Waiter) (t : Nat) : (s.ackWrite w t).lines = s.lines := by cases w <;> rfl

theorem State.hbm_ackWrite (s : State) (w : Waiter) (t : Nat) : (s.ackWrite w t).hbm = s.hbm := by cases w <;> rfl

theorem State.homeLine_ackWrite (s : State) (w : Waiter) (t l : Nat) : (s.ackWrite w t).homeLine l = s.homeLine l := by
  unfold State.homeLine
  rw [State.lines_ackWrite, State.hbm_ackWrite]

/-- What is on its way stays so while a GWCT is sent. -/
theorem State.net_ackWrite (s : State) (w : Waiter) (t : Nat) {m : Msg} (h : m ∈ s.net) : m ∈ (s.ackWrite w t).net := by
  cases w with
  | store | invocation => exact List.mem_append_left _ h
  | copy | drain | xread | interrupt | none => exact h

theorem State.store_ackWrite (s : State) (warp lane id t : Nat) :
    Msg.storeAcknowledgement ⟨id, warp, lane, t, .blk, true⟩ ∈ (s.ackWrite (.store warp lane id) t).net :=
  List.mem_append_right _ (List.mem_singleton.mpr rfl)

theorem State.homeLine_ackAll (f : Waiter × Nat → Nat) (l : Nat) :
    (ws : List (Waiter × Nat)) → (s : State) → (ws.foldl (fun s w => s.ackWrite w.1 (f w)) s).homeLine l = s.homeLine l
  | [], _ => rfl
  | w :: ws, s => (homeLine_ackAll f l ws (s.ackWrite w.1 (f w))).trans (s.homeLine_ackWrite w.1 (f w) l)

theorem State.net_ackAll (f : Waiter × Nat → Nat) {m : Msg} :
    (ws : List (Waiter × Nat)) → (s : State) → m ∈ s.net → m ∈ (ws.foldl (fun s w => s.ackWrite w.1 (f w)) s).net
  | [], _, h => h
  | w :: ws, s, h => net_ackAll f ws (s.ackWrite w.1 (f w)) (s.net_ackWrite w.1 (f w) h)

/-- Every store among those that wait gets its GWCT. -/
theorem State.stores_ackAll (f : Waiter × Nat → Nat) {warp lane id t : Nat} {ws : List (Waiter × Nat)}
    (h : (Waiter.store warp lane id, t) ∈ ws) (s : State) :
    Msg.storeAcknowledgement ⟨id, warp, lane, f (.store warp lane id, t), .blk, true⟩ ∈
      (ws.foldl (fun s w => s.ackWrite w.1 (f w)) s).net := by
  induction ws generalizing s with
  | nil => cases h
  | cons w ws ih =>
    obtain h | h := List.mem_cons.mp h
    · subst h
      exact State.net_ackAll f ws _ (s.store_ackWrite warp lane id _)
    · exact ih h _

/-! ## The end of a collapse -/

/-- What the end of a collapse leaves: the line without holders and waiters, its value as it was, and each store that waited with
its GWCT. -/
def State.CollapseEnded (s s' : State) (line t : Nat) : Prop :=
  (s'.homeLine line).cpend = false ∧ (s'.homeLine line).waiters = [] ∧ (s'.homeLine line).hold = 0 ∧
    (s'.homeLine line).value = (s.homeLine line).value ∧
    ∀ warp lane id u, (Waiter.store warp lane id, u) ∈ (s.homeLine line).waiters →
      Msg.storeAcknowledgement ⟨id, warp, lane, max t u, .blk, true⟩ ∈ s'.net

theorem State.homeLine_endCollapse (s : State) (line t : Nat) :
    (s.endCollapse line t).homeLine line = { s.homeLine line with cpend := false, hold := 0, grants := [], waiters := [] } := by
  unfold State.endCollapse
  rw [State.homeLine_ackAll (fun w => max t w.2), State.homeLine_setLine, if_pos rfl]

theorem State.endCollapse_ends (s : State) (line t : Nat) : s.CollapseEnded (s.endCollapse line t) line t := by
  have h := s.homeLine_endCollapse line t
  refine ⟨by rw [h], by rw [h], by rw [h], by rw [h]; rfl, fun warp lane id u hu => ?_⟩
  exact State.stores_ackAll (fun w => max t w.2) hu _

/-- A collapse that has lost a holder ends as the one that it was. -/
theorem State.CollapseEnded.of_setLine {s s' : State} {line t : Nat} {h : HomeLine}
    (he : (s.setLine line h).CollapseEnded s' line t) (hv : h.value = (s.homeLine line).value)
    (hw : h.waiters = (s.homeLine line).waiters) : s.CollapseEnded s' line t := by
  obtain ⟨h1, h2, h3, h4, h5⟩ := he
  rw [State.homeLine_setLine, if_pos rfl] at h4 h5
  exact ⟨h1, h2, h3, h4.trans hv, fun a b c u hu => h5 a b c u (hw ▸ hu)⟩

theorem collapseAck_last {s : State} {die line : Nat} (hc : (s.homeLine line).cpend = true)
    (hz : (s.homeLine line).hold &&& ~~~(BitVec.ofNat 8 (2 ^ die)) = 0) :
    s.CollapseEnded (collapseAck die line s) line (min (s.homeTime line) (s.collapseDue line (s.homeLine line))) := by
  unfold collapseAck
  simp only [hc, hz, Bool.not_true, Bool.false_eq_true, if_false, if_true]
  exact (State.endCollapse_ends _ line _).of_setLine rfl rfl

theorem collapseAck_more {s : State} {die line : Nat} (hc : (s.homeLine line).cpend = true)
    (hz : (s.homeLine line).hold &&& ~~~(BitVec.ofNat 8 (2 ^ die)) ≠ 0) :
    collapseAck die line s =
      s.setLine line { s.homeLine line with hold := (s.homeLine line).hold &&& ~~~(BitVec.ofNat 8 (2 ^ die)) } := by
  unfold collapseAck
  simp only [hc, hz, Bool.not_true, Bool.false_eq_true, if_false]

theorem leaseExpiry_due {s : State} {line : Nat} (hc : (s.homeLine line).cpend = true)
    (hd : s.collapseDue line (s.homeLine line) ≤ s.homeTime line) :
    leaseExpiry line s = s.endCollapse line (s.collapseDue line (s.homeLine line)) := by
  have he : s.expireCollapse line = s.endCollapse line (s.collapseDue line (s.homeLine line)) := by
    simp only [State.expireCollapse, hc, hd, decide_true, Bool.and_self, if_true]
  have hn := s.homeLine_endCollapse line (s.collapseDue line (s.homeLine line))
  unfold leaseExpiry
  simp only [he, hn, Bool.false_eq_true, if_false]

theorem leaseExpiry_early {s : State} {line : Nat} (hc : (s.homeLine line).cpend = true)
    (hd : s.homeTime line < s.collapseDue line (s.homeLine line)) : leaseExpiry line s = s.hold (.leaseExpiry line) := by
  have he : s.expireCollapse line = s := by
    simp only [State.expireCollapse, decide_eq_false (Nat.not_le.mpr hd), Bool.and_false, Bool.false_eq_true, if_false]
  unfold leaseExpiry
  simp only [he, hc, if_true]

/-! ## Copies and owners -/

theorem State.mem_dropCopy (s : State) (die line : Nat) (c : RimeCopy) :
    c ∈ (s.dropCopy die line).copies ↔ c ∈ s.copies ∧ ¬(c.die = die ∧ c.line = line) := by
  simp only [State.dropCopy, List.mem_filter, Bool.not_eq_true', Bool.and_eq_false_iff, beq_eq_false_iff_ne, not_and_or, ne_eq]

theorem copyExpiry_expired {s : State} {die line : Nat} (hc : ∃ c ∈ s.copies, c.die = die ∧ c.line = line)
    (he : ∀ c ∈ s.copies, c.die = die → c.line = line → c.expiry ≤ (s.common die).toNat + s.skew2 (homeDie line) die) :
    copyExpiry die line s = s.dropCopy die line := by
  obtain ⟨c, hc, hd, hl⟩ := hc
  have hn : s.copyAt die line = none := by
    unfold State.copyAt
    rw [List.find?_eq_none]
    intro x hx hp
    simp only [Bool.and_eq_true, beq_iff_eq, decide_eq_true_eq] at hp
    obtain ⟨⟨hxd, hxl⟩, hlt⟩ := hp
    exact absurd (he x hx hxd hxl) (by omega)
  unfold copyExpiry
  split
  · next hf => exact absurd (List.find?_eq_none.mp hf c hc) (by simp [hd, hl])
  · rw [hn]
    rfl

/-- A lent line recalled is at its home with its owner's bytes. -/
theorem State.homeLine_recall {s : State} {line o byDie : Nat} (ho : (s.homeLine line).ownerDie = some o) (hn : o ≠ byDie) :
    ∃ m, (s.recall line byDie).homeLine line =
      { (s.homeLine line).returned with mode := m, tpp := some (s.homeTime line) } := by
  unfold State.recall
  simp only [ho, if_neg hn]
  split <;> split
  all_goals exact ⟨_, (State.homeLine_setLine _ _ _ _).trans (if_pos rfl)⟩

/-! ## Acknowledgements at the warp -/

/-- R311: a GWCT of a scope joins a warp's values. -/
def Warp.joinGwct (w : Warp) (scope : MemScope) (t : Nat) : Warp :=
  { w with
    gwBlk := if scope = .blk then later w.gwBlk t else w.gwBlk
    gwDev := if scope = .sys then w.gwDev else later w.gwDev t
    gwSys := later w.gwSys t }

theorem warp_storeAck {a : StoreAck} {s : State} (h : (Tab.find s.warps a.warp).isSome = true) :
    (storeAck a s).warp a.warp =
      { (s.warp a.warp).joinGwct a.scope a.gwct with stores := (s.warp a.warp).stores.filter fun p => p.id != a.id } := by
  have h1 := (State.warp_setWarp s a.warp a.warp fun w => w.joinGwct a.scope a.gwct).trans (if_pos ⟨rfl, h⟩)
  have hs := (State.isSome_setWarp s a.warp a.warp fun w => w.joinGwct a.scope a.gwct).trans h
  have h2 := (State.warp_setWarp (s.setWarp a.warp fun w => w.joinGwct a.scope a.gwct) a.warp a.warp fun w =>
    { w with stores := w.stores.filter fun p => p.id != a.id }).trans (if_pos ⟨rfl, hs⟩)
  rw [h1] at h2
  exact h2

/-- Settles O43: the collapse's end, the copy's, the owner's and the acknowledgement's effect, each by what its step does to the
line or the warp. -/
theorem collapsesEnd : Obligations.CollapsesEnd := by
  refine ⟨fun die line s => ?_, fun die line s hc => ⟨fun hz => ?_, fun hz => ?_⟩, fun line s hc => ⟨fun hd => ?_, fun hd => ?_⟩,
    fun die line s hc he => ?_, fun line o byDie s ho hn => ?_, fun a s h => ?_⟩
  · exact ⟨_, rfl, rfl, fun c hc => ((s.mem_dropCopy die line c).mp hc).2, rfl⟩
  · exact ⟨_, rfl, collapseAck_last hc hz⟩
  · have h := collapseAck_more hc hz
    refine ⟨_, congrArg Host.Outcome.next h, ?_, ?_, ?_, rfl⟩ <;> rw [State.homeLine_setLine, if_pos rfl]
    exact hc
  · exact ⟨_, congrArg Host.Outcome.next (leaseExpiry_due hc hd), State.endCollapse_ends s line _⟩
  · exact congrArg Host.Outcome.next (leaseExpiry_early hc hd)
  · exact ⟨_, congrArg Host.Outcome.next (copyExpiry_expired hc he), rfl, s.mem_dropCopy die line⟩
  · obtain ⟨m, h⟩ := State.homeLine_recall ho hn
    refine ⟨s.recall line byDie, rfl, ?_, ?_, ?_, ?_⟩ <;> rw [h] <;> rfl
  · have hw := warp_storeAck h
    refine ⟨_, rfl, ?_⟩
    intro w v
    have hv : v = { w.joinGwct a.scope a.gwct with stores := w.stores.filter fun p => p.id != a.id } := hw
    rw [hv]
    exact ⟨rfl, fun hn => if_neg hn, fun hs => if_pos hs, fun hs => if_pos hs, fun hn => if_neg hn,
      fun p hp => by simpa using (List.mem_filter.mp hp).2, rfl, rfl⟩

end Sys2Proof.Machine
end

section
/-! SUPPORT. Replication degrees (R110 to R112, R317, R318). -/

namespace Sys2Proof.Machine

set_option Elab.async false

/-! ## Keeper entries -/

/-- A keeper entry that counts for a region. -/
def Keeper.isOf (k : Keeper) (asid region : Nat) : Bool := k.asid == asid && k.region == region

theorem Keeper.isOf_iff (k : Keeper) (asid region : Nat) : k.isOf asid region = true ↔ k.asid = asid ∧ k.region = region := by
  simp [Keeper.isOf]

theorem State.keeperFor_there {s : State} {asid region : Nat} (h : ∃ k ∈ s.keepers, k.asid = asid ∧ k.region = region) :
    s.keeperFor asid region = some s.keepers := by
  obtain ⟨k, hk, hm⟩ := h
  exact if_pos (List.any_eq_true.mpr ⟨k, hk, (k.isOf_iff asid region).mpr hm⟩)

/-- The entry that a region gets. -/
def freshKeeper (s : State) (asid region : Nat) : Keeper := ⟨keeperDie asid region, asid, region, 0, false, 0, 0, 0, s.clock⟩

theorem State.keeperFor_fresh {s : State} {asid region : Nat} (h : ∀ k ∈ s.keepers, ¬(k.asid = asid ∧ k.region = region))
    (hl : (s.keepers.filter fun k => k.die == keeperDie asid region).length < Config.keeperEntries) :
    s.keeperFor asid region = some (s.keepers ++ [freshKeeper s asid region]) := by
  have hn : ¬ (s.keepers.any fun k => k.asid == asid && k.region == region) = true := fun ha => by
    obtain ⟨k, hk, hm⟩ := List.any_eq_true.mp ha
    exact h k hk ((k.isOf_iff asid region).mp hm)
  exact (if_neg hn).trans (if_pos hl)

/-- An entry chosen among some is one of them. -/
theorem oldest_mem (rest : List Keeper) (k0 : Keeper) :
    rest.foldl (fun a k => if k.last < a.last then k else a) k0 ∈ k0 :: rest := by
  induction rest generalizing k0 with
  | nil => exact List.mem_singleton.mpr rfl
  | cons k rest ih =>
    rw [List.foldl_cons]
    obtain h | h := List.mem_cons.mp (ih (if k.last < k0.last then k else k0))
    · rw [h]
      split <;> simp
    · exact List.mem_cons_of_mem _ (List.mem_cons_of_mem _ h)

/-- A region that has or gets an entry is among the entries. -/
theorem State.keeperFor_mem {s : State} {asid region : Nat} {ks : List Keeper} (h : s.keeperFor asid region = some ks) :
    ∃ k ∈ ks, k.asid = asid ∧ k.region = region := by
  unfold State.keeperFor at h
  dsimp only at h
  split at h
  · next ha =>
    cases h
    obtain ⟨k, hk, hm⟩ := List.any_eq_true.mp ha
    exact ⟨k, hk, (k.isOf_iff asid region).mp hm⟩
  · split at h
    · cases h
      exact ⟨freshKeeper s asid region, List.mem_append_right _ (List.mem_singleton.mpr rfl), rfl, rfl⟩
    · split at h
      · cases h
      · next k0 rest hf =>
        cases h
        have hv := oldest_mem rest k0
        rw [← hf] at hv
        exact ⟨freshKeeper s asid region, List.mem_map.mpr ⟨_, (List.mem_filter.mp hv).1, if_pos rfl⟩, rfl, rfl⟩

/-- A region's degree once its entry has been given one. -/
theorem State.degree_mapKeeper {s : State} {asid region deg : Nat} {f : Keeper → Keeper}
    (hf : ∀ k, (f k).deg = deg ∧ (f k).asid = k.asid ∧ (f k).region = k.region)
    (h : ∃ k ∈ s.keepers, k.asid = asid ∧ k.region = region) : (s.mapKeeper asid region f).degree asid region = deg := by
  obtain ⟨k0, hk0, hm0⟩ := h
  obtain ⟨k, hk⟩ : ∃ k, s.keepers.find? (·.isOf asid region) = some k :=
    Option.isSome_iff_exists.mp (List.find?_isSome.mpr ⟨k0, hk0, (k0.isOf_iff asid region).mpr hm0⟩)
  have hm := (k.isOf_iff asid region).mp (List.find?_some (p := fun k : Keeper => k.isOf asid region) hk)
  have hp : ((·.isOf asid region) ∘ fun k : Keeper => if k.asid = asid ∧ k.region = region then f k else k) =
      (·.isOf asid region) := by
    funext k
    obtain ⟨_, ha, hr⟩ := hf k
    simp only [Function.comp, Keeper.isOf]
    split
    · rw [ha, hr]
    · rfl
  have hfind : (s.mapKeeper asid region f).keepers.find? (·.isOf asid region) = some (f k) := by
    rw [State.mapKeeper, List.find?_map, hp, hk, Option.map_some, if_pos hm]
  unfold State.degree
  exact (congrArg (fun o : Option Keeper => match o with | some k => k.deg | none => 0) hfind).trans (hf k).1

theorem State.pinRegion_some {s : State} {asid region deg : Nat} {ks : List Keeper} (h : s.keeperFor asid region = some ks) :
    s.pinRegion asid region deg =
      (((({ s with keepers := ks }.mapKeeper asid region fun k => { k with pin := true, deg := deg }).countDegree
        asid region (s.degree asid region) deg).sendDegrees), true) := by
  unfold State.pinRegion
  rw [h]

theorem State.pinRegion_none {s : State} {asid region : Nat} (h : s.keeperFor asid region = none) (deg : Nat) :
    s.pinRegion asid region deg = (s, false) := by
  unfold State.pinRegion
  rw [h]

theorem State.keepers_countDegree (s : State) (asid region old new : Nat) :
    (s.countDegree asid region old new).keepers = s.keepers := by
  unfold State.countDegree
  split
  · rfl
  · split <;> rfl

theorem State.mem_countDegree (s : State) (asid region old new : Nat) : (s.countDegree asid region old new).mem = s.mem := by
  unfold State.countDegree
  split
  · rfl
  · split <;> rfl

/-- The keepers and the registers of the memory system after a pin. -/
theorem State.pinRegion_keepers {s : State} {asid region deg : Nat} {ks : List Keeper} (h : s.keeperFor asid region = some ks) :
    (s.pinRegion asid region deg).1.keepers =
      ks.map (fun k => if k.asid = asid ∧ k.region = region then { k with pin := true, deg := deg } else k) := by
  rw [State.pinRegion_some h]
  exact State.keepers_countDegree _ _ _ _ _

/-- A degree is that of the keepers' table. -/
theorem State.degree_of_keepers {s s' : State} (h : s'.keepers = s.keepers) (asid region : Nat) :
    s'.degree asid region = s.degree asid region := by
  unfold State.degree
  rw [h]

/-- A region pinned has the degree that it is pinned at. -/
theorem State.pinRegion_degree {s s1 : State} {asid region deg : Nat} (h : s.pinRegion asid region deg = (s1, true)) :
    s1.degree asid region = deg := by
  cases hk : s.keeperFor asid region with
  | none =>
    rw [State.pinRegion_none hk] at h
    cases h
  | some ks =>
    have hs : s1.keepers = ({ s with keepers := ks }.mapKeeper asid region fun k => { k with pin := true, deg := deg }).keepers := by
      have h1 := State.pinRegion_keepers (deg := deg) hk
      rw [h] at h1
      exact h1
    rw [State.degree_of_keepers hs]
    exact State.degree_mapKeeper (fun _ => ⟨rfl, rfl, rfl⟩) (State.keeperFor_mem hk)

theorem State.pinRegion_refused {s s1 : State} {asid region deg : Nat} (h : s.pinRegion asid region deg = (s1, false)) : s1 = s := by
  unfold State.pinRegion at h
  split at h <;> cases h
  rfl

/-! ## RDEG -/

section
variable {i : Instr} {s : State} {ts : List TRef} {n : BitVec 9} (h : s.RunsOnce ts i) (hd : i.form.x.dst = .uni n)
include h hd

theorem rdegOp_far (ha : 2 ^ 48 ≤ (s.leadOps i).a.toNat)
    (hl : i.form.x.sub = 1 → ((s.leadOps i).b.setWidth 32).toNat ≤ 7) :
    rdegOp i s = (s.writeNow (s.lead i).warp [(.uni (n.toNat % 32), if s.mem.frz then 256 ||| 64 else 64)]).retire ts i s.cur.next := by
  unfold rdegOp
  refine State.onceFor_done h ?_
  dsimp only
  rw [hd, if_neg fun hc => Nat.not_lt.mpr (hl hc.1) hc.2, if_pos ha]
  cases s.mem.frz <;> rfl

theorem rdegOp_reads (ha : (s.leadOps i).a.toNat < 2 ^ 48) (hs : i.form.x.sub = 0) :
    rdegOp i s = (s.writeNow (s.lead i).warp [(.uni (n.toNat % 32),
      s.rdegStatus (s.warp (s.lead i).warp).asid (regionOf (s.leadOps i).a) 0)]).retire ts i s.cur.next := by
  unfold rdegOp
  refine State.onceFor_done h ?_
  dsimp only
  rw [hd, hs, if_neg (by simp), if_neg (Nat.not_le.mpr ha)]
  rfl

theorem rdegOp_pins (ha : (s.leadOps i).a.toNat < 2 ^ 48) (hs : i.form.x.sub = 1)
    (hl : ((s.leadOps i).b.setWidth 32).toNat ≤ 7) {s1 : State} {ok : Bool} {st : Nat} (hst : st = if ok then 0 else 1)
    (hp : s.pinRegion (s.warp (s.lead i).warp).asid (regionOf (s.leadOps i).a) ((s.leadOps i).b.setWidth 32).toNat = (s1, ok)) :
    rdegOp i s = (s1.writeNow (s.lead i).warp [(.uni (n.toNat % 32),
      s1.rdegStatus (s.warp (s.lead i).warp).asid (regionOf (s.leadOps i).a) st)]).retire ts i s.cur.next := by
  unfold rdegOp
  refine State.onceFor_done h ?_
  dsimp only
  rw [hd, hs, if_neg fun hc => Nat.not_lt.mpr hl hc.2, if_neg (Nat.not_le.mpr ha)]
  dsimp only [show (1 : BitVec 6).toNat = 1 from rfl]
  rw [hp, hst]
  cases ok <;> rfl

theorem rdegOp_unpins (ha : (s.leadOps i).a.toNat < 2 ^ 48) (hs : i.form.x.sub = 2) :
    rdegOp i s = ((s.unpinRegion (s.warp (s.lead i).warp).asid (regionOf (s.leadOps i).a)).writeNow (s.lead i).warp
      [(.uni (n.toNat % 32), (s.unpinRegion (s.warp (s.lead i).warp).asid (regionOf (s.leadOps i).a)).rdegStatus
        (s.warp (s.lead i).warp).asid (regionOf (s.leadOps i).a) 0)]).retire ts i s.cur.next := by
  unfold rdegOp
  refine State.onceFor_done h ?_
  dsimp only
  rw [hd, hs, if_neg (by simp), if_neg (Nat.not_le.mpr ha)]
  rfl

end

theorem rdegOp_illegal {i : Instr} {s : State} {ts : List TRef} (h : s.RunsOnce ts i) (hs : i.form.x.sub = 1)
    (hl : 7 < ((s.leadOps i).b.setWidth 32).toNat) :
    rdegOp i s = (s.raiseAll ts s.illegal (i.form.g.scope == .set)).finish i.form.opc [] := by
  unfold rdegOp
  refine State.onceFor_fault h ?_
  dsimp only
  rw [if_pos ⟨hs, hl⟩]

theorem degreeInstruction : Claim.DegreeInstruction := by
  intro g x s ts n i h hd ld asid va region deg answer
  refine ⟨fun ha hl => congrArg Host.Outcome.next (rdegOp_far h hd ha hl),
    fun ha hs => congrArg Host.Outcome.next (rdegOp_reads h hd ha hs), fun ha hs hl s1 hp => ⟨?_, State.pinRegion_degree hp⟩,
    fun ha hs hl s1 hp => ?_, fun hs hl => congrArg Host.Outcome.next (rdegOp_illegal h hs hl),
    fun ha hs => congrArg Host.Outcome.next (rdegOp_unpins h hd ha hs)⟩
  · exact congrArg Host.Outcome.next (rdegOp_pins h hd ha hs hl rfl hp)
  · have h1 := State.pinRegion_refused hp
    subst h1
    exact ⟨rfl, congrArg Host.Outcome.next (rdegOp_pins h hd ha hs hl rfl hp)⟩

/-! ## Counts, the boundary, and DGPIN -/

theorem degreeCount_keepers {s : State} {asid region : Nat} {ks : List Keeper} (h : s.keeperFor asid region = some ks)
    (rr wr coll : Nat) : (degreeCount asid region rr wr coll s).keepers = ks.map fun k =>
      if k.asid = asid ∧ k.region = region then
        { k with rr := k.rr + rr, wr := k.wr + wr, coll := k.coll + coll, last := s.clock } else k := by
  unfold degreeCount
  rw [h]
  rfl

/-- The slices that have asked for a region's degree are answered. -/
theorem degreeCount_answers (s : State) (asid region rr wr coll : Nat) :
    ∀ e ∈ (degreeCount asid region rr wr coll s).degCache, e.asid = asid → e.region = region →
      e.deg = some ((degreeCount asid region rr wr coll s).degree asid region) := by
  have hans (u : State) : ∀ e ∈ (u.answerDegree asid region).degCache, e.asid = asid → e.region = region →
      e.deg = some ((u.answerDegree asid region).degree asid region) := by
    intro e he ha hr
    obtain ⟨e0, _, rfl⟩ := List.mem_map.mp he
    by_cases hm : e0.asid = asid ∧ e0.region = region
    · rw [if_pos hm]
      rfl
    · rw [if_neg hm] at ha hr
      exact absurd ⟨ha, hr⟩ hm
  unfold degreeCount
  split <;> exact hans _

theorem map_others {ks : List Keeper} {asid region : Nat} (h : ∀ k ∈ ks, ¬(k.asid = asid ∧ k.region = region)) (f : Keeper → Keeper) :
    (ks.map fun k => if k.asid = asid ∧ k.region = region then f k else k) = ks :=
  (List.map_congr_left fun k hk => if_neg (h k hk)).trans (List.map_id' ks)

theorem map_fresh {s : State} {asid region : Nat} (h : ∀ k ∈ s.keepers, ¬(k.asid = asid ∧ k.region = region)) (f : Keeper → Keeper) :
    ((s.keepers ++ [freshKeeper s asid region]).map fun k => if k.asid = asid ∧ k.region = region then f k else k) =
      s.keepers ++ [f (freshKeeper s asid region)] := by
  rw [List.map_append, map_others h]
  exact congrArg (s.keepers ++ ·) (congrArg (fun k => [k]) (if_pos ⟨rfl, rfl⟩))

/-- An entry after the update at a boundary (R111). -/
def Keeper.atBoundary (frz : Bool) (k : Keeper) : Keeper := { k with deg := nextDegree frz k, rr := 0, wr := 0, coll := 0 }

theorem nextDegree_held {frz : Bool} {k : Keeper} (h : k.pin = true ∨ frz = true) : nextDegree frz k = k.deg :=
  if_pos (by simpa using h)

theorem nextDegree_moves {k : Keeper} (h : k.pin = false) :
    nextDegree false k = if 64 ≤ k.coll ∨ k.wr > k.rr then 0 else if 8 ≤ k.coll then k.deg - 1
      else if 64 ≤ k.rr ∧ 4 * k.wr ≤ k.rr then min 7 (k.deg + 1) else k.deg :=
  if_neg (by simp [h])

theorem dgpinApply_pins {value : DWord} {s : State} {ks : List Keeper} (hv : value.getLsbD 59 = true)
    (h : s.keeperFor (value.extractLsb' 47 12).toNat (value.extractLsb' 20 27).toNat = some ks) :
    (dgpinApply value s).mem.dgSts = 2 ∧ (dgpinApply value s).keepers = ks.map fun k =>
      if k.asid = (value.extractLsb' 47 12).toNat ∧ k.region = (value.extractLsb' 20 27).toNat then
        { k with pin := true, deg := (value.extractLsb' 60 3).toNat } else k := by
  unfold dgpinApply
  rw [if_pos hv]
  have hk := State.pinRegion_keepers (deg := (value.extractLsb' 60 3).toNat) h
  rw [State.pinRegion_some h] at hk ⊢
  exact ⟨rfl, hk⟩

theorem dgpinApply_refused {value : DWord} {s : State} (hv : value.getLsbD 59 = true)
    (h : s.keeperFor (value.extractLsb' 47 12).toNat (value.extractLsb' 20 27).toNat = none) :
    (dgpinApply value s).mem.dgSts = 3 ∧ (dgpinApply value s).keepers = s.keepers := by
  unfold dgpinApply
  rw [if_pos hv, State.pinRegion_none h]
  exact ⟨rfl, rfl⟩

theorem dgpinApply_unpins {value : DWord} {s : State} (hv : value.getLsbD 59 = false) :
    (dgpinApply value s).mem.dgSts = 2 ∧ (dgpinApply value s).keepers = s.keepers.map fun k =>
      if k.asid = (value.extractLsb' 47 12).toNat ∧ k.region = (value.extractLsb' 20 27).toNat then { k with pin := false } else k := by
  unfold dgpinApply
  rw [if_neg (Bool.eq_false_iff.mp hv)]
  exact ⟨rfl, rfl⟩

theorem degreesChange : Claim.DegreesChange := by
  refine ⟨fun asid region rr wr coll s h => ?_, fun asid region rr wr coll s h hl => ?_, fun s => ?_, fun value s => ?_⟩
  · exact ⟨_, rfl, degreeCount_keepers (State.keeperFor_there h) rr wr coll, degreeCount_answers s asid region rr wr coll⟩
  · refine ⟨_, rfl, (degreeCount_keepers (State.keeperFor_fresh h hl) rr wr coll).trans ((map_fresh h _).trans ?_)⟩
    simp [freshKeeper]
  · refine ⟨_, Keeper.atBoundary s.mem.frz, rfl, rfl, fun k => ⟨rfl, rfl, rfl, rfl, rfl, rfl, nextDegree_held, fun hp hf => ?_⟩⟩
    have hm : (k.atBoundary s.mem.frz).deg = _ := (congrArg (nextDegree · k) hf).trans (nextDegree_moves hp)
    rw [hm]
    refine ⟨fun h => if_pos h, fun h8 h64 hw => ?_, fun h8 h64 h4 => ?_, fun h8 hw h => ?_⟩
    · rw [if_neg (by omega), if_pos h8]
    · rw [if_neg (by omega), if_neg (by omega), if_pos ⟨h64, h4⟩]
    · rw [if_neg (by omega), if_neg (by omega), if_neg (by omega)]
  · intro asid region
    refine ⟨fun hv h => ⟨_, rfl, dgpinApply_pins hv (State.keeperFor_there h)⟩, fun hv h hl => ⟨_, rfl, ?_⟩,
      fun hv h => ⟨_, rfl, dgpinApply_refused hv h⟩, fun hv => ⟨_, rfl, dgpinApply_unpins hv⟩⟩
    obtain ⟨hs, hk⟩ := dgpinApply_pins hv (State.keeperFor_fresh h hl)
    exact ⟨hs, hk.trans (map_fresh h _)⟩

/-- Settles O45: RDEG and DGPIN through the keeper entry that a pin gives its degree, and the boundary by R111's table. -/
theorem degreesOfRegions : Obligations.DegreesOfRegions := ⟨degreeInstruction, degreesChange⟩

end Sys2Proof.Machine
end

section
/-! SUPPORT. The end of a rendezvous, of a stuck instance, of a stamped request's wait and of a waiting REGCLAIM (R205, R324, R328,
R375). -/

namespace Sys2Proof.Machine

set_option Elab.async false

/-! ## Rendezvous (R324) -/

theorem State.members_ready {s : State} {ms : List TRef}
    (hm : ∀ u ∈ ms, s.mayIssue u = true ∧ s.stopped u = false ∧ (s.thread u).wait = none)
    (hf : ∀ u ∈ ms, ∃ f', s.fetchOf u = .ok f' ∧ (s.warp u.warp).flagsSet f'.waits = true ∧ s.deferredAt u f'.waits = none ∧
      (s.guardHolds u f'.instr.form.g = true → s.emptyTrap u f'.instr.form = none ∧ s.full u f'.instr.form = true)) :
    (ms.all fun u => s.memberReady u && s.mayIssue u && !s.stopped u && (s.thread u).wait.isNone) = true := by
  rw [List.all_eq_true]
  intro u hu
  obtain ⟨hi, hs, hw⟩ := hm u hu
  obtain ⟨f, hfo, hfl, hd, hg⟩ := hf u hu
  have hr : s.memberReady u = true := by
    unfold State.memberReady
    rw [hfo]
    dsimp only
    rw [hfl, hd]
    cases hgu : s.guardHolds u f.instr.form.g with
    | false => rfl
    | true =>
      obtain ⟨he, hfu⟩ := hg hgu
      rw [he, hfu]
      rfl
  rw [hr, hi, hs, hw]
  rfl

section
variable {s : State} {warp lane : Nat} {a : Arrival} (ha : (s.thread ⟨warp, lane⟩).arrival = some a)
  (he : (s.thread ⟨warp, lane⟩).exited = false) (hw : (s.thread ⟨warp, lane⟩).wait = none) (hn : a.named = none)
include ha hn

theorem State.complete_ungathered (hg : s.gathered ⟨warp, lane⟩ a = false) : s.complete ⟨warp, lane⟩ = none := by
  unfold State.complete
  rw [ha]
  dsimp only
  rw [hn]
  dsimp only
  rw [hg]
  rfl

theorem State.complete_gathered (hg : s.gathered ⟨warp, lane⟩ a = true) (ht : ⟨warp, lane⟩ ∈ s.members a warp)
    (hr : ((s.members a warp).all fun u => s.memberReady u && s.mayIssue u && !s.stopped u && (s.thread u).wait.isNone) = true) :
    s.complete ⟨warp, lane⟩ = some (s.members a warp) := by
  have hne : (s.members a warp).isEmpty = false := by
    cases hm : s.members a warp with
    | nil => rw [hm] at ht; cases ht
    | cons _ _ => rfl
  unfold State.complete
  rw [ha]
  dsimp only
  rw [hn]
  dsimp only
  rw [hg, if_pos rfl, hne, hr]
  rfl

include he hw

theorem rendezvousComplete_ungathered (hg : s.gathered ⟨warp, lane⟩ a = false) :
    rendezvousComplete warp lane s = (s.judge ⟨warp, lane⟩).keep (.rendezvousComplete warp lane) := by
  unfold rendezvousComplete
  dsimp only
  rw [ha]
  dsimp only
  rw [he, hw, hn, State.complete_ungathered ha hn hg, hg]
  rfl

theorem rendezvousComplete_gathered {ms : List TRef} (hc : s.complete ⟨warp, lane⟩ = some ms) :
    rendezvousComplete warp lane s = s.issueRendezvous ⟨warp, lane⟩ ms (.rendezvousComplete warp lane) := by
  unfold rendezvousComplete
  dsimp only
  rw [ha]
  dsimp only
  rw [he, hw, hn, hc]
  rfl

end

theorem State.issueRendezvous_ok {s : State} {t : TRef} {ms : List TRef} {m : Msg} {f : Fetched} (hi : s.issue = none)
    (hp : s.partsFree ms = true) (hf : s.fetchOf t = .ok f) :
    s.issueRendezvous t ms m =
      { (s.useParts ms).waited (ms.map TRef.warp) f.waits with issue := some (f.issue (s.thread t).pos ms false) } := by
  unfold State.issueRendezvous
  rw [hi, hp, hf]
  rfl

/-! ## Stuck instances (R328) -/

/-- A thread that has taken a stuck instance's fault. -/
def Thread.Stuck (th : Thread) : Prop :=
  th.tcause = reportTcause (report clsScope 1 0) ∧ th.arrival = Option.none ∧ th.wait = Option.none

theorem State.raise_stuck (s : State) (t : TRef) :
    s.raise t (report clsScope 1 0) =
      (s.setThread t (Thread.faulted · (report clsScope 1 0))).fatal t.warp (report clsScope 1 0) (s.thread t).pos :=
  State.raise_unhandled (.inr (.inl rfl))

theorem State.holds_setWarp {s : State} {k : Nat} {f : Warp → Warp} (hf : ∀ w, (f w).threads.length = w.threads.length) {u : TRef}
    (h : s.Holds u) : (s.setWarp k f).Holds u := by
  obtain ⟨w, hw, hl⟩ := h
  by_cases hk : u.warp = k
  · exact ⟨f w, by simp [State.setWarp, ← hk, hw], (hf w).symm ▸ hl⟩
  · exact ⟨w, by simp [State.setWarp, Tab.find_upd, hk, hw], hl⟩

/-- A fatal fault stops its warp's threads and changes no other thread. -/
theorem State.thread_fatal_any {s : State} {k : Nat} {r : Report} {pos : DWord} {u : TRef} (h : s.Holds u) :
    (s.fatal k r pos).thread u = s.thread u ∨ (s.fatal k r pos).thread u = { s.thread u with dead := true } := by
  by_cases hk : u.warp = k
  · subst hk
    exact .inr (State.thread_fatal s u r pos h)
  · left
    unfold State.fatal
    simp only [State.thread, State.warp_send, State.warp_setWarp, hk, false_and, if_false]

theorem State.stuck_raise {s : State} {t u : TRef} (h : s.Holds u) (hs : u = t ∨ (s.thread u).Stuck) :
    ((s.raise t (report clsScope 1 0)).thread u).Stuck := by
  rw [State.raise_stuck]
  have h1 : ((s.setThread t (Thread.faulted · (report clsScope 1 0))).thread u).Stuck := by
    rw [State.thread_setThread]
    split
    · exact ⟨rfl, rfl, rfl⟩
    · next hn => exact hs.resolve_left fun e => hn ⟨e, e ▸ h⟩
  obtain hf | hf := State.thread_fatal_any (k := t.warp) (r := report clsScope 1 0) (pos := (s.thread t).pos)
    (State.setThread_holds (t := t) (f := (Thread.faulted · (report clsScope 1 0))) h) <;> rw [hf] <;> exact h1

/-- A fault raised leaves every thread where it is. -/
theorem State.holds_raise {s : State} {t u : TRef} (h : s.Holds u) : (s.raise t (report clsScope 1 0)).Holds u := by
  rw [State.raise_stuck]
  exact State.holds_setWarp (fun _ => List.length_map _) (State.setThread_holds h)

/-- Every thread in which a stuck instance's fault is raised has taken it. -/
theorem State.stuck_raises {u : TRef} (ts : List TRef) {s : State} (h : s.Holds u) (hu : u ∈ ts ∨ (s.thread u).Stuck) :
    ((ts.foldl (fun s t => s.raise t (report clsScope 1 0)) s).thread u).Stuck := by
  induction ts generalizing s with
  | nil => exact hu.resolve_left List.not_mem_nil
  | cons t ts ih =>
    refine ih (State.holds_raise h) ?_
    obtain hu | hs := hu
    · obtain rfl | hu := List.mem_cons.mp hu
      · exact .inr (State.stuck_raise h (.inl rfl))
      · exact .inl hu
    · exact .inr (State.stuck_raise h (.inr hs))

theorem State.live_holds {s : State} {ws : List Nat} {t : TRef} (h : t ∈ s.live ws) : s.Holds t := by
  obtain ⟨w, _, ht⟩ := List.mem_flatMap.mp h
  obtain ⟨l, hl, rfl⟩ := List.mem_map.mp (List.mem_filter.mp ht).1
  have hl' := List.mem_range.mp hl
  unfold State.warp at hl'
  cases hw : Tab.find s.warps w with
  | none =>
    rw [hw] at hl'
    exact absurd hl' (Nat.not_lt_zero l)
  | some wp =>
    rw [hw] at hl'
    exact ⟨wp, hw, hl'⟩

theorem stuckRendezvous_faults {s : State} {warp : Nat} {ws : List Nat} (h : s.stuckNarrow (s.warp warp).block = [ws]) :
    ∀ t ∈ s.live ws, ((stuckRendezvous warp s).thread t).Stuck := by
  intro t ht
  unfold stuckRendezvous
  dsimp only
  rw [h]
  exact State.stuck_raises _ (s := s.leaveBarriers (s.warp warp).block ws) (State.live_holds ht) (.inl ht)

/-! ## Stamped requests (R375) -/

/-- The threads of a waiting request that still wait for it. -/
def State.standing (s : State) (e : Nat × WaitRec) : List TRef := e.2.members.filter fun u => (s.thread u).wait == some e.1

theorem stampedRequestRelease_one {g : Nat} {s : State} {e : Nat × WaitRec} {t : TRef} {f : Fetched} (hg : s.stampedOf g = [e])
    (hi : s.issue = none) (ho : s.stampedOut g = false) (hs : (s.warp e.2.warp).suspended = none)
    (hv : ∀ v ∈ s.gridWarps g (s.warp e.2.warp).core, v = e.2.warp ∨ s.outOfWay v = true ∨ (s.warp e.2.warp).stampLt (s.warp v) = true)
    (hst : ∀ u ∈ s.standing e, s.stopped u = false) (hp : s.partsFree (s.standing e) = true)
    (ht : (s.standing e).head? = some t) (hf : (s.unpark e.1).fetchOf t = .ok f) :
    stampedRequestRelease g s =
      { ((s.unpark e.1).useParts (s.standing e)).waited ((s.standing e).map TRef.warp) f.waits with
        issue := some (f.issue ((s.unpark e.1).thread t).pos (s.standing e) true) } := by
  have hclear : ((s.gridWarps g (s.warp e.2.warp).core).all fun v =>
      v == e.2.warp || s.outOfWay v || (s.warp e.2.warp).stampLt (s.warp v)) = true := by
    rw [List.all_eq_true]
    intro v hm
    simpa [or_assoc] using hv v hm
  have hstop : ((s.standing e).any fun t => s.stopped t) = false := by
    rw [List.any_eq_false]
    intro u hu
    simp [hst u hu]
  obtain ⟨rest, hl⟩ : ∃ rest, s.standing e = t :: rest := by
    cases hl : s.standing e with
    | nil => rw [hl] at ht; cases ht
    | cons u rest => rw [hl] at ht; cases ht; exact ⟨rest, rfl⟩
  unfold State.standing at *
  unfold stampedRequestRelease
  simp only [hg, List.foldl_nil, List.filter_cons, List.filter_nil, beq_self_eq_true, Bool.true_or, if_true, List.flatMap_cons,
    List.flatMap_nil, List.append_nil, List.foldl_cons, hi, ho, hs, hclear, hstop, hp, Bool.not_true, Option.isSome_none, Bool.or_self,
    Bool.false_eq_true, if_false]
  rw [hl]
  dsimp only
  rw [hf]

/-! ## REGCLAIM (R205) -/

theorem State.kept_completeWait (s : State) (id k : Nat) : ((s.completeWait id).warp k).kept = (s.warp k).kept := by
  unfold State.completeWait
  split
  · rfl
  · next r _ =>
    exact State.kept_foldl (fun u (t : TRef) j => State.kept_setWarp u t.warp (fun w => w.setThread t.lane _) (fun _ => rfl) j)
      r.members { s with waits := Tab.del s.waits id } k

theorem State.waits_setThreads (f : Thread → Thread) (ts : List TRef) (s : State) :
    (ts.foldl (fun s t => s.setThread t f) s).waits = s.waits := by
  rw [State.WarpsOnly.foldl (f := fun (u : State) (t : TRef) => u.setThread t f) (fun _ _ => rfl) ts s]

theorem Tab.find_del {α : Type} (k : Nat) : (t : Tab α) → Tab.find (Tab.del t k) k = none
  | [] => rfl
  | (j, v) :: rest => by
    by_cases h : j = k
    · simpa [Tab.del, h] using find_del k rest
    · simpa [Tab.del, h, Tab.find, Ne.symm h] using find_del k rest

theorem State.wait_completeWait (s : State) (id : Nat) : Tab.find (s.completeWait id).waits id = none := by
  unfold State.completeWait
  split
  · assumption
  · rw [State.waits_setThreads]
    exact Tab.find_del id s.waits

theorem regclaimGrant_grants {wait n : Nat} {s : State} {r : WaitRec} (hr : Tab.find s.waits wait = some r) (hk : r.kind = .regclaim n)
    (hp : s.poolHas r.warp n = true) : regclaimGrant wait s = (s.grantRegs r.warp n).completeWait wait := by
  unfold regclaimGrant
  rw [hr]
  dsimp only
  rw [hk]
  exact if_pos hp

theorem regclaimGrant_waits {wait n : Nat} {s : State} {r : WaitRec} (hr : Tab.find s.waits wait = some r) (hk : r.kind = .regclaim n)
    (hp : s.poolHas r.warp n = false) : regclaimGrant wait s = s := by
  unfold regclaimGrant
  rw [hr]
  dsimp only
  rw [hk]
  exact if_neg (by rw [hp]; exact Bool.false_ne_true)

/-- Settles O48: a gathered rendezvous, a stuck instance, the least stamped request and a waiting REGCLAIM, each by what its step
does. -/
theorem rendezvousEnd : Obligations.RendezvousEnd := by
  refine ⟨fun warp lane s a => ?_, fun warp lane s ws => ?_, fun g s e t f => ?_, fun wait n s r hr hk hs => ⟨fun hp => ?_, fun hp => ?_⟩⟩
  · intro t ha he hw hn ms
    refine ⟨fun hg => congrArg Host.Outcome.next (rendezvousComplete_ungathered ha he hw hn hg), fun f hg ht hm hfs hi hp hf => ?_⟩
    exact congrArg Host.Outcome.next ((rendezvousComplete_gathered ha he hw hn
      (State.complete_gathered ha hn hg ht (State.members_ready hm hfs))).trans (State.issueRendezvous_ok hi hp hf))
  · intro b h
    exact ⟨_, rfl, stuckRendezvous_faults h⟩
  · intro w ts hg hi ho hs hv hst hp ht hf
    exact congrArg Host.Outcome.next (stampedRequestRelease_one hg hi ho hs hv hst hp ht hf)
  · refine ⟨_, congrArg Host.Outcome.next (regclaimGrant_grants hr hk hp), ?_⟩
    obtain ⟨w, hw⟩ := Option.isSome_iff_exists.mp hs
    obtain ⟨halloc, hregs, _, _, _⟩ := Warp.kept_files ((s.grantRegs r.warp n).kept_completeWait wait r.warp)
    rw [State.grantRegs_warp hw] at halloc hregs
    have hwarp : s.warp r.warp = w := by rw [State.warp, hw]; rfl
    refine ⟨halloc, State.wait_completeWait _ wait, fun l v hv hvn hl => ?_⟩
    rw [hregs]
    exact (w.claimRegs_new hl (hwarp ▸ hv) hvn).1
  · exact congrArg Host.Outcome.next (regclaimGrant_waits hr hk hp)

end Sys2Proof.Machine
end

section
/-! SUPPORT. A translation that covers four bytes: a word is fetched, the word after it is not (R26, R78). -/

namespace Sys2Proof.Machine

set_option Elab.async false

namespace CodeCase

/-- A translation of four bytes of address space 1 at their own place, executable or not. -/
def word (va : Nat) (x : Bool) : TlbEntry := ⟨1, va / 4, 2, 0, 0, va, true, false, x⟩

/-- `Slice0.coded`, whose core translates the header and the first of its clause's two instructions, and may not execute the second. -/
def torn : State :=
  Slice0.coded.setCore 0 fun c =>
    { c with tlb := [word 0x10000 true, word 0x10004 true, word 0x10008 true, word 0x1000C false] }

/-- The clause header of `Slice0.coded`. -/
def head : Header := Header.ofDWord 0x2E5A

/-- What a fetch of the clause's first slot asks for is there, and the fetch fails on the word behind it. -/
theorem torn_reads :
    torn.header 0 1 0x10000 = .ok head ∧ torn.slotAddr 0 1 0x10000 0 = .ok 0x10008 ∧
      torn.codeWord 0 1 0x10008 = .ok 0x18002B70 ∧ torn.codeWords 0 1 0x10008 1 = .ok [0x18002B70] ∧
      torn.fetchAt 0 1 0x10000 = .error (report clsLease 2 0x1000C) := by
  refine ⟨?_, ?_, ?_, ?_, ?_⟩ <;> decide +kernel

end CodeCase

open CodeCase in
/-- Refutes O4: the fetch of the first slot of `torn` reads the word after the slot as well, which is not executable. -/
theorem not_stepRunsDecoded : ¬ Obligations.StepRunsDecoded := by
  intro ⟨_, h, _⟩
  obtain ⟨hh, hs, hw, hws, hf⟩ := torn_reads
  obtain ⟨f, hf', _⟩ := h torn 0 1 0x10000 0x10008 head 0x18002B70 [0x18002B70] [] (.movi ⟨false, 7, .lane⟩ 3 0) hh (by decide)
    hs hw hws rfl (fun hc => absurd hc (by decide))
  cases hf.symm.trans hf'

end Sys2Proof.Machine
end

section
/-! SUPPORT. Worked encodings, and the reset columns of the register window (R36 to R46, R91, R114, R157, R352, R401, R410). -/

namespace Sys2Proof.Machine

set_option Elab.async false

theorem decodeWords_unassigned {w : Word} (h : shapeOf (First.ofWord w).opc = none) (rest : List Word) :
    decodeWords (w :: rest) = .error .unassignedOpcode := by
  unfold decodeWords
  dsimp only
  rw [h]

/-- Settles O2: the layouts of R35 hold whatever words follow. -/
theorem decodeWords_holds : Obligations.DecodeWords := by
  refine ⟨?_, ?_, ?_, ?_, ?_, ?_, ?_, ?_, ?_, ?_, fun _ h rest => decodeWords_unassigned h rest⟩ <;> exact fun _ => rfl

/-! ## The register window at reset -/

theorem Tab.find_const {α : Type} (x y : α) (k : Nat) :
    (l : List Nat) → Tab.find (l.map fun d => (d, x)) k = some y → y = x
  | [], h => by cases h
  | j :: l, h => by
    simp only [List.map_cons, Tab.find] at h
    split at h
    · exact (Option.some.inj h).symm
    · exact Tab.find_const x y k l h

theorem reset_die (d : Nat) : State.reset.die d = Die.reset := by
  unfold State.die
  cases h : Tab.find State.reset.dies d with
  | none => rfl
  | some e => exact Tab.find_const _ _ d _ h

theorem reset_port (p : Nat) : State.reset.port p = Port.reset := by
  unfold State.port
  cases h : Tab.find State.reset.hk.ports p with
  | none => rfl
  | some e => exact Tab.find_const _ _ p _ h

theorem readMemory_reset {o : Nat} (h0 : o ≠ 0) (h1 : o ≠ 0x10) (h2 : o ≠ 0x20) : State.reset.readMemory o = 0 := by
  unfold State.readMemory
  dsimp only
  split <;> simp_all <;> rfl

theorem readSlice_reset {o : Nat} (h0 : o ≠ 0) (h1 : o ≠ 0x18) (h2 : o ≠ 0x20) : State.reset.readSlice o = 0 := by
  unfold State.readSlice
  dsimp only
  split
  · rw [reset_die]
    rfl
  · split
    · rw [reset_die]
      rfl
    · split <;> simp_all <;> rfl

theorem readFrontEnd_reset {o : Nat} (h0 : o ≠ 0xC0) (h1 : o ≠ 0xC8) : State.reset.readFrontEnd o = 0 := by
  unfold State.readFrontEnd
  dsimp only
  split
  · rfl
  · split
    · rfl
    · split <;> simp_all <;> rfl

theorem readHouse_reset {o : Nat} (h0 : o ≠ 8) : State.reset.readHouse o = 0 := by
  unfold State.readHouse
  dsimp only
  split
  · rw [reset_port]
    rfl
  · split
    · rfl
    · split <;> simp_all <;> rfl

theorem readTimer_reset (o : Nat) : State.reset.readTimer o = if o < 0x240 ∧ o % 0x40 = 0x20 then 8 else 0 := by
  unfold State.readTimer
  dsimp only
  rw [reset_die]
  split
  · exact (if_neg (by omega)).symm
  · next h =>
    rw [Nat.not_le] at h
    split <;> simp_all <;> rfl

theorem readRegister_reset (n : Nat) : State.reset.readRegister n = match n / 2 ^ 16 with
    | 4 => State.reset.readMemory (n % 2 ^ 16)
    | 5 => State.reset.readSlice (n % 2 ^ 16)
    | 6 => State.reset.readFrontEnd (n % 2 ^ 16)
    | 7 => State.reset.readHouse (n % 2 ^ 16)
    | 8 => State.reset.readTimer (n % 2 ^ 16)
    | _ => 0 := rfl

theorem register_columns (n : Nat) : n ≠ 0x40020 → n ≠ 0x600C8 → State.reset.readRegister n = match n with
    | 0x40000 => BitVec.ofNat 64 (1 + 256 * 2 ^ 4)
    | 0x40010 => BitVec.ofNat 64 (16384 + 32768 * 2 ^ 32)
    | 0x50000 => 2000
    | 0x50018 => BitVec.ofNat 64 (2000 + 2000 * 2 ^ 16)
    | 0x50020 => 1000
    | 0x600C0 => BitVec.ofNat 64 (16000 * 2 ^ 16 + 2000 * 2 ^ 32 + 2 ^ 48)
    | 0x70008 => BitVec.ofNat 64 (1050 * 2 ^ 16)
    | _ => if 0x80000 ≤ n ∧ n < 0x80240 ∧ n % 0x40 = 0x20 then 8 else 0 := by
  intro h4 h6
  have e : n = 65536 * (n / 65536) + n % 65536 := (Nat.div_add_mod n 65536).symm
  split
  case h_8 c0 c1 c2 c3 c4 c5 c6 =>
    change n ≠ _ at c0 c1 c2 c3 c4 c5 c6
    rw [readRegister_reset, show (2 : Nat) ^ 16 = 65536 from rfl]
    generalize n % 65536 = o at e
    generalize hk : n / 65536 = k at e
    split
    · rw [if_neg (by omega)]
      exact readMemory_reset (by omega) (by omega) (by omega)
    · rw [if_neg (by omega)]
      exact readSlice_reset (by omega) (by omega) (by omega)
    · rw [if_neg (by omega)]
      exact readFrontEnd_reset (by omega) (by omega)
    · rw [if_neg (by omega)]
      exact readHouse_reset (by omega)
    · rw [readTimer_reset]
      exact if_congr (by omega) rfl rfl
    · next h8 =>
      change k ≠ 8 at h8
      rw [if_neg (by omega)]
  all_goals rfl

/-- Settles O1: each register's block answers with its reset column, and the lists are empty. -/
theorem resetState : Obligations.ResetState :=
  ⟨fun n h4 h6 => register_columns n h4 h6, State.reset_canonical, fun host _ => by cases host <;> rfl, rfl, rfl, rfl, rfl, rfl, rfl,
    rfl, rfl⟩

end Sys2Proof.Machine
end

section
/-! SUPPORT. RTINST and RTREM as they issue, and what their requests are refused for (R139, R144, R145). -/

namespace Sys2Proof.Machine

set_option Elab.async false

/-! ## The issue (R144) -/

/-- The request of an RTINST or RTREM. -/
def rtRequest (s : State) (i : Instr) (install : Bool) : RtReq :=
  let wp := s.warp (s.lead i).warp
  ⟨s.nextId, s.fe.nextSeq, install, wp.asid, s.genAt wp.core wp.asid, ((s.leadOps i).b.setWidth 32).toNat, (s.leadOps i).a, s.nextId + 1⟩

/-- The state in which the threads of an RTINST or RTREM have been put to wait. -/
def rtParked (s : State) (i : Instr) (ts : List TRef) : State :=
  (s.takeSeq.2.fresh).park (.routineReq s.nextId i.form.x.dst) (s.lead i).warp ts

theorem rtOp_waits {i : Instr} {s : State} {ts : List TRef} {install : Bool} (h : s.RunsOnce ts i)
    (hc : ∀ va ∈ s.rtChecks (s.lead i) install (s.leadOps i).a, ∃ s1, s.accessCheck (s.lead i) va 1 true false = .ok s1) :
    rtOp i install s = (({ rtParked s i ts with rtReqs := s.rtReqs ++ [rtRequest s i install] }.send
      (.rtinstExecution s.nextId)).finish i.form.opc ts) := by
  have hf : (s.rtChecks (s.lead i) install (s.leadOps i).a).findSome? (fun va =>
      match s.accessCheck (s.lead i) va 1 true false with
      | .error r => some r
      | .ok _ => none) = none := by
    rw [List.findSome?_eq_none_iff]
    intro va hva
    obtain ⟨s1, h1⟩ := hc va hva
    rw [h1]
  have hp : (rtParked s i ts).rtReqs = s.rtReqs := by
    rw [rtParked, State.park_frame]
    rfl
  unfold rtOp
  refine State.onceFor_held h ?_
  dsimp only
  split
  · next r hr => exact absurd (hr.symm.trans hf) (by simp)
  · rw [h.group]
    exact congrArg (fun l => Eff.held ({ rtParked s i ts with rtReqs := l ++ [rtRequest s i install] }.send (.rtinstExecution s.nextId))) hp

theorem routineRequests : Claim.RoutineRequests := by
  intro g x i install hi s ts h ld wp o hc
  have hx : exec i s = .next (rtOp i install s) ∧ i.form.x.dst = x.dst := by
    obtain ⟨rfl, rfl⟩ | ⟨rfl, rfl⟩ := hi
    · exact ⟨rfl, rfl⟩
    · exact ⟨rfl, rfl⟩
  refine ⟨_, hx.1, ?_⟩
  rw [rtOp_waits h hc, State.finish_frame, rtParked, State.park_frame, h.group.symm]
  rw [hx.2]
  exact ⟨rfl, rfl, rfl, Tab.find_put_self _ _ _⟩

/-! ## The refusals (R145) -/

section
variable {q : RtReq} {s : State} {version inst : Nat} (ht : (s.asid q.asid).rtab ≠ 0)
  (hv : s.feReadAs q.asid q.gen (s.asid q.asid).rtab 8 = some version)
  (hi : s.feReadAs q.asid q.gen ((s.asid q.asid).rtab + 8) 8 = some inst)
include ht hv hi

theorem rtCarryOut_number (hr : q.rid < 16 ∨ 63 < q.rid) : s.rtCarryOut q = (2, 0, version, s) := by
  unfold State.rtCarryOut
  dsimp only
  rw [if_neg ht, hv, hi]
  exact if_pos hr

variable (hr : ¬ (q.rid < 16 ∨ 63 < q.rid))
include hr

theorem rtCarryOut_entry (he : s.feBytesAs q.asid q.gen (rtEntryAddr (s.asid q.asid).rtab q.rid) 144 = none) :
    s.rtCarryOut q = (7, 0, version, s) := by
  unfold State.rtCarryOut
  dsimp only
  rw [if_neg ht, hv, hi]
  exact (if_neg hr).trans (if_pos he)

variable (he : ¬ s.feBytesAs q.asid q.gen (rtEntryAddr (s.asid q.asid).rtab q.rid) 144 = none)
include he

theorem rtCarryOut_image (hin : q.install = true) (hm : s.feBytesAs q.asid q.gen q.image (s.imageBytes q) = none) :
    s.rtCarryOut q = (7, 0, version, s) := by
  unfold State.rtCarryOut
  dsimp only
  rw [if_neg ht, hv, hi]
  dsimp only
  rw [if_neg hr, if_neg he, hin, if_pos rfl, hm]

theorem rtCarryOut_checks {img : List Byte} (hin : q.install = true)
    (hm : s.feBytesAs q.asid q.gen q.image (s.imageBytes q) = some img) :
    ((imageCheck img).1 ≠ 0 → s.rtCarryOut q = ((imageCheck img).1, (imageCheck img).2, version, s)) ∧
    ((imageCheck img).1 = 0 → (s.rtCarryOut q).1 = 0 ∧ (s.rtCarryOut q).2.2.1 = version + 1) := by
  unfold State.rtCarryOut
  dsimp only
  rw [if_neg ht, hv, hi]
  dsimp only
  rw [if_neg hr, if_neg he, hin, if_pos rfl, hm]
  dsimp only
  constructor
  · intro hb
    exact if_pos hb
  · intro hb
    rw [if_neg (fun hc => hc hb), if_neg (by simp)]
    exact ⟨rfl, rfl⟩

theorem rtCarryOut_removes (hin : q.install = false) :
    (inst.testBit q.rid = false → s.rtCarryOut q = (6, 0, version, s)) ∧
    (inst.testBit q.rid = true → (s.rtCarryOut q).1 = 0 ∧ (s.rtCarryOut q).2.2.1 = version + 1) := by
  unfold State.rtCarryOut
  dsimp only
  rw [if_neg ht, hv, hi]
  dsimp only
  rw [if_neg hr, if_neg he, hin, if_neg (by simp)]
  dsimp only
  rw [if_neg (by simp)]
  constructor
  · intro hb
    rw [if_pos (by simp [hb])]
  · intro hb
    rw [if_neg (by simp [hb])]
    exact ⟨rfl, rfl⟩

end

theorem rtCarryOut_unread {q : RtReq} {s : State} (ht : (s.asid q.asid).rtab ≠ 0)
    (hn : s.feReadAs q.asid q.gen (s.asid q.asid).rtab 8 = none ∨ s.feReadAs q.asid q.gen ((s.asid q.asid).rtab + 8) 8 = none) :
    (s.rtCarryOut q).1 = 7 ∧ (s.rtCarryOut q).2.2.2 = s := by
  unfold State.rtCarryOut
  dsimp only
  rw [if_neg ht]
  split
  · next h1 h2 =>
    obtain hn | hn := hn
    · cases h1.symm.trans hn
    · cases h2.symm.trans hn
  · exact ⟨rfl, rfl⟩

theorem routineRefusals : Claim.RoutineRefusals := by
  intro q s rtab entry
  refine ⟨fun h0 => ?_, rtCarryOut_unread, fun version inst ht hv hi => ⟨rtCarryOut_number ht hv hi, fun h16 h63 => ?_⟩⟩
  · unfold State.rtCarryOut
    dsimp only
    rw [if_pos h0]
    exact ⟨rfl, rfl⟩
  · have hr : ¬ (q.rid < 16 ∨ 63 < q.rid) := by omega
    refine ⟨rtCarryOut_entry ht hv hi hr, fun hs => ?_⟩
    have he : ¬ s.feBytesAs q.asid q.gen (rtEntryAddr (s.asid q.asid).rtab q.rid) 144 = none := fun hc => by
      rw [show s.feBytesAs q.asid q.gen entry 144 = none from hc] at hs
      cases hs
    exact ⟨rtCarryOut_image ht hv hi hr he, fun img hin hm => rtCarryOut_checks ht hv hi hr he hin hm,
      rtCarryOut_removes ht hv hi hr he⟩

/-- Settles O55: the request waits for the Scajo pair, and R145's refusals come in the order of `rtCarryOut`. -/
theorem routinesInstalled : Obligations.RoutinesInstalled :=
  ⟨routineRequests, routineRefusals⟩

end Sys2Proof.Machine
end

section
/-! SUPPORT. FE's own reads and writes of memory, and its monitors, leave the programs' part of the state as it is; host memory after
FE's writes (R95, R106, R146, R374). -/

namespace Sys2Proof.Machine

set_option Elab.async false

/-! ## FE's writes and monitors -/

@[simp] theorem State.prog_hold (s : State) (m : Msg) : (s.hold m).prog = s.prog := (rfl)

@[simp] theorem State.prog_feUpdate (s : State) (asid : Nat) (va : DWord) (n : Nat) (f : FeFun) :
    (s.feUpdate asid va n f).prog = s.prog := State.prog_feUpdateFor _ _ _ _ _ _ _

@[simp] theorem State.prog_feWrite (s : State) (asid : Nat) (va : DWord) (bs : List Byte) : (s.feWrite asid va bs).prog = s.prog :=
  State.prog_foldl (fun _ _ => State.prog_feUpdate _ _ _ _ _) _ _

@[simp] theorem State.prog_feReach (s : State) (asid : Nat) (write : Bool) (spans : List (Nat × Nat)) :
    (s.feReach asid write spans).1.prog = s.prog := State.prog_reachSpans _ _ _ _ _ _

theorem State.prog_enterHomeD (s : State) (l : Nat) : ((s.enterHome l).getD s).prog = s.prog := by
  cases h : s.enterHome l with
  | none => rfl
  | some u => exact State.prog_enterHome h

@[simp] theorem State.prog_fePut (s : State) (host : Bool) (pa : Nat) (bs : List Byte) : (s.fePut host pa bs).prog = s.prog := by
  unfold State.fePut
  split
  · exact State.prog_poke _ _ _ _
  · exact State.prog_foldl (fun _ _ => (State.prog_writeLine _ _ _ _ _).trans (State.prog_enterHomeD _ _)) _ _

@[simp] theorem State.prog_feLines (s : State) (host : Bool) (pa n : Nat) : (s.feLines host pa n).prog = s.prog := by
  unfold State.feLines
  split
  · rfl
  · exact State.prog_foldl (fun _ _ => (State.prog_reachHome _ _ _).trans (State.prog_enterHomeD _ _)) _ _

@[simp] theorem State.prog_decSignal (s : State) (asid : Nat) (va : DWord) (err : Bool) : (s.decSignal asid va err).prog = s.prog := by
  unfold State.decSignal
  split
  · rfl
  · exact State.prog_feUpdate _ _ _ _ _

@[simp] theorem State.prog_writeStatus (s : State) (qid : Nat) : (s.writeStatus qid).prog = s.prog := by
  unfold State.writeStatus
  split
  · rfl
  · exact State.prog_feWrite _ _ _ _

@[simp] theorem State.prog_withdraw (s : State) (key : MonKey) (w : Option Nat) : (s.withdraw key w).prog = s.prog := (rfl)

@[simp] theorem State.prog_bringHome (s : State) (l d : Nat) : (s.bringHome l d).prog = s.prog := by
  unfold State.bringHome
  dsimp only
  split
  · exact (State.prog_setLine _ _ _).trans (State.prog_recall _ _ _)
  · exact State.prog_recall _ _ _

@[simp] theorem State.prog_armKey (s : State) (key : MonKey) (agent : Nat) (w : Option Nat) : (s.armKey key agent w).2.prog = s.prog := by
  unfold State.armKey
  dsimp only
  split
  · rfl
  · split <;> rfl

@[simp] theorem State.prog_feWatch (s : State) (asid : Nat) (va : DWord) : (s.feWatch asid va).2.prog = s.prog := by
  have h := State.prog_feReach s asid false [(va.toNat, 8)]
  unfold State.feWatch
  split
  · dsimp only
    split
    · rfl
    · generalize s.feReach asid false [(va.toNat, 8)] = r at h
      obtain ⟨u, b⟩ := r
      cases b with
      | true => exact (State.prog_armKey _ _ _ _).trans ((State.prog_bringHome _ _ _).trans h)
      | false => exact h
  · rfl

@[simp] theorem State.prog_feUnwatch (s : State) (asid : Nat) (va : DWord) : (s.feUnwatch asid va).prog = s.prog := by
  unfold State.feUnwatch
  split
  · exact State.prog_foldl (fun _ _ => State.prog_withdraw _ _ _) _ _
  · rfl

/-! ## What of FE the programs' part of the state holds -/

theorem State.ev_of_prog {s s' : State} (h : s'.prog = s.prog) : s'.fe.ev = s.fe.ev := congrArg (fun p => p.fe.ev) h
theorem State.queues_of_prog {s s' : State} (h : s'.prog = s.prog) : s'.fe.queues = s.fe.queues := congrArg (fun p => p.fe.queues) h
theorem State.msixRaised_of_prog {s s' : State} (h : s'.prog = s.prog) : s'.fe.msixRaised = s.fe.msixRaised :=
  congrArg (fun p => p.fe.msixRaised) h
theorem State.asids_of_prog {s s' : State} (h : s'.prog = s.prog) : s'.asids = s.asids := congrArg Prog.asids h
theorem State.waits_of_prog {s s' : State} (h : s'.prog = s.prog) : s'.waits = s.waits := congrArg Prog.waits h
theorem State.hk_of_prog {s s' : State} (h : s'.prog = s.prog) : s'.hk = s.hk := congrArg Prog.hk h
theorem State.mreqs_of_prog {s s' : State} (h : s'.prog = s.prog) : s'.mreqs = s.mreqs := congrArg Prog.mreqs h
theorem State.bumps_of_prog {s s' : State} (h : s'.prog = s.prog) : s'.bumps = s.bumps := congrArg Prog.bumps h
theorem State.nextId_of_prog {s s' : State} (h : s'.prog = s.prog) : s'.nextId = s.nextId := congrArg Prog.nextId h
theorem State.rtReqs_of_prog {s s' : State} (h : s'.prog = s.prog) : s'.rtReqs = s.rtReqs := congrArg Prog.rtReqs h
theorem State.rtVers_of_prog {s s' : State} (h : s'.prog = s.prog) : s'.rtVers = s.rtVers := congrArg Prog.rtVers h
theorem State.asid_of_prog {s s' : State} (h : s'.prog = s.prog) (a : Nat) : s'.asid a = s.asid a := by
  unfold State.asid
  rw [State.asids_of_prog h]
theorem State.queue?_of_prog {s s' : State} (h : s'.prog = s.prog) (q : Nat) : s'.queue? q = s.queue? q := by
  unfold State.queue?
  rw [State.queues_of_prog h]

/-! ## Host memory -/

theorem State.poke_host (bs : List Byte) : (s : State) → (pa : Nat) →
    s.poke true pa bs = { s with hostMem := Memory.write s.hostMem pa bs } := by
  induction bs with
  | nil => exact fun _ _ => rfl
  | cons b rest ih => exact fun s pa => ih _ _

end Sys2Proof.Machine
end

section
/-! SUPPORT. The event ring: events written, held and counted (R352, R373). -/

namespace Sys2Proof.Machine

set_option Elab.async false

/-! ## The ring's writes -/

theorem State.prog_evWrite (s : State) (ofs : Nat) (bs : List Byte) : (s.evWrite ofs bs).prog = s.prog := by
  unfold State.evWrite
  dsimp only
  split
  · exact State.prog_poke _ _ _ _
  · exact State.prog_feWrite _ _ _ _

theorem State.prog_evReach (s : State) : s.evReach.1.prog = s.prog := by
  unfold State.evReach
  dsimp only
  split
  · rfl
  · exact State.prog_feReach _ _ _ _

theorem State.evReach_host {s : State} (h : s.fe.ev.host = true) : s.evReach = (s, true) := by
  unfold State.evReach
  exact if_pos h

theorem State.evWrite_host {s : State} (h : s.fe.ev.host = true) (ofs : Nat) (bs : List Byte) :
    s.evWrite ofs bs = { s with hostMem := Memory.write s.hostMem (s.fe.ev.base.toNat + ofs) bs } := by
  unfold State.evWrite
  dsimp only
  rw [if_pos h]
  exact State.poke_host _ _ _

theorem State.fe_evWrite (s : State) (ofs : Nat) (bs : List Byte) :
    (s.evWrite ofs bs).fe.ev = s.fe.ev ∧ (s.evWrite ofs bs).fe.msixRaised = s.fe.msixRaised :=
  ⟨State.ev_of_prog (State.prog_evWrite s ofs bs), State.msixRaised_of_prog (State.prog_evWrite s ofs bs)⟩

/-- The two writes of a record: its bytes, then WR. -/
def State.evBytes (s : State) (e : EventRec) : State :=
  (s.evWrite (128 + 32 * (s.fe.ev.wr.toNat % 2 ^ s.fe.ev.log2n)) (EventRec.bytes e)).evWrite 0 (leBytes 8 (s.fe.ev.wr + 1).toNat)

theorem State.evPut_eq (s : State) (e : EventRec) :
    s.evPut e = ((s.evBytes e).setEv fun v => { v with wr := v.wr + 1 }).raiseMsix s.fe.ev.msix := rfl

theorem State.prog_evBytes (s : State) (e : EventRec) : (s.evBytes e).prog = s.prog :=
  (State.prog_evWrite _ _ _).trans (State.prog_evWrite _ _ _)

theorem State.ev_evPut (s : State) (e : EventRec) : (s.evPut e).fe.ev = { s.fe.ev with wr := s.fe.ev.wr + 1 } :=
  congrArg (fun v : EventRing => { v with wr := v.wr + 1 }) (State.ev_of_prog (State.prog_evBytes s e))

theorem State.msixRaised_evPut (s : State) (e : EventRec) :
    (s.evPut e).fe.msixRaised = s.fe.msixRaised ++ [s.fe.ev.msix] := by
  have h : (s.evBytes e).fe.msixRaised = s.fe.msixRaised := State.msixRaised_of_prog (State.prog_evBytes s e)
  exact congrArg (· ++ [s.fe.ev.msix]) h

theorem State.rd_evPut (s : State) (e : EventRec) : (s.evPut e).fe.ev.rd = s.fe.ev.rd :=
  (congrArg EventRing.rd (State.ev_evPut s e)).trans rfl

theorem EventRec.bytes_length (e : EventRec) : (EventRec.bytes e).length = 32 := by
  simp only [EventRec.bytes, List.length_append, leBytes_length]

/-- A record in a ring in host memory: the write of WR below it leaves its bytes. -/
theorem State.evPut_bytes {s : State} (hh : s.fe.ev.host = true) (hc : s.hostMem.wf = true) (e : EventRec) {j : Nat} (hj : j < 32) :
    (s.evPut e).hostMem.byte (s.fe.ev.base.toNat + 128 + 32 * (s.fe.ev.wr.toNat % 2 ^ s.fe.ev.log2n) + j)
      = (EventRec.bytes e).getD j 0 := by
  have hm : (s.evPut e).hostMem = (s.evBytes e).hostMem := rfl
  generalize ho : 32 * (s.fe.ev.wr.toNat % 2 ^ s.fe.ev.log2n) = o
  have hb : (s.evBytes e).hostMem = Memory.write (Memory.write s.hostMem (s.fe.ev.base.toNat + (128 + o)) (EventRec.bytes e))
      (s.fe.ev.base.toNat + 0) (leBytes 8 (s.fe.ev.wr + 1).toNat) := by
    have hw := State.evWrite_host hh (128 + o) (EventRec.bytes e)
    have hf : (s.evWrite (128 + o) (EventRec.bytes e)).fe.ev.host = true := by
      rw [(State.fe_evWrite s _ _).1]
      exact hh
    rw [State.evBytes, ho, State.evWrite_host hf, hw]
  rw [hm, hb, Memory.byte_write (Memory.wf_write hc _ _), if_neg (by rw [leBytes_length]; omega), Memory.byte_write hc,
    if_pos (by rw [EventRec.bytes_length]; omega)]
  congr 1
  omega

/-! ## A full ring -/

theorem State.evHold_stale {s : State} {e : EventRec} (h2 : e.type = 2) :
    s.evHold e = if s.fe.ev.stale.length < 512 then s.setEv fun v => { v with stale := v.stale ++ [e] }
      else s.setEv fun v => { v with drop := v.drop + 1 } := by
  unfold State.evHold
  rw [if_neg (by omega), if_neg (by omega)]

theorem State.evHold_loss {s : State} {e : EventRec} (h3 : e.type = 3)
    (hn : ∀ r ∈ s.fe.ev.losses, r.d1.toNat % 4096 ≠ e.d1.toNat % 4096) (hl : s.fe.ev.losses.length < 64) :
    s.evHold e = s.setEv fun v => { v with losses := v.losses ++ [e] } := by
  unfold State.evHold
  rw [if_neg (by omega), if_pos h3]
  dsimp only
  rw [if_neg (by simpa using hn), if_pos hl]

/-- A queue that holds an error more. -/
def Queue.holding (q : Queue) (e : EventRec) : Queue :=
  { q with held := q.held ++ [⟨e.seq, e.d0, e.d1.toNat % 256, BitVec.ofNat 64 (e.d1.toNat / 256)⟩] }

theorem State.evHold_queue {s : State} {e : EventRec} {q : Queue} (h1 : e.type = 1) (hq : s.queue? e.qid = some q) :
    s.evHold e = ((s.setQueue e.qid fun q => q.holding e).setEv fun v => { v with ovf := v.ovf + 1 }).writeStatus e.qid := by
  unfold State.evHold
  rw [if_pos h1, hq]
  rfl

theorem eventRecordWrite_full {s : State} (h : s.fe.ev.room = false) (e : EventRec) : eventRecordWrite e s = s.evHold e := by
  unfold eventRecordWrite
  rw [h]
  rfl

theorem eventRecordWrite_reached {s s1 : State} (h : s.fe.ev.room = true) (hr : s.evReach = (s1, true)) (e : EventRec) :
    eventRecordWrite e s = s1.evPut e := by
  unfold eventRecordWrite
  rw [if_pos h, hr]

theorem eventRecordWrite_waits {s s1 : State} (h : s.fe.ev.room = true) (hr : s.evReach = (s1, false)) (e : EventRec) :
    eventRecordWrite e s = s1.hold (.eventRecordWrite e) := by
  unfold eventRecordWrite
  rw [if_pos h, hr]

/-! ## Space, and a ring set anew -/

theorem State.rd_evRelease (s : State) (e : EventRec) : (s.evRelease e).fe.ev.rd = s.fe.ev.rd := by
  unfold State.evRelease
  split
  · rfl
  · have h := congrArg EventRing.rd (State.ev_of_prog (State.prog_evReach s))
    split
    · next s1 hr =>
      rw [hr] at h
      refine Eq.trans ?_ h
      unfold State.evUnhold
      split
      · exact (congrArg EventRing.rd (State.ev_of_prog (State.prog_writeStatus _ _))).trans (State.rd_evPut s1 e)
      · exact State.rd_evPut s1 e
    · next s1 hr =>
      rw [hr] at h
      exact h

theorem State.rd_evDrain (s : State) : s.evDrain.fe.ev.rd = s.fe.ev.rd := by
  unfold State.evDrain
  generalize s.heldEvents = l
  induction l generalizing s with
  | nil => rfl
  | cons e l ih => exact (ih _).trans (State.rd_evRelease s e)

theorem State.evDrain_none {s : State} (h : s.heldEvents = []) : s.evDrain = s := by
  unfold State.evDrain
  rw [h]
  rfl

theorem State.heldEvents_eq {s s' : State} (hq : s'.fe.queues = s.fe.queues) (hl : s'.fe.ev.losses = s.fe.ev.losses)
    (hs : s'.fe.ev.stale = s.fe.ev.stale) : s'.heldEvents = s.heldEvents := by
  unfold State.heldEvents
  rw [hq, hl, hs]

/-- RD after a value is offered to it. -/
def State.spaced (s : State) (rd : DWord) : State := s.setEv fun v => { v with rd := if v.rd.toNat < rd.toNat then rd else v.rd }

theorem eventRingSpace_rd (rd : DWord) (s : State) :
    (eventRingSpace rd s).fe.ev.rd = if s.fe.ev.rd.toNat < rd.toNat then rd else s.fe.ev.rd := by
  have h : ((s.spaced rd).evDrain).fe.ev.rd = (s.spaced rd).fe.ev.rd := State.rd_evDrain _
  unfold eventRingSpace
  dsimp only
  split
  · exact h
  · exact h

theorem eventRingSpace_none {rd : DWord} {s : State} (h : s.heldEvents = []) : eventRingSpace rd s = s.spaced rd := by
  have h' : (s.spaced rd).heldEvents = [] := (State.heldEvents_eq rfl rfl rfl).trans h
  have hd : (s.spaced rd).evDrain = s.spaced rd := State.evDrain_none h'
  unfold eventRingSpace
  dsimp only
  change (if ((s.spaced rd).evDrain.fe.ev.room && !(s.spaced rd).evDrain.heldEvents.isEmpty) = true then _ else (s.spaced rd).evDrain) = _
  rw [hd, h', if_neg (by simp)]

/-- The ring's registers once EVBASE or EVCTL is written. -/
def ringSet (ctl : Bool) (value : DWord) (v : EventRing) : EventRing :=
  if ctl then { v with host := value.getLsbD 27, msix := (value.extractLsb' 16 11).toNat, log2n := (value.extractLsb' 0 5).toNat,
                       wr := 0, rd := 0 }
  else { v with base := value &&& ~~~127#64, wr := 0, rd := 0 }

theorem ringSet_held (ctl : Bool) (value : DWord) (v : EventRing) :
    (ringSet ctl value v).losses = v.losses ∧ (ringSet ctl value v).stale = v.stale := by
  cases ctl <;> exact ⟨rfl, rfl⟩

theorem eventRingRestart_ev {ctl : Bool} {value : DWord} {s : State} (h : s.heldEvents = []) :
    (eventRingRestart ctl value s).fe.ev = ringSet ctl value s.fe.ev := by
  have hp := State.prog_evWrite (s.setEv (ringSet ctl value)) 0 (leBytes 8 0)
  have he : ((s.setEv (ringSet ctl value)).evWrite 0 (leBytes 8 0)).fe.ev = ringSet ctl value s.fe.ev := State.ev_of_prog hp
  have hh : ((s.setEv (ringSet ctl value)).evWrite 0 (leBytes 8 0)).heldEvents = [] := by
    obtain ⟨hl, hs⟩ := ringSet_held ctl value s.fe.ev
    have hq : ((s.setEv (ringSet ctl value)).evWrite 0 (leBytes 8 0)).fe.queues = s.fe.queues :=
      (State.queues_of_prog hp).trans rfl
    exact (State.heldEvents_eq hq ((congrArg EventRing.losses he).trans hl)
      ((congrArg EventRing.stale he).trans hs)).trans h
  exact (congrArg (fun u : State => u.fe.ev) (State.evDrain_none hh)).trans he

/-- Settles O53: a record's two writes leave the ring's other registers, and a full ring holds or counts by type. -/
theorem eventsWritten : Obligations.EventsWritten := by
  refine ⟨fun e s => ?_, fun rd s => ⟨_, rfl, eventRingSpace_rd rd s, fun h => ?_⟩, fun ctl value s h => ⟨_, rfl, ?_⟩⟩
  · intro ev
    refine ⟨State.evReach_host, fun s1 hroom hr => ?_, fun s1 hroom hr => ?_, fun hroom h2 => ?_, fun hroom h3 hn hl => ?_,
      fun hroom h1 q hq => ?_⟩
    · have hp := State.prog_evReach s
      rw [hr] at hp
      have he : s1.fe.ev = s.fe.ev := State.ev_of_prog hp
      refine ⟨_, congrArg Host.Outcome.next (eventRecordWrite_reached hroom hr e), rfl, ?_, ?_, ?_, fun hh hc j hj => ?_⟩
      · rw [State.ev_evPut, he]
      · rw [State.rd_evPut, he]
      · rw [State.msixRaised_evPut, he, State.msixRaised_of_prog hp]
      · obtain rfl : s = s1 := congrArg Prod.fst ((State.evReach_host hh).symm.trans hr)
        exact State.evPut_bytes hh hc.2 e hj
    · exact congrArg Host.Outcome.next (eventRecordWrite_waits hroom hr e)
    · have hx := (eventRecordWrite_full hroom e).trans (State.evHold_stale h2)
      refine ⟨fun hl => ⟨_, congrArg Host.Outcome.next hx, ?_⟩, fun hl => ⟨_, congrArg Host.Outcome.next hx, ?_⟩⟩
      · rw [if_pos hl]
        exact ⟨rfl, rfl⟩
      · rw [if_neg (Nat.not_lt.mpr hl)]
        exact ⟨rfl, rfl⟩
    · exact ⟨_, congrArg Host.Outcome.next ((eventRecordWrite_full hroom e).trans (State.evHold_loss h3 hn hl)), rfl⟩
    · have hw := State.prog_writeStatus ((s.setQueue e.qid fun q => q.holding e).setEv fun v => { v with ovf := v.ovf + 1 }) e.qid
      refine ⟨_, q.holding e, congrArg Host.Outcome.next ((eventRecordWrite_full hroom e).trans (State.evHold_queue h1 hq)), ?_, ?_, ?_⟩
      · exact congrArg EventRing.ovf (State.ev_of_prog hw)
      · exact (State.queue?_of_prog hw _).trans ((Tab.find_upd_self _ _ _).trans (congrArg (Option.map _) hq))
      · exact ⟨_, rfl, rfl, rfl, rfl⟩
  · rw [eventRingSpace_none h]
    exact ⟨rfl, rfl⟩
  · rw [eventRingRestart_ev h]
    cases ctl with
    | true => exact ⟨rfl, rfl, fun _ => ⟨by simp [ringSet], rfl, rfl, rfl⟩, fun hc => absurd hc (by decide)⟩
    | false => exact ⟨rfl, rfl, fun hc => absurd hc (by decide), fun _ => ⟨rfl, rfl⟩⟩

end Sys2Proof.Machine
end

section
/-! SUPPORT. Attestation, flash, resets and the governor, and writes to the register window (R7, R410 to R416). -/

namespace Sys2Proof.Machine

set_option Elab.async false

/-! ## Attestation and flash (R413, R414) -/

theorem attestation_reports {s : State} (hr : s.hk.ready = true ∨ s.hk.recov = true)
    (hh : Config.hostReachable s.hk.atBuf.toNat = true) :
    attestation s = { s with
      hostMem := Memory.write s.hostMem (s.hk.atBuf.toNat + 64) (s.hk.report (leBytes 64 (s.peek true s.hk.atBuf.toNat 64)))
      hk := { s.hk with atSt := 2, atCode := 0 } } := by
  unfold attestation
  dsimp only
  rw [if_neg (by simpa [or_iff_not_imp_left] using hr), if_neg (by simp [hh]), State.poke_host]

theorem attestation_refuses {s : State} (hr : s.hk.ready = false) (hc : s.hk.recov = false) :
    attestation s = { s with hk := { s.hk with atSt := 3, atCode := 1 } } := by
  unfold attestation
  dsimp only
  rw [if_pos (by simp [hr, hc])]

/-- The slot that a container stages. -/
def stagedSlot (c : List Byte) : FlashSlot := ⟨field c 6 2, field c 8 4, field c 0x0C 4, (c.drop 0x40).take (field c 0x10 8), false, true⟩

/-- The container in FLBUF. -/
def State.container (s : State) : List Byte := leBytes s.hk.flLen (s.peek true s.hk.flBuf.toNat s.hk.flLen)

theorem flashStage_passes {s : State}
    (hc : s.containerCheck s.container = 0) :
    (flashStage s).hk.flSt = 2 ∧ (flashStage s).hk.flCode = 0 ∧ stagedSlot s.container ∈ (flashStage s).hk.slots := by
  unfold flashStage
  dsimp only
  change ((if s.containerCheck s.container ≠ 0 then _ else _ : State).hk.flSt = 2) ∧ ((if s.containerCheck s.container ≠ 0 then _ else _ : State).hk.flCode = 0) ∧ _ ∈ (if s.containerCheck s.container ≠ 0 then _ else _ : State).hk.slots
  rw [if_neg (fun h => h hc)]
  exact ⟨rfl, rfl, List.mem_append_right _ (List.mem_singleton.mpr rfl)⟩

theorem flashStage_fails {s : State}
    (hc : s.containerCheck s.container ≠ 0) : flashStage s = s.flashDone (s.containerCheck s.container) := by
  unfold flashStage
  exact if_pos hc

theorem flashActivate_none {s : State} (h : ∀ f ∈ s.hk.slots, f.staged = false) : flashActivate s = s.flashDone 4 := by
  have hf : s.hk.slots.find? FlashSlot.staged = none := List.find?_eq_none.mpr fun f hm => by simp [h f hm]
  unfold flashActivate
  rw [hf]

/-! ## What the links and timers may change -/

/-- Only the ports, the external reads and the die timers differ, and what is added to the messages. -/
def State.LinksOnly (s s' : State) : Prop :=
  ∃ ports xreads ms dies,
    s' = { s with hk := { s.hk with ports := ports }, fe := { s.fe with xreads := xreads }, net := s.net ++ ms, dies := dies }

theorem State.LinksOnly.refl (s : State) : s.LinksOnly s := by
  refine ⟨s.hk.ports, s.fe.xreads, [], s.dies, ?_⟩
  rw [List.append_nil]

theorem State.LinksOnly.trans {a b c : State} (h : a.LinksOnly b) (h' : b.LinksOnly c) : a.LinksOnly c := by
  obtain ⟨p, x, m, d, rfl⟩ := h
  obtain ⟨p', x', m', d', rfl⟩ := h'
  refine ⟨p', x', m ++ m', d', ?_⟩
  rw [← List.append_assoc]

theorem State.LinksOnly.foldl {β : Type} {f : State → β → State} (hf : ∀ (s : State) (x : β), s.LinksOnly (f s x)) :
    (l : List β) → (s : State) → s.LinksOnly (l.foldl f s)
  | [], s => .refl s
  | x :: rest, s => (hf s x).trans (foldl hf rest (f s x))

theorem State.linksOnly_send (s : State) (m : Msg) : s.LinksOnly (s.send m) := ⟨s.hk.ports, s.fe.xreads, [m], s.dies, rfl⟩

theorem State.linksOnly_setPort (s : State) (p : Nat) (f : Port → Port) : s.LinksOnly (s.setPort p f) := by
  refine ⟨Tab.put s.hk.ports p (f (s.port p)), s.fe.xreads, [], s.dies, ?_⟩
  rw [List.append_nil]
  rfl

theorem State.linksOnly_calibrate (s : State) (d : Nat) (c : Calibration) : s.LinksOnly (s.calibrate d c) :=
  ⟨s.hk.ports, s.fe.xreads, [.dieTimerCalibration d c], _, rfl⟩

/-- An external read as the loss of its port leaves it. -/
def Xread.cut (p : Nat) (x : Xread) : Xread := if x.kind = 2 ∧ x.target = p ∧ x.status = 0 then { x with status := 6 } else x

theorem State.linksOnly_endRemote (s : State) (p : Nat) : s.LinksOnly (s.endRemote p) := by
  unfold State.endRemote
  refine State.LinksOnly.trans ?_ (State.LinksOnly.foldl (fun _ _ => State.linksOnly_send _ _) _ _)
  refine ⟨s.hk.ports, s.fe.xreads.map (Xread.cut p), [], s.dies, ?_⟩
  rw [List.append_nil]
  rfl

theorem linksOnly_portDown (p : Nat) (s : State) : s.LinksOnly (portDown p s) := by
  unfold portDown
  split
  · exact .refl s
  · exact (State.linksOnly_setPort _ _ _).trans (State.linksOnly_endRemote _ _)

theorem linksOnly_portUp (p : Nat) (s : State) : s.LinksOnly (portUp p s) := by
  unfold portUp
  split
  · exact .refl s
  · exact State.linksOnly_setPort _ _ _

/-! ## Bring-up (R411, R415) -/

/-- R415, step 5: every shader die's timer calibrated. -/
def State.timed (s : State) : State := (List.range Config.shaderDies).foldl (fun s d => s.calibrate d ⟨0, 0, 8⟩) s

/-- R415, step 7: every port trained. -/
def State.trained (s : State) : State := (List.range 12).foldl (fun s p => portUp p (portDown p s)) s

theorem State.bringUp_eq (s : State) : s.bringUp = { s.timed.trained with
    hk := { s.timed.trained.hk with stage := 8, ready := true, cxl := Config.cxlCache } } := by
  simp only [State.bringUp, State.timed, State.trained]

theorem State.linksOnly_trained (s : State) : s.LinksOnly s.trained := by
  unfold State.trained
  exact State.LinksOnly.foldl (fun _ _ => (linksOnly_portDown _ _).trans (linksOnly_portUp _ _)) _ _

theorem State.linksOnly_timed (s : State) : s.LinksOnly s.timed := by
  unfold State.timed
  exact State.LinksOnly.foldl (fun _ _ => State.linksOnly_calibrate _ _ _) _ _

theorem State.linksOnly_linked (s : State) : s.LinksOnly s.timed.trained :=
  (State.linksOnly_timed s).trans (State.linksOnly_trained _)

theorem State.LinksOnly.mem_net {s s' : State} (h : s.LinksOnly s') {m : Msg} (hm : m ∈ s.net) : m ∈ s'.net := by
  obtain ⟨_, _, _, _, rfl⟩ := h
  exact List.mem_append_left _ hm

theorem State.calibrations_sent (c : Calibration) (l : List Nat) {d : Nat} (hd : d ∈ l) (s : State) :
    Msg.dieTimerCalibration d c ∈ (l.foldl (fun s d => s.calibrate d c) s).net := by
  induction l generalizing s with
  | nil => cases hd
  | cons e l ih =>
    obtain rfl | hd := List.mem_cons.mp hd
    · exact (State.LinksOnly.foldl (fun _ _ => State.linksOnly_calibrate _ _ _) l _).mem_net
        (List.mem_append_right _ (List.mem_singleton.mpr rfl))
    · exact ih hd _

theorem State.linked_calibrates (s : State) {d : Nat} (hd : d < Config.shaderDies) :
    Msg.dieTimerCalibration d ⟨0, 0, 8⟩ ∈ s.timed.trained.net :=
  (State.linksOnly_trained _).mem_net (State.calibrations_sent _ _ (List.mem_range.mpr hd) s)

/-- A bring-up ends with READY, and leaves the flash, the memories, the programs and the queues. -/
theorem State.bringUp_keeps (s : State) : s.bringUp.hk.recov = s.hk.recov ∧ s.bringUp.hk.ready = true ∧ s.bringUp.hk.stage = 8 ∧
    s.bringUp.hk.slots = s.hk.slots ∧ s.bringUp.hostMem = s.hostMem ∧ s.bringUp.hbm = s.hbm ∧ s.bringUp.warps = s.warps ∧
    s.bringUp.grids = s.grids ∧ s.bringUp.fe.queues = s.fe.queues ∧ s.bringUp.lines = s.lines := by
  obtain ⟨p, x, m, d, hl⟩ := State.linksOnly_linked s
  rw [State.bringUp_eq, hl]
  exact ⟨rfl, rfl, rfl, rfl, rfl, rfl, rfl, rfl, rfl, rfl⟩

theorem State.bringUp_calibrates (s : State) {d : Nat} (hd : d < Config.shaderDies) :
    Msg.dieTimerCalibration d ⟨0, 0, 8⟩ ∈ s.bringUp.net := by
  have h := State.linked_calibrates s hd
  rw [State.bringUp_eq]
  generalize s.timed.trained = u at h
  exact h

/-- What a cold reset starts from: the flash and host memory, the scheduling of the model, and nothing else. -/
def State.cold (s : State) : State :=
  { State.reset with
    net := [], agenda := s.agenda, turn := s.turn, freeCtr := s.freeCtr, nextId := s.nextId, hostMem := s.hostMem
    hk := { Housekeeping.reset with slots := s.hk.slots } }

theorem coldReset_recovers {s : State} (h : checkImages (images s.hk.slots) s.hk.slots = none) :
    coldReset s = { s.cold with hk := { s.cold.hk with recov := true } } := by
  unfold coldReset
  rw [h]
  rfl

theorem coldReset_brings {s : State} {slots slots' : List FlashSlot} (h : checkImages (images s.hk.slots) s.hk.slots = some slots)
    (h' : checkPair slots 2 0 = some slots') :
    coldReset s = (State.sized { s.cold with hk := { s.cold.hk with slots := slots' } }).bringUp := by
  unfold coldReset
  rw [h]
  dsimp only
  rw [h']
  exact congrArg State.bringUp rfl

theorem coldReset_up (s : State) (slots : List FlashSlot) : let s' := (State.sized { s.cold with hk := { s.cold.hk with slots := slots } }).bringUp
    s'.hk.recov = false ∧ s'.hk.ready = true ∧ s'.hk.stage = 8 ∧ s'.hk.slots = slots ∧ s'.hostMem = s.hostMem ∧ s'.hbm = [] ∧
      s'.warps = [] ∧ s'.grids = [] ∧ s'.fe.queues = [] ∧ s'.lines = [] ∧
      ∀ d, d < Config.shaderDies → Msg.dieTimerCalibration d ⟨0, 0, 8⟩ ∈ s'.net := by
  intro s'
  obtain ⟨h1, h2, h3, h4, h5, h6, h7, h8, h9, h10⟩ :=
    State.bringUp_keeps (State.sized { s.cold with hk := { s.cold.hk with slots := slots } })
  exact ⟨h1, h2, h3, h4, h5, h6, h7, h8, h9, h10, fun _ hd => State.bringUp_calibrates _ hd⟩

/-! ## The end of the grids (R415) -/

/-- Whether a report of a grid's end is on its way. -/
def endsGrid (m : Msg) (g : Nat) : Bool :=
  match m with
  | .fatalFault g' _ _ => g' == g
  | _ => false

theorem endsGrid_iff {m : Msg} {g : Nat} : endsGrid m g = true ↔ ∃ r pos, m = .fatalFault g r pos := by
  constructor
  · intro h
    cases m with
    | fatalFault g' r pos =>
      obtain rfl : g' = g := beq_iff_eq.mp h
      exact ⟨r, pos, rfl⟩
    | _ => cases h
  · rintro ⟨r, pos, rfl⟩
    exact beq_self_eq_true g

/-- A functional-level reset under way: no longer ready, a report sent for each grid that has none. -/
def State.ending (s : State) : State :=
  let s1 := { s with hk := { s.hk with ready := false, stage := 4 } }
  (s1.grids.filter fun e => e.2.fault.isNone && !(s1.net.any fun m => endsGrid m e.1)).foldl
    (fun (s : State) (e : Nat × Grid) => s.send (.fatalFault e.1 (report clsStaleGen 0 0) 0)) s1

theorem functionLevelReset_idle {s : State} (hr : s.hk.recov = false) (hg : s.grids = []) : functionLevelReset s = s.bringUp := by
  unfold functionLevelReset
  rw [if_neg (by simp [hr]), if_pos (by simp [hg])]

theorem functionLevelReset_ends {s : State} (hr : s.hk.recov = false) (hg : s.grids ≠ []) :
    functionLevelReset s = s.ending.hold .functionLevelReset := by
  unfold functionLevelReset
  rw [if_neg (by simp [hr]), if_neg (by simpa using hg)]
  rfl

theorem reports_sent (l : List (Nat × Grid)) {e : Nat × Grid} (he : e ∈ l) (s : State) :
    Msg.fatalFault e.1 (report clsStaleGen 0 0) 0 ∈
      (l.foldl (fun (s : State) (e : Nat × Grid) => s.send (.fatalFault e.1 (report clsStaleGen 0 0) 0)) s).net := by
  induction l generalizing s with
  | nil => cases he
  | cons x l ih =>
    obtain rfl | he := List.mem_cons.mp he
    · exact (State.LinksOnly.foldl (fun _ _ => State.linksOnly_send _ _) l _).mem_net
        (List.mem_append_right _ (List.mem_singleton.mpr rfl))
    · exact ih he _

theorem State.ending_reports (s : State) {e : Nat × Grid} (he : e ∈ s.grids) (hf : e.2.fault = none) :
    ∃ r pos, Msg.fatalFault e.1 r pos ∈ s.ending.net := by
  by_cases ha : s.net.any (fun m => endsGrid m e.1) = true
  · obtain ⟨m, hm, h⟩ := List.any_eq_true.mp ha
    obtain ⟨r, pos, rfl⟩ := endsGrid_iff.mp h
    exact ⟨r, pos, (State.LinksOnly.foldl (fun _ _ => State.linksOnly_send _ _) _ _).mem_net hm⟩
  · refine ⟨_, _, reports_sent _ (List.mem_filter.mpr ⟨he, ?_⟩) _⟩
    rw [hf, Bool.and_eq_true]
    exact ⟨rfl, by simpa using ha⟩

theorem State.ending_hk (s : State) : s.ending.hk.ready = false := by
  obtain ⟨_, _, _, _, h⟩ := State.LinksOnly.foldl (f := fun (s : State) (e : Nat × Grid) =>
    s.send (.fatalFault e.1 (report clsStaleGen 0 0) 0)) (fun _ _ => State.linksOnly_send _ _)
    (s.grids.filter fun e => e.2.fault.isNone && !(s.net.any fun m => endsGrid m e.1))
    { s with hk := { s.hk with ready := false, stage := 4 } }
  exact congrArg (fun u : State => u.hk.ready) h

/-! ## Housekeeping -/

theorem governor_sets {temp power : BitVec 16} {mhz : Nat} {cause : BitVec 3} {s : State} (h1 : 500 ≤ mhz) (h2 : mhz ≤ 1050)
    (h3 : mhz % 50 = 0) (h4 : cause.toNat ≤ 3) : governor temp power mhz cause s = { s with hk := { s.hk with
      temp := temp, power := power, cause := cause
      mhz := if decide (1050 < temp.toNat) || decide (min 2800 Config.powerLimit < power.toNat) then min mhz (max 500 (s.hk.mhz - 50))
        else mhz } } := by
  unfold governor
  dsimp only
  rw [if_neg]
  simp [clockOk, h1, h2, h3, h4]

theorem attestation_answers {s : State} (hr : s.hk.ready = true ∨ s.hk.recov = true)
    (hh : Config.hostReachable s.hk.atBuf.toNat = true) (hc : s.Canonical) :
    let a := s.hk.atBuf.toNat
    let report := s.hk.report (leBytes 64 (s.peek true a 64))
    ∃ s', exec .attestation s = .next s' ∧ s'.hk.atSt = 2 ∧ s'.hk.atCode = 0 ∧
      ∀ j, s'.hostMem.byte j = if a + 64 ≤ j ∧ j < a + 64 + report.length then report.getD (j - (a + 64)) 0 else s.hostMem.byte j := by
  intro a report
  refine ⟨_, congrArg Host.Outcome.next (attestation_reports hr hh), rfl, rfl, fun j => ?_⟩
  dsimp only
  have h := Memory.byte_write hc.2 (s.hk.atBuf.toNat + 64) report j
  exact h

theorem housekeepingSteps : Claim.HousekeepingSteps := by
  refine ⟨fun s => ⟨fun hr hh hc => attestation_answers hr hh hc, fun hr hc =>
    congrArg Host.Outcome.next (attestation_refuses hr hc)⟩, fun s => ⟨fun hc => ?_, fun hc => ?_⟩, fun s => ⟨fun h => ?_, fun f hf => ?_,
    ?_⟩, fun s => ⟨fun h => ?_, fun slots slots' h h' => ?_⟩, fun s hr => ⟨fun hg => ?_, fun hg => ?_⟩,
    fun temp power mhz cause s h1 h2 h3 h4 => ?_, fun die s hd => ?_⟩
  · obtain ⟨h1, h2, h3⟩ := flashStage_passes hc
    exact ⟨flashStage s, rfl, h1, h2, stagedSlot s.container, h3, rfl, rfl, rfl, rfl, rfl, rfl⟩
  · refine ⟨_, congrArg Host.Outcome.next (flashStage_fails hc), if_neg hc, rfl, rfl⟩
  · exact ⟨_, congrArg Host.Outcome.next (flashActivate_none h), rfl, rfl, rfl⟩
  · refine ⟨_, rfl, ?_⟩
    unfold flashActivate
    rw [hf]
    exact ⟨rfl, rfl⟩
  · refine ⟨_, rfl, rfl, fun f hf => ?_⟩
    obtain ⟨g, _, rfl⟩ := List.mem_map.mp hf
    rfl
  · exact ⟨_, congrArg Host.Outcome.next (coldReset_recovers h), rfl, rfl, rfl, rfl, rfl, rfl⟩
  · exact ⟨_, congrArg Host.Outcome.next (coldReset_brings h h'), coldReset_up s slots'⟩
  · obtain ⟨_, hup, hs, _⟩ := State.bringUp_keeps s
    exact ⟨s.bringUp, congrArg Host.Outcome.next (functionLevelReset_idle hr hg), hup, hs⟩
  · refine ⟨_, congrArg Host.Outcome.next (functionLevelReset_ends hr hg), s.ending_hk, List.mem_cons_self, fun e he hf => ?_⟩
    obtain ⟨r, pos, hm⟩ := s.ending_reports he hf
    exact ⟨r, pos, List.mem_cons_of_mem _ hm⟩
  · refine ⟨_, congrArg Host.Outcome.next (governor_sets h1 h2 h3 h4), rfl, rfl, rfl, fun hh => if_neg (by simpa using hh), fun hh => if_pos (by simpa using hh)⟩
  · exact congrArg Host.Outcome.next (if_pos hd)

/-! ## The register window (R7, R8, R411) -/

/-- A write that is aligned, and in recovery of the housekeeping block, reaches its block. -/
theorem registerWrite_block {offset : Nat} (v : DWord) {s : State} (h8 : offset % 8 = 0)
    (hr : s.hk.recov = true → offset / 2 ^ 16 = 7) :
    registerWrite offset v s = match offset / 2 ^ 16 with
      | 4 => s.writeMemory (offset % 2 ^ 16) v
      | 5 => s.writeSlice (offset % 2 ^ 16) v
      | 6 => s.writeFrontEnd (offset % 2 ^ 16) v
      | 7 => s.writeHouse (offset % 2 ^ 16) v
      | _ => s := by
  refine if_neg ?_
  rintro (h | ⟨h, hn⟩)
  · exact h h8
  · exact hn (hr h)

theorem registerWrite_house {o : Nat} (v : DWord) (s : State) (h8 : o % 8 = 0) (ho : o < 2 ^ 16) :
    registerWrite (0x70000 + o) v s = s.writeHouse o v := by
  have hd : (0x70000 + o) / 2 ^ 16 = 7 := by omega
  have hm : (0x70000 + o) % 2 ^ 16 = o := by omega
  rw [registerWrite_block v (by omega) (fun _ => hd), hd, hm]
  rfl

theorem bits_low (v : DWord) (n : Nat) : bits v 0 n = v.toNat % 2 ^ n := by
  unfold bits
  rw [Nat.pow_zero, Nat.div_one]

theorem writeMemory_limits (s : State) (v : DWord) : s.writeMemory 0x10 v =
    { s with mem := { s.mem with swLow := v.toNat % 2 ^ 24, swHigh := v.toNat / 2 ^ 32 % 2 ^ 24 } } := by
  rw [← bits_low]
  rfl

theorem writeSlice_lease (s : State) (v : DWord) : s.writeSlice 0x00 v =
    { s with mem := { s.mem with lease := v.toNat % 2 ^ 16, nocp := v.getLsbD 16 } } := by
  rw [← bits_low]
  rfl

theorem writeSlice_ticks (s : State) (v : DWord) : s.writeSlice 0x18 v =
    { s with mem := { s.mem with yldt := v.toNat % 2 ^ 16, poll := v.toNat / 2 ^ 16 % 2 ^ 16 } } := by
  rw [← bits_low]
  rfl

theorem writeSlice_window (s : State) (v : DWord) : s.writeSlice 0x20 v =
    { s with mem := { s.mem with ppwin := v.toNat % 2 ^ 16, far := v.getLsbD 16 } } := by
  rw [← bits_low]
  rfl

theorem writeQcmd_create {v : DWord} {s : State} (hg : v.getLsbD 63 = true) (hr : s.hk.ready = true) (hq : s.fe.qstsSt ≠ 1)
    (hop : v.toNat / 2 ^ 56 % 2 ^ 3 = 1) :
    s.writeQcmd v = (State.qsts { s with fe := { s.fe with qcmdOp := 1, qcmdQid := v.toNat % 2 ^ 12 } } 0 1).send
      (.queueCreate (v.toNat % 2 ^ 12)) := by
  have hb : bits v 56 3 = 1 := hop
  unfold State.writeQcmd
  dsimp only
  rw [if_neg (by simp [hg, hr, hq]), hb, bits_low]
  rfl

theorem writeLkcmd_down {v : DWord} {s : State} (hg : v.getLsbD 63 = true) (hop : v.toNat / 2 ^ 4 % 2 ^ 4 = 2) :
    s.writeLkcmd v = State.send { s with hk := { s.hk with lkOp := 2, lkPort := v.toNat % 2 ^ 4 } } (.portDown (v.toNat % 2 ^ 4)) := by
  have hb : bits v 4 4 = 2 := hop
  unfold State.writeLkcmd
  dsimp only
  rw [if_neg (by simp [hg]), hb, bits_low]
  rfl

theorem writeHouse_export {e k : Nat} (he : e < 64) (hk : k < 4) (v : DWord) (s : State) :
    s.writeHouse (0x100 + 32 * e + 8 * k) v =
      { s with hk := { s.hk with kwexp := SMap.set 0 s.hk.kwexp (4 * e + k) (v &&& kwexpMask k) } } := by
  unfold State.writeHouse
  rw [if_pos (by omega), show (0x100 + 32 * e + 8 * k - 0x100) / 8 = 4 * e + k by omega,
    show (0x100 + 32 * e + 8 * k - 0x100) % 32 / 8 = k by omega]

theorem writeHouse_attest {v : DWord} {s : State} (hg : v.getLsbD 63 = true) (ha : s.hk.atSt ≠ 1) :
    s.writeHouse 0x18 v = State.send { s with hk := { s.hk with atSt := 1, atCode := 0 } } .attestation := by
  have h : (v.getLsbD 63 && s.hk.atSt != 1) = true := by simp [hg, ha]
  exact (rfl : s.writeHouse 0x18 v = if (v.getLsbD 63 && s.hk.atSt != 1) = true then _ else s).trans (if_pos h)

theorem registerWindow : Claim.RegisterWindow := by
  refine ⟨fun offset v s h => ?_, fun v s hr => ?_, fun v s => ⟨fun e k he hk hw => ?_, fun hg ha => ?_, ?_, ?_, fun hg hop => ?_⟩⟩
  · exact congrArg Host.Outcome.next (if_pos h)
  · have hx : ∀ offset, offset % 8 = 0 → execRegisterWrite offset v s = .next (match offset / 2 ^ 16 with
        | 4 => s.writeMemory (offset % 2 ^ 16) v
        | 5 => s.writeSlice (offset % 2 ^ 16) v
        | 6 => s.writeFrontEnd (offset % 2 ^ 16) v
        | 7 => s.writeHouse (offset % 2 ^ 16) v
        | _ => s) := fun offset h8 => congrArg Host.Outcome.next (registerWrite_block v h8 fun h => by simp [hr] at h)
    refine ⟨hx 0x40000 rfl, (hx 0x40010 rfl).trans (congrArg Host.Outcome.next (writeMemory_limits s v)), hx 0x40040 rfl,
      hx 0x40048 rfl, (hx 0x50000 rfl).trans (congrArg Host.Outcome.next (writeSlice_lease s v)),
      (hx 0x50018 rfl).trans (congrArg Host.Outcome.next (writeSlice_ticks s v)),
      (hx 0x50020 rfl).trans (congrArg Host.Outcome.next (writeSlice_window s v)), hx 0x60080 rfl, hx 0x60088 rfl, fun hg hy hq hop => ?_⟩
    exact ⟨_, (hx 0x60000 rfl).trans (congrArg Host.Outcome.next (writeQcmd_create hg hy hq hop)), rfl, rfl⟩
  · have hx : registerWrite (0x70100 + 32 * e + 8 * k) v s = s.writeHouse (0x100 + 32 * e + 8 * k) v := by
      rw [← registerWrite_house v s (o := 0x100 + 32 * e + 8 * k) (by omega) (by omega)]
      congr 1
      omega
    refine ⟨_, congrArg Host.Outcome.next (hx.trans (writeHouse_export he hk v s)), ?_, fun j hj => ?_⟩
    · exact (SMap.get_set_wf hw _ _ _).trans (if_pos rfl)
    · exact (SMap.get_set_wf hw _ _ _).trans (if_neg hj)
  · exact ⟨_, congrArg Host.Outcome.next ((registerWrite_house v s (o := 0x18) rfl (by decide)).trans (writeHouse_attest hg ha)), rfl, rfl⟩
  · exact congrArg Host.Outcome.next (registerWrite_house v s (o := 0x20) rfl (by decide))
  · exact congrArg Host.Outcome.next (registerWrite_house v s (o := 0x30) rfl (by decide))
  · exact ⟨_, congrArg Host.Outcome.next ((registerWrite_house v s (o := 0x10) rfl (by decide)).trans (writeLkcmd_down hg hop)), rfl⟩

/-- Settles O60: the housekeeping steps and the register window's blocks as the model's equations give them. -/
theorem deviceRegisters : Obligations.DeviceRegisters := ⟨housekeepingSteps, registerWindow⟩

end Sys2Proof.Machine
end

section
/-! SUPPORT. Copies and external reads as they issue (R166 to R175, R188, R189, R284). -/

namespace Sys2Proof.Machine

set_option Elab.async false

/-! ## The checks leave the warps (R77, R160, R161) -/

theorem State.TlbOnly.warps {s s' : State} (h : s.TlbOnly s') : s'.warps = s.warps := by rw [h.rest]

/-- A check that is passed. -/
theorem passed_of_ite {ε α : Type} {c : Prop} [Decidable c] {r : ε} {x : Except ε α} {y : α}
    (h : (if c then .error r else x) = .ok y) : x = .ok y := by
  by_cases hc : c
  · rw [if_pos hc] at h
    cases h
  · rwa [if_neg hc] at h

theorem State.warps_copyPages {s s1 : State} {o : CopyOp} {h : Nat} (hp : s.copyPages o h = .ok s1) : s1.warps = s.warps := by
  unfold State.copyPages at hp
  refine foldl_except_keeps State.warps (fun _ _ => rfl) (fun u va u' hu => ?_) _ (passed_of_ite hp)
  dsimp only at hu
  split at hu <;> cases hu
  exact (State.tlbOnly_xlate _ _ _ _).warps

theorem State.warps_catalogueEntry {s s1 : State} {w slot : Nat} {bs : List Byte} (h : s.catalogueEntry w slot = .ok (bs, s1)) :
    s1.warps = s.warps := by
  unfold State.catalogueEntry at h
  split at h
  · cases h
    rfl
  · have ht := State.tlbOnly_xlate s (s.warp w).core (s.warp w).asid ((s.asid (s.warp w).asid).tcat + BitVec.ofNat 64 (64 * slot))
    dsimp only at h
    split at h
    · cases h
    · split at h
      · cases h
      · cases h
        exact ht.warps

theorem State.warps_resolve {s s1 : State} {w h : Nat} {write : Bool} {bs : List Byte} (hr : s.resolve w h write = .ok (bs, s1)) :
    s1.warps = s.warps := by
  unfold State.resolve at hr
  dsimp only at hr
  split at hr
  · cases hr
  split at hr
  · cases hr
  · next e =>
    split at hr
    · cases hr
    split at hr
    · cases hr
    split at hr
    · cases hr
    · cases hr
      exact State.warps_catalogueEntry e

/-- What the checks of a copy make of its operation: its tensor, tile and place, and no more. -/
structure CopyOp.Checked (o0 o : CopyOp) : Prop where
  id : o.id = o0.id
  warp : o.warp = o0.warp
  token : o.token = o0.token

theorem State.prepareCopy_checked {s s1 : State} {f : Form} {o0 o : CopyOp} {a : DWord} {lanes : List Int}
    (h : s.prepareCopy f o0 a lanes = .ok (o, s1)) : s1.warps = s.warps ∧ o0.Checked o := by
  unfold State.prepareCopy at h
  dsimp only at h
  split at h
  · cases h
  · next entry u hr =>
    have hu : u.warps = s.warps := by
      split at hr
      · exact State.warps_resolve hr
      · split at hr <;> cases hr
        rfl
    split at h
    · cases h
    · have h := passed_of_ite (passed_of_ite (passed_of_ite (passed_of_ite (passed_of_ite h))))
      split at h
      · cases h
      split at h
      · cases h
      · next hp =>
        cases h
        exact ⟨(State.warps_copyPages hp).trans hu, rfl, rfl, rfl⟩

theorem State.prog_catalogueReach (s : State) (w h : Nat) : (s.catalogueReach w h).1.prog = s.prog := by
  unfold State.catalogueReach
  dsimp only
  split
  · rfl
  · exact State.prog_reachSpans _ _ _ _ _ _

/-! ## Copies accepted (R170, R175, R375) -/

theorem copyIssue_accepts {i : Instr} {kind : Nat} {s s0 s1 : State} {ts : List TRef} {op : CopyOp} (h : s.RunsOnce ts i)
    (hr : (if (copyOp i.form kind (s.lead i) (s.leadOps i) s).named then
      s.catalogueReach (s.lead i).warp ((s.leadOps i).a.extractLsb' 0 32).toNat else (s, true)) = (s0, true))
    (hq : (copyOp i.form kind (s.lead i) (s.leadOps i) s).ring = true →
      s.qcwPending (s.lead i).warp ((s.leadOps i).a.extractLsb' 32 32).toNat = false)
    (hp : s0.prepareCopy i.form (copyOp i.form kind (s.lead i) (s.leadOps i) s) (s.leadOps i).a (ts.map fun t => match i.form.x.c with
      | .vec r _ => ((s.warp (s.lead i).warp).vreg t.lane r.toNat).toInt
      | _ => 0) = .ok (op, s1))
    (hroom : s1.copyRoom (s.lead i).warp (op.token.getD 0) = true)
    (hfull : (s.grid (s.warp (s.lead i).warp).grid).det = true → op.ring = true →
      ((s.block (s.warp (s.lead i).warp).block).qcw op.place op.ofs).room ≠ 0) :
    copyIssue i kind s = (s1.acceptCopy op (s.grid (s.warp (s.lead i).warp).grid).det).retire ts i s.cur.next := by
  unfold copyIssue
  refine State.onceFor_done h ?_
  dsimp only
  rw [hr]
  dsimp only
  rw [if_neg (by simpa using hq), h.group]
  split
  · next r hx => cases hx.symm.trans hp
  · next op' s1' hx =>
    cases hx.symm.trans hp
    rw [hroom, if_neg]
    simpa using hfull

section
variable {s : State} {o : CopyOp}

theorem State.net_acceptCopy : (s.acceptCopy o false).net =
    s.net ++ [if o.ring then .ringReserve (s.warp o.warp).core o.id else .copyPost (s.warp o.warp).core o.id] := by
  unfold State.acceptCopy
  cases o.ring <;> rfl

theorem State.copies_acceptCopy : o ∈ ((s.acceptCopy o false).core (s.warp o.warp).core).copies := by
  have hc : ∀ (u : State) (c : Nat), o ∈ ((u.setCore c fun c => { c with copies := c.copies ++ [o] }).core c).copies := by
    intro u c
    rw [State.core_setCore, if_pos rfl]
    exact List.mem_append_right _ (List.mem_singleton.mpr rfl)
  unfold State.acceptCopy
  cases o.ring <;> exact hc _ _

theorem State.warp_acceptCopy (m : Nat) : (s.acceptCopy o false).warp m = (s.takeToken o.warp (o.token.getD 0)).warp m := by
  unfold State.acceptCopy
  cases o.ring <;> rfl

theorem State.takeToken_clear {n : Nat} (hn : n < 12) {m : Nat} (h : (Tab.find s.warps m).isSome = true) :
    ((s.takeToken m n).warp m).cf.getLsbD n = false :=
  State.takeTokens_clear hn [m] s h (Or.inl (List.mem_singleton.mpr rfl))

end

/-- An instruction of warp scope acts for the warp of its first thread, which is there. -/
theorem State.RunsOnce.lead_isSome {s : State} {ts : List TRef} {i : Instr} (h : s.RunsOnce ts i)
    (hw : (opRule i.form.opc i.form.g i.form.x).scopes = [.warp]) : (Tab.find s.warps (s.lead i).warp).isSome = true := by
  obtain ⟨hg, hne, hp, _⟩ := h
  cases ts with
  | nil => exact absurd rfl hne
  | cons t ts =>
    have ht := hp t (List.mem_cons_self ..)
    have hok := scope_of_ok (Bool.and_eq_true_iff.mp ht.legal).1
    rw [hw] at hok
    have hsc : i.form.g.scope = .warp := by simpa using hok
    have hl : (s.lead i).warp = t.warp := by
      unfold State.lead
      rw [hg]
      dsimp only
      rw [hsc]
      rfl
    obtain ⟨w, hf, _⟩ := ht.holds
    rw [hl, hf]
    rfl

theorem exec_copy {g : Guard} {x : XForm} {i : Instr} {kind : Nat}
    (hi : (i = .xcopy g x ∧ kind = 0) ∨ (i = .xgather g x ∧ kind = 1) ∨ (i = .xscat g x ∧ kind = 1) ∨ (i = .xfill g x ∧ kind = 3)) :
    i.form.x = x ∧ (∀ s, exec i s = .next (copyIssue i kind s)) ∧ (opRule i.form.opc i.form.g i.form.x).scopes = [.warp] := by
  obtain ⟨rfl, rfl⟩ | ⟨rfl, rfl⟩ | ⟨rfl, rfl⟩ | ⟨rfl, rfl⟩ := hi
  · exact ⟨rfl, fun _ => rfl, rfl⟩
  · exact ⟨rfl, fun _ => rfl, rfl⟩
  · exact ⟨rfl, fun _ => rfl, rfl⟩
  · exact ⟨rfl, fun _ => rfl, rfl⟩

/-! ## XREAD and OPFENCE (R189, R284) -/

theorem State.xlatePages_tlb (core asid : Nat) (r w : Bool) : (l : List Nat) → {s s1 : State} →
    s.xlatePages core asid r w l = .ok s1 → s1 = { s with cores := s1.cores }
  | [], _, _, h => by cases h; rfl
  | va :: rest, s, s1, h => by
    have ht := State.tlbOnly_xlate s core asid (BitVec.ofNat 64 va)
    unfold State.xlatePages at h
    dsimp only at h
    split at h
    · cases h
    · have hr := xlatePages_tlb core asid r w rest h
      rw [hr, ht.rest]

/-- The external read of an XREAD that has passed its checks, as the state after them has it. -/
def xreadOf (s s1 : State) (i : Instr) : Xread :=
  let wp := s.warp (s.lead i).warp
  let wa := wp.ureg (srcUni i.form.x.a)
  { id := s1.nextId, warp := (s.lead i).warp, grid := wp.grid, core := wp.core, asid := wp.asid, gen := s1.genAt wp.core wp.asid
    ep := (wa.extractLsb' 0 32).toNat, len := (wa.extractLsb' 32 32).toNat, cw := wp.ureg (srcUni i.form.x.a + 1)
    ofs := (s.leadOps i).b, dst := (s.leadOps i).c
    kind := 0, target := 0, start := s1.now, status := 0, detail := 0, bytes := 0, cmds := [], outstanding := 0, gwct := 0, entry := [] }

/-- A state with an external read more, its step on its way. -/
def State.addXread (s : State) (x : Xread) : State :=
  State.send { s.fresh with
    fe := { s.fe with xreads := s.fe.xreads ++ [x] }, grids := Tab.upd s.grids x.grid fun g => { g with xreads := g.xreads + 1 } }
    (.xreadEngineStart x.id)

theorem low3_of_mod {v : DWord} (h : v.toNat % 8 = 0) : v.extractLsb' 0 3 = 0 := by
  refine BitVec.eq_of_toNat_eq ?_
  simpa using h

theorem xreadOp_accepted {i : Instr} {s s1 : State} {ts : List TRef} (h : s.RunsOnce ts i)
    (ha : ((s.warp (s.lead i).warp).ureg (srcUni i.form.x.a + 1)).toNat % 8 = 0)
    (hx : s.xlatePages (s.warp (s.lead i).warp).core (s.warp (s.lead i).warp).asid false true
      (touchedPages ((s.warp (s.lead i).warp).ureg (srcUni i.form.x.a + 1)).toNat 8 ++
        touchedPages (s.leadOps i).c.toNat (((s.warp (s.lead i).warp).ureg (srcUni i.form.x.a)).extractLsb' 32 32).toNat) = .ok s1)
    (hc : (s1.fe.xreads.filter fun y => y.core == (s.warp (s.lead i).warp).core).length < Config.xreadsPerCore)
    (hf : s1.fe.xreads.length < Config.xreadsAtFe) :
    xreadOp i s = (s1.addXread (xreadOf s s1 i)).retire ts i s.cur.next := by
  unfold xreadOp
  refine State.onceFor_done h ((if_neg (fun hn => hn (low3_of_mod ha))).trans ?_)
  rw [hx]
  exact if_neg (by omega)

theorem opfenceOp_done {i : Instr} {s : State} {ts : List TRef} (h : s.RunsOnce ts i) :
    opfenceOp i s = (s.mapRaces (s.warp (s.lead i).warp).block fun r =>
      if r.covered (s.warp (s.lead i).warp).core s.groupWarps then { r with fenced := (r.fenced ++ s.groupWarps).dedup } else r).retire
        ts i s.cur.next := by
  unfold opfenceOp
  exact State.onceFor_done h rfl

theorem copiesComplete : Claim.CopiesComplete := by
  refine ⟨fun g x i kind hi s s0 s1 ts op h => ?_, fun g x s s1 ts => ?_, fun g s ts h => congrArg Host.Outcome.next (opfenceOp_done h)⟩
  · obtain ⟨rfl, hx, hsc⟩ := exec_copy hi
    intro ld wp op0 a lanes det hr hq hp hroom hfull
    refine ⟨(hx s).trans (congrArg Host.Outcome.next (copyIssue_accepts h hr hq hp hroom hfull)), fun _ => ?_⟩
    obtain ⟨hw1, hid, hwarp, htok⟩ := State.prepareCopy_checked hp
    have hw0 : s0.warps = s.warps := by
      by_cases hn : op0.named = true
      · rw [if_pos hn] at hr
        exact State.warps_of_prog ((congrArg (fun p : State × Bool => p.1.prog) hr).symm.trans (State.prog_catalogueReach _ _ _))
      · rw [if_neg hn] at hr
        cases hr
        rfl
    have hws : s1.warps = s.warps := hw1.trans hw0
    have hwp : s1.warp op.warp = wp := by
      unfold State.warp
      rw [hws, hwarp]
      rfl
    refine ⟨?_, fun hs => ?_, ?_⟩
    · rw [← hwp]
      exact State.copies_acceptCopy
    · have hsome : (Tab.find s1.warps op.warp).isSome = true := by
        rw [hws, hwarp]
        exact h.lead_isSome hsc
      have htk : op.token.getD 0 = i.form.x.sub.toNat / 8 := by
        rw [htok]
        rfl
      have hc := State.takeToken_clear (s := s1) (n := i.form.x.sub.toNat / 8) (by omega) hsome
      have hwl : ld.warp = op.warp := hwarp.symm
      rw [State.warp_acceptCopy, htk, hwl]
      exact hc
    · rw [← hwp]
      exact State.net_acceptCopy
  · intro i h ld wp wa cw o ha hx hc hf
    have hs1 := State.xlatePages_tlb _ _ _ _ _ hx
    rw [← (halves wa).2] at hx
    refine ⟨_, xreadOf s s1 i, congrArg Host.Outcome.next (xreadOp_accepted h ha hx hc hf), ?_⟩
    rw [State.retire_frame]
    refine ⟨?_, ?_, ?_, ?_, ?_, rfl, rfl, rfl, rfl, ?_, rfl⟩
    · rw [hs1]
      rfl
    · rw [hs1]
      rfl
    · rw [hs1]
      rfl
    · exact (halves wa).1
    · exact (halves wa).2
    · rw [hs1]
      rfl

end Sys2Proof.Machine
end

section
/-! SUPPORT. The copy engine's steps (R170 to R180). -/

namespace Sys2Proof.Machine

set_option Elab.async false

/-! ## A copy in its core through the engine's writes (R106, R174) -/

/-- An operation but for how far its writes have come. -/
def CopyOp.settled (o : CopyOp) : CopyOp := { o with outstanding := 0, gwct := 0 }

theorem State.copies_of_prog {s s' : State} (h : s'.prog = s.prog) (c : Nat) :
    (s'.core c).copies.map CopyOp.settled = (s.core c).copies.map CopyOp.settled :=
  congrArg Core.copies (congrFun (congrArg Prog.core h) c)

theorem settled_find {l l' : List CopyOp} (h : l'.map CopyOp.settled = l.map CopyOp.settled) (id : Nat) :
    (l'.find? fun o => o.id == id).map CopyOp.settled = (l.find? fun o => o.id == id).map CopyOp.settled := by
  have hf : ∀ l : List CopyOp, (l.map CopyOp.settled).find? (fun o => o.id == id) =
      (l.find? fun o => o.id == id).map CopyOp.settled := fun l => List.find?_map ..
  rw [← hf, ← hf, h]

/-- The operations of a number that a core holds have started. -/
def State.Started (s : State) (core id : Nat) : Prop := ∀ o ∈ (s.core core).copies, o.id = id → o.started = true

theorem State.Started.of_copies {s s' : State} {core id : Nat} (h : s.Started core id)
    (hc : (s'.core core).copies.map CopyOp.settled = (s.core core).copies.map CopyOp.settled) : s'.Started core id := by
  intro o ho hid
  have hm : o.settled ∈ (s.core core).copies.map CopyOp.settled := hc ▸ List.mem_map_of_mem ho
  obtain ⟨p, hp, he⟩ := List.mem_map.mp hm
  have hpid := congrArg CopyOp.id he
  have hps := congrArg CopyOp.started he
  change p.id = o.id at hpid
  change p.started = o.started at hps
  exact hps ▸ h p hp (hpid.trans hid)

theorem State.Started.of_prog {s s' : State} {core id : Nat} (h : s.Started core id) (hp : s'.prog = s.prog) : s'.Started core id :=
  h.of_copies (State.copies_of_prog hp core)

theorem State.Started.foldl {core id : Nat} {β : Type} {f : State → β → State}
    (hf : ∀ s x, State.Started s core id → (f s x).Started core id) :
    (l : List β) → (s : State) → s.Started core id → (l.foldl f s).Started core id
  | [], _, h => h
  | x :: rest, s, h => foldl hf rest (f s x) (hf s x h)

theorem State.copies_setCopy (s : State) (core id : Nat) (f : CopyOp → CopyOp) (c : Nat) :
    ((s.setCopy core id f).core c).copies =
      if c = core then (s.core core).copies.map fun o => if o.id = id then f o else o else (s.core c).copies := by
  unfold State.setCopy
  rw [State.core_setCore]
  split
  · rfl
  · rfl

theorem State.Started.setCopy {s : State} {core id : Nat} (h : s.Started core id) (c k : Nat) {f : CopyOp → CopyOp}
    (hid : ∀ o, (f o).id = o.id) (hs : ∀ o, (f o).started = o.started) : (s.setCopy c k f).Started core id := by
  intro o ho ho'
  rw [State.copies_setCopy] at ho
  split at ho
  · next hc =>
    obtain ⟨p, hp, rfl⟩ := List.mem_map.mp ho
    subst hc
    by_cases hk : p.id = k
    · rw [if_pos hk, hid] at ho'
      rw [if_pos hk, hs]
      exact h p hp ho'
    · rw [if_neg hk] at ho' ⊢
      exact h p hp ho'
  · exact h o ho ho'

theorem State.started_setCopy (s : State) (core id : Nat) : (s.setCopy core id fun o => { o with started := true }).Started core id := by
  intro o ho hid
  rw [State.copies_setCopy, if_pos rfl] at ho
  obtain ⟨p, hp, rfl⟩ := List.mem_map.mp ho
  by_cases hk : p.id = id
  · rw [if_pos hk]
  · rw [if_neg hk] at hid
    exact absurd hid hk

theorem State.copies_l1Drop (s : State) (k : Nat) (host : Bool) (line c : Nat) :
    ((s.l1Drop k host line).core c).copies = (s.core c).copies := by
  unfold State.l1Drop
  rw [State.core_setCore]
  split
  · next h => rw [h]
  · rfl

theorem State.copies_engineDrop (s : State) (w : Waiter) (die : Nat) (host : Bool) (line c : Nat) :
    ((s.engineDrop w die host line).core c).copies = (s.core c).copies := by
  have h1 : ((match w with
      | .copy core _ | .drain core _ => s.l1Drop core host line
      | _ => s : State).core c).copies = (s.core c).copies := by
    cases w with
    | copy k _ => exact State.copies_l1Drop _ _ _ _ _
    | drain k _ => exact State.copies_l1Drop _ _ _ _ _
    | _ => rfl
  unfold State.engineDrop
  dsimp only
  split
  · exact h1
  · exact h1

theorem State.prog_engineStale (s : State) (asid gen va : Nat) (w : Waiter) : (s.engineStale asid gen va w).prog = s.prog := by
  unfold State.engineStale
  exact (State.prog_ackWrite _ _ _).trans (State.prog_staleWrite _ _ _ _)

theorem State.copies_enginePiece (s : State) (asid gen die : Nat) (w : Waiter) (va : Nat) (f : Nat → LineData → LineData)
    (bs : List Byte) (c : Nat) : ((s.enginePiece asid gen die w va f bs).1.core c).copies.map CopyOp.settled =
      (s.core c).copies.map CopyOp.settled := by
  unfold State.enginePiece
  split
  · exact State.copies_of_prog (State.prog_engineStale _ _ _ _ _) c
  · refine (State.copies_of_prog ((State.prog_ackWrite _ _ _).trans (State.prog_poke _ _ _ _)) c).trans ?_
    rw [State.copies_engineDrop]
  · next pa _ =>
    have hw : ∀ u : State, ((((u.engineDrop w die false (pa / 128)).countRegion asid (BitVec.ofNat 64 va) 0 1
        (u.leased (pa / 128)).toNat).writeLine (pa / 128) die (f (pa % 128)) w).core c).copies.map CopyOp.settled =
          (u.core c).copies.map CopyOp.settled := fun u => by
      refine (State.copies_of_prog ((State.prog_writeLine _ _ _ _ _).trans (State.prog_countRegion _ _ _ _ _ _)) c).trans ?_
      rw [State.copies_engineDrop]
    have hc := State.prog_frameCheck s asid gen pa true
    dsimp only
    split
    · exact State.copies_of_prog (State.prog_engineStale _ _ _ _ _) c
    · next e => exact (hw _).trans (State.copies_of_prog (Check.all_serve hc e) c)
    · next e => exact (hw _).trans (State.copies_of_prog (Check.all_wait hc e) c)

theorem State.Started.copyFault {s : State} {core id : Nat} (h : s.Started core id) (c : Nat) (o : CopyOp) (e : MoveFault) :
    (s.copyFault c o e).Started core id := h.setCopy c o.id (fun _ => rfl) (fun _ => rfl)

theorem State.Started.copyStore {s : State} {core id : Nat} (h : s.Started core id) (c : Nat) (o : CopyOp) (ws : List (Nat × List Byte)) :
    (s.copyStore c o ws).Started core id := by
  refine State.Started.foldl (fun u w hu => ?_) ws s h
  have hp := (hu.setCopy c o.id (f := fun o => { o with outstanding := o.outstanding + 1 }) (fun _ => rfl) (fun _ => rfl)).of_copies
    (State.copies_enginePiece _ o.asid o.gen (dieOfCore c) (.copy c o.id) w.1 (fun ofs d => lineWrite ofs w.2 d) w.2 core)
  dsimp only
  split
  · exact hp
  · exact hp.copyFault c o _

theorem State.Started.spoilMem {s : State} {core id : Nat} (h : s.Started core id) (c : Nat) (o : CopyOp) (l : List (Nat × Nat)) :
    (s.spoilMem c o l).Started core id :=
  State.Started.foldl (fun u sp hu => State.Started.copyStore (s := (u.freeBytes sp.2).2) hu c o _) l s h

theorem State.copies_putImage (s : State) (k : Nat) (o : CopyOp) (bs : List Byte) (c : Nat) :
    ((s.putImage k o bs).core c).copies = (s.core c).copies := by
  unfold State.putImage
  dsimp only
  split <;> rfl

theorem State.started_moveCopy (s : State) (core : Nat) (o : CopyOp) : (s.moveCopy core o).Started core o.id := by
  have h0 := State.started_setCopy s core o.id
  unfold State.moveCopy
  dsimp only
  split
  · split
    · split
      · exact h0.copyStore _ _ _
      · exact h0.spoilMem _ _ _
    · exact (h0.copyFault core o _).spoilMem _ _ _
  · split
    · exact h0.of_copies (congrArg (List.map CopyOp.settled) (State.copies_putImage _ _ _ _ _))
    · exact (h0.copyFault core o _).of_copies
        (congrArg (List.map CopyOp.settled) (State.copies_putImage _ _ _ _ _))

/-! ## COPY_POST (R170, R174, R179) -/

section
variable {core id : Nat} {s : State} {o : CopyOp} (ho : (s.core core).copies.find? (fun o => o.id == id) = some o) (hd : o.done = false)
include ho hd

theorem copyPost_qcwset (hk : o.kind = 5) (hq : ((s.block o.block).qcw o.place o.ofs).wr = ((s.block o.block).qcw o.place o.ofs).fill)
    (hb : s.qcwBefore core o = false) : copyPost core id s = s.applyQcwset core o := by
  unfold copyPost
  rw [ho]
  dsimp only
  rw [if_neg (by simp [hd]), if_pos hk, if_pos ⟨hq, by simp [hb]⟩]

theorem copyPost_qcwset_waits (hk : o.kind = 5) (hq : ((s.block o.block).qcw o.place o.ofs).wr ≠ ((s.block o.block).qcw o.place o.ofs).fill ∨
    s.qcwBefore core o = true) : copyPost core id s = s.hold (.copyPost core id) := by
  unfold copyPost
  rw [ho]
  dsimp only
  rw [if_neg (by simp [hd]), if_pos hk, if_neg]
  rintro ⟨h1, h2⟩
  obtain hq | hq := hq
  · exact hq h1
  · simp [hq] at h2

theorem copyPost_unwritten (hk : o.kind ≠ 5) (hs : o.started = false) (hw : s.writtenBefore [o.warp] id = false) :
    copyPost core id s = s.hold (.copyPost core id) := by
  have hid : o.id = id := by simpa using List.find?_some (p := fun o : CopyOp => o.id == id) ho
  unfold copyPost
  rw [ho]
  dsimp only
  rw [if_neg (by simp [hd]), if_neg hk, if_pos ⟨by simp [hs], by simp [hid, hw]⟩]

theorem copyPost_unreached {s0 : State} (hk : o.kind ≠ 5) (hs : o.started = false) (hw : s.writtenBefore [o.warp] id = true)
    (hr : s.copyReach core o = (s0, false)) : copyPost core id s = s0.hold (.copyPost core id) := by
  have hid : o.id = id := by simpa using List.find?_some (p := fun o : CopyOp => o.id == id) ho
  have hp : s0.prog = s.prog := by
    have h := congrArg (fun p : State × Bool => p.1.prog) hr
    refine h.symm.trans ?_
    unfold State.copyReach
    split
    · exact State.prog_reachSpans _ _ _ _ _ _
    · rfl
  have hf := settled_find (State.copies_of_prog hp core) id
  rw [ho] at hf
  obtain ⟨o1, h1, he⟩ := Option.map_eq_some_iff.mp hf
  have hs1 : o1.started = false := (congrArg CopyOp.started he).trans hs
  unfold copyPost
  rw [ho]
  dsimp only
  rw [if_neg (by simp [hd]), if_neg hk, if_neg (by simp [hid, hw]), hs, hr,
    if_neg Bool.false_ne_true, if_neg Bool.false_ne_true]
  dsimp only
  rw [if_neg Bool.false_ne_true, h1]
  exact if_neg (by simp [hs1])

theorem copyPost_moves {s0 : State} {o1 : CopyOp} (hk : o.kind ≠ 5) (hs : o.started = false) (hw : s.writtenBefore [o.warp] id = true)
    (hr : s.copyReach core o = (s0, true)) (h1 : ((s0.moveCopy core o).core core).copies.find? (fun o => o.id == id) = some o1) :
    o1.started = true ∧ copyPost core id s = if o1.outstanding = 0 then (s0.moveCopy core o).postCopy core o1
      else (s0.moveCopy core o).hold (.copyPost core id) := by
  have hid : o.id = id := by simpa using List.find?_some (p := fun o : CopyOp => o.id == id) ho
  have hid1 : o1.id = id := by simpa using List.find?_some (p := fun o : CopyOp => o.id == id) h1
  have hs1 : o1.started = true := State.started_moveCopy s0 core o o1 (List.mem_of_find?_eq_some h1) (hid1.trans hid.symm)
  refine ⟨hs1, ?_⟩
  unfold copyPost
  rw [ho]
  dsimp only
  rw [if_neg (by simp [hd]), if_neg hk, if_neg (by simp [hid, hw]), hs, hr,
    if_neg Bool.false_ne_true, if_neg Bool.false_ne_true]
  dsimp only
  rw [if_pos rfl, h1]
  exact if_congr (by simp [hs1]) rfl rfl

theorem copyPost_posts (hk : o.kind ≠ 5) (hs : o.started = true) (hz : o.outstanding = 0) :
    copyPost core id s = s.postCopy core o := by
  unfold copyPost
  rw [ho]
  dsimp only
  rw [if_neg (by simp [hd]), if_neg hk, if_neg (by simp [hs]), if_pos hs, ho]
  exact if_pos ⟨hs, hz⟩

end

theorem State.postCopy_plain {s : State} {core : Nat} {o : CopyOp} (hr : o.ring = false) (hf : o.fault = none) :
    s.postCopy core o = (s.postToken o.warp (o.token.getD 0) o.gwct).dropOp core o.id := by
  unfold State.postCopy
  dsimp only
  rw [hf, hr]
  exact if_neg (by simp)

theorem State.dropOp_copies (s : State) (core id : Nat) : ∀ p ∈ ((s.dropOp core id).core core).copies, p.id ≠ id := by
  intro p hp
  unfold State.dropOp at hp
  rw [State.core_setCore, if_pos rfl] at hp
  simpa using (List.mem_filter.mp hp).2

theorem State.postToken_warp {s : State} {w flag : Nat} {g : DWord} (h : (Tab.find s.warps w).isSome = true)
    (hw : SMap.wf 0 (s.warp w).tokens = true) :
    SMap.get 0 ((s.postToken w flag g).warp w).tokens flag = SMap.get 0 (s.warp w).tokens flag - 1 ∧
      (SMap.get 0 (s.warp w).tokens flag = 1 → flag < 12 → ((s.postToken w flag g).warp w).cf.getLsbD flag = true) := by
  unfold State.postToken
  rw [State.warp_setWarp, if_pos ⟨rfl, h⟩]
  dsimp only
  by_cases hl : SMap.get 0 (s.warp w).tokens flag - 1 = 0
  · rw [if_pos hl]
    refine ⟨?_, fun _ hf => ?_⟩
    · rw [hl]
      exact (SMap.get_set_wf hw _ _ _).trans (if_pos rfl)
    · rw [BitVec.getLsbD_or, BitVec.getLsbD_ofNat, Nat.testBit_two_pow_self, decide_eq_true hf]
      simp
  · rw [if_neg hl]
    exact ⟨(SMap.get_set_wf hw _ _ _).trans (if_pos rfl), fun h1 => absurd (by rw [h1]) hl⟩

/-! ## RING_RESERVE (R180) -/

theorem ringReserve_eq {core id : Nat} {s : State} {o : CopyOp} (ho : (s.core core).copies.find? (fun o => o.id == id) = some o) :
    ringReserve core id s = if o.slot.isSome then s
      else if s.ringBusy core o.id o.block o.place o.ofs ∨ ((s.block o.block).qcw o.place o.ofs).room = 0 then
        s.hold (.ringReserve core id)
      else (s.reserve core o).send (.copyPost core id) := by
  unfold ringReserve
  rw [ho]

theorem copySteps : Claim.CopySteps := by
  refine ⟨fun core id s o ho hd => ?_, fun core id s o ho => ?_⟩
  · intro q
    refine ⟨fun hk hq hb => congrArg Host.Outcome.next (copyPost_qcwset ho hd hk hq hb),
      fun hk hq => congrArg Host.Outcome.next (copyPost_qcwset_waits ho hd hk hq),
      fun hk hs hw => congrArg Host.Outcome.next (copyPost_unwritten ho hd hk hs hw),
      fun s0 hk hs hw hr => congrArg Host.Outcome.next (copyPost_unreached ho hd hk hs hw hr), fun s0 o1 hk hs hw hr h1 => ?_,
      fun hk hs hz hr hf hw ht => ?_⟩
    · obtain ⟨hs1, hx⟩ := copyPost_moves ho hd hk hs hw hr h1
      exact ⟨hs1, fun hz => congrArg Host.Outcome.next (hx.trans (if_pos hz)), fun hz => congrArg Host.Outcome.next (hx.trans (if_neg hz))⟩
    · intro f
      have hid : o.id = id := by simpa using List.find?_some (p := fun o : CopyOp => o.id == id) ho
      obtain ⟨hget, hcf⟩ := State.postToken_warp (flag := f) (g := o.gwct) hw ht
      refine ⟨_, congrArg Host.Outcome.next ((copyPost_posts ho hd hk hs hz).trans (State.postCopy_plain hr hf)), ?_, hget, hcf⟩
      rw [hid]
      exact State.dropOp_copies _ _ _
  · intro q
    have hx := ringReserve_eq ho
    refine ⟨fun h => congrArg Host.Outcome.next (hx.trans (if_pos h)), fun hn hb hr => ?_, fun hn hb => ?_⟩
    · exact congrArg Host.Outcome.next ((hx.trans (if_neg (by simp [hn]))).trans (if_neg (by simp [hb]; exact hr)))
    · exact congrArg Host.Outcome.next ((hx.trans (if_neg (by simp [hn]))).trans (if_pos hb))

/-- Settles O57: a copy is accepted as `acceptCopy` makes it, and its operation stays in its core, started, through its writes. -/
theorem copiesMove : Obligations.CopiesMove := ⟨copiesComplete, copySteps⟩

end Sys2Proof.Machine
end

section
/-! SUPPORT. O54 and O58 fail where O42 fails: a line that enters a full set puts another one out, which its home slice lists twice, and
so changes that one's value. Which lines share a set is left open (R100), so that the two lines are found by counting: of 1025 lines of
one slice two have the same set. -/

namespace Sys2Proof.Machine

set_option Elab.async false

/-- What happens at a line leaves the lines that are not it. -/
theorem State.homeLine_setLine_ne {s : State} {n l : Nat} (h : l ≠ n) (x : HomeLine) : (s.setLine n x).homeLine l = s.homeLine l := by
  rw [State.homeLine_setLine, if_neg h]

theorem State.homeLine_ite_countRoutine (s : State) (c : Prop) [Decidable c] (d k l : Nat) :
    (if c then s.countRoutine d k else s).homeLine l = s.homeLine l := by
  split <;> rfl

theorem State.homeLine_recall_ne {s : State} {line l : Nat} (h : l ≠ line) (d : Nat) : (s.recall line d).homeLine l = s.homeLine l := by
  unfold State.recall
  dsimp only
  split
  · rfl
  · rename_i o _
    by_cases hd : o = d
    · rw [if_pos hd]
    · rw [if_neg hd]
      exact (State.homeLine_ite_countRoutine _ _ _ _ l).trans (State.homeLine_setLine_ne h _)

theorem State.homeLine_touchRun_ne {s : State} {line l : Nat} (h : l ≠ line) (d : Nat) :
    (s.touchRun line d).homeLine l = s.homeLine l := by
  unfold State.touchRun
  split
  · rfl
  · split
    · exact State.homeLine_setLine_ne h _
    · rfl

theorem State.homeLine_bringHome_ne {s : State} {line l : Nat} (h : l ≠ line) (d : Nat) :
    (s.bringHome line d).homeLine l = s.homeLine l := by
  unfold State.bringHome
  dsimp only
  split
  · exact (State.homeLine_setLine_ne h _).trans (State.homeLine_recall_ne h d)
  · exact State.homeLine_recall_ne h d

theorem State.homeLine_collapse_ne {s : State} {line l : Nat} (h : l ≠ line) (w : Waiter) :
    (s.collapse line w).homeLine l = s.homeLine l := by
  unfold State.collapse
  dsimp only
  split
  · exact State.homeLine_setLine_ne h _
  · split
    · exact (State.homeLine_ackWrite _ _ _ _).trans (State.homeLine_setLine_ne h _)
    · refine (State.homeLine_of_mems ((State.mems_send _ _).trans (State.mems_foldl (fun u d => State.mems_send _ _) _ _)) l).trans ?_
      exact State.homeLine_setLine_ne h _

theorem State.homeLine_writeLine_ne {s : State} {line l : Nat} (h : l ≠ line) (die : Nat) (f : LineData → LineData) (w : Waiter) :
    (s.writeLine line die f w).homeLine l = s.homeLine l := by
  unfold State.writeLine
  dsimp only
  split
  · exact (State.homeLine_ackWrite _ _ _ _).trans (State.homeLine_setLine_ne h _)
  · refine (State.homeLine_collapse_ne h w).trans ((State.homeLine_of_mems (State.mems_fireLine _ _) l).trans ?_)
    exact (State.homeLine_setLine_ne h _).trans ((State.homeLine_touchRun_ne h die).trans (State.homeLine_recall_ne h die))

namespace Crowd

/-- A line of slice 0 by its number, with the bytes of its own number cancelled out. -/
def lineOf (n : Nat) : Nat := n % 128 + 256 * (n / 128) + 65536 * (n % 128 ^^^ n / 128)

theorem lineOf_small : ∀ n < 1025, lineOf n < 2 ^ 23 ∧ homeSlice (lineOf n) = 0 := by decide +kernel

theorem lineOf_injective {m n : Nat} (h : lineOf m = lineOf n) (hm : m < 1025) (hn : n < 1025) : m = n := by
  unfold lineOf at h
  omega

/-- Two lines of slice 0 share a set. -/
theorem two_share : ∃ l m, l ≠ m ∧ l < 2 ^ 23 ∧ m < 2 ^ 23 ∧ homeSlice l = 0 ∧ homeSlice m = 0 ∧ lineSet m = lineSet l := by
  obtain ⟨i, hi, j, hj, hn, he⟩ := Finset.exists_ne_map_eq_of_card_lt_of_maps_to (s := Finset.range 1025) (t := Finset.range 1024)
    (f := fun n => lineSet (lineOf n)) (by simp) (fun n _ => by
      have : lineSet (lineOf n) < 1024 := Nat.mod_lt _ (by decide)
      simpa using this)
  have hi := Finset.mem_range.mp hi
  have hj := Finset.mem_range.mp hj
  obtain ⟨hil, his⟩ := lineOf_small i hi
  obtain ⟨hjl, hjs⟩ := lineOf_small j hj
  exact ⟨lineOf i, lineOf j, fun h => hn (lineOf_injective h hi hj), hil, hjl, his, hjs, he.symm⟩

/-- A line at its home under a collapse, whose data are 0 and whose owner's, though it has none, are 1; and the line again, lent. -/
def here : HomeLine := { HomeLine.enter 0 with ownerData := 1, cpend := true }
def lent : HomeLine := { HomeLine.enter 0 with ownerDie := some 0 }

/-- The home slice lists the line `m` seventeen times. -/
def lines (m : Nat) : Tab HomeLine := (m, here) :: List.replicate 16 (m, lent)

/-- The tables: a page of 1 GiB at address 0. -/
def tables : Memory := Memory.write (Memory.write [] 0x80000000 (leBytes 8 0x80001001)) 0x80001000 (leBytes 8 15)

/-- The frame of a line is a page of address space 1, and the set that `m` is in is full. -/
def state (l m : Nat) : State :=
  let s := Slice0.quiet.setAsid 1 fun a => { a with root := 0x80000000, st := 1 }
  { s with lines := lines m, hbm := tables, frames := [(128 * l / 65536, { Frame.free with state := 1, owner := 1 })] }

/-- The state once the line `l` has taken the way of `m`. -/
def entered (l m : Nat) (s : State) : State :=
  (State.setLine { s with freeCtr := s.freeCtr + 1 } m here.returned).setLine l (HomeLine.enter (Memory.line s.hbm (128 * l)))

theorem find_lines {m l : Nat} (h : l ≠ m) : Tab.find (lines m) l = none := by
  simp [lines, List.replicate, Tab.find, h]

theorem ways {l m : Nat} {s : State} (hl : homeSlice l = 0) (hm : homeSlice m = 0) (he : lineSet m = lineSet l)
    (hs : s.lines = lines m) (hc : s.copies = []) :
    s.waysAt (homeSlice l) l = List.replicate 17 (.home m) ++ List.replicate 16 (.owned m) := by
  simp [State.waysAt, hs, hc, lines, here, lent, HomeLine.enter, List.replicate, hl, hm, he, sliceAt]

/-- A way leaves the full set of `m`: the one in which it is lent. -/
theorem enterHome_eq {l m : Nat} {s : State} (hn : l ≠ m) (hl : homeSlice l = 0) (hm : homeSlice m = 0) (he : lineSet m = lineSet l)
    (hs : s.lines = lines m) (hc : s.copies = []) : s.enterHome l = some (entered l m s) := by
  have hf : Tab.find s.lines m = some here := by rw [hs]; simp [lines, Tab.find]
  have hg : (List.replicate 17 (Way.home m) ++ List.replicate 16 (Way.owned m)).filter s.choosable = List.replicate 16 (Way.owned m) := by
    simp [State.choosable, hf, here]
  have hev := State.evictOne_same s (ws := List.replicate 16 (Way.owned m)) (w := .owned m) (by simp)
    (fun _ hx => (List.mem_replicate.mp hx).2)
  have hw : ¬ (List.replicate 17 (Way.home m) ++ List.replicate 16 (Way.owned m)).length < Config.sliceWays := by
    simp [Config.sliceWays]
  have hr : s.makeRoom (homeSlice l) l false = some (State.setLine { s with freeCtr := s.freeCtr + 1 } m here.returned) := by
    unfold State.makeRoom
    simp only [ways hl hm he hs hc, hg, hw, if_false, Bool.false_and, Bool.false_eq_true, hev, State.evict, hf]
  unfold State.enterHome
  rw [hs, find_lines hn, hr]
  rfl

theorem entered_value {l m : Nat} (h : m ≠ l) (s : State) : ((entered l m s).homeLine m).value = 1 := by
  unfold entered
  rw [State.homeLine_setLine_ne h, State.homeLine_setLine, if_pos rfl]
  rfl

theorem state_value (l m : Nat) : ((state l m).homeLine m).value = 0 := by
  have hf : Tab.find (state l m).lines m = some here := by simp [state, lines, Tab.find]
  unfold State.homeLine
  rw [hf]
  rfl

end Crowd

end Sys2Proof.Machine
end

section
/-! SUPPORT. O54: an atomic addition to a line that enters a full set. -/

namespace Sys2Proof.Machine

set_option Elab.async false

theorem State.homeLine_ite {a b : State} {l : Nat} {x : HomeLine} (c : Prop) [Decidable c] (ha : a.homeLine l = x)
    (hb : b.homeLine l = x) : (if c then a else b).homeLine l = x := by
  split
  · exact ha
  · exact hb

theorem State.homeLine_predict_ne {s : State} {line l : Nat} (h : l ≠ line) (d : Nat) :
    (s.predict line d).homeLine l = s.homeLine l := by
  unfold State.predict
  dsimp only
  split
  · rfl
  · exact State.homeLine_ite _ (State.homeLine_setLine_ne h _) (State.homeLine_setLine_ne h _)

theorem State.homeLine_runHome_ne {s : State} {line l : Nat} (h : l ≠ line) (v : Invocation) (code : List Word) :
    (s.runHome v line code).homeLine l = s.homeLine l := by
  have hk : (s.countRoutine (homeDie line) 1).homeLine l = s.homeLine l := State.homeLine_of_mems (State.mems_countRoutine _ _ _) l
  have hc := State.homeLine_ite ((s.countRoutine (homeDie line) 1).leased line = true)
    ((State.homeLine_collapse_ne h .none).trans hk) hk
  unfold State.runHome
  dsimp only
  split
  · exact (State.homeLine_of_mems (State.mems_rtFault _ _ _ _ _) l).trans hc
  · refine (State.homeLine_collapse_ne h _).trans ?_
    exact State.homeLine_ite _ hc
      ((State.homeLine_of_mems (State.mems_fireLine _ _) l).trans ((State.homeLine_setLine_ne h _).trans hc))

/-- A built-in routine that runs at its line's home leaves every other line. -/
theorem State.homeLine_invokeAt_ne {s : State} {v : Invocation} {line l : Nat} (h : l ≠ line) (hr : v.rid < 16)
    (hh : s.runsAtHome v line = true) (first : Bool) : (s.invokeAt v line first).homeLine l = s.homeLine l := by
  unfold State.invokeAt
  simp only [hh, if_true, State.codeFor, hr]
  refine (State.homeLine_runHome_ne h v _).trans ((State.homeLine_bringHome_ne h _).trans ((State.homeLine_predict_ne h _).trans ?_))
  exact State.homeLine_of_mems (State.mems_countRegion _ _ _ _ _ _) l

/-- An invocation that no other lane's goes with. -/
theorem routineInvocation_alone {v : Invocation} {s : State} (h : s.batchMates v = []) :
    routineInvocation v s = routineLane v { s with net := s.net.erase (.routineInvocation v) } := by
  unfold routineInvocation
  rw [h]
  exact ite_self _

/-- An invocation of a built-in routine that its frame's check serves. -/
theorem routineLane_builtin {v : Invocation} {s u : State} (hr : v.rid < 16)
    (hu : (s.freeLine v (v.pa / 128)).frameCheck v.asid v.gen v.pa true = .serve u) :
    routineLane v s = u.invokeAt v (v.pa / 128) ((s.homeLine (v.pa / 128)).heldFor != some v.id) := by
  unfold routineLane
  simp only [hu, State.rtReach, hr, true_or, if_true]

namespace Crowd

/-- What the check of a write leaves of the line's frame. -/
def touched (l : Nat) (s : State) : State := s.setFrame (128 * l / 65536) fun fe =>
  { fe with accessed := true, noComp := fe.noComp && !true, state := if true && fe.state == 4 then 1 else fe.state }

/-- A write to the line `l` is served, once it has the way of `m`. -/
theorem frameCheck_serves {l m gen : Nat} {s : State} (hn : l ≠ m) (hl : homeSlice l = 0) (hm : homeSlice m = 0)
    (he : lineSet m = lineSet l) (hs : s.lines = lines m) (hc : s.copies = []) (hd : s.dieSilent 0 = false) (hb : s.badLines = [])
    (hf : s.frame (128 * l / 65536) = { Frame.free with state := 1, owner := 1 }) :
    s.frameCheck 1 gen (128 * l) true = .serve (entered l m (touched l s)) := by
  have hh : homeDie l = 0 := by rw [homeDie, hl]; rfl
  have hq : 128 * l / 128 = l := Nat.mul_div_cancel_left l (by decide)
  have hx : (s.homeLine l).heldFor = none := by
    unfold State.homeLine
    rw [hs, find_lines hn]
    rfl
  have hg := enterHome_eq (s := touched l s) hn hl hm he hs hc
  unfold State.frameCheck
  simp only [hq, hh, hd, hf, hb, hx]
  simp [touched] at hg
  simp [Frame.free, hg, touched]

/-- An addition to the line `l`. -/
def adder (l : Nat) : Invocation := Slice0.invoc 3 (128 * l) 0 (some 10)

theorem frame_state (l m : Nat) : (state l m).frame (128 * l / 65536) = { Frame.free with state := 1, owner := 1 } := by
  simp [State.frame, state, Tab.find]

end Crowd

open Crowd in
/-- Refutes O54: `adder` changes the value of the line that leaves the set for its own. -/
theorem not_routineSteps : ¬ Obligations.RoutineSteps := by
  intro ⟨h, _⟩
  obtain ⟨l, m, hn, _, _, hl, hm, he⟩ := two_share
  have hq : (adder l).pa / 128 = l := Nat.mul_div_cancel_left l (by decide)
  have hb : (state l m).batchMates (adder l) = [] := rfl
  have hheld : ((state l m).homeLine l).heldFor = none := by
    unfold State.homeLine
    rw [show (state l m).lines = lines m from rfl, find_lines hn]
    rfl
  have hfree : (state l m).freeLine (adder l) ((adder l).pa / 128) = state l m := by
    unfold State.freeLine
    rw [hq, hheld]
    rfl
  have hsv := frameCheck_serves (gen := 0) (s := state l m) hn hl hm he rfl rfl (by rfl) rfl (frame_state l m)
  have hsv : ((state l m).freeLine (adder l) ((adder l).pa / 128)).frameCheck (adder l).asid (adder l).gen (adder l).pa true
      = .serve (entered l m (touched l (state l m))) := by
    rw [hfree]
    exact hsv
  have hrun : (entered l m (touched l (state l m))).runsAtHome (adder l) ((adder l).pa / 128) = true := by
    have hh : homeDie l = 0 := by rw [homeDie, hl]; rfl
    unfold State.runsAtHome
    have hd : dieOfCore (adder l).core = 0 := by simp [adder, Slice0.invoc, dieOfCore]
    rw [hq, hh]
    simp [hd]
  have hr : (adder l).rid < 16 := by simp [adder, Slice0.invoc]
  obtain ⟨s', hx, _, ho, _⟩ := (h (adder l) (state l m) hb (by simp [state, Slice0.quiet])).1 _ hr hsv (.inl hrun)
  have hx := Host.Outcome.next.inj hx
  have hlane := (routineInvocation_alone hb).trans (routineLane_builtin (v := adder l) (s := state l m) hr hsv)
  have hv : (s'.homeLine m).value = 1 := by
    rw [← hx, hlane, State.homeLine_invokeAt_ne (by rw [hq]; exact hn.symm) hr hrun]
    exact entered_value hn.symm _
  have h0 := ho m (by rw [hq]; exact hn.symm)
  rw [hv, state_value] at h0
  exact absurd h0 (by decide +kernel)

end Sys2Proof.Machine
end

section
/-! SUPPORT. O58: a line of an adding drain that enters a full set. -/

namespace Sys2Proof.Machine

set_option Elab.async false

/-- The check of an access to a line that stands at its home changes no line. -/
theorem State.homeLine_frameCheck {s : State} {asid gen pa l : Nat} {write : Bool} {u : State}
    (hp : (Tab.find s.lines (pa / 128)).isSome = true)
    (h : s.frameCheck asid gen pa write = .serve u ∨ s.frameCheck asid gen pa write = .wait u) : u.homeLine l = s.homeLine l := by
  have hk : ∀ {v : State} {n : Nat} {f : Frame → Frame}, v = s.setFrame n f ∨ v = (s.setFrame n f).expand n →
      v.homeLine l = s.homeLine l := by
    rintro v n f (rfl | rfl)
    · exact State.homeLine_of_mems (State.mems_setFrame _ _ _) l
    · exact State.homeLine_of_mems ((State.mems_expand _ _).trans (State.mems_setFrame _ _ _)) l
  unfold State.frameCheck State.enterHome at h
  simp only [State.setFrame_lines, hp, if_true] at h
  split at h
  · rcases h with h | h <;> cases h
    rfl
  · split at h
    · rcases h with h | h <;> cases h
    · split at h
      · rcases h with h | h <;> cases h
        exact hk (.inr rfl)
      · split at h
        · rcases h with h | h <;> cases h
          exact hk (.inl rfl)
        · split at h
          · rcases h with h | h <;> cases h
            exact hk (.inl rfl)
          · rcases h with h | h <;> cases h
            exact hk (.inl rfl)

/-- An engine's write of a piece of a line that stands at its home leaves every other line. -/
theorem State.homeLine_enginePiece_ne {s : State} {asid gen die va pa l : Nat} {w : Waiter} {f : Nat → LineData → LineData}
    {bs : List Byte} (hp : s.enginePlace asid gen va true = some (false, pa)) (h : (Tab.find s.lines (pa / 128)).isSome = true)
    (hl : l ≠ pa / 128) : (s.enginePiece asid gen die w va f bs).1.homeLine l = s.homeLine l := by
  unfold State.enginePiece
  rw [hp]
  dsimp only
  split
  · exact State.homeLine_of_mems (State.mems_engineStale _ _ _ _ _) l
  all_goals
    rename_i u hu
    refine (State.homeLine_writeLine_ne hl _ _ _).trans ((State.homeLine_of_mems ((State.mems_countRegion _ _ _ _ _ _).trans
      (State.mems_engineDrop _ _ _ _ _)) l).trans (State.homeLine_frameCheck (asid := asid) (gen := gen) (write := true) h ?_))
    simp [hu]

/-- A line of a drain that has been reached at its home. -/
theorem accstAddLineUpdate_place {core id line pa : Nat} {s s0 : State} {o : MatrixOp}
    (ho : (s.core core).drainQ.find? (fun p => p.id == id) = some o)
    (hr : s.reachSpans o.asid o.gen Config.feDie true [(128 * line, 128)] = (s0, true))
    (hp : ∀ u : State, u.mems = s0.mems → u.asids = s0.asids → u.frames = s0.frames →
      u.enginePlace o.asid o.gen (128 * line) true = some (false, pa))
    (hh : (Tab.find s0.lines (pa / 128)).isSome = true) {l : Nat} (hl : l ≠ pa / 128) :
    (accstAddLineUpdate core id line s).homeLine l = s0.homeLine l := by
  have hd (u : State) (hu : u.mems = s0.mems ∧ u.asids = s0.asids ∧ u.frames = s0.frames) (f : Nat → LineData → LineData) :
      ((u.engineDrop (.drain core id) (dieOfCore core) false (pa / 128)).enginePiece o.asid o.gen Config.feDie (.drain core id)
        (128 * line) f []).1.homeLine l = s0.homeLine l := by
    obtain ⟨hum, hua, huf⟩ := hu
    have hem := (State.mems_engineDrop u (.drain core id) (dieOfCore core) false (pa / 128)).trans hum
    have hl' : (u.engineDrop (.drain core id) (dieOfCore core) false (pa / 128)).lines = s0.lines := congrArg (·.2.2) hem
    exact (State.homeLine_enginePiece_ne (hp _ hem hua huf) (by rw [hl']; exact hh) hl).trans (State.homeLine_of_mems hem l)
  unfold accstAddLineUpdate
  simp only [ho, hr]
  rw [hp (s0.setMatrix core id _) rfl rfl rfl]
  exact (State.homeLine_of_mems (State.mems_setCore _ _ _) l).trans (hd (s0.setMatrix core id _) ⟨rfl, rfl, rfl⟩ _)

namespace Crowd

/-- The translation of the line `l`: the page of 1 GiB. -/
def page : TlbEntry := ⟨1, 0, 30, 0, 0, 0, true, true, false⟩

/-- Bytes whose lines are not listed are those of the memory. -/
theorem peek_hbm {s : State} {a : Nat} (ha : a % 128 = 0) (h : Tab.find s.lines (a / 128) = none) :
    s.peek false a 8 = ofLeBytes ((List.range 8).map fun i => Memory.byte s.hbm (a + i)) := by
  unfold State.peek
  congr 1
  refine List.map_congr_left fun i hi => ?_
  have hi := List.mem_range.mp hi
  have hq : (a + i) / 128 = a / 128 := by omega
  simp [State.byteAt, hq, h]

theorem walk_page {s : State} {l : Nat} (hl : l < 2 ^ 23) (ha : s.asid 1 = { Asid.none with root := 0x80000000, st := 1 })
    (hb : s.hbm = tables) (h1 : Tab.find s.lines (0x80000000 / 128) = none) (h2 : Tab.find s.lines (0x80001000 / 128) = none) :
    s.walk 1 (BitVec.ofNat 64 (128 * l)) = some page := by
  have hv : (BitVec.ofNat 64 (128 * l)).toNat = 128 * l := by
    rw [BitVec.toNat_ofNat]
    omega
  have hr : s.peek false 0x80000000 8 = 0x80001001 := by
    rw [peek_hbm (by decide) h1, hb]
    decide +kernel
  have he : s.peek false 0x80001000 8 = 15 := by
    rw [peek_hbm (by decide) h2, hb]
    decide +kernel
  have hi4 : levelIndex 4 (BitVec.ofNat 64 (128 * l)) = 0 := by
    simp only [levelIndex, hv]
    omega
  have hi3 : levelIndex 3 (BitVec.ofNat 64 (128 * l)) = 0 := by
    simp only [levelIndex, hv]
    omega
  have hw : s.walkFrom false 0x80000000 (BitVec.ofNat 64 (128 * l)) 4 = some (15, 3) := by
    have ho : pteOk 4 0x80001001 = true ∧ pteLeaf 0x80001001 = false ∧ pteTgt 0x80001001 = 0 ∧ pteAddr 0x80001001 = 0x80001000 := by
      decide
    obtain ⟨ho, hf, ht, hd⟩ := ho
    have ho' : pteOk 3 15 = true ∧ pteLeaf 15 = true := by decide
    simp [State.walkFrom, hi4, hi3, hr, he, ho, hf, ht, hd, ho']
  have hq : 128 * l / 2 ^ 30 = 0 := by omega
  have hlt : ¬ 128 * l ≥ 2 ^ 48 := by omega
  unfold State.walk
  simp only [ha, hv, hw]
  rw [if_neg (by simp; omega)]
  simp only [levelLog2, hq]
  rfl

theorem enginePlace_page {s : State} {l : Nat} (hl : l < 2 ^ 23) (ha : s.asid 1 = { Asid.none with root := 0x80000000, st := 1 })
    (hb : s.hbm = tables) (h1 : Tab.find s.lines (0x80000000 / 128) = none) (h2 : Tab.find s.lines (0x80001000 / 128) = none)
    (hf : (s.frame (128 * l / 65536)).state = 1 ∧ (s.frame (128 * l / 65536)).owner = 1 ∧ (s.frame (128 * l / 65536)).mgen = 0) :
    s.enginePlace 1 0 (128 * l) true = some (false, 128 * l) := by
  obtain ⟨hst, hown, hgen⟩ := hf
  have hv : page.at (BitVec.ofNat 64 (128 * l)) = 128 * l := by
    simp only [TlbEntry.at, page, BitVec.toNat_ofNat]
    omega
  unfold State.enginePlace
  simp only [walk_page hl ha hb h1 h2, hv, hst, hown, hgen]
  rfl

/-- The drain of an operation that adds, at the line `l`. -/
def drain : MatrixOp := Slice0.matOp 5 4 true

def drained (l m : Nat) : State := Slice0.draining drain (state l m)

theorem drained_find (l m : Nat) : ((drained l m).core 0).drainQ.find? (fun p => p.id == 5) = some drain := by
  have h : ((drained l m).core 0).drainQ = [drain] := rfl
  rw [h]
  rfl

/-- What the drain finds once it has reached the line. -/
def reached (l m : Nat) : State := entered l m (touched l (drained l m))

theorem drained_reach {l m : Nat} (hn : l ≠ m) (hlt : l < 2 ^ 23) (hmt : m < 2 ^ 23) (hl : homeSlice l = 0) (hm : homeSlice m = 0)
    (he : lineSet m = lineSet l) :
    (drained l m).reachSpans 1 0 Config.feDie true [(128 * l, 128)] = (reached l m, true) := by
  have h1 : Tab.find (drained l m).lines (0x80000000 / 128) = none := find_lines (by omega)
  have h2 : Tab.find (drained l m).lines (0x80001000 / 128) = none := find_lines (by omega)
  have hw := walk_page (s := drained l m) hlt rfl rfl h1 h2
  have hv : page.at (BitVec.ofNat 64 (128 * l)) = 128 * l := by
    simp only [TlbEntry.at, page, BitVec.toNat_ofNat]
    omega
  have hsv := frameCheck_serves (gen := 0) (s := drained l m) hn hl hm he rfl rfl rfl rfl (frame_state l m)
  have ht : (page.tgt == 1) = false := rfl
  have ho : (drained l m).owedOn false (128 * l / 128) = false := rfl
  have hr : (drained l m).lineReady 1 0 Config.feDie true (BitVec.ofNat 64 (128 * l)) = (reached l m, true) := by
    unfold State.lineReady
    simp only [hw, hv, ht, ho, hsv, Bool.false_eq_true, if_false, Bool.not_true, Bool.false_and, Bool.or_self]
    rfl
  have hs : spanLines [(128 * l, 128)] = [l] := by
    have hq : 128 * l / 128 = l := by omega
    simp [spanLines, hq]
  unfold State.reachSpans
  simp only [hs, List.foldl_cons, List.foldl_nil, hr, Bool.not_true, Bool.and_false, Bool.and_true, Bool.false_eq_true, if_false]

end Crowd

open Crowd in
/-- Refutes O58: the drain's line changes the value of the line that leaves the set for it. -/
theorem not_matrixSteps : ¬ Obligations.MatrixSteps := by
  intro ⟨_, _, _, h⟩
  obtain ⟨l, m, hn, hlt, hmt, hl, hm, he⟩ := two_share
  have hr := drained_reach hn hlt hmt hl hm he
  have hf : ((reached l m).frame (128 * l / 65536)).state = 1 ∧ ((reached l m).frame (128 * l / 65536)).owner = 1 ∧
      ((reached l m).frame (128 * l / 65536)).mgen = 0 := by
    simp [reached, entered, touched, State.frame, State.setFrame, State.setLine, drained, Slice0.draining, State.setCore, state,
      Tab.find, Tab.put, Frame.free]
  have hfind (j : Nat) (hj : 2 ^ 23 ≤ j) : Tab.find (reached l m).lines j = none := by
    have h1 : j ≠ l := by omega
    have h2 : j ≠ m := by omega
    unfold reached entered
    rw [State.setLine_lines, Tab.find_put_ne h1, State.setLine_lines, Tab.find_put_ne h2]
    exact find_lines h2
  have hp (u : State) (hum : u.mems = (reached l m).mems) (hua : u.asids = (reached l m).asids)
      (huf : u.frames = (reached l m).frames) : u.enginePlace 1 0 (128 * l) true = some (false, 128 * l) := by
    have hul : u.lines = (reached l m).lines := congrArg (·.2.2) hum
    refine enginePlace_page hlt ?_ ((congrArg (·.1) hum).trans rfl) ?_ ?_ ?_
    · rw [State.asid, hua]
      rfl
    · rw [hul]
      exact hfind _ (by decide)
    · rw [hul]
      exact hfind _ (by decide)
    · rw [State.frame, huf]
      exact hf
  have hq : 128 * l / 128 = l := by omega
  have hh : (Tab.find (reached l m).lines (128 * l / 128)).isSome = true := by
    unfold reached entered
    rw [hq, State.setLine_lines, Tab.find_put_self]
    rfl
  obtain ⟨s', hx, _, ho⟩ := (h 0 5 l (drained l m) (reached l m) drain (drained_find l m)).2 (128 * l) hr (hp _ rfl rfl rfl)
  have hml : m ≠ 128 * l / 128 := by omega
  have hv : (s'.homeLine m).value = 1 := by
    rw [← Host.Outcome.next.inj hx, accstAddLineUpdate_place (drained_find l m) hr hp hh hml]
    exact entered_value hn.symm _
  have h0 := ho m hml
  rw [hv, show (drained l m).homeLine m = (state l m).homeLine m from rfl, state_value] at h0
  exact absurd h0 (by decide +kernel)

end Sys2Proof.Machine
end

section
/-! SUPPORT. Pages moved by memory requests, and the acknowledgement of a bump (R81, R87, R95 to R97). -/

namespace Sys2Proof.Machine

set_option Elab.async false

theorem miginOp_open {r : MemRequest} {s : State} {ls : List Leaf} (hf : s.moveFixed r = none) (hw : s.reqWaits r = false)
    (hc : s.reqCheck r true false = none) (hl : s.leaves r.asid r.va.toNat r.len.toNat = some ls)
    (hs : ∀ l ∈ ls, sticksOut r l = false) :
    let s1 := (ls.filter fun l => !pteV l.e).foldl (fun s l => s.moveIn r.asid l.va) s
    miginOp r s = if s1.fits then s1.completeReq r 0 else s.completeReq r 5 := by
  intro s1
  have ha : ls.any (sticksOut r) = false := List.any_eq_false.mpr fun l h => by simp [hs l h]
  unfold miginOp
  simp only [hf, hw, hc, hl, ha, Bool.false_eq_true, if_false]
  change (if (!s1.fits) = true then _ else _) = _
  cases s1.fits <;> rfl

theorem miginOp_fixed {r : MemRequest} {s : State} {st : Nat} (hf : s.moveFixed r = some st) : miginOp r s = s.completeReq r st := by
  unfold miginOp
  rw [hf]

theorem migoutOp_fixed {r : MemRequest} {s : State} {st : Nat} (hf : s.moveFixed r = some st) : migoutOp r s = s.completeReq r st := by
  unfold migoutOp
  rw [hf]

/-- The resident entries of a range. -/
def resident (ls : List Leaf) : List Leaf := ls.filter fun l => pteV l.e && pteTgt l.e == 0

/-- A check that no bump fails allows what needs none. -/
theorem State.reqCheck_any {s : State} {r : MemRequest} {ranged : Bool} (h : s.reqCheck r ranged true = none) (b : Bool) :
    s.reqCheck r ranged b = none := by
  unfold State.reqCheck at h ⊢
  split at h
  · cases h
  · split at h
    · rename_i h1 h2
      rw [if_neg h1, if_pos h2]
    · split at h <;> cases h

/-- What MIGOUT does for pages that are all mapped within its range. -/
theorem migoutOp_open {r : MemRequest} {s : State} {ls : List Leaf} (hf : s.moveFixed r = none) (hw : s.reqWaits r = false)
    (hc : s.reqCheck r true true = none) (hl : s.leaves r.asid r.va.toNat r.len.toNat = some ls)
    (hs : ∀ l ∈ ls, sticksOut r l = false) :
    migoutOp r s =
      if (resident ls).any (s.leafLeased r.asid) then s.completeReq r 2
      else if (pageList r.va.toNat r.len.toNat).any fun p => !s.backed r.asid p then s.completeReq r 7
      else if (resident ls).isEmpty then s.completeReq r 0
      else if !s.canBump r.asid then s.completeReq r 6
      else if !(s.squeezed (resident ls)).isEmpty then
        (((s.squeezed (resident ls)).filter fun n => (s.frame n).state == 2).foldl (fun s n => s.expand n) s).hold (.migout r)
      else s.moveOut r ((resident ls).map Leaf.va) := by
  have ha : ls.any (sticksOut r) = false := List.any_eq_false.mpr fun l h => by simp [hs l h]
  have hb := State.reqCheck_any hc
  unfold migoutOp
  simp only [hf, hw, hl, Option.getD_some, hb, Option.isNone_some, ha, Bool.false_eq_true, if_false]
  rfl

theorem leased_any {r : MemRequest} {s : State} {ls : List Leaf} :
    ls.any (s.leafLeased r.asid) = true ↔ ∃ l ∈ ls, s.leafLeased r.asid l = true := List.any_eq_true

theorem leased_none {r : MemRequest} {s : State} {ls : List Leaf} (h : ∀ l ∈ ls, s.leafLeased r.asid l = false) :
    ls.any (s.leafLeased r.asid) = false := List.any_eq_false.mpr fun l hl => by simp [h l hl]

theorem backed_all {r : MemRequest} {s : State} {ps : List Nat} (h : ∀ q ∈ ps, s.backed r.asid q = true) :
    (ps.any fun p => !s.backed r.asid p) = false := List.any_eq_false.mpr fun q hq => by simp [h q hq]

/-! ## Bumps -/

/-- External reads that end leave the address spaces, the bumps and the frames. -/
theorem State.asids_staleXreads (s : State) (asid gen : Nat) : (s.staleXreads asid gen).asids = s.asids ∧
    (s.staleXreads asid gen).bumps = s.bumps := by
  have h (l : List Xread) (u : State) : (l.foldl (fun s x => s.sendOnce (.xreadCompletionWord x.id)) u).asids = u.asids ∧
      (l.foldl (fun s x => s.sendOnce (.xreadCompletionWord x.id)) u).bumps = u.bumps := by
    induction l generalizing u with
    | nil => exact ⟨rfl, rfl⟩
    | cons x rest ih =>
      obtain ⟨ha, hb⟩ := ih (u.sendOnce (.xreadCompletionWord x.id))
      have hu : (u.sendOnce (.xreadCompletionWord x.id)).asids = u.asids ∧ (u.sendOnce (.xreadCompletionWord x.id)).bumps = u.bumps := by
        unfold State.sendOnce
        split <;> exact ⟨rfl, rfl⟩
      exact ⟨ha.trans hu.1, hb.trans hu.2⟩
  exact h _ _

theorem State.installGen_asids (s : State) (b : Bump) (agent : Nat) : (s.installGen b agent).asids = s.asids ∧
    (s.installGen b agent).bumps =
      s.bumps.map fun x => if x = b then { x with installs := x.installs.filter (· ≠ agent) } else x := by
  unfold State.installGen
  dsimp only
  split
  · exact State.asids_staleXreads _ _ _
  · exact ⟨rfl, rfl⟩

/-- A receiver that has not installed the one bump of an address space installs it, and comes back for the acknowledgement. -/
theorem generationAck_installs {asid agent : Nat} {b : Bump} {s : State} (hs : s.bumps = [b]) (ha : b.asid = asid)
    (hi : agent ∈ b.installs) : generationAck asid agent s = (s.installGen b agent).hold (.generationAck asid agent) := by
  have hf : (s.bumps.find? fun b => b.asid == asid && b.installs.contains agent) = some b := by
    rw [hs]
    simp [ha, hi]
  unfold generationAck
  rw [hf]

theorem State.genAt_installed {s : State} {asid agent : Nat} {b : Bump} (hs : s.bumps = [b]) :
    ((s.installGen b agent).hold (.generationAck asid agent)).genAt agent asid = (s.asid asid).gen := by
  obtain ⟨ha, hb⟩ := s.installGen_asids b agent
  have hg : ((s.installGen b agent).hold (.generationAck asid agent)).asid asid = s.asid asid := by
    change (Tab.find (s.installGen b agent).asids asid).getD _ = _
    rw [ha]
    rfl
  have hn : (((s.installGen b agent).hold (.generationAck asid agent)).bumps.filter fun b =>
      b.asid == asid && b.installs.contains agent) = [] := by
    change ((s.installGen b agent).bumps.filter _) = []
    rw [hb, hs]
    simp
  unfold State.genAt
  rw [hg, hn]
  rfl

/-- The collapse of frames whose lines have no live lease and no collapse under way is over at once. -/
theorem State.collapseFrame_none {s : State} {n : Nat} (h : ∀ e ∈ s.lines, e.1 / 512 = n → e.2.cpend = false ∧ s.liveLeases e.1 e.2 = []) :
    s.collapseFrame n = (s, true) := by
  have hm : (s.lines.filter fun e => e.1 / 512 == n && (e.2.cpend || !(s.liveLeases e.1 e.2).isEmpty)) = [] := by
    refine List.filter_eq_nil_iff.mpr fun e he => ?_
    by_cases hn : e.1 / 512 = n
    · obtain ⟨hc, hl⟩ := h e he hn
      simp [hc, hl]
    · simp [hn]
  unfold State.collapseFrame
  simp only [hm, List.filter_nil, List.foldl_nil, List.isEmpty_nil]

theorem State.collapseFrames_none {s : State} : (ns : List Nat) →
    (∀ e ∈ s.lines, e.1 / 512 ∈ ns → e.2.cpend = false ∧ s.liveLeases e.1 e.2 = []) →
    (ns.foldl (fun (acc : State × Bool) n => ((acc.1.collapseFrame n).1, acc.2 && (acc.1.collapseFrame n).2)) (s, true)) = (s, true)
  | [], _ => rfl
  | n :: rest, h => by
    rw [List.foldl_cons, State.collapseFrame_none fun e he hn => h e he (by simp [hn])]
    exact State.collapseFrames_none rest fun e he hr => h e he (List.mem_cons_of_mem _ hr)

theorem Tab.find_del_ne {α : Type} {j k : Nat} (h : j ≠ k) : (t : Tab α) → Tab.find (Tab.del t k) j = Tab.find t j
  | [] => rfl
  | (i, v) :: rest => by
    have ih := Tab.find_del_ne h rest
    unfold Tab.del at ih ⊢
    by_cases hi : i = k
    · subst hi
      rw [List.filter_cons_of_neg (by simp), ih]
      simp [Tab.find, h]
    · rw [List.filter_cons_of_pos (by simp [hi])]
      simp only [Tab.find, ih]

theorem State.frames_fireFrame (s : State) (n : Nat) : (s.fireFrame n).frames = s.frames ∧ (s.fireFrame n).bumps = s.bumps := by
  have hm (u : State) (m : Monitor) (r : Bool) : (u.fireMonitor m r).frames = u.frames ∧ (u.fireMonitor m r).bumps = u.bumps := by
    have h (l : List Nat) (v : State) : (l.foldl (fun s a => s.send (.monitorWake m.key a r)) v).frames = v.frames ∧
        (l.foldl (fun s a => s.send (.monitorWake m.key a r)) v).bumps = v.bumps := by
      induction l generalizing v with
      | nil => exact ⟨rfl, rfl⟩
      | cons a rest ih => exact ih _
    exact h _ _
  have h (l : List Monitor) (u : State) : (l.foldl (fun s m => s.fireMonitor m false) u).frames = u.frames ∧
      (l.foldl (fun s m => s.fireMonitor m false) u).bumps = u.bumps := by
    induction l generalizing u with
    | nil => exact ⟨rfl, rfl⟩
    | cons m rest ih =>
      obtain ⟨hf, hb⟩ := ih (u.fireMonitor m false)
      obtain ⟨hf', hb'⟩ := hm u m false
      exact ⟨hf.trans hf', hb.trans hb'⟩
  exact h _ _

/-- A frame that is released is free, and every other frame and every bump is as before. -/
theorem State.releaseFrame_frame (s : State) (n : Nat) : ((s.releaseFrame n).frame n).state = 0 ∧
    (∀ k, k ≠ n → (s.releaseFrame n).frame k = s.frame k) ∧ (s.releaseFrame n).bumps = s.bumps := by
  obtain ⟨hf, hb⟩ := s.frames_fireFrame n
  unfold State.releaseFrame
  dsimp only
  split
  · rename_i h0
    exact ⟨h0, fun _ _ => rfl, rfl⟩
  · refine ⟨?_, fun k hk => ?_, hb⟩
    · change ((Tab.find (Tab.del (s.fireFrame n).frames n) n).getD Frame.free).state = 0
      rw [Tab.find_del]
      rfl
    · change (Tab.find (Tab.del (s.fireFrame n).frames n) k).getD Frame.free = _
      rw [Tab.find_del_ne hk, hf]
      rfl

theorem State.releaseFrames_frame : (ns : List Nat) → (s : State) →
    let s' := ns.foldl (fun s n => s.releaseFrame n) s
    (∀ n ∈ ns, (s'.frame n).state = 0) ∧ (∀ n, n ∉ ns → s'.frame n = s.frame n) ∧ s'.bumps = s.bumps
  | [], s => ⟨fun _ h => (List.not_mem_nil h).elim, fun _ _ => rfl, rfl⟩
  | k :: rest, s => by
    obtain ⟨h0, hk, hb⟩ := s.releaseFrame_frame k
    obtain ⟨i0, ik, ib⟩ := State.releaseFrames_frame rest (s.releaseFrame k)
    refine ⟨fun n hn => ?_, fun n hn => ?_, ib.trans hb⟩
    · by_cases hr : n ∈ rest
      · exact i0 n hr
      · have hnk : n = k := by simpa [hr] using hn
        subst hnk
        rw [List.foldl_cons, ik n hr]
        exact h0
    · rw [List.mem_cons, not_or] at hn
      rw [List.foldl_cons, ik n hn.2, hk n hn.1]

theorem generationAck_waits {asid agent : Nat} {b : Bump} {s : State} (hs : s.bumps = [b]) (ha : b.asid = asid)
    (hi : agent ∉ b.installs) (hw : b.waiting = [agent]) (ho : agent ∈ s.outstanding asid b.gen) :
    generationAck asid agent s = s.hold (.generationAck asid agent) := by
  have hf : (s.bumps.find? fun b => b.asid == asid && b.installs.contains agent) = none := by
    rw [hs]
    simp [hi]
  unfold generationAck
  rw [hf]
  refine if_pos ?_
  rw [hs]
  simp [ha, hw, ho]

/-- The last acknowledgement of a bump that no request waits on: its frames are released. -/
theorem generationAck_last {asid agent : Nat} {b : Bump} {s : State} (hs : s.bumps = [b]) (ha : b.asid = asid)
    (hi : agent ∉ b.installs) (hw : b.waiting = [agent]) (hr : b.reqs = []) (ho : agent ∉ s.outstanding asid b.gen)
    (hl : ∀ e ∈ s.lines, e.1 / 512 ∈ b.frames → e.2.cpend = false ∧ s.liveLeases e.1 e.2 = []) :
    generationAck asid agent s = b.frames.foldl (fun s n => s.releaseFrame n) { s with bumps := [] } := by
  have hf : (s.bumps.find? fun b => b.asid == asid && b.installs.contains agent) = none := by
    rw [hs]
    simp [hi]
  have hn : (s.bumps.any fun b => b.asid == asid && b.waiting.contains agent && (s.outstanding asid b.gen).contains agent) = false := by
    rw [hs]
    simp [ho]
  have hk : (s.bumps.map fun b => if b.asid = asid then { b with waiting := b.waiting.filter (· ≠ agent) } else b)
      = [{ b with waiting := [] }] := by
    rw [hs]
    simp [ha, hw]
  have hd : ([({ b with waiting := [] } : Bump)].filter fun b => b.asid == asid && b.waiting.isEmpty) = [{ b with waiting := [] }] := by
    simp [ha]
  have he : ([({ b with waiting := [] } : Bump)].filter fun b => !(b.asid == asid && b.waiting.isEmpty)) = [] := by
    simp [ha]
  have hb : ([({ b with waiting := [] } : Bump)].flatMap s.bumpFrames) = b.frames := by
    simp [State.bumpFrames, hr]
  have hc := State.collapseFrames_none (s := { s with bumps := [{ b with waiting := [] }] }) b.frames hl
  unfold generationAck
  simp only [hf, hn, hk, hd, he, hb, hc, if_true, Bool.false_eq_true, if_false, List.foldl_cons, List.foldl_nil]
  simp only [State.finishBump, hr, List.foldl_nil, List.isEmpty_nil, if_true]

theorem pagesMove : Claim.PagesMove := by
  refine ⟨fun r s ls hf hw hc hl hs => ?_, fun r s st hf => ?_, fun asid agent b s hb ha hi => ?_,
    fun asid agent b s hb ha hi hw hr => ⟨fun ho hl => ?_, fun ho => ?_⟩⟩
  · have hopen := migoutOp_open hf hw hc hl hs
    refine ⟨congrArg Host.Outcome.next (miginOp_open hf hw (State.reqCheck_any hc _) hl hs), fun hfree hback => ⟨fun he => ?_, fun hne hbump => ?_⟩,
      fun hx => ?_⟩
    · have he : resident ls = [] := he
      rw [leased_none (ls := resident ls) hfree, backed_all hback, he] at hopen
      exact congrArg Host.Outcome.next hopen
    · have hne : (resident ls).isEmpty = false := List.isEmpty_eq_false_iff.mpr hne
      rw [leased_none (ls := resident ls) hfree, backed_all hback, hne, hbump] at hopen
      refine ⟨fun hq => ?_, fun hq => ?_⟩
      · have hq : s.squeezed (resident ls) = [] := hq
        rw [hq] at hopen
        exact congrArg Host.Outcome.next hopen
      · have hq : (s.squeezed (resident ls)).isEmpty = false := List.isEmpty_eq_false_iff.mpr hq
        rw [hq] at hopen
        exact congrArg Host.Outcome.next hopen
    · rw [(leased_any (ls := resident ls)).mpr hx] at hopen
      exact congrArg Host.Outcome.next hopen
  · exact ⟨congrArg Host.Outcome.next (miginOp_fixed hf), congrArg Host.Outcome.next (migoutOp_fixed hf)⟩
  · refine ⟨_, congrArg Host.Outcome.next (generationAck_installs hb ha hi), State.genAt_installed hb, List.mem_cons_self ..⟩
  · obtain ⟨h0, hk, hbs⟩ := State.releaseFrames_frame b.frames { s with bumps := [] }
    exact ⟨_, congrArg Host.Outcome.next (generationAck_last hb ha hi hw hr ho hl), hbs, h0, hk⟩
  · exact congrArg Host.Outcome.next (generationAck_waits hb ha hi hw ho)

end Sys2Proof.Machine
end

section
/-! SUPPORT. The sweeper, compression, expansion and eviction (R79, R88, R94 to R97). -/

namespace Sys2Proof.Machine

set_option Elab.async false

/-- What firmware does to page tables and frames leaves FE, the ready queue and the grids. -/
structure State.Tables (s s' : State) : Prop where
  fe : s'.fe = s.fe
  queue : s'.mem.swQ = s.mem.swQ
  grids : s'.grids = s.grids

theorem State.Tables.refl (s : State) : s.Tables s := ⟨rfl, rfl, rfl⟩

theorem State.Tables.trans {a b c : State} (h : a.Tables b) (k : b.Tables c) : a.Tables c :=
  ⟨k.fe.trans h.fe, k.queue.trans h.queue, k.grids.trans h.grids⟩

theorem State.tables_foldl {β : Type} {f : State → β → State} (h : ∀ (s : State) x, s.Tables (f s x)) :
    (l : List β) → (s : State) → s.Tables (l.foldl f s)
  | [], s => .refl s
  | x :: rest, s => (h s x).trans (tables_foldl h rest (f s x))

theorem State.tables_poke (host : Bool) : (bs : List Byte) → (pa : Nat) → (s : State) → s.Tables (s.poke host pa bs)
  | [], _, s => .refl s
  | b :: rest, pa, s => by
    unfold State.poke
    refine State.Tables.trans ?_ (tables_poke host rest (pa + 1) _)
    split
    · exact ⟨rfl, rfl, rfl⟩
    · split <;> exact ⟨rfl, rfl, rfl⟩

theorem State.tables_allocTable (s : State) (bytes : Nat) : s.Tables (s.allocTable bytes).2 := by
  unfold State.allocTable
  dsimp only
  split <;> exact ⟨rfl, rfl, rfl⟩

theorem State.tables_setPteFrom (va : DWord) (target e : Nat) : (lvl base : Nat) → (s : State) →
    s.Tables (s.setPteFrom base va target e lvl)
  | 0, _, s => .refl s
  | lvl + 1, base, s => by
    unfold State.setPteFrom
    dsimp only
    split
    · exact s.tables_poke _ _ _
    · split
      · exact tables_setPteFrom va target e lvl _ s
      · exact (s.tables_allocTable _).trans ((State.tables_poke _ _ _ _).trans (tables_setPteFrom va target e lvl _ _))

theorem State.tables_undoOut (s : State) (asid va : Nat) : s.Tables (s.undoOut asid va) := by
  unfold State.undoOut
  exact (State.tables_foldl (f := fun s n => s.setFrame n fun f => { f with state := 1 }) (fun _ _ => ⟨rfl, rfl, rfl⟩) _ s).trans
    (State.tables_setPteFrom _ _ _ _ _ _)

/-- A claim leaves FE, the ready queue and the grids, and its request is listed. -/
theorem State.claim_lists (s : State) (r : MemRequest) (record : Option (Bool × Nat)) (op : Nat) :
    s.Tables (s.claim r record op) ∧ ∃ k m, Tab.find (s.claim r record op).mreqs k = some m ∧ m.req = r ∧ m.op = op ∧
      m.fromDevice = r.slot.isNone := by
  unfold State.claim
  dsimp only
  refine ⟨State.Tables.trans (State.tables_foldl (fun u e => ?_) _ s) ⟨rfl, rfl, rfl⟩, _, _, Tab.find_put_self _ _ _, rfl, rfl, rfl⟩
  exact State.Tables.trans (b := { u with mreqs := Tab.upd u.mreqs e.1 fun m => { m with retry := true } }) ⟨rfl, rfl, rfl⟩
    (State.tables_foldl (fun v p => v.tables_undoOut _ _) _ _)

/-! ## Frames -/

theorem State.frame_setFrame_self (s : State) (n : Nat) (f : Frame → Frame) : (s.setFrame n f).frame n = f (s.frame n) := by
  rw [State.frame_setFrame, if_pos rfl]

/-- The frame that the sweeper visits has been used since. -/
theorem sweeperVisit_used {s : State} (ho : s.sweepOn = true) (h1 : (s.frame s.mem.swHand).state = 1)
    (h2 : (s.frame s.mem.swHand).pin = false) (h3 : (s.frame s.mem.swHand).owner ≠ 0) (ha : (s.frame s.mem.swHand).accessed = true) :
    sweeperVisit s = ({ s with mem := { s.mem with swHand := (s.mem.swHand + 1) % 2 ^ 24 } } : State).setFrame s.mem.swHand
      fun f => { f with accessed := false } := by
  unfold sweeperVisit
  simp only [ho, h1, h2, h3, ha, Bool.not_true, Bool.false_eq_true, if_false, and_self, if_true, ne_eq, not_false_eq_true]

theorem State.eligible_iff {s : State} {fe : Frame} (h : s.eligible fe = true) : fe.state = 1 ∧ fe.pin = false ∧ fe.owner ≠ 0 := by
  unfold State.eligible at h
  simp only [Bool.and_eq_true, beq_iff_eq, bne_iff_ne, Bool.not_eq_true'] at h
  obtain ⟨⟨⟨h1, h2⟩, h3⟩, _⟩ := h
  exact ⟨h1, h2, h3⟩

theorem sweeperVisit_queues {s : State} (ho : s.sweepOn = true) (he : s.eligible (s.frame s.mem.swHand) = true)
    (ha : (s.frame s.mem.swHand).accessed = false) (hq : s.mem.swQ.length < 1024) :
    sweeperVisit s = ({ s with mem := { s.mem with swHand := (s.mem.swHand + 1) % 2 ^ 24, swQ := s.mem.swQ ++ [s.mem.swHand] } } : State).send
      (if (s.asid (s.frame s.mem.swHand).owner).cold = 1 then .compression s.mem.swHand else .eviction s.mem.swHand) := by
  obtain ⟨h1, h2, h3⟩ := State.eligible_iff he
  unfold sweeperVisit
  simp only [ho, h1, h2, h3, ha, he, hq, Bool.not_true, Bool.false_eq_true, if_false, and_self, if_true, ne_eq, not_false_eq_true]

/-- The sweeper's hand moves on, and only the frame that it visits changes. -/
theorem sweeperVisit_moves {s : State} (ho : s.sweepOn = true) : (sweeperVisit s).mem.swHand = (s.mem.swHand + 1) % 2 ^ 24 ∧
    ∀ k, k ≠ s.mem.swHand → (sweeperVisit s).frame k = s.frame k := by
  unfold sweeperVisit
  simp only [ho, Bool.not_true, Bool.false_eq_true, if_false]
  split
  · split
    · exact ⟨rfl, fun k hk => (State.frame_setFrame _ _ _ _).trans (if_neg hk)⟩
    · split <;> exact ⟨rfl, fun _ _ => rfl⟩
  · exact ⟨rfl, fun _ _ => rfl⟩

theorem sweeperActs_visit (s : State) :
    let n := s.mem.swHand
    (s.sweepOn = false → exec .sweeperVisit s = .next s) ∧
    (s.sweepOn = true → ∃ s', exec .sweeperVisit s = .next s' ∧ s'.mem.swHand = (n + 1) % 2 ^ 24 ∧
      (∀ k, k ≠ n → s'.frame k = s.frame k) ∧
      ((s.frame n).state = 1 → (s.frame n).pin = false → (s.frame n).owner ≠ 0 → (s.frame n).accessed = true →
        s'.frame n = { s.frame n with accessed := false } ∧ s'.net = s.net ∧ s'.mem.swQ = s.mem.swQ) ∧
      (s.eligible (s.frame n) = true → (s.frame n).accessed = false → s.mem.swQ.length < 1024 →
        s'.mem.swQ = s.mem.swQ ++ [n] ∧
        s'.net = s.net ++ [if (s.asid (s.frame n).owner).cold = 1 then .compression n else .eviction n])) := by
  intro n
  refine ⟨fun h => congrArg Host.Outcome.next ?_, fun ho => ⟨sweeperVisit s, rfl, (sweeperVisit_moves ho).1, (sweeperVisit_moves ho).2,
    fun h1 h2 h3 ha => ?_, fun he ha hq => ?_⟩⟩
  · unfold sweeperVisit
    simp only [h, Bool.not_false, if_true]
  · rw [sweeperVisit_used ho h1 h2 h3 ha]
    exact ⟨State.frame_setFrame_self _ _ _, rfl, rfl⟩
  · rw [sweeperVisit_queues ho he ha hq]
    exact ⟨rfl, rfl⟩

/-! ## Compression and expansion -/

/-- The granules that a compressed image gets lie in the moraine zone. -/
theorem State.freeGranules_fits {s : State} {g c : Nat} (h : s.freeGranules g = some c) : c + g ≤ s.mem.moraine := by
  unfold State.freeGranules at h
  have hp := List.find?_some h
  rw [Bool.and_eq_true, decide_eq_true_eq] at hp
  exact hp.1

theorem compression_starts {n : Nat} {s : State} (he : s.eligible (s.frame n) = true) (hc : (s.asid (s.frame n).owner).cold = 1) :
    ∃ g, ∃ s', compression n s = s' ∧ (s'.frame n).state = 4 ∧ 1 ≤ g ∧ s'.net = s.net ++ [.compressionCommit n g] ∧
      s'.mem.swQ = s.mem.swQ.erase n := by
  let u : State := { s with mem := { s.mem with swQ := s.mem.swQ.erase n }, freeCtr := s.freeCtr + 1 }
  refine ⟨max 1 (Config.compressedGranules n s.freeCtr),
    (u.setFrame n fun f => { f with state := 4 }).send (.compressionCommit n (max 1 (Config.compressedGranules n s.freeCtr))),
    if_pos ⟨he, hc⟩, ?_, Nat.le_max_left _ _, rfl, rfl⟩
  exact congrArg Frame.state (u.frame_setFrame_self n fun f => { f with state := 4 })

theorem not_eligible {s : State} {fe : Frame} {p : Prop} (h : s.eligible fe = false) : ¬ (s.eligible fe = true ∧ p) := by
  simp [h]

theorem compressionCommit_state4 {n g : Nat} {s : State} (h4 : (s.frame n).state = 4) :
    compressionCommit n g s = if g > 24 then s.setFrame n fun f => { f with state := 1, noComp := true }
      else match s.freeGranules g with
      | none => s.setFrame n fun f => { f with state := 1 }
      | some c => match s.collapseFrame n with
        | (s1, false) => s1.hold (.compressionCommit n g)
        | (s1, true) =>
          ((s1.flushFrame n).setFrame n fun f => { f with state := 2, mlen := g, mgran := c, sfn := 0 }).setFree (s1.mem.swFree + 1) := by
  unfold compressionCommit
  exact if_neg (by simp [h4])

theorem sweeperActs_commit {n g : Nat} {s : State} (h4 : (s.frame n).state = 4) :
    (24 < g → ∃ s', exec (.compressionCommit n g) s = .next s' ∧ (s'.frame n).state = 1 ∧ (s'.frame n).noComp = true ∧
      s'.lines = s.lines) ∧
    (g ≤ 24 → s.freeGranules g = none → exec (.compressionCommit n g) s = .next (s.setFrame n fun f => { f with state := 1 })) ∧
    (∀ c, g ≤ 24 → s.freeGranules g = some c →
      (∀ e ∈ s.lines, e.1 / 512 = n → e.2.cpend = false ∧ s.liveLeases e.1 e.2 = []) → c + g ≤ s.mem.moraine ∧
      ∃ s', exec (.compressionCommit n g) s = .next s' ∧ (s'.frame n).state = 2 ∧ (s'.frame n).mlen = g ∧ (s'.frame n).mgran = c ∧
        (s'.frame n).sfn = 0 ∧ s'.mem.swFree = s.mem.swFree + 1 ∧ (∀ e ∈ s'.lines, e.1 / 512 ≠ n) ∧
        ∀ c ∈ s'.copies, c.line / 512 ≠ n) := by
  have hc := compressionCommit_state4 (g := g) h4
  refine ⟨fun hg => ⟨_, congrArg Host.Outcome.next (hc.trans (if_pos hg)), ?_, ?_, rfl⟩, fun hg hn => ?_,
    fun c hg hn hl => ⟨State.freeGranules_fits hn, ?_⟩⟩
  · exact congrArg Frame.state (State.frame_setFrame_self _ _ _)
  · exact congrArg Frame.noComp (State.frame_setFrame_self _ _ _)
  · refine congrArg Host.Outcome.next (hc.trans ((if_neg (by omega)).trans ?_))
    rw [hn]
  · refine ⟨((s.flushFrame n).setFrame n fun f => { f with state := 2, mlen := g, mgran := c, sfn := 0 }).setFree (s.mem.swFree + 1),
      congrArg Host.Outcome.next (hc.trans ((if_neg (by omega)).trans ?_)), ?_⟩
    · rw [hn, State.collapseFrame_none hl]
    · have hf : (((s.flushFrame n).setFrame n fun f => { f with state := 2, mlen := g, mgran := c, sfn := 0 }).setFree
          (s.mem.swFree + 1)).frame n = { (s.flushFrame n).frame n with state := 2, mlen := g, mgran := c, sfn := 0 } :=
        (s.flushFrame n).frame_setFrame_self n fun f => { f with state := 2, mlen := g, mgran := c, sfn := 0 }
      rw [hf]
      refine ⟨rfl, rfl, rfl, rfl, rfl, fun e he => ?_, fun c hc => ?_⟩
      · simpa using (List.mem_filter.mp he).2
      · simpa using (List.mem_filter.mp hc).2

theorem sweeperActs_expansion (n : Nat) (s : State) :
    ((s.frame n).state = 3 → ∃ s', exec (.expansion n) s = .next s' ∧ (s'.frame n).state = 1 ∧ (s'.frame n).mlen = 0 ∧
      s'.mem.swFree = s.mem.swFree) ∧
    ((s.frame n).state = 2 → 0 < s.mem.swFree → ∃ s', exec (.expansion n) s = .next s' ∧ (s'.frame n).state = 3 ∧
      (s'.frame n).sfn = s.freshSfn ∧ s'.mem.swFree = s.mem.swFree - 1 ∧ s'.net = s.net ++ [.expansion n]) := by
  refine ⟨fun h3 => ⟨s.setFrame n fun f => { f with state := 1, mlen := 0, mgran := 0 }, congrArg Host.Outcome.next (if_pos h3), ?_, ?_, rfl⟩,
    fun h2 hfree => ⟨s.expand n, congrArg Host.Outcome.next ?_, ?_⟩⟩
  · exact congrArg Frame.state (State.frame_setFrame_self _ _ _)
  · exact congrArg Frame.mlen (State.frame_setFrame_self _ _ _)
  · unfold expansion
    simp [h2, Nat.pos_iff_ne_zero.mp hfree]
  · have he : s.expand n = (((s.setFree (s.mem.swFree - 1)).setFrame n fun fe => { fe with state := 3, sfn := s.freshSfn })).send
        (.expansion n) := if_neg (Nat.pos_iff_ne_zero.mp hfree)
    rw [he]
    have hf := (s.setFree (s.mem.swFree - 1)).frame_setFrame_self n fun fe => { fe with state := 3, sfn := s.freshSfn }
    exact ⟨congrArg Frame.state hf, congrArg Frame.sfn hf, rfl, rfl⟩

/-! ## Eviction -/

theorem eviction_goes {n : Nat} {s : State} (he : s.eligible (s.frame n) = true) (hc : (s.asid (s.frame n).owner).cold = 2) :
    let f := s.frame n
    let r : MemRequest := ⟨0, f.owner, BitVec.ofNat 64 f.va, 65536, 0, 0, s.fe.nextSeq, 0, none⟩
    let s1 : State := { s with mem := { s.mem with swQ := s.mem.swQ.erase n } }
    eviction n s = if s.opposed f.owner f.va 7 then s1.hold (.eviction n) else (s1.takeSeq.2.claim r none 7).send (.migout r) :=
  if_pos ⟨he, hc⟩

theorem sweeperActs_eviction {n : Nat} {s : State} (he : s.eligible (s.frame n) = true) (hc : (s.asid (s.frame n).owner).cold = 2) :
    let f := s.frame n
    let r : MemRequest := ⟨0, f.owner, BitVec.ofNat 64 f.va, 65536, 0, 0, s.fe.nextSeq, 0, none⟩
    (s.opposed f.owner f.va 7 = false →
      ∃ s' k m, exec (.eviction n) s = .next s' ∧ s'.fe.nextSeq = s.fe.nextSeq + 1 ∧ s'.mem.swQ = s.mem.swQ.erase n ∧
        Msg.migout r ∈ s'.net ∧ Tab.find s'.mreqs k = some m ∧ m.req = r ∧ m.op = 7 ∧ m.fromDevice = true) ∧
    (s.opposed f.owner f.va 7 = true → exec (.eviction n) s = .next
      ({ s with mem := { s.mem with swQ := s.mem.swQ.erase n } }.hold (.eviction n))) := by
  intro f r
  have hg := eviction_goes he hc
  refine ⟨fun ho => ?_, fun ho => congrArg Host.Outcome.next (hg.trans (if_pos ho))⟩
  obtain ⟨ht, k, m, hk, hr, hop, hd⟩ := State.claim_lists
    (State.takeSeq { s with mem := { s.mem with swQ := s.mem.swQ.erase n } }).2 r none 7
  refine ⟨_, k, m, congrArg Host.Outcome.next (hg.trans (if_neg (Bool.eq_false_iff.mp ho))), ?_, ht.queue, ?_, hk, hr, hop, hd⟩
  · exact congrArg FrontEnd.nextSeq ht.fe
  · exact List.mem_append_right _ (List.mem_singleton_self _)

theorem sweeperActs : Claim.SweeperActs := by
  refine ⟨sweeperActs_visit, fun n s he hc => ?_, fun n s he => ⟨⟨_, congrArg Host.Outcome.next (if_neg (not_eligible he)), rfl, rfl⟩,
    ⟨_, congrArg Host.Outcome.next (if_neg (not_eligible he)), rfl, rfl⟩⟩, fun n g s h4 => sweeperActs_commit h4, sweeperActs_expansion,
    fun n s he hc => sweeperActs_eviction he hc⟩
  obtain ⟨g, s', hs, h⟩ := compression_starts he hc
  exact ⟨s', g, congrArg Host.Outcome.next hs, h⟩

/-- Settles O47: clause by clause from what each step does. -/
theorem pagesAndSweeping : Obligations.PagesAndSweeping := ⟨pagesMove, sweeperActs⟩

end Sys2Proof.Machine
end

section
/-! SUPPORT. Queue commands (R353, R374). -/

namespace Sys2Proof.Machine

set_option Elab.async false

theorem State.feThen_reached {s s1 : State} {asid : Nat} {write : Bool} {spans : List (Nat × Nat)}
    (h : s.feReach asid write spans = (s1, true)) (m : Msg) (act : State → State) : s.feThen asid write spans m act = act s1 := by
  unfold State.feThen
  rw [h]

theorem State.feThen_waits {s s1 : State} {asid : Nat} {write : Bool} {spans : List (Nat × Nat)}
    (h : s.feReach asid write spans = (s1, false)) (m : Msg) (act : State → State) : s.feThen asid write spans m act = s1.hold m := by
  unfold State.feThen
  rw [h]

theorem State.feReach_prog {s s1 : State} {asid : Nat} {write b : Bool} {spans : List (Nat × Nat)}
    (h : s.feReach asid write spans = (s1, b)) : s1.prog = s.prog := by
  have hp := s.prog_feReach asid write spans
  rwa [h] at hp

theorem State.queue?_setQueue (s : State) (qid : Nat) (f : Queue → Queue) :
    (s.setQueue qid f).queue? qid = (s.queue? qid).map f := Tab.find_upd_self _ _ _

theorem State.queue?_setQueue_some {s : State} {qid : Nat} {q : Queue} (h : s.queue? qid = some q) (f : Queue → Queue) :
    (s.setQueue qid f).queue? qid = some (f q) := by
  rw [State.queue?_setQueue, h]
  rfl

/-! ## QUEUE_CREATE -/

theorem queueCreate_refused {qid : Nat} {s : State} (h : descOk s.qdescBytes = false) : queueCreate qid s = s.queueRefused 2 := by
  unfold queueCreate
  simp [h]

/-- A descriptor that keeps its rules, of a live address space whose pages FE reads and writes. -/
structure State.SoundDesc (s : State) : Prop where
  ok : descOk s.qdescBytes = true
  live : (s.asid (Queue.ofDesc s.qdescBytes 0 s.now).asid).st = 1
  ctrl : s.feBoth (Queue.ofDesc s.qdescBytes 0 s.now).asid (Queue.ofDesc s.qdescBytes 0 s.now).ctrl = true
  stat : s.feBoth (Queue.ofDesc s.qdescBytes 0 s.now).asid (Queue.ofDesc s.qdescBytes 0 s.now).stat = true

theorem queueCreate_taken {qid : Nat} {s : State} (h : s.SoundDesc) (hq : (s.queue? qid).isSome = true) :
    queueCreate qid s = s.queueRefused 5 := by
  obtain ⟨hd, hl, hc, ht⟩ := h
  unfold queueCreate
  simp only [hd, hl, hc, ht, hq, Bool.not_true, bne_self_eq_false, Bool.or_self, Bool.false_eq_true, if_false, if_true]

theorem queueCreate_opens {qid : Nat} {s s1 : State} (h : s.SoundDesc) (hq : s.queue? qid = none)
    (hr : s.feReach (Queue.ofDesc s.qdescBytes 0 s.now).asid false [((Queue.ofDesc s.qdescBytes 0 s.now).ctrl.toNat, 8)] = (s1, true)) :
    queueCreate qid s = s1.openQueue qid s.qdescBytes := by
  obtain ⟨hd, hl, hc, ht⟩ := h
  unfold queueCreate
  simp only [hd, hl, hc, ht, hq, Bool.not_true, bne_self_eq_false, Bool.or_self, Bool.false_eq_true, if_false, Option.isSome_none]
  exact State.feThen_reached hr _ _

/-- The queue that a descriptor opens, with the tail as its control line holds it. -/
theorem State.openQueue_queue (s : State) (qid : Nat) (d : List Byte) :
    (s.openQueue qid d).queue? qid = some (Queue.ofDesc d (BitVec.ofNat 64
      ((s.feRead (Queue.ofDesc d 0 s.now).asid (Queue.ofDesc d 0 s.now).ctrl 8).getD 0)) s.now) ∧
    (s.openQueue qid d).fe.qstsCode = 0 ∧ (s.openQueue qid d).fe.qstsSt = 2 := by
  refine ⟨?_, rfl, rfl⟩
  unfold State.openQueue
  dsimp only
  refine (State.queue?_of_prog ((State.prog_feWatch _ _ _).trans ((State.prog_writeStatus _ _).trans (State.prog_feUpdate _ _ _ _ _)))
    qid).trans ?_
  exact Tab.find_put_self _ _ _

/-! ## QUEUE_DESTROY, QUEUE_HALT and QUEUE_RESUME -/

theorem queueDestroy_eq {qid : Nat} {s : State} {q : Queue} (hq : s.queue? qid = some q) :
    ∃ s2 : State, queueDestroy qid s = if (s.grids.any fun g => g.2.queue == qid) || !q.packets.isEmpty then s.queueRefused 1
      else State.queueOk { s2 with fe := { s2.fe with
        queues := Tab.del s2.fe.queues qid, kick := s2.fe.kick.filter (· ≠ qid) } } := by
  refine ⟨q.held.foldl (fun (s : State) (e : QueueError) => s.send (.eventRecordWrite
        ⟨1, qid, 1, e.seq, e.index, BitVec.ofNat 64 (e.err % 256 + 2 ^ 8 * (e.detail.toNat % 2 ^ 56))⟩))
        ((s.feUnwatch q.asid q.ctrl).feUnwatch q.asid q.slotVa), ?_⟩
  unfold queueDestroy
  rw [hq]

theorem queueDestroy_busy {qid : Nat} {s : State} {q : Queue} (hq : s.queue? qid = some q) (hp : q.packets ≠ []) :
    queueDestroy qid s = s.queueRefused 1 := by
  obtain ⟨s2, h⟩ := queueDestroy_eq hq
  have he : q.packets.isEmpty = false := List.isEmpty_eq_false_iff.mpr hp
  rw [h, he]
  exact if_pos (by simp)

theorem queueDestroy_idle {qid : Nat} {s : State} {q : Queue} (hq : s.queue? qid = some q)
    (hg : ∀ g ∈ s.grids, g.2.queue ≠ qid) (hp : q.packets = []) :
    (queueDestroy qid s).queue? qid = none ∧ (queueDestroy qid s).fe.qstsCode = 0 ∧ (queueDestroy qid s).fe.qstsSt = 2 := by
  obtain ⟨s2, h⟩ := queueDestroy_eq hq
  have hn : (s.grids.any fun g => g.2.queue == qid) = false := List.any_eq_false.mpr fun g hm => by simpa using hg g hm
  rw [h, hn, hp]
  exact ⟨Tab.find_del _ _, rfl, rfl⟩

theorem queueHalt_eq {qid : Nat} {s : State} {q : Queue} (hq : s.queue? qid = some q) :
    queueHalt qid s = ((s.setQueue qid fun q => { q with state := if q.state = 2 then 2 else 1 }).writeStatus qid).queueOk := by
  unfold queueHalt
  rw [hq]

theorem queueResume_held {qid : Nat} {s : State} {q : Queue} (hq : s.queue? qid = some q) (hh : q.held ≠ []) :
    queueResume qid s = s.queueRefused 3 := by
  have he : q.held.isEmpty = false := List.isEmpty_eq_false_iff.mpr hh
  unfold queueResume
  simp [hq, he]

theorem queueResume_runs {qid : Nat} {s : State} {q : Queue} (hq : s.queue? qid = some q) (hh : q.held = []) :
    queueResume qid s =
      (((s.setQueue qid fun q => { q with state := 0, error := none }).writeStatus qid).send (.packetAccept qid)).queueOk := by
  unfold queueResume
  simp [hq, hh]

/-- The queue after its status block has been written. -/
theorem State.queue?_writeStatus {s : State} {qid : Nat} {q : Queue} (hq : s.queue? qid = some q) (f : Queue → Queue) :
    ((s.setQueue qid f).writeStatus qid).queue? qid = some (f q) :=
  (State.queue?_of_prog (State.prog_writeStatus _ _) qid).trans (State.queue?_setQueue_some hq f)

theorem queue_unknown {qid : Nat} {s : State} (h : s.queue? qid = none) : queueDestroy qid s = s.queueRefused 4 ∧
    queueHalt qid s = s.queueRefused 4 ∧ queueResume qid s = s.queueRefused 4 := by
  unfold queueDestroy queueHalt queueResume
  rw [h]
  exact ⟨rfl, rfl, rfl⟩

theorem queueCommands : Claim.QueueCommands := by
  intro qid s
  refine ⟨⟨fun s1 hd hl hc ht hq hr => ?_, fun hd => congrArg Host.Outcome.next (queueCreate_refused hd), fun hd hl hc ht hq => ?_⟩,
    fun hq => ?_, fun q hq => ⟨fun hg hp => ?_, fun hp => congrArg Host.Outcome.next (queueDestroy_busy hq hp), ?_, fun hh => ?_,
      fun hh => congrArg Host.Outcome.next (queueResume_held hq hh)⟩⟩
  · obtain ⟨hqueue, hcode, hst⟩ := s1.openQueue_queue qid s.qdescBytes
    exact ⟨_, congrArg Host.Outcome.next (queueCreate_opens ⟨hd, hl, hc, ht⟩ hq hr), hcode, hst, hqueue⟩
  · exact congrArg Host.Outcome.next (queueCreate_taken ⟨hd, hl, hc, ht⟩ hq)
  · obtain ⟨h1, h2, h3⟩ := queue_unknown hq
    exact ⟨congrArg Host.Outcome.next h1, congrArg Host.Outcome.next h2, congrArg Host.Outcome.next h3⟩
  · exact ⟨_, rfl, queueDestroy_idle hq hg hp⟩
  · exact ⟨_, congrArg Host.Outcome.next (queueHalt_eq hq), State.queue?_writeStatus hq _, rfl, rfl⟩
  · exact ⟨_, congrArg Host.Outcome.next (queueResume_runs hq hh), State.queue?_writeStatus hq _,
      List.mem_append_right _ (List.mem_singleton_self _), rfl, rfl⟩

end Sys2Proof.Machine
end

section
/-! SUPPORT. The tail of a queue, packets accepted and started, and the mapping pass (R355 to R360). -/

namespace Sys2Proof.Machine

set_option Elab.async false

/-! ## The tail -/

/-- The tail as FE takes it: the value noticed, or that of the control line where it is higher. -/
def State.tailOf (s : State) (q : Queue) (value : DWord) : Nat := max value.toNat ((s.feRead q.asid q.ctrl 8).getD 0)

theorem tailUpdate_same {qid : Nat} {value : DWord} {s s1 : State} {q : Queue} (hq : s.queue? qid = some q)
    (hr : s.feReach q.asid false [(q.ctrl.toNat, 8)] = (s1, true)) (hv : s1.tailOf q value ≤ q.tail.toNat) :
    tailUpdate qid value s = (s1.feWatch q.asid q.ctrl).2 := by
  unfold tailUpdate
  rw [hq]
  exact (State.feThen_reached hr _ _).trans (if_pos hv)

theorem tailUpdate_grows {qid : Nat} {value : DWord} {s s1 : State} {q : Queue} (hq : s.queue? qid = some q)
    (hr : s.feReach q.asid false [(q.ctrl.toNat, 8)] = (s1, true)) (hv : q.tail.toNat < s1.tailOf q value) :
    tailUpdate qid value s = if q.mapped.isSome then
        ((s1.feWatch q.asid q.ctrl).2.setQueue qid fun p =>
          { p with tail := BitVec.ofNat 64 (s1.tailOf q value), idleSince := s1.now }).send (.packetAccept qid)
      else
        let s2 := ((s1.feWatch q.asid q.ctrl).2.setQueue qid fun p =>
          { p with tail := BitVec.ofNat 64 (s1.tailOf q value), idleSince := s1.now }).send (.packetAccept qid)
        ({ s2 with fe := { s2.fe with kick := if s2.fe.kick.contains qid then s2.fe.kick else s2.fe.kick ++ [qid] } }).send
          .mappingPass := by
  unfold tailUpdate
  rw [hq]
  exact (State.feThen_reached hr _ _).trans (if_neg (by unfold State.tailOf at hv; omega))

/-- A number put at the end of a list that does not hold it. -/
theorem mem_kicked (qid : Nat) (l : List Nat) : qid ∈ if l.contains qid then l else l ++ [qid] := by
  split
  · rename_i h
    simpa using h
  · simp

theorem packetsProceed_tail {qid : Nat} {value : DWord} {s s1 : State} {q : Queue} (hq : s.queue? qid = some q)
    (hr : s.feReach q.asid false [(q.ctrl.toNat, 8)] = (s1, true)) :
    let v := s1.tailOf q value
    ∃ s' q', exec (.tailUpdate qid value) s = .next s' ∧ s'.queue? qid = some q' ∧
      (v ≤ q.tail.toNat → q' = q) ∧
      (q.tail.toNat < v → q'.tail = BitVec.ofNat 64 v ∧ q'.rdidx = q.rdidx ∧ Msg.packetAccept qid ∈ s'.net ∧
        (q.mapped = none → qid ∈ s'.fe.kick ∧ Msg.mappingPass ∈ s'.net)) := by
  intro v
  have hw : (s1.feWatch q.asid q.ctrl).2.queue? qid = some q :=
    (State.queue?_of_prog ((State.prog_feWatch _ _ _).trans (State.feReach_prog hr)) qid).trans hq
  by_cases hv : v ≤ q.tail.toNat
  · exact ⟨_, q, congrArg Host.Outcome.next (tailUpdate_same hq hr hv), hw, fun _ => rfl, fun h => absurd h (by omega)⟩
  · have hg := tailUpdate_grows hq hr (value := value) (Nat.lt_of_not_le hv)
    have hp := List.mem_append_right (s1.feWatch q.asid q.ctrl).2.net (List.mem_singleton_self (Msg.packetAccept qid))
    have hset := State.queue?_setQueue_some hw fun p => { p with tail := BitVec.ofNat 64 v, idleSince := s1.now }
    cases hm : q.mapped with
    | some k =>
      exact ⟨_, _, congrArg Host.Outcome.next (hg.trans (if_pos (by simp [hm]))), hset, fun h => absurd h hv,
        fun _ => ⟨rfl, rfl, hp, fun h => absurd h (by simp)⟩⟩
    | none =>
      exact ⟨_, _, congrArg Host.Outcome.next (hg.trans (if_neg (by simp [hm]))), hset, fun h => absurd h hv,
        fun _ => ⟨rfl, rfl, List.mem_append_left _ hp, fun _ => ⟨mem_kicked _ _, List.mem_append_right _ (List.mem_singleton_self _)⟩⟩⟩

/-! ## Packets accepted -/

/-- How far a packet's index is ahead of the read index. -/
def Queue.ahead (q : Queue) (bs : List Byte) : Nat := (field bs 4 4 + 2 ^ 32 - q.rdidx.toNat % 2 ^ 32) % 2 ^ 32

section
variable {qid : Nat} {s : State} {q : Queue} (hq : s.queue? qid = some q) (hst : q.state = 0) (hi : q.rdidx.toNat < q.tail.toNat)
include hq hst hi

theorem packetAccept_unreadable (hb : s.feBytes q.asid q.slotVa 128 = none) :
    packetAccept qid s = s.queueError qid q.rdidx 8 q.slotVa := by
  have hn : ¬ (q.state ≠ 0 ∨ q.tail.toNat ≤ q.rdidx.toNat) := by simp [hst, hi]
  unfold packetAccept
  rw [hq]
  refine (if_neg hn).trans ?_
  rw [hb]

theorem packetAccept_next {s1 : State} {bs : List Byte} (hb : s.feBytes q.asid q.slotVa 128 = some bs) (hv : field bs 0 1 ≠ 0)
    (hd : q.ahead bs = 0) (hr : s.feReach q.asid false [(q.slotVa.toNat, 128)] = (s1, true)) :
    packetAccept qid s = s1.acceptPacket qid q bs := by
  have hn : ¬ (q.state ≠ 0 ∨ q.tail.toNat ≤ q.rdidx.toNat) := by simp [hst, hi]
  unfold Queue.ahead at hd
  unfold packetAccept
  rw [hq]
  refine (if_neg hn).trans ?_
  rw [hb]
  exact (if_pos ⟨hv, hd⟩).trans (State.feThen_reached hr _ _)

theorem packetAccept_beyond {bs : List Byte} (hb : s.feBytes q.asid q.slotVa 128 = some bs) (hlo : 2 ^ q.log2n ≤ q.ahead bs)
    (hhi : q.ahead bs < 2 ^ 31) (h0 : 0 < q.ahead bs) : packetAccept qid s = s.queueError qid q.rdidx 1 0x80 := by
  have hn : ¬ (q.state ≠ 0 ∨ q.tail.toNat ≤ q.rdidx.toNat) := by simp [hst, hi]
  unfold Queue.ahead at hlo hhi h0
  unfold packetAccept
  rw [hq]
  refine (if_neg hn).trans ?_
  rw [hb]
  exact (if_neg fun h => Nat.pos_iff_ne_zero.mp h0 h.2).trans (if_pos ⟨hlo, hhi⟩)

end

/-- The packet that FE makes of the bytes at the read index. -/
def State.newPacket (s : State) (q : Queue) (bs : List Byte) : Packet :=
  Packet.mk q.rdidx s.fe.nextSeq bs s.now false false none none

theorem State.acceptPacket_queue {s : State} {qid : Nat} {q : Queue} (hq : s.queue? qid = some q) (bs : List Byte) :
    ∃ q', (s.acceptPacket qid q bs).queue? qid = some q' ∧ q'.rdidx = q.rdidx + 1 ∧ q'.packets = q.packets ++ [s.newPacket q bs] ∧
      Msg.packetStart qid s.fe.nextSeq ∈ (s.acceptPacket qid q bs).net := by
  have h1 : (s.takeSeq.2).queue? qid = some q := hq
  refine ⟨_, (State.queue?_of_prog (State.prog_feUpdate _ _ _ _ _) qid).trans (State.queue?_setQueue_some h1 _), rfl, rfl, ?_⟩
  exact List.mem_append_left _ (List.mem_append_right _ (List.mem_singleton_self _))

/-! ## Packets started -/

theorem State.packet?_setPacket {s : State} {qid seq : Nat} {q : Queue} {p : Packet} (hq : s.queue? qid = some q)
    (hp : s.packet? qid seq = some p) {f : Packet → Packet} (hf : ∀ p, (f p).seq = p.seq) :
    (s.setPacket qid seq f).packet? qid seq = some (f p) := by
  have hset := State.queue?_setQueue_some hq fun q => { q with packets := q.packets.map fun p => if p.seq = seq then f p else p }
  unfold State.packet? at hp ⊢
  rw [hq] at hp
  unfold State.setPacket
  rw [hset]
  dsimp only at hp ⊢
  have hc : ((fun p : Packet => p.seq == seq) ∘ fun p => if p.seq = seq then f p else p) = fun p => p.seq == seq := by
    funext p
    by_cases h : p.seq = seq <;> simp [h, hf]
  rw [List.find?_map, hc, hp]
  have hs : p.seq = seq := by simpa using List.find?_some hp
  simp [hs]

theorem packetStart_waits {qid seq : Nat} {s : State} {q : Queue} {p : Packet} (hq : s.queue? qid = some q)
    (hp : s.packet? qid seq = some p) (hs : p.started = false) (hm : q.mayStart p = false) :
    packetStart qid seq s = s.hold (.packetStart qid seq) := by
  unfold packetStart
  simp only [hq, hp, hs, hm, Bool.not_false, Bool.true_or, Bool.false_eq_true, if_false, if_true]

/-- The message that starts a packet's own work, by its type. -/
def Packet.startMsg (p : Packet) (qid seq : Nat) : Msg :=
  match p.type with
  | 1 => .launch qid seq
  | 2 => .waitSignals qid seq
  | 3 => .signal qid seq
  | 4 => .routineLoad qid seq
  | _ => .catalogueUpdate qid seq

theorem State.send_startMsg (s : State) (p : Packet) (qid seq : Nat) : (match p.type with
    | 1 => s.send (.launch qid seq)
    | 2 => s.send (.waitSignals qid seq)
    | 3 => s.send (.signal qid seq)
    | 4 => s.send (.routineLoad qid seq)
    | _ => s.send (.catalogueUpdate qid seq)) = s.send (p.startMsg qid seq) := by
  unfold Packet.startMsg
  generalize p.type = n
  match n with
  | 0 | 1 | 2 | 3 | 4 | _ + 5 => rfl

/-- The state once a packet has been marked as started. -/
def State.begun (s : State) (qid seq : Nat) : State :=
  (s.setPacket qid seq fun p => { p with started := true }).setQueue qid fun q => { q with idleSince := s.now }

theorem packetStart_begins {qid seq : Nat} {s : State} {q : Queue} {p : Packet} (hq : s.queue? qid = some q)
    (hp : s.packet? qid seq = some p) (hs : p.started = false) (hm : q.mayStart p = true)
    (hl : ∀ e ∈ q.packets, Msg.launch qid e.seq ∉ s.net) (hh : field p.bytes 0 4 < 2 ^ 10) (ht : p.type ≤ 5) :
    packetStart qid seq s = (s.begun qid seq).send (p.startMsg qid seq) := by
  have hn : (q.packets.any fun e => decide (e.seq < seq) && s.net.contains (.launch qid e.seq)) = false :=
    List.any_eq_false.mpr fun e he => by simp [hl e he]
  have hz : ¬ (field p.bytes 0 4 / 2 ^ 10 ≠ 0 ∨ 5 < p.type) := by
    have := Nat.div_eq_of_lt hh
    omega
  unfold packetStart
  simp only [hq, hp, hs, hm, hn, Bool.not_true, Bool.or_self, Bool.false_eq_true, if_false]
  exact (if_neg hz).trans (State.send_startMsg _ _ _ _)

theorem State.packet?_begun {s : State} {qid seq : Nat} {q : Queue} {p : Packet} (hq : s.queue? qid = some q)
    (hp : s.packet? qid seq = some p) : ∃ p', (s.begun qid seq).packet? qid seq = some p' ∧ p'.started = true := by
  have h := State.packet?_setPacket hq hp (f := fun p => { p with started := true }) fun _ => rfl
  have hset := State.queue?_setQueue_some hq fun q =>
    { q with packets := q.packets.map fun p => if p.seq = seq then { p with started := true } else p }
  refine ⟨_, Eq.trans ?_ h, rfl⟩
  unfold State.begun State.packet? State.setPacket
  rw [State.queue?_setQueue_some hset, hset]

/-! ## Hardware queue slots -/

/-- The lowest free slot is one of the slots. -/
theorem State.freeSlot_lt {s : State} {k : Nat} (h : s.freeSlot = some k) : k < Config.queueSlots :=
  List.mem_range.mp (List.mem_of_find?_eq_some h)

/-- A queue whose slot is taken back where it has had nothing to do. -/
def Queue.unmapIdle (q : Queue) (now : Nat) : Queue :=
  if q.mapped.isSome && q.state == 0 && q.packets.all Packet.started && q.rdidx == q.tail && decide (q.idleSince + 50000 ≤ now)
  then { q with mapped := none } else q

/-- Idle queues have lost their slots. -/
def State.idleUnmapped (s : State) : State :=
  { s with fe := { s.fe with kick := [], queues := s.fe.queues.map fun e => (e.1, e.2.unmapIdle s.now) } }

theorem Queue.pending_unmapIdle (q : Queue) (now : Nat) : (q.unmapIdle now).pending = q.pending := by
  unfold Queue.unmapIdle
  split
  · rename_i h
    simp only [Bool.and_eq_true] at h
    obtain ⟨⟨⟨⟨hm, _⟩, hs⟩, _⟩, _⟩ := h
    have hn : (q.packets.any fun p => !p.started) = false := by
      rw [List.any_eq_false]
      intro p hp
      simpa using List.all_eq_true.mp hs p hp
    simp [Queue.pending, hn]
  · rfl

theorem Queue.unmapIdle_pending {q : Queue} (h : q.pending = true) (now : Nat) : q.unmapIdle now = q := by
  have hm : q.mapped.isSome = false := by
    unfold Queue.pending at h
    cases hq : q.mapped <;> simp_all
  unfold Queue.unmapIdle
  rw [hm]
  rfl

/-- The queues that wait for a slot are those that waited before. -/
theorem filter_unmapIdle (now : Nat) : (l : Tab Queue) →
    ((l.map fun e => (e.1, e.2.unmapIdle now)).filter fun e => e.2.pending) = l.filter fun e => e.2.pending
  | [] => rfl
  | e :: rest => by
    have ih := filter_unmapIdle now rest
    simp only [List.map_cons, List.filter_cons, Queue.pending_unmapIdle, ih]
    split
    · rename_i h
      rw [Queue.unmapIdle_pending h]
    · rfl

theorem find_unmapIdle (now k : Nat) : (l : Tab Queue) →
    Tab.find (l.map fun e => (e.1, e.2.unmapIdle now)) k = (Tab.find l k).map fun q => q.unmapIdle now
  | [] => rfl
  | (j, q) :: rest => by
    have ih := find_unmapIdle now k rest
    simp only [List.map_cons, Tab.find]
    split
    · rfl
    · exact ih

/-- A slot that is free stays so as idle queues lose theirs. -/
theorem State.freeSlot_idleUnmapped {s : State} (h : s.freeSlot.isSome = true) : s.idleUnmapped.freeSlot.isSome = true := by
  unfold State.freeSlot at h ⊢
  rw [List.find?_isSome] at h ⊢
  obtain ⟨k, hk, hf⟩ := h
  refine ⟨k, hk, ?_⟩
  simp only [Bool.not_eq_true', List.any_eq_false, State.idleUnmapped, List.mem_map, beq_iff_eq] at hf ⊢
  rintro _ ⟨e, he, rfl⟩ hm
  refine hf e he ?_
  dsimp only [Queue.unmapIdle] at hm
  split at hm
  · cases hm
  · exact hm

theorem mappingPass_eq {s : State} {qid : Nat} {q : Queue} (hp : (s.fe.queues.filter fun e => e.2.pending) = [(qid, q)]) :
    mappingPass s = s.idleUnmapped.mapQueue (qid, q) := by
  have hany : (s.fe.queues.any fun e => e.2.pending) = true := by
    rw [List.any_eq_true]
    have hm : (qid, q) ∈ s.fe.queues.filter fun e => e.2.pending := by
      rw [hp]
      exact List.mem_singleton_self _
    exact ⟨(qid, q), List.mem_filter.mp hm⟩
  have hmap : (s.fe.queues.map fun (e : Nat × Queue) =>
      if true && (e.2.mapped.isSome && e.2.state == 0 && e.2.packets.all Packet.started && e.2.rdidx == e.2.tail
        && decide (e.2.idleSince + 50000 ≤ s.now)) then (e.1, { e.2 with mapped := none }) else e)
      = s.fe.queues.map fun e => (e.1, e.2.unmapIdle s.now) := by
    refine List.map_congr_left fun e _ => ?_
    rw [Bool.true_and]
    unfold Queue.unmapIdle
    split <;> rfl
  have hf := (filter_unmapIdle s.now s.fe.queues).trans hp
  unfold mappingPass
  simp only [hany, hmap, hf, sortBy, insertBy, List.foldl_cons, List.foldl_nil]
  rfl

/-- The one queue that waits for a slot gets one that is free. -/
theorem mappingPass_maps {s : State} {qid : Nat} {q : Queue} (hp : (s.fe.queues.filter fun e => e.2.pending) = [(qid, q)])
    (hq : s.queue? qid = some q) (hs : s.freeSlot.isSome = true) :
    ∃ k, k < Config.queueSlots ∧ mappingPass s = s.idleUnmapped.setQueue qid (fun q => { q with mapped := some k, mappedAt := s.now }) ∧
      s.idleUnmapped.queue? qid = some q := by
  obtain ⟨k, hk⟩ := Option.isSome_iff_exists.mp (State.freeSlot_idleUnmapped hs)
  have hpend : q.pending = true := by
    have hm : (qid, q) ∈ s.fe.queues.filter fun e => e.2.pending := by
      rw [hp]
      exact List.mem_singleton_self _
    exact (List.mem_filter.mp hm).2
  refine ⟨k, State.freeSlot_lt hk, ?_, ?_⟩
  · rw [mappingPass_eq hp]
    unfold State.mapQueue
    rw [hk]
    rfl
  · have hq : Tab.find s.fe.queues qid = some q := hq
    refine (find_unmapIdle s.now qid s.fe.queues).trans ?_
    rw [hq]
    exact congrArg some (Queue.unmapIdle_pending hpend _)

theorem packetsProceed : Claim.PacketsProceed := by
  refine ⟨fun qid value s s1 q hq hr => congrArg Host.Outcome.next ?_, fun qid value s s1 q hq hr => packetsProceed_tail hq hr,
    fun qid s q bs hq hst hi hb => ⟨fun s1 hv hd hr => ?_, fun hlo hhi h0 => ?_⟩, fun qid s q hq hst hi hb => ?_,
    fun qid seq s q p hq hp hs hm hl hh h1 h5 => ?_, fun qid seq s q p hq hp hs hm => ?_, fun qid s q hp hq hs => ?_⟩
  · unfold tailUpdate
    rw [hq]
    exact State.feThen_waits hr _ _
  · have hq1 : s1.queue? qid = some q := (State.queue?_of_prog (State.feReach_prog hr) qid).trans hq
    obtain ⟨q', hq', hrd, hpk, hnet⟩ := State.acceptPacket_queue hq1 bs
    exact ⟨_, q', s1.newPacket q bs, congrArg Host.Outcome.next (packetAccept_next hq hst hi hb hv hd hr), hq', hrd, hpk, rfl, rfl, rfl,
      rfl, hnet⟩
  · exact congrArg Host.Outcome.next (packetAccept_beyond hq hst hi hb hlo hhi h0)
  · exact congrArg Host.Outcome.next (packetAccept_unreadable hq hst hi hb)
  · exact ⟨_, congrArg Host.Outcome.next (packetStart_begins hq hp hs hm hl hh h5), rfl, State.packet?_begun hq hp⟩
  · exact congrArg Host.Outcome.next (packetStart_waits hq hp hs hm)
  · obtain ⟨k, hk, he, hu⟩ := mappingPass_maps hp hq hs
    exact ⟨_, _, k, congrArg Host.Outcome.next he, rfl, State.queue?_setQueue_some hu _, rfl, hk, rfl⟩

/-- Settles O51: clause by clause from what each step does; FE's reads and writes leave the queues. -/
theorem queuesAndPackets : Obligations.QueuesAndPackets := ⟨queueCommands, packetsProceed⟩

end Sys2Proof.Machine
end

section
/-! SUPPORT. WAIT-SIGNALS, SIGNAL and CATALOGUE-UPDATE (R358, R362, R374). -/

namespace Sys2Proof.Machine

set_option Elab.async false

theorem firstBad_none {checks : List (Nat × Bool)} (h : ∀ c ∈ checks, c.2 = true) : firstBad checks = none := by
  have hf : (checks.find? fun c => !c.2) = none := List.find?_eq_none.mpr fun c hc => by simp [h c hc]
  unfold firstBad
  rw [hf]
  rfl

/-- The fields of a WAIT-SIGNALS packet keep their rules. -/
structure Packet.SoundWait (p : Packet) : Prop where
  low : 1 ≤ field p.bytes 8 1
  high : field p.bytes 8 1 ≤ 6
  mode : field p.bytes 9 1 ≤ 1
  gap : zeros p.bytes 10 2 = true
  tail : zeros p.bytes 0x40 64 = true
  unused : ∀ k, k < 6 → k < field p.bytes 8 1 ∨ zeros p.bytes (0x10 + 8 * k) 8 = true

theorem Packet.SoundWait.firstBad {p : Packet} (h : p.SoundWait) :
    firstBad ([(8, decide (1 ≤ field p.bytes 8 1 ∧ field p.bytes 8 1 ≤ 6)), (9, decide (field p.bytes 9 1 ≤ 1)), (10, zeros p.bytes 10 2)]
      ++ ((List.range 6).map fun k => (0x10 + 8 * k, decide (k < field p.bytes 8 1) || zeros p.bytes (0x10 + 8 * k) 8))
      ++ [(0x40, zeros p.bytes 0x40 64)]) = none := by
  obtain ⟨hl, hh, hm, hg, ht, hu⟩ := h
  refine firstBad_none fun c hc => ?_
  simp only [List.mem_append, List.mem_cons, List.not_mem_nil, or_false, List.mem_map, List.mem_range] at hc
  rcases hc with ((rfl | rfl | rfl) | ⟨k, hk, rfl⟩) | rfl
  · simp [hl, hh]
  · simp [hm]
  · exact hg
  · simpa using hu k hk
  · exact ht

section
variable {qid seq : Nat} {s : State} {q : Queue} {p : Packet} (hq : s.queue? qid = some q) (hp : s.packet? qid seq = some p)
include hq hp

/-- What WAIT-SIGNALS does with a sound packet whose signals FE reads. -/
theorem waitSignals_sound (h : p.SoundWait) (hs : ∀ va ∈ p.signals, va.toNat % 8 = 0 ∧ s.feReadable q.asid va = true) :
    waitSignals qid seq s =
      if s.signalsMet q.asid p then
        s.feThen q.asid false (p.signals.map fun va => (va.toNat, 8)) (.waitSignals qid seq) fun s => s.endPacket qid seq true
      else if field p.bytes 0x0C 4 ≠ 0 ∧ p.deadline.isNone then
        ((s.setPacket qid seq fun e => { e with deadline := some (s.now + 1000 * field p.bytes 0x0C 4) }).send
          (.waitSignalsTimeout qid seq)).hold (.waitSignals qid seq)
      else s.hold (.waitSignals qid seq) := by
  have hf : (p.signals.find? fun va => va.toNat % 8 != 0 || !s.feReadable q.asid va) = none := List.find?_eq_none.mpr fun va hv => by
    obtain ⟨h8, hr⟩ := hs va hv
    simp [h8, hr]
  have hb := h.firstBad
  unfold waitSignals
  simp only [hq, hp, hb, hf]

theorem waitSignals_met (h : p.SoundWait) (hs : ∀ va ∈ p.signals, va.toNat % 8 = 0 ∧ s.feReadable q.asid va = true) {s1 : State}
    {b : Bool} (hm : s.signalsMet q.asid p = true)
    (hr : s.feReach q.asid false (p.signals.map fun va => (va.toNat, 8)) = (s1, b)) :
    waitSignals qid seq s = if b then s1.endPacket qid seq true else s1.hold (.waitSignals qid seq) := by
  rw [waitSignals_sound hq hp h hs, if_pos hm]
  cases b with
  | true => exact State.feThen_reached hr _ _
  | false => exact State.feThen_waits hr _ _

theorem waitSignals_unmet (h : p.SoundWait) (hs : ∀ va ∈ p.signals, va.toNat % 8 = 0 ∧ s.feReadable q.asid va = true)
    (hm : s.signalsMet q.asid p = false) (ht : field p.bytes 0x0C 4 = 0) :
    waitSignals qid seq s = s.hold (.waitSignals qid seq) := by
  rw [waitSignals_sound hq hp h hs, if_neg (by simp [hm]), if_neg (by simp [ht])]

/-- The deadline of a WAIT-SIGNALS packet. -/
theorem waitSignalsTimeout_due {t : Nat} (hd : p.deadline = some t) : waitSignalsTimeout qid seq s =
    if s.now < t then s.hold (.waitSignalsTimeout qid seq)
    else if s.signalsMet q.asid p then s
    else s.failPacket qid seq 7 (BitVec.ofNat 64 (p.signals.findIdx fun va => !s.signalZero q.asid va)) := by
  unfold waitSignalsTimeout
  simp only [hq, hp, hd]

/-- What a SIGNAL packet makes of the word it names. -/
def Packet.signalFun (p : Packet) : FeFun :=
  if field p.bytes 0x10 1 = 0 then .signal (field p.bytes 0x18 8) false else .put (field p.bytes 0x18 8)

omit hq hp in
theorem Packet.signalFun_apply (p : Packet) (old : Nat) : p.signalFun.apply old =
    if field p.bytes 0x10 1 = 0 then (old % 2 ^ 62 + 2 ^ 62 - field p.bytes 0x18 8 % 2 ^ 62) % 2 ^ 62 +
      (if old.testBit 62 then 2 ^ 62 else 0) else field p.bytes 0x18 8 := by
  unfold Packet.signalFun
  split
  · simp only [FeFun.apply, signalDec, Bool.false_or]
  · rfl

/-- The word that a SIGNAL packet names. -/
def Packet.signalVa (p : Packet) : DWord := BitVec.ofNat 64 (field p.bytes 8 8)

theorem signal_sound (h1 : field p.bytes 0x10 1 ≤ 1) (h2 : zeros p.bytes 0x11 7 = true) (h3 : zeros p.bytes 0x20 96 = true) :
    signal qid seq s =
      if p.signalVa.toNat % 8 ≠ 0 ∨ (s.fePlace q.asid p.signalVa true).isNone then s.failPacket qid seq 8 p.signalVa
      else s.feThen q.asid true [(p.signalVa.toNat, 8)] (.signal qid seq) fun s =>
        (s.feUpdate q.asid p.signalVa 8 p.signalFun).endPacket qid seq true := by
  have hb : firstBad [(0x10, decide (field p.bytes 0x10 1 ≤ 1)), (0x11, zeros p.bytes 0x11 7), (0x20, zeros p.bytes 0x20 96)] = none :=
    firstBad_none fun c hc => by
      simp only [List.mem_cons, List.not_mem_nil, or_false] at hc
      rcases hc with rfl | rfl | rfl
      · simp [h1]
      · exact h2
      · exact h3
  unfold signal
  simp only [hq, hp, hb]
  rfl

theorem State.packet?_endPacket : (s.endPacket qid seq true).packet? qid seq = none := by
  have hn : ((q.packets.filter fun p => p.seq != seq).find? fun p => p.seq == seq) = none :=
    List.find?_eq_none.mpr fun p hm => by simpa using (List.mem_filter.mp hm).2
  have hk (u : State) (hu : u.queue? qid = some { q with packets := q.packets.filter fun p => p.seq != seq }) :
      u.packet? qid seq = none := by
    unfold State.packet?
    rw [hu]
    exact hn
  have hset := State.queue?_setQueue_some hq fun q => { q with packets := q.packets.filter fun p => p.seq != seq }
  unfold State.endPacket
  rw [hq, hp]
  dsimp only
  split
  · exact hk _ hset
  · exact hk _ hset

omit hq hp in
theorem State.cores_endPacket (s : State) (qid seq : Nat) (ok : Bool) : (s.endPacket qid seq ok).cores = s.cores := by
  unfold State.endPacket
  split
  · dsimp only
    split <;> rfl
  · rfl

/-- The state once every core has dropped the catalogue entries of an address space. -/
def State.uncatalogued (s : State) (asid : Nat) : State :=
  { s with cores := s.cores.map fun (e : Nat × Core) =>
    (e.1, { e.2 with catalogue := e.2.catalogue.filter fun c => c.asid != asid }) }

theorem catalogueUpdate_sound (hz : zeros p.bytes 8 120 = true) :
    catalogueUpdate qid seq s = (s.uncatalogued q.asid).endPacket qid seq true := by
  unfold catalogueUpdate
  simp only [hq, hp, hz, Bool.not_true, Bool.false_eq_true, if_false]
  rfl

theorem catalogueUpdate_drops (hz : zeros p.bytes 8 120 = true) : (catalogueUpdate qid seq s).packet? qid seq = none ∧
    ∀ e ∈ (catalogueUpdate qid seq s).cores, ∀ c ∈ e.2.catalogue, c.asid ≠ q.asid := by
  rw [catalogueUpdate_sound hq hp hz]
  refine ⟨State.packet?_endPacket (s := s.uncatalogued q.asid) hq hp, fun e he c hc => ?_⟩
  rw [State.cores_endPacket] at he
  obtain ⟨e0, _, rfl⟩ := List.mem_map.mp he
  simpa using (List.mem_filter.mp hc).2

end

theorem signalPackets : Claim.SignalPackets := by
  intro qid seq s q p hq hp
  refine ⟨fun hl hh hm hg ht hu hs => ?_, fun t hd => ?_, fun h1 h2 h3 => ?_, fun hz => ⟨_, rfl, catalogueUpdate_drops hq hp hz⟩⟩
  · have hw : p.SoundWait := ⟨hl, hh, hm, hg, ht, hu⟩
    exact ⟨fun s1 b hmet hr => congrArg Host.Outcome.next (waitSignals_met hq hp hw hs hmet hr),
      fun hmet h0 => congrArg Host.Outcome.next (waitSignals_unmet hq hp hw hs hmet h0)⟩
  · have h := waitSignalsTimeout_due hq hp hd
    refine ⟨fun ht => congrArg Host.Outcome.next (h.trans (if_pos ht)), fun ht hm => ?_, fun ht hm => ?_⟩
    · exact congrArg Host.Outcome.next (h.trans ((if_neg (Nat.not_lt.mpr ht)).trans (if_neg (Bool.eq_false_iff.mp hm))))
    · exact congrArg Host.Outcome.next (h.trans ((if_neg (Nat.not_lt.mpr ht)).trans (if_pos hm)))
  · have h := signal_sound hq hp h1 h2 h3
    refine ⟨fun s1 b h8 hw hr => ⟨p.signalFun, congrArg Host.Outcome.next (h.trans ((if_neg ?_).trans ?_)), p.signalFun_apply⟩,
      fun h8 => congrArg Host.Outcome.next (h.trans (if_pos (.inl h8)))⟩
    · rintro (h | h)
      · exact h h8
      · rw [Option.isNone_iff_eq_none] at h
        rw [show s.fePlace q.asid (BitVec.ofNat 64 (field p.bytes 8 8)) true = none from h] at hw
        cases hw
    · cases b with
      | true => exact State.feThen_reached hr _ _
      | false => exact State.feThen_waits hr _ _

end Sys2Proof.Machine
end

section
/-! SUPPORT. LAUNCH and ROUTINE-LOAD (R357, R358, R363, R86, R89). -/

namespace Sys2Proof.Machine

set_option Elab.async false

/-! ## LAUNCH -/

section
variable {qid seq : Nat} {s s0 : State} {q : Queue} {p : Packet}

theorem launch_starts (hq : s.queue? qid = some q) (hp : s.packet? qid seq = some p) (hg : p.grid = none)
    (hr : s.feReach q.asid false [(field p.bytes 8 8, 128), (field p.bytes 0x30 8, 16 * field p.bytes 0x38 1)] = (s0, true)) :
    launch qid seq s = s0.startLaunch q qid seq p := by
  unfold launch
  simp only [hq, hp, hg]
  exact State.feThen_reached hr _ _

theorem State.startLaunch_bad {err : Nat} {detail : DWord} (h : s.launchCheck q.asid p.bytes = .error (err, detail)) :
    s.startLaunch q qid seq p = s.failPacket qid seq err detail := by
  unfold State.startLaunch
  rw [h]

theorem State.startLaunch_plan {plan : Plan} (h : s.launchCheck q.asid p.bytes = .ok plan) :
    let s1 := s.newGrid q.asid qid seq p plan
    let away := ((rangePages plan.ranges).filter fun r => s.pageAt q.asid r.1 == .away).length
    s.startLaunch q qid seq p =
      if s1.fits && s1.spare away then s1.leaseGrid qid seq s.nextId true else s.failPacket qid seq 4 0 := by
  intro s1 away
  unfold State.startLaunch
  rw [h]

theorem launch_leases {g : Nat} (hq : s.queue? qid = some q) (hp : s.packet? qid seq = some p) (hg : p.grid = some g)
    (hw : (s.grid g).state = .waitingLeases) : launch qid seq s = s.leaseGrid qid seq g false := by
  unfold launch
  simp only [hq, hp, hg, hw]
  rfl

end

/-! ## The leases of a grid -/

theorem isSome_upd {α : Type} {t : Tab α} {g : Nat} (h : (Tab.find t g).isSome = true) (k : Nat) (f : α → α) :
    (Tab.find (Tab.upd t k f) g).isSome = true := by
  rw [Tab.find_upd]
  split
  · rename_i hk
    subst hk
    simpa using h
  · exact h

theorem State.grids_bringIn (s : State) (asid p seq : Nat) (first : Bool) : (s.bringIn asid p seq first).grids = s.grids := by
  have hc (u : State) (r : MemRequest) : (u.claim r none 6).grids = u.grids := (u.claim_lists r none 6).1.grids
  unfold State.bringIn
  split
  · rfl
  · split
    · rfl
    · cases first <;> exact hc _ _

theorem State.isSome_leasePage {s : State} {g : Nat} (h : (Tab.find s.grids g).isSome = true) (k p : Nat) (expand first : Bool) :
    (Tab.find (s.leasePage k p expand first).grids g).isSome = true := by
  have hb := s.grids_bringIn (s.grid k).asid p (s.grid k).seq first
  unfold State.leasePage
  dsimp only
  split
  · split
    · split <;> exact h
    · exact h
  · split
    · exact isSome_upd h _ _
    · split
      · rw [hb]
        exact h
      · split
        · exact isSome_upd h _ _
        · exact h
    · rw [hb]
      exact h
    · exact h

theorem State.isSome_leasePages {g k : Nat} {first : Bool} : (ps : List (Nat × Bool)) → {s : State} → (Tab.find s.grids g).isSome = true →
    (Tab.find (ps.foldl (fun s p => s.leasePage k p.1 p.2 first) s).grids g).isSome = true
  | [], _, h => h
  | p :: rest, _, h => isSome_leasePages rest (State.isSome_leasePage h k p.1 p.2 first)

theorem State.askEstimator_keeps (s : State) (g : Nat) : (s.askEstimator g).grids = s.grids ∧ ∀ m ∈ s.net, m ∈ (s.askEstimator g).net := by
  unfold State.askEstimator
  split
  · exact ⟨rfl, fun m h => List.mem_append_left _ h⟩
  · exact ⟨rfl, fun _ h => h⟩

/-- The state once the leases of a grid have been taken as far as they can be. -/
def State.withLeases (s : State) (g : Nat) (rs : List (Nat × Nat × Bool)) : State :=
  (rangePages rs).foldl (fun s p => s.leasePage g p.1 p.2 false) s

theorem State.leaseGrid_all {s : State} {qid seq g : Nat} {rs : List (Nat × Nat × Bool)}
    (hr : s.ranges (s.grid g).asid (s.grid g).packet = .ok rs) (ha : (s.withLeases g rs).allLeased g (rangePages rs) = true) :
    s.leaseGrid qid seq g false = (((s.withLeases g rs).setGrid g fun gr =>
      { gr with state := .waitingPlacement, waitingSince := s.now }).send (.placement g)).askEstimator g := by
  unfold State.leaseGrid
  dsimp only
  rw [hr]
  exact if_pos ha

/-- A grid whose pages are all leased waits for its placement. -/
theorem State.leaseGrid_waits {s : State} {qid seq g : Nat} {rs : List (Nat × Nat × Bool)} (hg : (Tab.find s.grids g).isSome = true)
    (hr : s.ranges (s.grid g).asid (s.grid g).packet = .ok rs) (ha : (s.withLeases g rs).allLeased g (rangePages rs) = true) :
    ((s.leaseGrid qid seq g false).grid g).state = .waitingPlacement ∧
      ((s.leaseGrid qid seq g false).grid g).leases = ((s.withLeases g rs).grid g).leases ∧
      Msg.placement g ∈ (s.leaseGrid qid seq g false).net := by
  let u := ((s.withLeases g rs).setGrid g fun gr => { gr with state := .waitingPlacement, waitingSince := s.now }).send (.placement g)
  obtain ⟨hk, hn⟩ := u.askEstimator_keeps g
  have hset := State.grid_setGrid (s.withLeases g rs) g g (fun gr => { gr with state := .waitingPlacement, waitingSince := s.now })
    (State.isSome_leasePages _ hg)
  rw [if_pos rfl] at hset
  have hu : (u.askEstimator g).grid g = { (s.withLeases g rs).grid g with state := .waitingPlacement, waitingSince := s.now } := by
    unfold State.grid
    rw [hk]
    exact hset
  rw [State.leaseGrid_all hr ha]
  change ((u.askEstimator g).grid g).state = _ ∧ ((u.askEstimator g).grid g).leases = _ ∧ _ ∈ (u.askEstimator g).net
  rw [hu]
  exact ⟨rfl, rfl, hn _ (List.mem_append_right _ (List.mem_singleton_self _))⟩

/-! ## ROUTINE-LOAD -/

/-- The fields of a ROUTINE-LOAD packet keep their rules. -/
structure Packet.SoundLoad (p : Packet) : Prop where
  dest : field p.bytes 0x18 8 % 65536 = 0
  some : 0 < field p.bytes 0x20 8
  whole : field p.bytes 0x20 8 % 65536 = 0
  inside : field p.bytes 0x18 8 + field p.bytes 0x20 8 ≤ 2 ^ 48
  tail : zeros p.bytes 0x30 80 = true

theorem Packet.SoundLoad.firstBad {p : Packet} (h : p.SoundLoad) : firstBad [(0x18, field p.bytes 0x18 8 % 65536 == 0),
    (0x20, decide (0 < field p.bytes 0x20 8) && field p.bytes 0x20 8 % 65536 == 0 &&
      decide (field p.bytes 0x18 8 + field p.bytes 0x20 8 ≤ 2 ^ 48)), (0x30, zeros p.bytes 0x30 80)] = none := by
  obtain ⟨hd, hs, hw, hi, ht⟩ := h
  refine firstBad_none fun c hc => ?_
  simp only [List.mem_cons, List.not_mem_nil, or_false] at hc
  rcases hc with rfl | rfl | rfl
  · simp [hd]
  · simpa [hs, hw] using hi
  · exact ht

theorem routineLoad_loads {qid seq : Nat} {s s1 : State} {q : Queue} {p : Packet} {bs : List Byte} (hq : s.queue? qid = some q)
    (hp : s.packet? qid seq = some p) (h : p.SoundLoad)
    (hb : s.feBytes q.asid (BitVec.ofNat 64 (field p.bytes 8 8)) (field p.bytes 0x10 8) = some bs)
    (h1 : (s.fePlace q.asid (BitVec.ofNat 64 (field p.bytes 0x28 8)) true).isSome = true)
    (h2 : (s.fePlace q.asid (BitVec.ofNat 64 (field p.bytes 0x28 8) + 127) true).isSome = true)
    (hr : s.feReach q.asid false [((BitVec.ofNat 64 (field p.bytes 8 8)).toNat, field p.bytes 0x10 8)] = (s1, true)) :
    let r := s1.loadObject q.asid bs (field p.bytes 0x18 8) (field p.bytes 0x20 8)
    routineLoad qid seq s = (r.2.feWrite q.asid (BitVec.ofNat 64 (field p.bytes 0x28 8)) r.1).endPacket qid seq true := by
  intro r
  have hbad := h.firstBad
  have hn : ¬ ((s.fePlace q.asid (BitVec.ofNat 64 (field p.bytes 0x28 8)) true).isNone = true ∨
      (s.fePlace q.asid (BitVec.ofNat 64 (field p.bytes 0x28 8) + 127) true).isNone = true) := by
    rw [← Option.not_isSome, ← Option.not_isSome, h1, h2]
    simp
  unfold routineLoad
  simp only [hq, hp, hbad, hb]
  exact (if_neg (by simpa using hn)).trans (State.feThen_reached hr _ _)

theorem State.loadObject_bad {s : State} {asid dest dlen o : Nat} {obj : List Byte} (h : objCheck obj = some o) :
    s.loadObject asid obj dest dlen = (loadResult 1 7 o [], s) := by
  unfold State.loadObject
  rw [h]

section
variable {s : State} {asid dest dlen : Nat} {obj : List Byte} (ho : objCheck obj = none)
  (hf : placedEnd (placeSections obj dest) dest ≤ dest + dlen) (hm : s.rangeMapped asid dest dlen = none)
  (hs : s.spare ((placedEnd (placeSections obj dest) dest - dest) / 65536) = true)
  (ht : ((placeSections obj dest).foldl (fun s p => s.mapSection asid p) s).fits = true)
include ho hf hm hs ht

theorem State.loadObject_refused {c o : Nat} (hc : loadChecks obj (placeSections obj dest) = .error (c, o)) :
    s.loadObject asid obj dest dlen = (loadResult 1 c o [], s) := by
  have hn : ¬ dest + dlen < placedEnd (placeSections obj dest) dest := Nat.not_lt.mpr hf
  unfold State.loadObject
  simp only [ho, hn, hm, hs, ht, hc, Option.isSome_none, Bool.not_true, Bool.or_self, Bool.false_eq_true, if_false]

theorem State.loadObject_placed {qs : List Placed} (hc : loadChecks obj (placeSections obj dest) = .ok qs) :
    (s.loadObject asid obj dest dlen).1 = loadResult 0 0 0 qs ∧
      Sys2Proof.Machine.Module.mk asid dest dlen (qs.map fun p => (p.kind, p.addr, p.bytes.length)) ∈
        (s.loadObject asid obj dest dlen).2.fe.modules := by
  have hn : ¬ dest + dlen < placedEnd (placeSections obj dest) dest := Nat.not_lt.mpr hf
  unfold State.loadObject
  simp only [ho, hn, hm, hs, ht, hc, Option.isSome_none, Bool.not_true, Bool.or_self, Bool.false_eq_true, if_false]
  exact ⟨trivial, List.mem_append_right _ (List.mem_singleton_self _)⟩

end

theorem launchesAndLoads : Claim.LaunchesAndLoads := by
  refine ⟨fun qid seq s s0 q p hq hp hg hr => ⟨fun plan hc => ?_, fun err detail hc => ?_⟩,
    fun qid seq g s q p rs hq hp hg hs hw hr ha => ?_, fun qid seq s q p bs hq hp hd h0 hl hi hz hb h1 h2 s1 hr => ?_,
    fun asid dest dlen obj s => ⟨fun o ho => State.loadObject_bad ho, fun ho hf hm hs ht => ⟨fun c o hc => ?_, fun qs hc => ?_⟩⟩⟩
  · have h := (launch_starts hq hp hg hr).trans (State.startLaunch_plan hc)
    refine ⟨fun hf hs => congrArg Host.Outcome.next (h.trans (if_pos ?_)), fun hn => congrArg Host.Outcome.next (h.trans (if_neg ?_))⟩
    · rw [Bool.and_eq_true]
      exact ⟨hf, hs⟩
    · rw [Bool.and_eq_true, not_and_or, Bool.not_eq_true, Bool.not_eq_true]
      exact hn
  · exact congrArg Host.Outcome.next ((launch_starts hq hp hg hr).trans (State.startLaunch_bad hc))
  · exact ⟨_, congrArg Host.Outcome.next (launch_leases hq hp hg hw), State.leaseGrid_waits hs hr ha⟩
  · exact congrArg Host.Outcome.next (routineLoad_loads hq hp ⟨hd, h0, hl, hi, hz⟩ hb h1 h2 hr)
  · exact State.loadObject_refused ho hf hm hs ht hc
  · exact State.loadObject_placed ho hf hm hs ht hc

/-- Settles O52: packet by packet; a packet whose fields keep their rules has no first bad field. -/
theorem packetEffects : Obligations.PacketEffects := ⟨signalPackets, launchesAndLoads⟩

end Sys2Proof.Machine
end

section
/-! SUPPORT. Grids placed, ended and completed, and the estimator (R363, R364, R368, R376 to R379, R396). -/

namespace Sys2Proof.Machine

set_option Elab.async false

/-! ## A block placed -/

/-- What changes races alone keeps a block otherwise. -/
theorem State.mapRaces_keepsBlock {b : Nat} (f : Race → Race) : (l : List Nat) → {s : State} → {blk : Block} →
    Tab.find s.blocks b = some blk →
    ∃ rs, Tab.find (l.foldl (fun s k => s.mapRaces k f) s).blocks b = some { blk with races := rs }
  | [], _, blk, h => ⟨blk.races, h⟩
  | k :: rest, s, blk, h => by
    have hk : ∃ rs, Tab.find (s.mapRaces k f).blocks b = some { blk with races := rs } := by
      unfold State.mapRaces
      rw [State.setBlock_blocks, Tab.find_upd, h]
      split
      · exact ⟨_, rfl⟩
      · exact ⟨blk.races, rfl⟩
    obtain ⟨rs, hs⟩ := hk
    obtain ⟨rs', hs'⟩ := mapRaces_keepsBlock f rest hs
    exact ⟨rs', hs'⟩

theorem State.acquire_keepsBlock {s : State} {b : Nat} {blk : Block} (h : Tab.find s.blocks b = some blk) (ms : List Nat) (sc : MemScope) :
    ∃ rs, Tab.find (s.acquire ms sc).blocks b = some { blk with races := rs } := by
  have hc : ∀ (l : List Nat) (u : State), (l.foldl (fun s c => s.setCore c fun co => { co with l1 := [] }) u).blocks = u.blocks := by
    intro l
    induction l with
    | nil => exact fun _ => rfl
    | cons c rest ih => exact fun u => ih _
  have hr := State.mapRaces_keepsBlock (fun r => if r.released then { r with acquired := (r.acquired ++ ms).dedup } else r)
    (s.blocksOf ms) h
  unfold State.acquire
  dsimp only
  split
  · rw [hc]
    exact hr
  · exact hr

/-- The block that a placement makes. -/
def State.placedBlock (s : State) (g blockNo : Nat) (cores : List Nat) : Block :=
  let gr := s.grid g
  { Block.none with
    grid := g, index := blockNo, die := dieOfCore (cores.headD 0), places := cores, wpc := (gr.wpb + gr.cpb - 1) / gr.cpb
    warps := (List.range gr.wpb).map fun i => s.nextId + 1 + i
    scratchBase := cores.map fun c => (s.scratchRoom c gr.kernel.scratch).getD 0
    scratch := gr.kernel.scratch, placedAt := s.now }

/-- Warp `i` of a block put in the lowest free slot of its partition. -/
def State.addWarp (g b blockNo : Nat) (cores : List Nat) (wpc : Nat) (gr : Grid) (s : State) (i : Nat) : State :=
  let c := cores.getD (i / wpc) 0
  let p := i % wpc % 8
  { s with warps := Tab.put s.warps (b + 1 + i) (gr.newWarp g b blockNo i c p (s.slotFor c p)) }

theorem State.placeOne_eq (s : State) (g blockNo : Nat) (cores : List Nat) :
    s.placeOne g blockNo cores =
      (((List.range (s.grid g).wpb).foldl (State.addWarp g s.nextId blockNo cores (s.placedBlock g blockNo cores).wpc (s.grid g))
        { s with nextId := s.nextId + 1 + (s.grid g).wpb, blocks := Tab.put s.blocks s.nextId (s.placedBlock g blockNo cores) }).setGrid g
          fun gr => { gr with toPlace := gr.toPlace.filter (· ≠ blockNo), state := .running, reserve := gr.reserve.drop 1 }).acquire
        (s.placedBlock g blockNo cores).warps .sys := (rfl)

section
variable {g b blockNo : Nat} {cores : List Nat} {wpc : Nat} {gr : Grid}

theorem State.addWarps_frame : (l : List Nat) → (s : State) →
    l.foldl (State.addWarp g b blockNo cores wpc gr) s =
      { s with warps := (l.foldl (State.addWarp g b blockNo cores wpc gr) s).warps }
  | [], _ => rfl
  | i :: rest, s => (addWarps_frame rest (State.addWarp g b blockNo cores wpc gr s i)).trans rfl

/-- Whether warp `i` of a block stands as it was created. -/
def State.HasWarp (g b blockNo : Nat) (gr : Grid) (i : Nat) (s : State) : Prop :=
  ∃ c p k, Tab.find s.warps (b + 1 + i) = some (gr.newWarp g b blockNo i c p k)

theorem State.hasWarp_addWarp (s : State) (i : Nat) : State.HasWarp g b blockNo gr i (s.addWarp g b blockNo cores wpc gr i) :=
  ⟨_, _, _, Tab.find_put_self _ _ _⟩

theorem State.hasWarp_addWarp_of {s : State} {i : Nat} (h : State.HasWarp g b blockNo gr i s) (j : Nat) :
    State.HasWarp g b blockNo gr i (s.addWarp g b blockNo cores wpc gr j) := by
  by_cases hij : i = j
  · subst hij
    exact s.hasWarp_addWarp i
  · obtain ⟨c, p, k, hw⟩ := h
    exact ⟨c, p, k, (Tab.find_put_ne (by omega) _ _).trans hw⟩

theorem State.hasWarp_addWarps {i : Nat} : (l : List Nat) → {s : State} → i ∈ l ∨ State.HasWarp g b blockNo gr i s →
    State.HasWarp g b blockNo gr i (l.foldl (State.addWarp g b blockNo cores wpc gr) s)
  | [], _, h => h.resolve_left (by simp)
  | j :: rest, s, h => by
    refine hasWarp_addWarps rest ?_
    obtain hm | hw := h
    · obtain rfl | hm := List.mem_cons.mp hm
      · exact .inr (s.hasWarp_addWarp i)
      · exact .inl hm
    · exact .inr (State.hasWarp_addWarp_of hw j)

end

section
variable {s : State} {g blockNo : Nat} {cores : List Nat}

theorem State.placeOne_block : ∃ rs, Tab.find (s.placeOne g blockNo cores).blocks s.nextId =
    some { s.placedBlock g blockNo cores with races := rs } := by
  rw [State.placeOne_eq]
  refine State.acquire_keepsBlock ?_ _ _
  rw [State.addWarps_frame]
  exact Tab.find_put_self _ _ _

theorem State.placeOne_warp {i : Nat} (hi : i < (s.grid g).wpb) :
    State.HasWarp g s.nextId blockNo (s.grid g) i (s.placeOne g blockNo cores) := by
  rw [State.placeOne_eq, State.acquire_frame]
  exact State.hasWarp_addWarps (List.range (s.grid g).wpb) (.inl (List.mem_range.mpr hi))

theorem State.placeOne_toPlace (hg : (Tab.find s.grids g).isSome = true) :
    ((s.placeOne g blockNo cores).grid g).toPlace = (s.grid g).toPlace.filter (· ≠ blockNo) := by
  rw [State.placeOne_eq, State.acquire_frame, State.addWarps_frame]
  exact congrArg Grid.toPlace ((State.grid_setGrid _ g g _ hg).trans (if_pos rfl))

end

/-- How a warp that was created stands. -/
theorem State.HasWarp.start {g b blockNo i : Nat} {gr : Grid} {s : State} (h : State.HasWarp g b blockNo gr i s) :
    (s.warp (b + 1 + i)).index = i ∧ (s.warp (b + 1 + i)).alloc = gr.kernel.regs ∧
      (s.warp (b + 1 + i)).role = gr.kernel.roleOf i ∧ (s.warp (b + 1 + i)).block = b ∧
      ∀ l, l < 32 → (s.thread ⟨b + 1 + i, l⟩).pos = gr.kernel.entry := by
  obtain ⟨c, p, k, hw⟩ := h
  have hs : s.warp (b + 1 + i) = gr.newWarp g b blockNo i c p k := by
    unfold State.warp
    rw [hw]
    rfl
  rw [hs]
  refine ⟨rfl, rfl, rfl, rfl, fun l hl => ?_⟩
  unfold State.thread
  rw [hs]
  simp [Warp.thread, Grid.newWarp, hl, Thread.start]

section
variable {g : Nat} {s : State}

theorem placement_waits (hw : (s.grid g).waits = true) (ht : (s.turnOf fun e => e.record.isNone && e.grid == g) = true)
    (hc : s.coresFor g = none) : placement g s = s.hold (.placement g) := by
  unfold placement
  simp only [hw, ht, hc]
  rfl

theorem placement_places {b : Nat} {rest cs : List Nat} (hw : (s.grid g).waits = true) (hd : (s.grid g).det = false)
    (hp : (s.grid g).toPlace = b :: rest) (ht : (s.turnOf fun e => e.record.isNone && e.grid == g) = true) (hc : s.coresFor g = some cs) :
    placement g s = if ((s.placeOne g b cs).refreshFrz.grid g).toPlace.isEmpty then (s.placeOne g b cs).refreshFrz
      else (s.placeOne g b cs).refreshFrz.send (.placement g) := by
  unfold placement
  simp only [hw, hd, hp, ht, hc]
  rfl

theorem placement_block {b : Nat} {rest cs : List Nat} (hg : (Tab.find s.grids g).isSome = true) (hw : (s.grid g).waits = true)
    (hd : (s.grid g).det = false) (hp : (s.grid g).toPlace = b :: rest)
    (ht : (s.turnOf fun e => e.record.isNone && e.grid == g) = true) (hc : s.coresFor g = some cs) :
    ∃ s' blk, exec (.placement g) s = .next s' ∧ Tab.find s'.blocks s.nextId = some blk ∧
      blk.grid = g ∧ blk.index = b ∧ blk.places = cs ∧ b ∉ (s'.grid g).toPlace ∧
      ∀ i, i < (s.grid g).wpb → (s'.warp (s.nextId + 1 + i)).index = i ∧
        (s'.warp (s.nextId + 1 + i)).alloc = (s.grid g).kernel.regs ∧
        (s'.warp (s.nextId + 1 + i)).role = (s.grid g).kernel.roleOf i ∧ (s'.warp (s.nextId + 1 + i)).block = s.nextId ∧
        ∀ l, l < 32 → (s'.thread ⟨s.nextId + 1 + i, l⟩).pos = (s.grid g).kernel.entry := by
  obtain ⟨rs, hb⟩ := State.placeOne_block (s := s) (g := g) (blockNo := b) (cores := cs)
  have hn : b ∉ ((s.placeOne g b cs).grid g).toPlace := by
    rw [State.placeOne_toPlace hg]
    simp
  have hws (i : Nat) (hi : i < (s.grid g).wpb) := (State.placeOne_warp (blockNo := b) (cores := cs) hi).start
  refine ⟨_, { s.placedBlock g b cs with races := rs }, congrArg Host.Outcome.next (placement_places hw hd hp ht hc), ?_⟩
  split <;> exact ⟨hb, rfl, rfl, rfl, hn, hws⟩

end

/-! ## Completion and the first fatal report -/

section
variable {g : Nat} {s : State}

theorem gridCompletion_holds (hg : (Tab.find s.grids g).isSome = true) (hd : s.gridDone g = true) (h0 : (s.grid g).gw ≠ 0)
    (ht : s.now < (s.grid g).gw.toNat + s.pkskew) : gridCompletion g s = s.hold (.gridCompletion g) := by
  obtain ⟨gr, hf⟩ := Option.isSome_iff_exists.mp hg
  have he : s.grid g = gr := congrArg (Option.getD · Grid.none) hf
  rw [he] at h0 ht
  unfold gridCompletion
  rw [hf]
  exact (if_neg (by simp [hd])).trans (if_pos ⟨h0, ht⟩)

theorem gridCompletion_ends (hg : (Tab.find s.grids g).isSome = true) (hd : s.gridDone g = true)
    (ht : (s.grid g).gw = 0 ∨ (s.grid g).gw.toNat + s.pkskew ≤ s.now) : Tab.find (gridCompletion g s).grids g = none := by
  obtain ⟨gr, hf⟩ := Option.isSome_iff_exists.mp hg
  have he : s.grid g = gr := congrArg (Option.getD · Grid.none) hf
  rw [he] at ht
  have hn : ¬ (gr.gw ≠ 0 ∧ s.now < gr.gw.toNat + s.pkskew) := by
    rintro ⟨h0, hl⟩
    obtain h | h := ht
    · exact h0 h
    · omega
  unfold gridCompletion
  rw [hf]
  dsimp only
  rw [if_neg (by simp [hd]), if_neg hn]
  exact Tab.find_del _ _

theorem gridCompletion_resumes (hg : (Tab.find s.grids g).isSome = true) (hd : s.gridDone g = false) :
    gridCompletion g s = s.setGrid g fun gr => { gr with state := .running } := by
  obtain ⟨gr, hf⟩ := Option.isSome_iff_exists.mp hg
  unfold gridCompletion
  rw [hf]
  exact if_pos (by simp [hd])

theorem fatalFault_eq {r : Report} {pos : DWord} {gr : Grid} (hf : Tab.find s.grids g = some gr) (hs : gr.state ≠ .ending) :
    fatalFault g r pos s =
      let s1 := if gr.fault.isSome then s else s.setGrid g fun x => { x with fault := some (r, pos) }
      if s1.enginesDone g then s1.endGrid g else s1.hold (.fatalFault g r pos) := by
  unfold fatalFault
  rw [hf]
  exact if_neg hs

theorem State.enginesDone_recorded (c : Bool) (f : Grid → Grid) : (if c then s else s.setGrid g f).enginesDone g = s.enginesDone g := by
  cases c <;> rfl

theorem fatalFault_recorded {r : Report} {pos : DWord} {gr : Grid} (hf : Tab.find s.grids g = some gr) (hs : gr.state ≠ .ending)
    (hd : s.enginesDone g = false) : ∃ s', exec (.fatalFault g r pos) s = .next s' ∧ s'.net = .fatalFault g r pos :: s.net ∧
      (gr.fault = none → (s'.grid g).fault = some (r, pos)) ∧ (∀ x, gr.fault = some x → (s'.grid g).fault = some x) := by
  have hg : s.grid g = gr := congrArg (Option.getD · Grid.none) hf
  have hi : (Tab.find s.grids g).isSome = true := by simp [hf]
  have hr : fatalFault g r pos s = (if gr.fault.isSome then s else s.setGrid g fun x => { x with fault := some (r, pos) }).hold
      (.fatalFault g r pos) := (fatalFault_eq hf hs).trans (if_neg (by rw [State.enginesDone_recorded, hd]; decide))
  refine ⟨_, congrArg Host.Outcome.next hr, ?_, fun hn => ?_, fun x hx => ?_⟩
  · split <;> rfl
  · rw [hn]
    exact congrArg Grid.fault ((State.grid_setGrid s g g _ hi).trans (if_pos rfl))
  · rw [hx]
    exact (congrArg Grid.fault hg).trans hx

theorem fatalFault_ends {r : Report} {pos : DWord} {gr : Grid} (hf : Tab.find s.grids g = some gr) (hs : gr.state ≠ .ending)
    (hd : s.enginesDone g = true) : fatalFault g r pos s =
      (if gr.fault.isSome then s else s.setGrid g fun x => { x with fault := some (r, pos) }).endGrid g :=
  (fatalFault_eq hf hs).trans (if_pos ((State.enginesDone_recorded _ _).trans hd))

end

/-! ## The estimator -/

theorem estimatorRun_eq {g : Nat} {s : State} {cs : List (List Nat)} (hw : (s.grid g).waits = true) (hl : (s.grid g).latb ≠ 0)
    (he : s.fe.peEn = true) (hf : (s.grid g).fault = none) (hn : ∀ e ∈ s.grids, Msg.estimatorRun e.1 ∉ s.net)
    (hp : s.provisional g = some cs) :
    estimatorRun g s =
      let taken := cs.flatten.filter fun c => !s.freeFor g c
      let bav : Int := ((s.grid g).accepted : Int) + 1000 * ((s.grid g).latb : Int) - (s.now : Int) - (s.fe.peResv : Int)
      if taken.isEmpty then s
      else (s.victimsOn taken).foldl (fun s u => s.markVictim u bav true) (s.setGrid g fun x => { x with reserve := cs }) := by
  have hearlier : (s.grids.any fun e => e.1 != g && s.net.contains (.estimatorRun e.1)
      && (decide (s.gridEp g < s.gridEp e.1) || (s.gridEp g == s.gridEp e.1 && decide (e.2.seq < (s.grid g).seq)))) = false := by
    rw [List.any_eq_false]
    intro e hm
    simp [hn e hm]
  unfold estimatorRun
  dsimp only
  rw [if_neg (by simp [hw, hl, he, hf]), hearlier, if_neg (by decide), hp]

theorem State.markVictim_marks {s : State} {b : Nat} (hb : (Tab.find s.blocks b).isSome = true) (bav : Int) :
    ((s.markVictim [b] bav false).block b).mark = some (s.decision [b] bav false) ∧
      (s.decision [b] bav false = 1 → Msg.flush b ∈ (s.markVictim [b] bav false).net ∧
        ((s.markVictim [b] bav false).block b).stopping = some 0) ∧
      (s.decision [b] bav false = 2 → Msg.save b ∈ (s.markVictim [b] bav false).net ∧
        ((s.markVictim [b] bav false).block b).stopping = some 1) := by
  have hset (f : Block → Block) : (s.setBlock b f).block b = f (s.block b) := (State.block_setBlock s b b f hb).trans (if_pos rfl)
  have hin (l : List Msg) (m : Msg) : m ∈ l ++ [m] := List.mem_append_right _ (List.mem_singleton_self m)
  unfold State.markVictim
  generalize hd : s.decision [b] bav false = d
  obtain _ | _ | n := d
  · exact ⟨congrArg Block.mark (hset _), by simp, by simp⟩
  · exact ⟨congrArg Block.mark (hset _), fun _ => ⟨hin _ _, congrArg Block.stopping (hset _)⟩, by simp⟩
  · exact ⟨congrArg Block.mark (hset _), by simp, fun h2 => ⟨hin _ _, (congrArg Block.stopping (hset _)).trans (by
      obtain rfl : n = 0 := by omega
      rfl)⟩⟩

section
variable {b dl : Nat} {s : State} {blk : Block}

theorem drainRecheck_early (hf : Tab.find s.blocks b = some blk) (hd : blk.drain = some dl) (h : s.now < dl) :
    drainRecheck b s = s.hold (.drainRecheck b) := by
  unfold drainRecheck
  simp only [hf, hd]
  exact if_pos h

theorem drainRecheck_due (hf : Tab.find s.blocks b = some blk) (hd : blk.drain = some dl) (h : dl ≤ s.now) (hs : blk.stopping = none) :
    drainRecheck b s = s.markVictim (s.unit b) 0 false := by
  unfold drainRecheck
  simp only [hf, hd]
  exact (if_neg (by omega)).trans (if_neg (by simp [hs]))

end

theorem gridsProceed : Claim.GridsProceed := by
  refine ⟨fun g b rest cs s hg hw hd hp ht => ⟨fun hc => congrArg Host.Outcome.next (placement_waits hw ht hc),
      fun hc => placement_block hg hw hd hp ht hc⟩, fun g s hg => ⟨?_, ?_, ?_⟩, fun g r pos s gr hf hs => ⟨?_, ?_⟩, ?_,
    fun b bav s hb => State.markVictim_marks hb bav, fun b dl s blk hf hd => ⟨?_, ?_⟩⟩
  · exact fun hd h0 hn => congrArg Host.Outcome.next (gridCompletion_holds hg hd h0 hn)
  · exact fun hd hn => ⟨_, rfl, gridCompletion_ends hg hd hn⟩
  · intro hd
    refine ⟨_, congrArg Host.Outcome.next (gridCompletion_resumes hg hd), ?_, rfl⟩
    exact congrArg Grid.state ((State.grid_setGrid s g g _ hg).trans (if_pos rfl))
  · exact fun hd => fatalFault_recorded hf hs hd
  · exact fun hd => congrArg Host.Outcome.next (fatalFault_ends hf hs hd)
  · intro g s cs gr hw hl he hf hn hp
    have hrun := estimatorRun_eq hw hl he hf hn hp
    refine ⟨fun h0 => congrArg Host.Outcome.next (hrun.trans (if_pos (List.isEmpty_iff.mpr h0))),
      fun h0 => congrArg Host.Outcome.next (hrun.trans (if_neg fun h => h0 (List.isEmpty_iff.mp h)))⟩
  · exact fun h => congrArg Host.Outcome.next (drainRecheck_early hf hd h)
  · exact fun h hs => congrArg Host.Outcome.next (drainRecheck_due hf hd h hs)

end Sys2Proof.Machine
end

section
/-! SUPPORT. Blocks flushed, saved, restored and yielded (R150, R380 to R383). -/

namespace Sys2Proof.Machine

set_option Elab.async false

/-! ## A block leaves its cores -/

/-- Changes of cores one after another change nothing else. -/
theorem State.setCores_frame {β : Type} (c : β → Nat) (f : β → Core → Core) : (l : List β) → (s : State) →
    l.foldl (fun s x => s.setCore (c x) (f x)) s = { s with cores := (l.foldl (fun s x => s.setCore (c x) (f x)) s).cores }
  | [], _ => rfl
  | x :: rest, s => (setCores_frame c f rest (s.setCore (c x) (f x))).trans rfl

theorem State.askEstimator_frame (s : State) (g : Nat) : s.askEstimator g = { s with net := (s.askEstimator g).net } := by
  unfold State.askEstimator
  split <;> rfl

theorem State.coresFreed_frame (s : State) : s.coresFreed = { s with net := s.coresFreed.net } := by
  have h : ∀ (l : List (Nat × Grid)) (u : State), l.foldl (fun (s : State) (e : Nat × Grid) => s.askEstimator e.1) u =
      { u with net := (l.foldl (fun (s : State) (e : Nat × Grid) => s.askEstimator e.1) u).net } := by
    intro l
    induction l with
    | nil => exact fun _ => rfl
    | cons e rest ih =>
      intro u
      rw [List.foldl_cons, ih, State.askEstimator_frame]
  exact h _ s

section
variable (s : State) (b : Nat)

theorem State.freeBlock_block : Tab.find (s.freeBlock b).blocks b = none := by
  unfold State.freeBlock
  dsimp only
  rw [State.coresFreed_frame]
  exact Tab.find_del _ _

theorem State.freeBlock_fe : (s.freeBlock b).fe = s.fe := by
  unfold State.freeBlock
  dsimp only
  rw [State.coresFreed_frame, State.setCores_frame]
  rfl

theorem State.isSome_freeBlock {s : State} {g : Nat} (h : (Tab.find s.grids g).isSome = true) (b : Nat) :
    (Tab.find (s.freeBlock b).grids g).isSome = true := by
  unfold State.freeBlock
  dsimp only
  rw [State.coresFreed_frame, State.setCores_frame]
  exact isSome_upd h _ _

theorem State.withdrawWait_frame : s.withdrawWait b = { s with monitors := (s.withdrawWait b).monitors } := by
  unfold State.withdrawWait
  split
  · rfl
  · split <;> rfl

theorem State.withdrawBlock_frame :
    s.withdrawBlock b = { s with monitors := (s.withdrawBlock b).monitors, waits := (s.withdrawBlock b).waits } := by
  have h : ∀ (l : List Nat) (u : State),
      l.foldl (fun s k => { s.withdrawWait k with waits := Tab.del (s.withdrawWait k).waits k }) u =
        { u with
          monitors := (l.foldl (fun s k => { s.withdrawWait k with waits := Tab.del (s.withdrawWait k).waits k }) u).monitors
          waits := (l.foldl (fun s k => { s.withdrawWait k with waits := Tab.del (s.withdrawWait k).waits k }) u).waits } := by
    intro l
    induction l with
    | nil => exact fun _ => rfl
    | cons k rest ih =>
      intro u
      rw [List.foldl_cons, ih, State.withdrawWait_frame]
  exact h _ s

end

/-! ## The flush -/

theorem mem_insertIndex (n : Nat) : (l : List Nat) → n ∈ insertIndex n l
  | [] => List.mem_singleton_self n
  | m :: rest => by
    unfold insertIndex
    split
    · exact List.mem_cons_self
    · exact List.mem_cons_of_mem _ (mem_insertIndex n rest)

/-- The state once a flushed block has left its cores. -/
def State.flushedOut (s : State) (b : Nat) (blk : Block) : State :=
  let ws := sortBy (fun (x y : Nat) => decide ((s.warp x).index < (s.warp y).index)) blk.warps
  let s3 := (s.startFlush b).setGrid blk.grid fun g => ws.foldl (fun g w => g.handBack (s.warp w).heldCoord) (g.handBack blk.heldCoord)
  ((s3.withdrawBlock b).dropMessages b).freeBlock b

theorem State.isSome_flushedOut {s : State} {blk : Block} {g : Nat} (h : (Tab.find s.grids g).isSome = true) (b : Nat) :
    (Tab.find (s.flushedOut b blk).grids g).isSome = true := by
  unfold State.flushedOut
  dsimp only
  refine State.isSome_freeBlock ?_ b
  rw [State.withdrawBlock_frame]
  exact isSome_upd h _ _

section
variable {b : Nat} {s : State} {blk : Block}

theorem flush_holds (hf : Tab.find s.blocks b = some blk) (hg : (s.grid blk.grid).fault = none)
    (h : (s.startFlush b).allStopped b = false ∨ (s.startFlush b).flushed b = false) :
    flush b s = (s.startFlush b).hold (.flush b) := by
  unfold flush
  rw [hf]
  exact (if_neg (by simp [hg])).trans (if_pos (by simpa using h))

theorem flush_leaves (hf : Tab.find s.blocks b = some blk) (hg : (s.grid blk.grid).fault = none)
    (hs : (s.startFlush b).allStopped b = true) (hd : (s.startFlush b).flushed b = true) :
    flush b s =
      let s5 := (s.flushedOut b blk).setGrid blk.grid fun g => { g with toPlace := insertIndex blk.index g.toPlace, waitingSince := s.now }
      (if s5.net.contains (.placement blk.grid) then s5 else s5.send (.placement blk.grid)).askEstimator blk.grid := by
  unfold flush
  rw [hf]
  exact (if_neg (by simp [hg])).trans (if_neg (by simp [hs, hd]))

theorem flush_waits (hf : Tab.find s.blocks b = some blk) (hg : (s.grid blk.grid).fault = none)
    (hs : (s.startFlush b).allStopped b = true) (hd : (s.startFlush b).flushed b = true) :
    ∃ s', exec (.flush b) s = .next s' ∧ Tab.find s'.blocks b = none ∧ Msg.placement blk.grid ∈ s'.net ∧
      ((Tab.find s.grids blk.grid).isSome = true → blk.index ∈ (s'.grid blk.grid).toPlace) := by
  have hr := flush_leaves hf hg hs hd
  generalize h5 : (s.flushedOut b blk).setGrid blk.grid
    (fun g => { g with toPlace := insertIndex blk.index g.toPlace, waitingSince := s.now }) = s5 at hr
  have hb : Tab.find s5.blocks b = none := by
    rw [← h5]
    exact State.freeBlock_block _ b
  have hp : (Tab.find s.grids blk.grid).isSome = true → blk.index ∈ (s5.grid blk.grid).toPlace := by
    intro hi
    rw [← h5, State.grid_setGrid _ _ _ _ (State.isSome_flushedOut hi b), if_pos rfl]
    exact mem_insertIndex _ _
  refine ⟨_, congrArg Host.Outcome.next hr, ?_⟩
  dsimp only
  split
  · rename_i hm
    have hk := (s5.askEstimator_keeps blk.grid).2 _ (List.contains_iff_mem.mp hm)
    rw [State.askEstimator_frame] at hk ⊢
    exact ⟨hb, hk, hp⟩
  · have hk := ((s5.send (.placement blk.grid)).askEstimator_keeps blk.grid).2 (.placement blk.grid)
      (List.mem_append_right _ (List.mem_singleton_self _))
    rw [State.askEstimator_frame] at hk ⊢
    exact ⟨hb, hk, hp⟩

end

/-! ## The save -/

theorem Tab.upd_same {α : Type} {k : Nat} {f : α → α} : (t : Tab α) → (∀ v, Tab.find t k = some v → f v = v) → Tab.upd t k f = t
  | [], _ => rfl
  | (j, v) :: rest, h => by
    unfold Tab.upd
    by_cases hj : k = j
    · rw [if_pos hj, h v (if_pos hj)]
    · rw [if_neg hj, upd_same rest fun w hw => h w ((if_neg hj).trans hw)]

/-- The record of a block that is saved alone. -/
def State.record (s : State) (b : Nat) : Saved :=
  { s.snapshot b with firn := s.firnBytes false true (s.snapshot b), bytes := (s.firnBytes false true (s.snapshot b)).length }

theorem State.bytes_record (s : State) (b : Nat) : (s.record b).bytes = (s.firnBytes false true (s.snapshot b)).length := by
  unfold State.record
  generalize s.firnBytes false true (s.snapshot b) = bytes
  rfl

theorem State.moveToFe_frame (s : State) (k : Nat) : s.moveToFe k = { s with monitors := (s.moveToFe k).monitors } := by
  unfold State.moveToFe
  split
  · rfl
  · split <;> rfl

theorem State.movesToFe_frame : (l : List Nat) → (s : State) →
    l.foldl (fun s k => s.moveToFe k) s = { s with monitors := (l.foldl (fun s k => s.moveToFe k) s).monitors }
  | [], _ => rfl
  | k :: rest, s => by rw [List.foldl_cons, movesToFe_frame rest, State.moveToFe_frame]

/-- A record at a base of the heap. -/
def Saved.placed (v : Saved) (base : Nat) : Saved := { v with heapBase := base }

theorem Saved.bytes_placed (v : Saved) (base : Nat) : (v.placed base).bytes = v.bytes := (rfl)

/-- The state with one record in the heap at a base. -/
def State.recorded (s : State) (v : Saved) (base : Nat) : State :=
  let s1 := s.setHeap (s.fe.heap ++ [(base, 0 + v.bytes)])
  { s1 with nextId := s.nextId + 1, fe := { s1.fe with saved := s1.fe.saved ++ [(s.nextId, v.placed base)] } }

/-- The waits of a block's warps that have moved to FE. -/
def State.waitsToFe (s : State) (b : Nat) : State :=
  ((s.block b).warps.flatMap fun w => (s.waits.filter fun e => e.2.warp == w).map (·.1)).foldl (fun s k => s.moveToFe k) s

theorem State.putAway_one {s : State} {v : Saved} (hv : v.byYield = false) (b base : Nat) :
    s.putAway [b] [v] base =
      (((((s.recorded v base).waitsToFe b).dropMessages b).freeBlock b).send (.restore s.nextId)).refreshFrz := by
  have h : s.putAway [b] [v] base =
      (if v.byYield then
        if v.byYield || false then ((((s.recorded v base).waitsToFe b).dropMessages b).freeBlock b).countRoutine (dieOfCore (v.blk.places.headD 0)) 7
        else (((s.recorded v base).waitsToFe b).dropMessages b).freeBlock b
      else State.send
        (if v.byYield || false then ((((s.recorded v base).waitsToFe b).dropMessages b).freeBlock b).countRoutine (dieOfCore (v.blk.places.headD 0)) 7
        else (((s.recorded v base).waitsToFe b).dropMessages b).freeBlock b) (.restore s.nextId)).refreshFrz := rfl
  rw [h, hv]
  rfl

theorem State.putAway_saved {s : State} {v : Saved} (hv : v.byYield = false) (b base : Nat) :
    (s.putAway [b] [v] base).fe.saved = s.fe.saved ++ [(s.nextId, v.placed base)] := by
  rw [State.putAway_one hv]
  refine (congrArg FrontEnd.saved (State.freeBlock_fe _ b)).trans ?_
  unfold State.waitsToFe
  rw [State.movesToFe_frame]
  rfl

/-- An entry put at the end of a table that has none of its number. -/
theorem Tab.find_append {α : Type} {k : Nat} (v : α) : (t : Tab α) → Tab.find t k = none → Tab.find (t ++ [(k, v)]) k = some v
  | [], _ => if_pos rfl
  | (j, w) :: rest, h => by
    by_cases hj : k = j
    · simp [Tab.find, hj] at h
    · exact (if_neg hj).trans (find_append v rest ((if_neg hj).symm.trans h))

section
variable {b : Nat} {s : State} {blk : Block}

theorem save_eq (hf : Tab.find s.blocks b = some blk) (hs : blk.stopping = some 1) (hg : (s.grid blk.grid).fault = none)
    (hd : (s.grid blk.grid).det = false) :
    save b s =
      if !(s.allStopped b && s.drained b) then s.hold (.save b)
      else match s.heapFree.find? fun r => decide ((s.record b).bytes ≤ r.2) with
        | some r => s.putAway [b] [s.record b] r.1
        | none => s.hold (.save b) := by
  have hb : s.block b = blk := congrArg (Option.getD · Block.none) hf
  have hu : s.unit b = [b] := by
    unfold State.unit
    rw [hb]
    exact if_neg (by simp [hd])
  have hsame : s.setBlock b (fun x => { x with stopping := some (x.stopping.getD 1) }) = s := by
    refine congrArg (fun t => { s with blocks := t }) (Tab.upd_same s.blocks fun v hv => ?_)
    obtain rfl : blk = v := Option.some.inj (hf.symm.trans hv)
    rw [hs]
    show { blk with stopping := some 1 } = blk
    rw [← hs]
  have h2 : blk.stopping ≠ some 2 := by simp [hs]
  unfold save
  rw [hf]
  dsimp only
  rw [if_neg (by simp [hs, hg]), hu]
  simp only [List.foldl_cons, List.foldl_nil, hsame]
  rw [if_neg (fun h => h2 h.1), if_neg h2]
  unfold State.record
  simp <;> (generalize s.firnBytes false true (s.snapshot b) = bytes; rfl)

theorem save_waits (hf : Tab.find s.blocks b = some blk) (hs : blk.stopping = some 1) (hg : (s.grid blk.grid).fault = none)
    (hd : (s.grid blk.grid).det = false) (h : s.allStopped b = false ∨ s.drained b = false) : save b s = s.hold (.save b) :=
  (save_eq hf hs hg hd).trans (if_pos (by
    obtain h | h := h <;> simp [h]))

theorem save_stops (hf : Tab.find s.blocks b = some blk) (hs : blk.stopping = some 1) (hg : (s.grid blk.grid).fault = none)
    (hd : (s.grid blk.grid).det = false) (ha : s.allStopped b = true) (hdr : s.drained b = true) :
    save b s = match s.heapFree.find? fun r => decide ((s.record b).bytes ≤ r.2) with
      | some r => s.putAway [b] [s.record b] r.1
      | none => s.hold (.save b) :=
  (save_eq hf hs hg hd).trans (if_neg (by simp [ha, hdr]))

theorem save_records (hf : Tab.find s.blocks b = some blk) (hs : blk.stopping = some 1) (hg : (s.grid blk.grid).fault = none)
    (hd : (s.grid blk.grid).det = false) (ha : s.allStopped b = true) (hdr : s.drained b = true) (hn : Tab.find s.fe.saved s.nextId = none)
    (hr : ∃ r ∈ s.heapFree, (s.record b).bytes ≤ r.2) :
    ∃ s' v, exec (.save b) s = .next s' ∧ Tab.find s'.blocks b = none ∧ Tab.find s'.fe.saved s.nextId = some v ∧ v.block = b ∧
      v.grid = blk.grid ∧ v.bytes = (s.record b).bytes ∧ Msg.restore s.nextId ∈ s'.net := by
  have hb : s.block b = blk := congrArg (Option.getD · Block.none) hf
  have hy : (s.record b).byYield = false := by
    show ((s.block b).stopping == some 2) = false
    rw [hb, hs]
    rfl
  obtain ⟨r, hfind⟩ : ∃ r, (s.heapFree.find? fun r => decide ((s.record b).bytes ≤ r.2)) = some r := by
    rw [← Option.isSome_iff_exists, List.find?_isSome]
    simpa using hr
  have he : save b s = s.putAway [b] [s.record b] r.1 := by rw [save_stops hf hs hg hd ha hdr, hfind]
  refine ⟨_, (s.record b).placed r.1, congrArg Host.Outcome.next he, ?_, ?_, rfl, congrArg Block.grid hb, Saved.bytes_placed _ _, ?_⟩
  · rw [State.putAway_one hy]
    exact State.freeBlock_block _ b
  · rw [State.putAway_saved hy]
    exact Tab.find_append _ _ hn
  · rw [State.putAway_one hy]
    exact List.mem_append_right _ (List.mem_singleton_self _)

theorem save_noRoom (hf : Tab.find s.blocks b = some blk) (hs : blk.stopping = some 1) (hg : (s.grid blk.grid).fault = none)
    (hd : (s.grid blk.grid).det = false) (ha : s.allStopped b = true) (hdr : s.drained b = true)
    (hr : ∀ r ∈ s.heapFree, r.2 < (s.record b).bytes) : save b s = s.hold (.save b) := by
  have hfind : (s.heapFree.find? fun r => decide ((s.record b).bytes ≤ r.2)) = none := by
    rw [List.find?_eq_none]
    intro r hm
    have := hr r hm
    simp
    omega
  have he := save_stops hf hs hg hd ha hdr
  rwa [hfind] at he

end

/-! ## The restore -/

/-- The blocks and what FE keeps. -/
def State.blocksFe (s : State) : Tab Block × FrontEnd := (s.blocks, s.fe)

theorem State.blocksFe_foldl {β : Type} {f : State → β → State} (hf : ∀ s x, (f s x).blocksFe = s.blocksFe) :
    (l : List β) → (s : State) → (l.foldl f s).blocksFe = s.blocksFe
  | [], _ => rfl
  | x :: rest, s => (blocksFe_foldl hf rest (f s x)).trans (hf s x)

theorem State.blocksFe_withdrawSaved (s : State) (w : Nat × WaitRec) : (s.withdrawSaved w).blocksFe = s.blocksFe := by
  unfold State.withdrawSaved
  split <;> rfl

theorem State.blocksFe_writeWait (s : State) (ts : List TRef) (dst : Nat) (b : Bool) : (s.writeWait ts dst b).blocksFe = s.blocksFe := by
  refine State.blocksFe_foldl ?_ ts s
  exact fun _ _ => rfl

theorem State.blocksFe_resumeWait (s : State) (v : Saved) (w : Nat × WaitRec) : (s.resumeWait v w).blocksFe = s.blocksFe := by
  unfold State.resumeWait
  dsimp only
  split
  · refine (State.blocksFe_foldl ?_ _ _).trans (State.blocksFe_writeWait _ _ _ _)
    exact fun _ _ => rfl
  · refine State.blocksFe_foldl ?_ _ _
    exact fun _ _ => rfl
  · rfl

theorem State.blocksFe_restoreMatrix (s : State) (v : Saved) (cores : List Nat) : (s.restoreMatrix v cores).blocksFe = s.blocksFe := by
  unfold State.restoreMatrix
  dsimp only
  refine (State.blocksFe_foldl ?_ v.ops _).trans (State.blocksFe_foldl ?_ v.accs s)
  · intro s o
    split <;> rfl
  · exact fun _ _ => rfl

/-- The block that a restore puts back. -/
def State.restoredBlock (s : State) (v : Saved) (cores : List Nat) : Block :=
  { v.blk with
    die := dieOfCore (cores.headD 0), places := cores, scratchBase := cores.map fun c => (s.scratchRoom c v.blk.scratch).getD 0
    placedAt := s.now, mark := none, drain := none, stopping := none, idleSince := none, arrivals := []
    yielded := v.blk.yielded || v.byYield }

theorem State.blocksFe_restoreOne (s : State) (v : Saved) (cores : List Nat) :
    (s.restoreOne v cores).blocksFe = (Tab.put s.blocks v.block (s.restoredBlock v cores), s.fe) := by
  unfold State.restoreOne
  dsimp only
  have hlast (c : Prop) [Decidable c] (u : State) (k : Nat) (f : Core → Core) : (if c then u.setCore k f else u).blocksFe = u.blocksFe := by
    split <;> rfl
  refine (hlast _ _ _ _).trans ((State.blocksFe_foldl ?_ v.waits _).trans ((State.blocksFe_foldl ?_ v.waits _).trans
    ((State.blocksFe_foldl ?_ v.copies _).trans ((State.blocksFe_foldl ?_ v.loads _).trans ((State.blocksFe_foldl ?_ v.held _).trans ?_)))))
  · exact fun s w => s.blocksFe_resumeWait v w
  · intro s w
    split
    · rfl
    · exact s.blocksFe_withdrawSaved w
  · exact fun _ _ => rfl
  · exact fun _ _ => rfl
  · intro s h
    split <;> rfl
  refine (State.blocksFe_restoreMatrix _ v cores).trans ((State.blocksFe_foldl ?_ v.buffers _).trans
    ((State.blocksFe_foldl ?_ cores _).trans (State.blocksFe_foldl ?_ v.warps _)))
  · exact fun _ _ => rfl
  · exact fun _ _ => rfl
  · intro s e
    split <;> rfl

section
variable {k : Nat} {s : State} {v : Saved}

theorem State.savedGroup_alone (hk : Tab.find s.fe.saved k = some v) (hd : (s.grid v.grid).det = false) : s.savedGroup k = [(k, v)] := by
  unfold State.savedGroup
  rw [hk]
  exact if_neg (by simp [hd])

theorem restore_waking (hk : Tab.find s.fe.saved k = some v) (hq : v.queued = true) (hd : (s.grid v.grid).det = false)
    (hw : s.wakeComing v = true) : restore k s = s.hold (.restore k) := by
  unfold restore
  rw [hk]
  simp [hq, State.savedGroup_alone hk hd, hw]

/-- The record of a restored block taken from the heap. -/
def State.unrecord (s : State) (k : Nat) (v : Saved) : State :=
  let s2 := s.setHeap (s.fe.heap.filter fun r => !(r.1 == min v.heapBase v.heapBase && r.2 == 0 + v.bytes))
  { s2 with fe := { s2.fe with saved := s2.fe.saved.filter fun e => !([(k, v)].any fun x => x.1 == e.1), peRest := s2.fe.peRest + 1 } }

theorem restore_turn (hk : Tab.find s.fe.saved k = some v) (hq : v.queued = true) (hd : (s.grid v.grid).det = false)
    (hw : s.wakeComing v = false)
    (ht : (s.turnOf fun e => e.record == some k || (e.record.isSome && e.grid == v.grid && (s.grid v.grid).det)) = true) :
    restore k s = match s.coresForSaved k with
      | none => s.hold (.restore k)
      | some cores => ((s.restoreOne v cores).unrecord k v).refreshFrz := by
  unfold restore
  rw [hk]
  dsimp only
  rw [State.savedGroup_alone hk hd, if_neg (by simp [hq]), if_neg (by simp [hw]), ht]
  rfl

section
variable (s : State) (k : Nat) (v : Saved)

theorem State.blocks_unrecord : (s.unrecord k v).refreshFrz.blocks = s.blocks := (rfl)
theorem State.peRest_unrecord : (s.unrecord k v).refreshFrz.fe.peRest = s.fe.peRest + 1 := (rfl)
theorem State.saved_unrecord :
    (s.unrecord k v).refreshFrz.fe.saved = s.fe.saved.filter fun e => !([(k, v)].any fun x => x.1 == e.1) := (rfl)

end

theorem Tab.find_withdrawn (k : Nat) (v : Saved) (t : Tab Saved) :
    Tab.find (t.filter fun e => !([(k, v)].any fun x => x.1 == e.1)) k = none := by
  have h : (t.filter fun e => !([(k, v)].any fun x => x.1 == e.1)) = Tab.del t k := by
    refine List.filter_congr fun e _ => ?_
    simp [bne, Bool.beq_comm]
  rw [h]
  exact Tab.find_del k t

theorem restore_places {cores : List Nat} (hk : Tab.find s.fe.saved k = some v) (hq : v.queued = true) (hd : (s.grid v.grid).det = false)
    (hw : s.wakeComing v = false)
    (ht : (s.turnOf fun e => e.record == some k || (e.record.isSome && e.grid == v.grid && (s.grid v.grid).det)) = true)
    (hc : s.coresForSaved k = some cores) :
    ∃ s' blk, exec (.restore k) s = .next s' ∧ Tab.find s'.blocks v.block = some blk ∧ blk.places = cores ∧ blk.stopping = none ∧
      Tab.find s'.fe.saved k = none ∧ s'.fe.peRest = s.fe.peRest + 1 := by
  have he : restore k s = ((s.restoreOne v cores).unrecord k v).refreshFrz := by rw [restore_turn hk hq hd hw ht, hc]
  have hb := s.blocksFe_restoreOne v cores
  have hblocks : (s.restoreOne v cores).blocks = Tab.put s.blocks v.block (s.restoredBlock v cores) := congrArg Prod.fst hb
  have hfe : (s.restoreOne v cores).fe = s.fe := congrArg Prod.snd hb
  refine ⟨_, s.restoredBlock v cores, congrArg Host.Outcome.next he, ?_, rfl, rfl, ?_, ?_⟩
  · rw [State.blocks_unrecord, hblocks]
    exact Tab.find_put_self _ _ _
  · rw [State.saved_unrecord]
    exact Tab.find_withdrawn k v _
  · rw [State.peRest_unrecord, hfe]

end

/-! ## The yield -/

section
variable {b t : Nat} {s : State} {blk : Block}

theorem blockYield_early (hf : Tab.find s.blocks b = some blk) (hi : blk.idleSince = some t) (h : s.now < t + s.mem.yldt) :
    blockYield b s = s := by
  have hn : ¬ t + s.mem.yldt ≤ s.now := by omega
  unfold blockYield
  simp [hf, hi, hn]

theorem blockYield_due (hf : Tab.find s.blocks b = some blk) (hy : s.mem.yldt ≠ 0) (hd : (s.grid blk.grid).det = false)
    (hs : blk.stopping = none) (hi : blk.idleSince = some t) (ha : s.allWaiting b = true) (h : t + s.mem.yldt ≤ s.now) :
    blockYield b s = (s.setBlock b fun x => { x with stopping := some 2 }).send (.save b) := by
  unfold blockYield
  rw [hf]
  exact if_neg (by simp [hy, hd, hs, hi, ha, h])

end

theorem blocksMove : Claim.BlocksMove := by
  refine ⟨fun b s blk hf hg => ⟨fun h => congrArg Host.Outcome.next (flush_holds hf hg h), fun hs hd => flush_waits hf hg hs hd⟩,
    fun b s blk hf hs hg hd => ⟨fun h => ⟨_, congrArg Host.Outcome.next (save_waits hf hs hg hd h), rfl, rfl⟩, fun ha hdr hn => ⟨?_, ?_⟩⟩,
    fun k s v cores hk hq hd => ⟨fun hw => congrArg Host.Outcome.next (restore_waking hk hq hd hw), fun hw ht => ⟨?_, ?_⟩⟩,
    fun b t s blk hf hy hd hs hi ha => ⟨?_, ?_⟩, fun k s hk hn => ?_⟩
  · rw [← State.bytes_record]
    exact save_records hf hs hg hd ha hdr hn
  · rw [← State.bytes_record]
    exact fun hr => ⟨_, congrArg Host.Outcome.next (save_noRoom hf hs hg hd ha hdr hr), rfl, rfl⟩
  · intro hc
    have he : restore k s = s.hold (.restore k) := by rw [restore_turn hk hq hd hw ht, hc]
    exact congrArg Host.Outcome.next he
  · exact fun hc => restore_places hk hq hd hw ht hc
  · intro h
    refine ⟨_, congrArg Host.Outcome.next (blockYield_due hf hy hd hs hi ha h), ?_, rfl⟩
    exact congrArg Block.stopping ((State.block_setBlock s b b _ (by simp [hf])).trans (if_pos rfl))
  · exact fun h => congrArg Host.Outcome.next (blockYield_early hf hi h)
  · have hc : s.net.contains (Msg.restore k) = false := by simpa using hn
    exact congrArg Host.Outcome.next (if_pos (by rw [hk, hc]; rfl))

/-- Settles O50, by the equation of each step of a grid and of a block in each of its cases: a placed block's warps are an invariant
of the fold that makes them, and what frees or restores a block leaves the tables that the statement reads alone. -/
theorem gridsAndBlocks : Obligations.GridsAndBlocks := ⟨gridsProceed, blocksMove⟩

end Sys2Proof.Machine
end

section
/-! SUPPORT. What memory requests do (R73, R81 to R85), and their acceptance from a ring in host memory (R83, R92). -/

namespace Sys2Proof.Machine

set_option Elab.async false

/-! ## Requests carried out -/

theorem State.asid_setAsid_self (s : State) (a : Nat) (f : Asid → Asid) : (s.setAsid a f).asid a = f (s.asid a) :=
  congrArg (Option.getD · Asid.none) (Tab.find_put_self a (f (s.asid a)) s.asids)

theorem State.reqId_frame (s : State) (r : MemRequest) (op : Nat) :
    (s.reqId r op).2 = { s with mreqs := (s.reqId r op).2.mreqs, nextId := (s.reqId r op).2.nextId } := by
  unfold State.reqId
  split <;> rfl

/-- A bump raises the generation, and retires a live address space at the last one. -/
theorem State.bump_asid (s : State) (a : Nat) (frames reqs : List Nat) :
    (s.bump a frames reqs).asid a = { s.asid a with
      gen := (s.asid a).gen + 1, st := if (s.asid a).st = 1 ∧ 0xFFFFF ≤ (s.asid a).gen + 1 then 3 else (s.asid a).st } ∧
    ∃ all, (s.bump a frames reqs).bumps = s.bumps ++ [⟨a, (s.asid a).gen + 1, all, all, frames, reqs⟩] := by
  have h : ∀ (l : List Nat) (u : State), (l.foldl (fun s k => s.send (.generationAck a k)) u).asids = u.asids ∧
      (l.foldl (fun s k => s.send (.generationAck a k)) u).bumps = u.bumps := by
    intro l
    induction l with
    | nil => exact fun _ => ⟨rfl, rfl⟩
    | cons k rest ih => exact fun u => ih _
  unfold State.bump
  dsimp only
  refine ⟨?_, _, (h _ _).2⟩
  exact (congrArg (fun t => (Tab.find t a).getD Asid.none) (h _ _).1).trans
    (congrArg (Option.getD · Asid.none) (Tab.find_put_self a _ s.asids))

theorem State.bumpFor_asid (s : State) (r : MemRequest) (op : Nat) (frames : List Nat) :
    (s.bumpFor r op frames).asid r.asid = { s.asid r.asid with
      gen := (s.asid r.asid).gen + 1
      st := if (s.asid r.asid).st = 1 ∧ 0xFFFFF ≤ (s.asid r.asid).gen + 1 then 3 else (s.asid r.asid).st } ∧
    ∃ b, (s.bumpFor r op frames).bumps = s.bumps ++ [b] ∧ b.asid = r.asid ∧ b.frames = frames := by
  unfold State.bumpFor
  dsimp only
  rw [State.reqId_frame]
  obtain ⟨ha, all, hb⟩ := State.bump_asid (State.reqInBump { s with
    mreqs := (s.reqId r op).2.mreqs, nextId := (s.reqId r op).2.nextId } r) r.asid frames [(s.reqId r op).1]
  exact ⟨ha, _, hb, rfl, rfl⟩

theorem State.asids_completeReq (s : State) (r : MemRequest) (status : Nat) : (s.completeReq r status).asids = s.asids := by
  have hre (u : State) (m : MemOp) : (u.reissue m status).asids = u.asids := by
    have h : ∀ (l : List Nat) (u : State), (l.foldl (fun s n => s.sendOnce (.eviction n)) u).asids = u.asids := by
      intro l
      induction l with
      | nil => exact fun _ => rfl
      | cons n rest ih =>
        intro u
        refine (ih _).trans ?_
        change (u.sendOnce (.eviction n)).asids = u.asids
        unfold State.sendOnce
        split <;> rfl
    unfold State.reissue
    split
    · exact h _ _
    · rfl
  have hput (u : State) (host : Bool) (pa : Nat) (bs : List Byte) : (u.fePut host pa bs).asids = u.asids :=
    State.asids_of_prog (State.prog_fePut u host pa bs)
  have hdec (u : State) : (u.decSignal r.asid r.signal false).asids = u.asids :=
    State.asids_of_prog (State.prog_decSignal u r.asid r.signal false)
  have hmsi (u : State) : (if r.flags % 2 = 1 then u.raiseMsix Config.mrVector else u).asids = u.asids := by split <;> rfl
  unfold State.completeReq
  dsimp only
  refine (hmsi _).trans ((hdec _).trans ?_)
  split
  · refine (hre _ _).trans ?_
    dsimp only
    split
    · exact hput _ _ _ _
    · rfl
  · rfl

theorem ascreate_makes {r : MemRequest} {s : State} (hw : s.reqWaits r = false) (hb : reqBad r = false) (ha : attrBad r.attr = false)
    (h1 : s.peek true (r.addr.toNat + 0x0D) 1 ≤ 2) (h2 : s.peek true (r.addr.toNat + 0x0E) 2 = 0)
    (h3 : s.peek true (r.addr.toNat + 0x48) 56 = 0) (h4 : s.peek true (r.addr.toNat + 0x10) 8 % 128 = 0)
    (h5 : s.peek true (r.addr.toNat + 0x30) 8 % 65536 = 0) (h6 : s.peek true (r.addr.toNat + 0x38) 8 % 65536 = 0)
    (h7 : s.peek true (r.addr.toNat + 0x40) 8 % 65536 = 0) (hs : (s.asid r.asid).st = 0) (hg : (s.asid r.asid).gen < 0xFFFFF)
    (hf : (s.allocTable 4096).2.fits = true) :
    ascreate r s = ((s.allocTable 4096).2.setAsid r.asid fun a => { a with
      root := (s.allocTable 4096).1, st := 1, cold := s.peek true (r.addr.toNat + 0x0D) 1
      rtab := BitVec.ofNat 64 (s.peek true (r.addr.toNat + 0x10) 8)
      tcat := BitVec.ofNat 64 (s.peek true (r.addr.toNat + 0x18) 8), tcatn := s.peek true (r.addr.toNat + 0x20) 4
      eptn := s.peek true (r.addr.toNat + 0x24) 4, eptab := BitVec.ofNat 64 (s.peek true (r.addr.toNat + 0x28) 8)
      hbase := BitVec.ofNat 64 (s.peek true (r.addr.toNat + 0x30) 8), vbase := BitVec.ofNat 64 (s.peek true (r.addr.toNat + 0x38) 8)
      vlen := BitVec.ofNat 64 (s.peek true (r.addr.toNat + 0x40) 8) }).bumpFor r 1 [] := by
  unfold ascreate
  refine (if_neg (by simp [hw])).trans ((if_neg ?_).trans ((if_neg ?_).trans ((if_neg ?_).trans ?_)))
  · simp [hb, ha, h1, h2, h3, h4, h5, h6, h7]
  · simp [hs]
  · simp [hs]; omega
  · change (if (!(s.allocTable 4096).2.fits) = true then _ else _) = _
    rw [hf]
    rfl

theorem State.asid_allocTable (s : State) (bytes a : Nat) : (s.allocTable bytes).2.asid a = s.asid a := by
  unfold State.allocTable
  dsimp only
  split <;> rfl

theorem ofLeBytes_lt : (bs : List Byte) → ofLeBytes bs < 256 ^ bs.length
  | [] => by decide
  | b :: rest => by
    have ih := ofLeBytes_lt rest
    have hb := b.isLt
    simp only [ofLeBytes, List.length_cons, Nat.pow_succ]
    omega

/-- Eight bytes fit a doubleword. -/
theorem State.peek_toNat (s : State) (host : Bool) (pa : Nat) : (BitVec.ofNat 64 (s.peek host pa 8)).toNat = s.peek host pa 8 := by
  rw [BitVec.toNat_ofNat]
  refine Nat.mod_eq_of_lt ?_
  unfold State.peek
  refine lt_of_lt_of_le (ofLeBytes_lt _) ?_
  simp

section
variable {r : MemRequest} {s : State}

theorem State.reqCheck_live {ranged b : Bool} (h : s.reqCheck r ranged b = none) : (s.asid r.asid).st = 1 := by
  unfold State.reqCheck at h
  split at h
  · cases h
  · split at h
    · assumption
    · split at h <;> cases h

theorem asdestroy_busy (hw : s.reqWaits r = false) (hc : s.reqCheck r false true = none) (hb : s.asidBusy r.asid = true) :
    asdestroy r s = s.completeReq r 2 := by
  unfold asdestroy
  rw [hw, hc]
  exact if_pos hb

theorem asdestroy_starts (hw : s.reqWaits r = false) (hc : s.reqCheck r false true = none) (hb : s.asidBusy r.asid = false)
    (hg : s.canBump r.asid = true) : asdestroy r s = (s.setAsid r.asid fun a => { a with st := 2 }).bumpFor r 2
      ((s.frames.filter fun e => e.2.owner == r.asid).map (·.1)) := by
  unfold asdestroy
  rw [hw, hc]
  dsimp only
  rw [hb, hg]
  rfl

theorem setcoldOp_sets (hw : s.reqWaits r = false) (hc : s.reqCheck r false true = none) :
    setcoldOp r s = (s.setAsid r.asid fun a => { a with cold := (r.attr.extractLsb' 8 2).toNat }).completeReq r 0 := by
  unfold setcoldOp
  rw [hw, State.reqCheck_any hc]
  rfl

theorem mapPagesOp_maps (hw : s.reqWaits r = false) (hc : s.reqCheck r true true = none)
    (hl : s.leavesIn r.asid r.va.toNat r.len.toNat = []) (h2 : r.attr.getLsbD 2 = false)
    (ht : r.attr.extractLsb' 5 2 = 0 ∨ r.addr.toNat % 2 ^ attrLog2 r.attr = 0 ∧ r.addr.toNat + r.len.toNat ≤ 2 ^ 52) :
    mapPagesOp r s = if (s.mapEach r (s.asid r.asid).gen).fits then (s.mapEach r (s.asid r.asid).gen).completeReq r 0
      else s.completeReq r 5 := by
  have hn : (r.attr.getLsbD 2 || ((r.attr.extractLsb' 5 2 == 1) &&
      (r.addr.toNat % 2 ^ attrLog2 r.attr != 0 || decide (r.addr.toNat + r.len.toNat > 2 ^ 52)))) = false := by
    rw [h2, Bool.false_or]
    obtain h0 | ⟨hp, hb⟩ := ht
    · rw [h0]
      rfl
    · simp [hp]
      omega
  unfold mapPagesOp
  rw [hw]
  dsimp only
  rw [hn, hl, List.filter_nil, State.reqCheck_any hc]
  dsimp only [List.any_nil, List.isEmpty_nil]
  simp only [Bool.false_eq_true, if_false, if_true, Nat.add_zero, Bool.not_true, Bool.false_and]
  cases (s.mapEach r (s.asid r.asid).gen).fits <;> rfl

section
variable {ls : List Leaf}

theorem unmapOp_found (hw : s.reqWaits r = false) (hc : s.reqCheck r true true = none)
    (hl : s.leaves r.asid r.va.toNat r.len.toNat = some ls) (hs : ∀ l ∈ ls, sticksOut r l = false) :
    unmapOp r s =
      if ls.any (s.leafLeased r.asid) then s.completeReq r 2
      else if !s.canBump r.asid then s.completeReq r 6
      else (ls.foldl (fun s l => s.setPte r.asid (BitVec.ofNat 64 l.va) l.log2 0) s).bumpFor r 4 (ls.flatMap Leaf.frames) := by
  have ha : ls.any (sticksOut r) = false := List.any_eq_false.mpr fun l h => by simp [hs l h]
  unfold unmapOp
  rw [hw, hc, hl]
  dsimp only
  rw [ha]
  rfl

/-- What PROTECT makes of the entries. -/
def State.protected (s : State) (r : MemRequest) (ls : List Leaf) : State :=
  ls.foldl (fun s l => s.setPte r.asid (BitVec.ofNat 64 l.va) l.log2
    (mkPte (pteV l.e) (pteLeaf l.e) (r.attr.getLsbD 0) (r.attr.getLsbD 1) false (pteEvc l.e) (pteTgt l.e) (pteAddr l.e))) s

theorem protectOp_found (hw : s.reqWaits r = false) (h2 : r.attr.getLsbD 2 = false) (hc : s.reqCheck r true true = none)
    (hl : s.leaves r.asid r.va.toNat r.len.toNat = some ls) (hs : ∀ l ∈ ls, sticksOut r l = false)
    (hn : ∀ l ∈ ls, s.leafLeased r.asid l = false) :
    protectOp r s =
      if ls.any (takesRight r) && !s.canBump r.asid then s.completeReq r 6
      else if ls.any (takesRight r) then (s.protected r ls).bumpFor r 5 [] else (s.protected r ls).completeReq r 0 := by
  have ha : ls.any (sticksOut r) = false := List.any_eq_false.mpr fun l h => by simp [hs l h]
  unfold protectOp
  rw [hw, h2, hl]
  dsimp only
  rw [State.reqCheck_any hc]
  dsimp only
  rw [ha, leased_none hn]
  rfl

theorem takesRight_none (h : ∀ l ∈ ls, (pteR l.e = true → r.attr.getLsbD 0 = true) ∧ (pteW l.e = true → r.attr.getLsbD 1 = true) ∧
    pteX l.e = false) : ls.any (takesRight r) = false := by
  refine List.any_eq_false.mpr fun l hl => ?_
  obtain ⟨hr, hwr, hx⟩ := h l hl
  unfold takesRight
  generalize r.attr.getLsbD 0 = a at hr ⊢
  generalize r.attr.getLsbD 1 = b at hwr ⊢
  rw [hx]
  cases hpr : pteR l.e <;> cases hpw : pteW l.e <;> simp_all

theorem takesRight_some (h : ∃ l ∈ ls, pteR l.e = true ∧ r.attr.getLsbD 0 = false ∨ pteW l.e = true ∧ r.attr.getLsbD 1 = false ∨
    pteX l.e = true) : ls.any (takesRight r) = true := by
  obtain ⟨l, hl, ho⟩ := h
  refine List.any_eq_true.mpr ⟨l, hl, ?_⟩
  unfold takesRight
  generalize r.attr.getLsbD 0 = a at ho ⊢
  generalize r.attr.getLsbD 1 = b at ho ⊢
  obtain ⟨h1, h2⟩ | ⟨h1, h2⟩ | h1 := ho <;> simp [*]

theorem setpinOp_found (hw : s.reqWaits r = false) (hc : s.reqCheck r true true = none)
    (hl : s.leaves r.asid r.va.toNat r.len.toNat = some ls) (hs : ∀ l ∈ ls, sticksOut r l = false) :
    setpinOp r s = ((ls.flatMap Leaf.frames).foldl
      (fun s n => s.setFrame n fun f => { f with pin := r.attr.getLsbD 7 }) s).completeReq r 0 := by
  have ha : ls.any (sticksOut r) = false := List.any_eq_false.mpr fun l h => by simp [hs l h]
  unfold setpinOp
  rw [hw, State.reqCheck_any hc, hl]
  dsimp only
  rw [ha]
  rfl

end

theorem requests_unmapped (hw : s.reqWaits r = false) (hc : s.reqCheck r true true = none)
    (hl : s.leaves r.asid r.va.toNat r.len.toNat = none) : unmapOp r s = s.completeReq r 3 ∧
      (r.attr.getLsbD 2 = false → protectOp r s = s.completeReq r 3) ∧ setpinOp r s = s.completeReq r 3 := by
  refine ⟨?_, fun h2 => ?_, ?_⟩
  · unfold unmapOp
    rw [hw, hc, hl]
    rfl
  · unfold protectOp
    rw [hw, h2, hl]
    dsimp only
    rw [State.reqCheck_any hc]
    rfl
  · unfold setpinOp
    rw [hw, State.reqCheck_any hc, hl]
    rfl

end

theorem requestsComplete : Claim.RequestsComplete := by
  intro r s hw
  refine ⟨?_, fun hc => ⟨fun hb hg => ?_, fun hb => congrArg Host.Outcome.next (asdestroy_busy hw hc hb), ?_⟩,
    fun hc => ⟨fun hl h2 ht => congrArg Host.Outcome.next (mapPagesOp_maps hw hc hl h2 ht),
      fun ls hl hs => ⟨fun hn hg => ?_, fun he => ?_, fun h2 hn => ⟨fun h => ?_, fun h hg => ?_⟩,
        congrArg Host.Outcome.next (setpinOp_found hw hc hl hs)⟩, fun hl => ?_⟩⟩
  · intro hb ha h1 h2 h3 h4 h5 h6 h7 hs hg hf
    obtain ⟨hasid, _⟩ := State.bumpFor_asid ((s.allocTable 4096).2.setAsid r.asid fun a => { a with
      root := (s.allocTable 4096).1, st := 1, cold := s.peek true (r.addr.toNat + 0x0D) 1
      rtab := BitVec.ofNat 64 (s.peek true (r.addr.toNat + 0x10) 8)
      tcat := BitVec.ofNat 64 (s.peek true (r.addr.toNat + 0x18) 8), tcatn := s.peek true (r.addr.toNat + 0x20) 4
      eptn := s.peek true (r.addr.toNat + 0x24) 4, eptab := BitVec.ofNat 64 (s.peek true (r.addr.toNat + 0x28) 8)
      hbase := BitVec.ofNat 64 (s.peek true (r.addr.toNat + 0x30) 8), vbase := BitVec.ofNat 64 (s.peek true (r.addr.toNat + 0x38) 8)
      vlen := BitVec.ofNat 64 (s.peek true (r.addr.toNat + 0x40) 8) }) r 1 []
    rw [← ascreate_makes hw hb ha h1 h2 h3 h4 h5 h6 h7 hs hg hf, State.asid_setAsid_self, State.asid_allocTable] at hasid
    refine ⟨_, rfl, fun hlt => ?_, ?_, ?_, ?_, ?_, ?_, ?_⟩
    · rw [hasid]
      exact if_neg (by dsimp only; omega)
    all_goals rw [hasid]
    · exact s.peek_toNat _ _
    · exact s.peek_toNat _ _
    · exact s.peek_toNat _ _
    · exact s.peek_toNat _ _
  · obtain ⟨hasid, b, hbumps, hb1, hb2⟩ := State.bumpFor_asid (s.setAsid r.asid fun a => { a with st := 2 }) r 2
      ((s.frames.filter fun e => e.2.owner == r.asid).map (·.1))
    rw [State.asid_setAsid_self] at hasid
    refine ⟨_, congrArg Host.Outcome.next (asdestroy_starts hw hc hb hg), ?_, ?_, b, hbumps, hb1, hb2⟩
    · rw [hasid]
      rfl
    · rw [hasid]
  · have hasid : (setcoldOp r s).asid r.asid = { s.asid r.asid with cold := (r.attr.extractLsb' 8 2).toNat } := by
      rw [setcoldOp_sets hw hc]
      exact (congrArg (fun t => (Tab.find t r.asid).getD Asid.none) (State.asids_completeReq _ r 0)).trans
        (State.asid_setAsid_self _ _ _)
    refine ⟨_, rfl, ?_, ?_, ?_⟩
    all_goals rw [hasid]
  · exact congrArg Host.Outcome.next ((unmapOp_found hw hc hl hs).trans
      ((if_neg (by simp [leased_none hn])).trans (if_neg (by simp [hg]))))
  · exact congrArg Host.Outcome.next ((unmapOp_found hw hc hl hs).trans (if_pos (leased_any.mpr he)))
  · refine congrArg Host.Outcome.next ((protectOp_found hw h2 hc hl hs hn).trans ?_)
    rw [takesRight_none h]
    rfl
  · refine congrArg Host.Outcome.next ((protectOp_found hw h2 hc hl hs hn).trans ?_)
    rw [takesRight_some h, hg]
    rfl
  · obtain ⟨hu, hp, hs⟩ := requests_unmapped hw hc hl
    exact ⟨congrArg Host.Outcome.next hu, fun h2 => congrArg Host.Outcome.next (hp h2), congrArg Host.Outcome.next hs⟩

end Sys2Proof.Machine
end

section
/-! SUPPORT. Why O46 is left open: it turns on `Config.ringInHost` and `Config.sliceSet`, which are constants without a body and may have
any value. With every ring in host memory it holds, as is shown here. -/

namespace Sys2Proof.Machine

set_option Elab.async false

/-! ## Requests accepted -/

/-- What is done to page tables leaves the ring's indices, the sequence numbers and the messages. -/
structure State.RingKept (s s' : State) : Prop where
  read : s'.mem.mrRead = s.mem.mrRead
  tail : s'.mem.mrTail = s.mem.mrTail
  seq : s'.fe.nextSeq = s.fe.nextSeq

theorem State.RingKept.refl (s : State) : s.RingKept s := ⟨rfl, rfl, rfl⟩

theorem State.RingKept.trans {a b c : State} (h : a.RingKept b) (k : b.RingKept c) : a.RingKept c :=
  ⟨k.read.trans h.read, k.tail.trans h.tail, k.seq.trans h.seq⟩

theorem State.ringKept_of_prog {s s' : State} (h : s'.prog = s.prog) (hq : s'.fe.nextSeq = s.fe.nextSeq) : s.RingKept s' :=
  ⟨congrArg (fun p => p.mem.mrRead) h, congrArg (fun p => p.mem.mrTail) h, hq⟩

theorem State.ringKept_foldl {β : Type} {f : State → β → State} (h : ∀ (s : State) x, s.RingKept (f s x)) :
    (l : List β) → (s : State) → s.RingKept (l.foldl f s)
  | [], s => .refl s
  | x :: rest, s => (h s x).trans (ringKept_foldl h rest (f s x))

theorem State.ringKept_poke (host : Bool) : (bs : List Byte) → (pa : Nat) → (s : State) → s.RingKept (s.poke host pa bs)
  | [], _, s => .refl s
  | b :: rest, pa, s => by
    unfold State.poke
    refine State.RingKept.trans ?_ (ringKept_poke host rest (pa + 1) _)
    split
    · exact ⟨rfl, rfl, rfl⟩
    · split <;> exact ⟨rfl, rfl, rfl⟩

theorem State.ringKept_allocTable (s : State) (bytes : Nat) : s.RingKept (s.allocTable bytes).2 := by
  unfold State.allocTable
  dsimp only
  split <;> exact ⟨rfl, rfl, rfl⟩

theorem State.ringKept_setPteFrom (va : DWord) (target e : Nat) : (lvl base : Nat) → (s : State) →
    s.RingKept (s.setPteFrom base va target e lvl)
  | 0, _, s => .refl s
  | lvl + 1, base, s => by
    unfold State.setPteFrom
    dsimp only
    split
    · exact s.ringKept_poke _ _ _
    · split
      · exact ringKept_setPteFrom va target e lvl _ s
      · exact (s.ringKept_allocTable _).trans ((State.ringKept_poke _ _ _ _).trans (ringKept_setPteFrom va target e lvl _ _))

theorem State.ringKept_undoOut (s : State) (asid va : Nat) : s.RingKept (s.undoOut asid va) := by
  unfold State.undoOut
  exact (State.ringKept_foldl (f := fun s n => s.setFrame n fun f => { f with state := 1 }) (fun _ _ => ⟨rfl, rfl, rfl⟩) _ s).trans
    (State.ringKept_setPteFrom _ _ _ _ _ _)

theorem State.ringKept_claim (s : State) (r : MemRequest) (record : Option (Bool × Nat)) (op : Nat) :
    s.RingKept (s.claim r record op) := by
  unfold State.claim
  dsimp only
  refine State.RingKept.trans (State.ringKept_foldl (fun u e => ?_) _ s) ⟨rfl, rfl, rfl⟩
  exact State.RingKept.trans (b := { u with mreqs := Tab.upd u.mreqs e.1 fun m => { m with retry := true } }) ⟨rfl, rfl, rfl⟩
    (State.ringKept_foldl (fun v p => v.ringKept_undoOut _ _) _ _)

/-- A ring with the record of an index and address marked as read. -/
def State.recordRead (s : State) (host : Bool) (i a : Nat) : State :=
  let s1 : State := { s with fe := { s.fe with nextSeq := s.fe.nextSeq + 1 } }
  let s2 := (s1.fePut host (a + 0x28) (leBytes 8 s.fe.nextSeq)).fePut host (s1.mem.mrBase.toNat + 64) (leBytes 8 (i + 1))
  { s2 with mem := { s2.mem with mrRead := s2.mem.mrRead + 1 } }

theorem State.fePut_host (s : State) (pa : Nat) (bs : List Byte) :
    s.fePut true pa bs = { s with hostMem := Memory.write s.hostMem pa bs } := s.poke_host bs pa

theorem State.recordRead_ring (s : State) (i a : Nat) : (s.recordRead true i a).mem.mrRead = s.mem.mrRead + 1 ∧
    (s.recordRead true i a).mem.mrTail = s.mem.mrTail ∧ (s.recordRead true i a).fe.nextSeq = s.fe.nextSeq + 1 := by
  unfold State.recordRead
  dsimp only
  rw [State.fePut_host, State.fePut_host]
  exact ⟨rfl, rfl, rfl⟩

/-- A request that is accepted, and is no move, listed. -/
def State.listed (s : State) (r : MemRequest) (host : Bool) (a op : Nat) : State :=
  { s.fresh with mreqs := Tab.put s.mreqs s.nextId ⟨r, some (host, a), op, [], false, false, false, none, []⟩ }

/-- The record of an index and address. -/
def State.recordAt (s : State) (host : Bool) (i a : Nat) : MemRequest :=
  let f (o n : Nat) : Nat := s.peek host (a + o) n
  ⟨f 1 1, f 2 2, BitVec.ofNat 64 (f 8 8), BitVec.ofNat 64 (f 0x10 8), BitVec.ofNat 64 (f 0x18 8), BitVec.ofNat 32 (f 0x20 4),
    s.fe.nextSeq, BitVec.ofNat 64 (f 0x30 8), some i⟩

/-- A record accepted once FE has reached its lines. -/
def State.acceptFrom (s : State) (host : Bool) (i a : Nat) : State :=
  let f (o n : Nat) : Nat := s.peek host (a + o) n
  let r := s.recordAt host i a
  let plain := (s.recordRead host i a).listed r host a (f 0 1)
  match reqMsg (f 0 1) r with
  | none => plain.completeReq r 4
  | some m =>
    if f 0x24 4 ≠ 0 ∨ f 0x38 8 ≠ 0 ∨ reqBad r then plain.completeReq r 4
    else if f 0 1 = 6 ∨ f 0 1 = 7 then ((s.recordRead host i a).claim r (some (host, a)) (f 0 1)).send m
    else plain.send m

theorem State.acceptRecord_reached {s0 s : State} {host : Bool} (hh : s0.mrInHost = host)
    (hf : s0.feLines host (s0.mrSlot s0.mem.mrRead.toNat) 64 = s) :
    s0.acceptRecord = s.acceptFrom host s0.mem.mrRead.toNat (s0.mrSlot s0.mem.mrRead.toNat) := by
  unfold State.acceptRecord
  simp only [hh, hf]
  rfl

/-- The next record keeps its rules, and asks for a message. -/
structure State.SoundRecord (s : State) (host : Bool) (i a : Nat) (m : Msg) : Prop where
  msg : reqMsg (s.peek host (a + 0) 1) (s.recordAt host i a) = some m
  zero24 : s.peek host (a + 0x24) 4 = 0
  zero38 : s.peek host (a + 0x38) 8 = 0
  fields : reqBad (s.recordAt host i a) = false

/-- A sound record is accepted with its message. -/
theorem State.acceptFrom_sound {s : State} {host : Bool} {i a : Nat} {m : Msg} (h : s.SoundRecord host i a m) :
    ∃ u, s.acceptFrom host i a = u.send m ∧ (s.recordRead host i a).RingKept u := by
  obtain ⟨hm, h24, h38, hb⟩ := h
  have hn : ¬ (s.peek host (a + 0x24) 4 ≠ 0 ∨ s.peek host (a + 0x38) 8 ≠ 0 ∨ reqBad (s.recordAt host i a) = true) := by
    simp [h24, h38, hb]
  have he : s.acceptFrom host i a = if s.peek host (a + 0) 1 = 6 ∨ s.peek host (a + 0) 1 = 7 then
      ((s.recordRead host i a).claim (s.recordAt host i a) (some (host, a)) (s.peek host (a + 0) 1)).send m
      else ((s.recordRead host i a).listed (s.recordAt host i a) host a (s.peek host (a + 0) 1)).send m := by
    unfold State.acceptFrom
    dsimp only
    rw [hm]
    exact if_neg hn
  split at he
  · exact ⟨_, he, State.ringKept_claim _ _ _ _⟩
  · exact ⟨_, he, ⟨rfl, rfl, rfl⟩⟩

/-- The tail that FE has seen. -/
def State.sawTail (s : State) (tail : DWord) : State :=
  { s with mem := { s.mem with mrTail := if s.mem.mrTail.toNat < tail.toNat then tail else s.mem.mrTail } }

theorem State.sawTail_max (s : State) (tail : DWord) : (s.sawTail tail).mem.mrTail.toNat = max s.mem.mrTail.toNat tail.toNat := by
  change (if s.mem.mrTail.toNat < tail.toNat then tail else s.mem.mrTail).toNat = _
  split <;> omega

theorem mrAccept_host {tail : DWord} {s : State} {m : Msg} (hh : s.mrInHost = true) (ho : s.mrOn = true) (hc : s.mrChanging = false)
    (hl : s.mem.mrRead.toNat < max s.mem.mrTail.toNat tail.toNat) (h : s.SoundRecord true s.mem.mrRead.toNat (s.mrSlot s.mem.mrRead.toNat) m) :
    ∃ s', exec (.mrAccept tail) s = .next s' ∧ m ∈ s'.net ∧ s'.mem.mrRead = s.mem.mrRead + 1 ∧ s'.fe.nextSeq = s.fe.nextSeq + 1 ∧
      s'.mem.mrTail.toNat = max s.mem.mrTail.toNat tail.toNat := by
  rw [← s.sawTail_max tail] at hl ⊢
  obtain ⟨u, hu, hk⟩ := State.acceptFrom_sound (s := s.sawTail tail) (m := m) ⟨h.msg, h.zero24, h.zero38, h.fields⟩
  obtain ⟨hr, ht, hq⟩ := (s.sawTail tail).recordRead_ring s.mem.mrRead.toNat (s.mrSlot s.mem.mrRead.toNat)
  have ha : (s.sawTail tail).acceptRecord = u.send m :=
    (State.acceptRecord_reached (s0 := s.sawTail tail) (s := s.sawTail tail) hh rfl).trans hu
  have hm : mrAccept tail s = if (u.send m).mem.mrRead.toNat < (s.sawTail tail).mem.mrTail.toNat then
      (u.send m).send (.mrAccept (s.sawTail tail).mem.mrTail) else u.send m := by
    rw [← ha]
    unfold mrAccept
    have ht : decide (s.mem.mrRead.toNat < (s.sawTail tail).mem.mrTail.toNat) = true := decide_eq_true hl
    exact if_pos (by rw [ho, hc, Bool.true_and]; exact (Bool.and_true _).trans ht)
  have hin : m ∈ (u.send m).net := List.mem_append_right _ (List.mem_singleton_self m)
  refine ⟨_, congrArg Host.Outcome.next hm, ?_⟩
  split
  · exact ⟨List.mem_append_left _ hin, hk.read.trans hr, hk.seq.trans hq, congrArg BitVec.toNat (hk.tail.trans ht)⟩
  · exact ⟨hin, hk.read.trans hr, hk.seq.trans hq, congrArg BitVec.toNat (hk.tail.trans ht)⟩

/-! ## The ring changed -/

theorem State.unread_iff (s : State) : (s.mrOn && decide (s.mem.mrRead.toNat < s.ringTail)) = true ↔
    s.mrOn = true ∧ s.mem.mrRead.toNat < s.ringTail := by simp

theorem mrbaseWrite_holds {ctl : Bool} {value : DWord} {s : State} (he : ∃ e ∈ s.mreqs, e.2.req.slot ≠ none) (ho : s.mrOn = true)
    (hl : s.mem.mrRead.toNat < s.ringTail) : mrbaseWrite ctl value s = s.hold (.mrbaseWrite ctl value) := by
  have ha : s.mreqs.any (fun e => e.2.req.slot.isSome) = true := by
    obtain ⟨e, hm, hs⟩ := he
    exact List.any_eq_true.mpr ⟨e, hm, Option.isSome_iff_ne_none.mpr hs⟩
  unfold mrbaseWrite
  exact if_pos ⟨s.unread_iff.mpr ⟨ho, hl⟩, ha⟩

/-- A ring in host memory whose records not yet accepted are discarded. -/
def State.discarded (s : State) : State :=
  State.poke { s with
    mem := { s.mem with mrRead := BitVec.ofNat 64 s.ringTail, mrTail := BitVec.ofNat 64 s.ringTail }
    net := s.net.filter fun m => match m with
      | .mrAccept _ => false
      | _ => true } true (s.mem.mrBase.toNat + 64) (leBytes 8 s.ringTail)

theorem State.discarded_ring (s : State) : s.discarded.mem = { s.mem with
    mrRead := BitVec.ofNat 64 s.ringTail, mrTail := BitVec.ofNat 64 s.ringTail } ∧ ∀ t, Msg.mrAccept t ∉ s.discarded.net := by
  unfold State.discarded
  rw [State.poke_host]
  exact ⟨rfl, fun t h => by simp at h⟩

/-- A write to MRBASE or MRCTL that has its effect. -/
def State.ringSet (s : State) (ctl : Bool) (value : DWord) : State :=
  if ctl then { s with mem := { s.mem with mrLog2n := (value.extractLsb' 0 5).toNat } }
  else { s with mem := { s.mem with mrBase := value &&& ~~~127#64 } }

theorem mrbaseWrite_host {ctl : Bool} {value : DWord} {s : State} (hh : s.mrInHost = true) (hn : ∀ e ∈ s.mreqs, e.2.req.slot = none) :
    mrbaseWrite ctl value s = (if s.mrOn && decide (s.mem.mrRead.toNat < s.ringTail) then s.discarded else s).ringSet ctl value := by
  have ha : s.mreqs.any (fun e => e.2.req.slot.isSome) = false := List.any_eq_false.mpr fun e he => by simp [hn e he]
  unfold mrbaseWrite
  rw [if_neg (by rw [ha]; simp), hh]
  rfl

theorem mrbaseWrite_takes {ctl : Bool} {value : DWord} {s : State} (hh : s.mrInHost = true) (hn : ∀ e ∈ s.mreqs, e.2.req.slot = none) :
    ∃ s', exec (.mrbaseWrite ctl value) s = .next s' ∧
      (ctl = true → s'.mem.mrLog2n = value.toNat % 32 ∧ s'.mem.mrBase = s.mem.mrBase) ∧
      (ctl = false → s'.mem.mrBase = value &&& ~~~127#64 ∧ s'.mem.mrLog2n = s.mem.mrLog2n) ∧
      (s.mrOn = true → s.mem.mrRead.toNat < s.ringTail →
        s'.mem.mrRead = BitVec.ofNat 64 s.ringTail ∧ ∀ t, Msg.mrAccept t ∉ s'.net) ∧
      (s.ringTail ≤ s.mem.mrRead.toNat → s'.mem.mrRead = s.mem.mrRead ∧ s'.net = s.net) := by
  obtain ⟨hm, hnet⟩ := s.discarded_ring
  have hread := congrArg MemRegs.mrRead hm
  have hlog := congrArg MemRegs.mrLog2n hm
  have hbase := congrArg MemRegs.mrBase hm
  have hbits : (value.extractLsb' 0 5).toNat = value.toNat % 32 := by simp [BitVec.extractLsb'_toNat]
  refine ⟨_, congrArg Host.Outcome.next (mrbaseWrite_host hh hn), ?_⟩
  by_cases hu : s.mrOn = true ∧ s.mem.mrRead.toNat < s.ringTail
  · rw [if_pos (s.unread_iff.mpr hu)]
    have hlast : s.ringTail ≤ s.mem.mrRead.toNat → False := fun h => by omega
    cases ctl
    · exact ⟨(nomatch ·), fun _ => ⟨rfl, hlog⟩, fun _ _ => ⟨hread, hnet⟩, fun h => (hlast h).elim⟩
    · exact ⟨fun _ => ⟨hbits, hbase⟩, (nomatch ·), fun _ _ => ⟨hread, hnet⟩, fun h => (hlast h).elim⟩
  · rw [if_neg fun h => hu (s.unread_iff.mp h)]
    cases ctl
    · exact ⟨(nomatch ·), fun _ => ⟨rfl, rfl⟩, fun ho hl => (hu ⟨ho, hl⟩).elim, fun _ => ⟨rfl, rfl⟩⟩
    · exact ⟨fun _ => ⟨hbits, rfl⟩, (nomatch ·), fun ho hl => (hu ⟨ho, hl⟩).elim, fun _ => ⟨rfl, rfl⟩⟩

/-- The statement of O46 holds where every ring is in host memory, so that it cannot be refuted. -/
theorem memoryRequests_of_ringInHost (hh : ∀ n, Config.ringInHost n = true) : Obligations.MemoryRequests := by
  refine ⟨⟨fun tail s m r ho hc _ hl hr hm h24 h38 hb => ?_, fun tail s ho => ?_, fun ctl value s hn => mrbaseWrite_takes (hh _) hn,
    fun ctl value s he ho hl => congrArg Host.Outcome.next (mrbaseWrite_holds he ho hl)⟩, requestsComplete⟩
  · subst hr
    have hr : s.mrInHost = true := hh _
    rw [hr] at hm h24 h38 hb
    exact mrAccept_host hr ho hc hl ⟨hm, h24, h38, hb⟩
  · refine ⟨s.sawTail tail, congrArg Host.Outcome.next ?_, rfl, rfl⟩
    unfold mrAccept
    exact if_neg (by simp [ho])

end Sys2Proof.Machine
end

section
/-! SUPPORT. Why O46 is left open, its other half: with a ring at device addresses whose next record lies on two lines of one set it
fails, as is shown here. -/

namespace Sys2Proof.Machine

set_option Elab.async false

namespace Straddle

/-- Two lines of slice 0 that follow one another, and the address of a ring whose first record starts 32 bytes before the second. -/
def fst : Nat := 0x807FFF
def snd : Nat := 0x808000
def base : DWord := 0x403FFF60

/-- The ring's first record is a SETCOLD of address space 1; its first half is in HBM, and its second half is 0, in a line that its home
lists seventeen times (`Crowd.lines`). -/
def ring : State :=
  { Slice0.quiet with
    lines := Crowd.lines snd, hbm := Memory.write [] (128 * fst + 96) [8, 0, 1], copies := []
    mem := { Slice0.quiet.mem with mrBase := base, mrLog2n := 4, mrRead := 0, mrTail := 1 } }

/-- The request that the record asks for. -/
def asked : MemRequest := ⟨0, 1, 0, 0, 0, 0, ring.fe.nextSeq, 0, some 0⟩

/-- The state once FE has reached the record's lines. -/
def reached : State :=
  ((Crowd.entered fst snd ring).reachHome fst Config.feDie).reachHome snd Config.feDie

theorem feLines_reached (he : lineSet snd = lineSet fst) : ring.feLines false (128 * fst + 96) 64 = reached := by
  have h1 : ring.enterHome fst = some (Crowd.entered fst snd ring) :=
    Crowd.enterHome_eq (by decide) (by decide) (by decide) he rfl rfl
  have h2 : ((Crowd.entered fst snd ring).reachHome fst Config.feDie).enterHome snd =
      some ((Crowd.entered fst snd ring).reachHome fst Config.feDie) := by
    unfold State.enterHome
    exact if_pos (by decide +kernel)
  have hr : List.range (((128 * fst + 96) % 128 + 64 + 127) / 128) = [0, 1] := by decide
  have hl : (128 * fst + 96) / 128 = fst := by decide
  unfold State.feLines
  rw [if_neg (by decide), hr, hl]
  simp only [List.foldl_cons, List.foldl_nil, Nat.add_zero, h1, Option.getD_some]
  rw [show fst + 1 = snd from rfl, h2]
  rfl

theorem slot_ring : ring.mrSlot ring.mem.mrRead.toNat = 128 * fst + 96 := by decide

theorem mrAccept_ring : mrAccept 1 ring =
    if ring.acceptRecord.mem.mrRead.toNat < (1 : DWord).toNat then ring.acceptRecord.send (.mrAccept 1) else ring.acceptRecord := by
  unfold mrAccept
  exact if_pos (by decide +kernel)

/-- FE takes the record with another ATTR: the one that the second line has once its way has been given up. -/
theorem accepts_another (hr : ring.mrInHost = false) (he : lineSet snd = lineSet fst) :
    Msg.setcold asked ∉ (mrAccept 1 ring).net := by
  rw [mrAccept_ring, State.acceptRecord_reached (s := reached) hr (by rw [slot_ring, feLines_reached he])]
  decide +kernel

end Straddle

open Straddle in
/-- The statement of O46 fails where a ring is at device addresses and two lines share a set, so that it cannot be proved. -/
theorem not_memoryRequests_of_ringOnDevice (hr : Config.ringInHost base.toNat = false) (he : lineSet snd = lineSet fst) :
    ¬ Obligations.MemoryRequests := by
  intro ⟨⟨h, _⟩, _⟩
  have hh : ring.mrInHost = false := hr
  obtain ⟨s', hs, hm, _⟩ := h 1 ring (.setcold asked) asked (by decide) (by decide) (by decide +kernel) (by decide)
    (by rw [hh]; decide +kernel) (by rw [hh]; decide +kernel) (by rw [hh]; decide +kernel) (by rw [hh]; decide +kernel) (by decide)
  obtain rfl : mrAccept 1 ring = s' := Host.Outcome.next.inj hs
  exact accepts_another hh he hm

end Sys2Proof.Machine
end
